-- ==== Sys2Proof/Word.lean ====
section
/-!
DEFINITION. The word types of the QF-2880: a byte, a byte string, and nothing else.  Registers, indices, counters and
addresses are natural numbers kept below their width by the operations that write them (R5, R7, R61).
-/

namespace Sys2Proof

/-- One byte of a memory layout, a digest or a message (R6). -/
abbrev Byte := BitVec 8

/-- A byte string: byte 0 is the one at the lowest address (R6). -/
abbrev Bytes := List Byte

end Sys2Proof
end

