-- ==== Sys2Proof/Syntax.lean ====
section
/-!
DEFINITION. The commands of the QF-2880: one constructor of `Instr` for each row of the table of operations and
events, with the operands the rule of that row names.  Numbers are natural numbers below the width their rule gives.
-/

namespace Sys2Proof

/-- Who makes an access: the requester code of WS_ERR_INFO.SOURCE (R468), the unit or hart, and its world W (R443). -/
structure By where
  source : Nat
  id : Nat
  w : Nat
  deriving DecidableEq, Repr

/-- An access to a set-up register: its physical address, its width in bytes, whether it writes, the value (R11). -/
structure Access where
  addr : Nat
  size : Nat
  write : Bool
  value : Nat
  who : By
  deriving DecidableEq, Repr

/-- Privilege modes of a hart (R248, R256). -/
inductive Mode where
  | u | s | m | vu | vs
  deriving DecidableEq, Repr

/-- What the endpoint answers to a read of host memory (R214 to R218). -/
inductive HostAnswer where
  | data (bytes : Bytes)
  | poisoned
  | timeout
  deriving DecidableEq, Repr

/-- One read of host memory by a running segment: its IOVA, its length and the answer (R215). -/
structure HostRead where
  iova : Nat
  len : Nat
  answer : HostAnswer
  deriving DecidableEq, Repr

/-- A Conos frame (R176). -/
structure Frame where
  kind : Nat
  vc : Nat
  op : Nat
  linkSeq : Nat
  linkAck : Nat
  last : Bool
  poison : Bool
  sync : Bool
  nak : Bool
  dst : Nat
  src : Nat
  window : Nat
  ttl : Nat
  creditVc : Nat
  credit : Nat
  flowSeq : Nat
  arg : Nat
  body : Bytes
  deriving DecidableEq, Repr

/-- A change of the configuration space of a host function (R205, R206, R213, R224). -/
inductive FnChange where
  | vfEnable (on : Bool)
  | numVfs (n : Nat)
  | busMaster (fn : Nat) (on : Bool)
  | powerState (fn : Nat) (d3 : Bool)
  | msixEnable (fn : Nat) (on : Bool)
  | functionMask (fn : Nat) (on : Bool)
  | vectorMask (fn vector : Nat)
  | vectorEntry (fn vector addr data : Nat)
  | readRequestSize (fn code : Nat)
  | tenBitTags (fn : Nat) (on : Bool)
  | linkControl (aspm : Nat)
  deriving DecidableEq, Repr

/-- The atomic operations of Zaamo, Zabha and Zacas (R313). -/
inductive AmoOp where
  | swap | add | and | or | xor | min | max | minu | maxu
  | cas (expected : Nat)
  deriving DecidableEq, Repr

/-- The kinds of access a hart makes (R257). -/
inductive HartOp where
  | fetch | load | store | lr | sc
  | amo (op : AmoOp)
  | cboClean | cboFlush | cboInval | cboZero
  deriving DecidableEq, Repr

/-- The target of a stash hint (R314). -/
inductive Stash where
  | hart (h : Nat)
  | die (d : Nat)
  deriving DecidableEq, Repr

/-- Where a die agent places a stashed line: the L2 of a hart, an open L3 way, or the staging way of an engine (R277, R314). -/
inductive StashWay where
  | l2 (hart : Nat) | open | staging (engine : Nat)
  deriving DecidableEq, Repr

/-- A coherence request: the die agent that sends it (12 for an agent without a cache, R299), the line's number, its
world, and EXCL_OK. -/
structure CohMsg where
  die : Nat
  line : Nat
  who : By
  exclOk : Bool
  deriving DecidableEq, Repr

/-- Where an uncorrectable cache error lies (R289). -/
inductive CachePlace where
  | l1 | l2 | l3 | bank
  deriving DecidableEq, Repr

/-- What the line of an uncorrectable cache error holds (R289). -/
inductive LineKind where
  | clean | dirty | staging | accumulator | tag
  deriving DecidableEq, Repr

/-- One error that a DRAM access or burst meets: the line it is in, the rank, the subchannel and device position, and
whether it was corrected (R375, R376). (DESIGN CHOICE, log 22) -/
structure DevErr where
  line : Nat
  rank : Nat
  sub : Nat
  device : Nat
  corrected : Bool
  deriving DecidableEq, Repr

/-- A NoC flit (R318, R324): the network, the virtual channel, its source and destination stops, its sequence number,
the fall-back route it still has to follow (R327), and its message. -/
structure Flit where
  net : Nat
  vc : Nat
  src : Nat
  dst : Nat
  seq : Nat
  route : List Nat
  data : Nat
  deriving DecidableEq, Repr

/-- A Bilum IDENT message (R347): whether the C-die sent it, and its fields. -/
structure SbIdent where
  fromDie : Bool
  genMax : Nat
  genMin : Nat
  index : Nat
  port : Nat
  width : Nat
  retained : Bool
  hash : Nat
  deriving DecidableEq, Repr

/-- The unit whose asynchronous bridge fails (R330, R334). -/
inductive BridgeOf where
  | port (p : Nat) | tile (t : Nat) | other
  deriving DecidableEq, Repr

/-- What Gunel finds when it runs a start (R511 to R517): which images check out in slots A and B, what BIST finds by C-die,
tile (28 × die + tile) and engine, what the SPDs say of every channel (DIMMs, ranks and GiB of a DIMM), whether DRAM trains
at the full rate and passes its test, the reduced rates that fail to train, the device marks the test leaves (8 × channel +
byte of MC_MARK, and the device), whether saved results verify, whether serials and temperatures match the saved ones,
whether DIMM power was kept, and the measurement and the secure-memory size of the secure-world image.
(DESIGN CHOICE, log 22) -/
structure StartFacts where
  gunelGood : List Bool := [true, true]
  secureGood : List Bool := [true, true]
  hdieGood : Bool := true
  dieGood : List Bool := List.replicate 12 true
  tileGood : List Bool := List.replicate 336 true
  engineGood : List Bool := List.replicate 24 true
  dimms : Nat := 1
  ranks : Nat := 2
  gib : Nat := 256
  dramGood : Bool := true
  untrained : List Nat := []
  marks : List (Nat × Nat) := []
  verified : Bool := true
  dimmsMatch : Bool := true
  dimmPower : Bool := true
  measurement : Bytes := []
  secureTop : Nat := 1
  deriving DecidableEq, Repr

/-- The commands the block takes, one per row of the table of operations and events. (DESIGN CHOICE, log 22 and 95) -/
inductive Instr where
  /-- BEAT_BOUNDARY (R38): A beat token edge ends the beat timer; the H-die and engines carry out the ordered
  boundary steps. -/
  | beatBoundary (power : List Nat) (temps : List Nat) (slacks : List Int) (queues : List (Nat × Nat))
  /-- PHASE_BOUNDARY (R29): The phase timer reaches the next phase boundary of the current beat. -/
  | phaseBoundary (power : List Nat) (temps : List Nat) (slacks : List Int) (queues : List (Nat × Nat))
  /-- WINDOW_BOUNDARY (R84): At a beat whose count is a multiple of 256, a share window ends and E, V, S, T, N and
  the function credits are recomputed. -/
  | windowBoundary
  /-- BEAT_TOKEN_RECEIVED (R33): A C-die receives a full or short beat token on a Bilum sideband and checks its
  count against its own counter. -/
  | beatTokenReceived (die : Nat) (full : Bool) (count : Nat) (len : Nat) (inst : Nat) (check : Nat) (skew : Nat)
  /-- TOKEN_MISSING (R33): Neither port delivers a valid token at an expected edge; the die counts the beat itself,
  and after 2 beats it stops dispatch and reports itself. -/
  | tokenMissing (die : Nat)
  /-- BEAT_MASTER_SELF_CHECK_ERROR (R35): A beat-master instance reports a self-check error and is fenced within one
  phase, with the twin becoming active if needed. -/
  | beatMasterSelfCheckError (b : Nat)
  /-- CMP_MISMATCH (R35): The comparator reports a mismatch with no self-check error; the active instance is kept
  and the other fenced. -/
  | cmpMismatch
  /-- REGISTER_WRITE (R573): A write of a set-up register without a row of its own writes each field under its
  access code. -/
  | registerWrite (acc : Access)
  /-- WORK_PI (R65): A WORK_PI doorbell write to a work ring is taken in arrival order and replaces an earlier
  unacted value. -/
  | workPi (internal : Bool) (group : Nat) (off : Nat) (width : Nat) (value : Nat)
  /-- CPL_CI (R69): A CPL_CI doorbell write sets the completion ring consumer index, or is discarded with DB_RANGE
  when out of range. -/
  | cplCi (internal : Bool) (group : Nat) (off : Nat) (width : Nat) (value : Nat)
  /-- DESCRIPTOR_FETCH (R66): The ring engine issues a descriptor fetch for a ring once the fetch cap, a free job
  context, DEPTH and completion-ring space allow. -/
  | descriptorFetch (ring : Nat)
  /-- DESCRIPTOR_READ_DONE (R73): A fetched descriptor arrives; the ring engine copies it to a job context, advances
  WR_CI and checks the descriptor, sillage range and key slot. -/
  | descriptorReadDone (ring : Nat)
  /-- PARAM_BLOCK_READ_DONE (R73): A job's parameter block arrives and is checked in ascending offset, completing
  the job at once on the first failure. -/
  | paramBlockReadDone (job : Nat)
  /-- SEGMENT_FINISH (R43): The system cache accepts a running segment's last output write, so the segment is
  finished. -/
  | segmentFinish (engine : Nat)
  /-- COAL_BEATS_EXPIRY (R77): At a boundary where the oldest uncovered record is COAL_BEATS old, the completion
  ring signals its interrupt. -/
  | coalBeatsExpiry (ring : Nat)
  /-- MSIX_VECTOR_UNMASK (R78): Unmasking a masked MSI-X vector with its pending bit set sends the pending message.
  -/
  | msixVectorUnmask (fn : Nat) (vector : Nat)
  /-- RE_IND_READ (R94): RE_IND_CMD with OP read fills the data registers with a ring or function context. -/
  | reIndRead (target : Nat) (index : Nat)
  /-- RE_IND_WRITE_RING (R95): RE_IND_CMD with OP write to a ring context applies it or fails with RING_ACTIVE or
  VALUE_INVALID; setting ENABLE zeroes the indices. -/
  | reIndWriteRing (index : Nat)
  /-- RE_IND_WRITE_FUNCTION (R96): RE_IND_CMD with OP write to a function context applies it or fails with
  VALUE_INVALID. -/
  | reIndWriteFunction (index : Nat)
  /-- ENGINE_READ_DATA (R98): Data read by a running segment arrives at its engine, which runs the job's enabled
  stages on it. -/
  | engineReadData (engine : Nat) (inp : List HostRead)
  /-- ACC_WR (R140): An accumulate write reaches its home bank, which writes the masked bytes to DST and folds them
  into the region as one operation. -/
  | accWr (engine : Nat)
  /-- CLOSE (R141): A CLOSE reaches the accumulate units, which copy and zero the region, hash the parity payloads
  and return FRAG_HASH for the parity headers. -/
  | close (engine : Nat)
  /-- SIGN_REQUEST (R458): A closing segment asks the signing service to sign a manifest root, which is refused
  while restarting or not SIGN_READY. -/
  | signRequest (engine : Nat)
  /-- SIGNATURE_RETURN (R125): The signing service returns the deterministic ECDSA signature to the closing segment.
  -/
  | signatureReturn (engine : Nat)
  /-- ACCUM_REGION_ALLOCATE (R138): A waiting job is allocated its accumulator region in waiting order once its
  banks have the free lines. -/
  | accumRegionAllocate
  /-- ACCUM_RESTORE_DONE (R145): The accumulate units finish restoring a replayed segment's region and release its
  held folds. -/
  | accumRestoreDone (job : Nat)
  /-- ACCUM_LINE_UNCORRECTABLE (R147): An accumulator line suffers an uncorrectable error, so its region is to be
  rebuilt. -/
  | accumLineUncorrectable (job : Nat)
  /-- CN_PORT_ENABLE (R174): A write of 1 to CN_PORT_CTRL.ENABLE starts training of a Conos port. -/
  | cnPortEnable (port : Nat)
  /-- CONOS_TRAINING_STEP_DONE (R174): A Conos training step ends, passing to the next step or failing into a retry.
  -/
  | conosTrainingStepDone (port : Nat) (ok : Bool)
  /-- CONOS_TRAINING_RETRY_TIMER (R174): The 10 ms wait after a failed training step ends and training restarts at
  step 1. -/
  | conosTrainingRetryTimer (port : Nat)
  /-- IDENT (R175): A Conos IDENT frame arrives and is checked for package ID conflict and protocol version. -/
  | ident (port : Nat) (pkg : Nat) (peerPort : Nat) (version : Nat) (len : Nat)
  /-- CONOS_FRAME_RECEIVED (R178): A Conos frame arrives and is accepted only with the expected LINK_SEQ and a good
  CRC, else LINK_NAK is sent. -/
  | conosFrameReceived (port : Nat) (frame : Frame) (crcOk : Bool)
  /-- LINK_NAK (R178): A received LINK_NAK makes the sender resend from the requested frame onwards. -/
  | linkNak (port : Nat) (ack : Nat)
  /-- LINK_ACK_TIMEOUT (R178): LINK_ACK has not advanced for 4 µs and the sender resends; after 8 resends the port
  retrains. -/
  | linkAckTimeout (port : Nat)
  /-- WRITE (R190): A WRITE frame arrives at its destination, is checked against the window and written, stashed or
  refused. -/
  | write (op : Frame)
  /-- READ_REQ (R191): A READ_REQ arrives, is checked against the window and answered with READ_RSP frames. -/
  | readReq (op : Frame)
  /-- READ_RSP (R191): A READ_RSP frame arrives at the requester and delivers read data. -/
  | readRsp (op : Frame)
  /-- PUSH (R193): A PUSH arrives, lands in a free slot and is handed to the media queue engine. -/
  | push (op : Frame)
  /-- PUSH_ACK (R194): A PUSH_ACK arrives and the push's result record is written. -/
  | pushAck (op : Frame)
  /-- OP_NAK (R195): An OP_NAK arrives; the source resends once with REISSUE, retries on WINDOW_FULL, or reports the
  refusal. -/
  | opNak (op : Frame)
  /-- FLOW_ACK (R181): A FLOW_ACK arrives and frees acknowledged frames from the end-to-end store. -/
  | flowAck (peer : Nat) (vc : Nat) (seq : Nat)
  /-- FLOW_NAK (R181): A FLOW_NAK arrives and the source resends from the oldest unacknowledged frame. -/
  | flowNak (peer : Nat) (vc : Nat) (seq : Nat)
  /-- FLOW_ACK_TIMEOUT (R181): FLOW_ACK has not advanced for CN_TIMEOUT.E2E µs; the source resends, and after 8
  resends the flow fails. -/
  | flowAckTimeout (peer : Nat) (vc : Nat)
  /-- ALIGN_REQ (R196): A parent receives ALIGN_REQ and replies with ALIGN_RSP carrying T1, T2 and T3. -/
  | alignReq (port : Nat) (src : Nat) (t1 : Nat) (t2 : Nat) (t3 : Nat)
  /-- ALIGN_RSP (R196): A child receives ALIGN_RSP and computes OFS into BT_ALIGN_OFS, or ignores it on a LEN
  mismatch. -/
  | alignRsp (t1 : Nat) (t2 : Nat) (t3 : Nat) (t4 : Nat) (len : Nat)
  /-- ALIGN_INTERVAL_EXPIRY (R196): Every CN_ALIGN.INTERVAL beats a non-root package sends ALIGN_REQ to its parent.
  -/
  | alignIntervalExpiry (now : Nat)
  /-- CONOS_APERTURE_WRITE (R190): An access writes into the Conos aperture and becomes posted WRITE frames. -/
  | conosApertureWrite (addr : Nat) (data : Bytes) (who : By)
  /-- CONOS_APERTURE_READ (R191): An access reads from the Conos aperture and becomes one READ_REQ. -/
  | conosApertureRead (addr : Nat) (len : Nat) (who : By)
  /-- READ_FAILED (R191): A remote read without response after CN_TIMEOUT.READ returns every line poisoned. -/
  | readFailed (tag : Nat)
  /-- CN_WINDOW_WRITE (R187): CN_IND_CMD writes a window to its shadow entry and sets PENDING, or fails with
  VALUE_INVALID. -/
  | cnWindowWrite (index : Nat)
  /-- CN_ROUTE_WRITE (R183): CN_IND_CMD writes a next-hop entry, which applies at once. -/
  | cnRouteWrite (index : Nat)
  /-- CN_IND_READ (R202): CN_IND_CMD with OP read fills the data registers with a window or route entry. -/
  | cnIndRead (target : Nat) (index : Nat)
  /-- WIN_DRAINED (R188): No operation of an older generation remains, so WIN_DRAINED and CN_EVENT.DRAINED are set.
  -/
  | winDrained (window : Nat)
  /-- PUSH_FULL_WAIT_EXPIRY (R195): A push refused WINDOW_FULL for FULL_WAIT × 256 beats fails. -/
  | pushFullWaitExpiry (tag : Nat)
  /-- PUSH_ACK_TIMEOUT (R195): No PUSH_ACK within ACK_WAIT × 16 ms fails the push with FLOW_FAILED. -/
  | pushAckTimeout (tag : Nat)
  /-- CN_WAKE_SEND (R198): A write of CN_WAKE.SEND drives the wake pattern on a DOWN or FAILED port. -/
  | cnWakeSend (mask : Nat)
  /-- WAKE_PATTERN_END (R198): After 128 µs of wake pattern the port starts training. -/
  | wakePatternEnd (port : Nat)
  /-- WAKE_PATTERN_DETECTED (R199): A lane-0 detector sees 100 µs of wake toggling, sets SEEN and wakes the package
  in Standby or Drydown. -/
  | wakePatternDetected (port : Nat)
  /-- CONOS_LANE_LOSS (R200): A Conos port loses a lane, cable or peer and goes DOWN. -/
  | conosLaneLoss (port : Nat)
  /-- FLR (R223): The host starts an FLR of a function, which stops being enabled and has its rings and tags reset.
  -/
  | flr (fn : Nat)
  /-- FUNCTION_ENABLE_CHANGE (R206): A change of BME, power state, VF Enable, NumVFs or ALLOW enables a function or
  ends its service. -/
  | functionEnableChange (change : FnChange)
  /-- ENDPOINT_RESET (R224): A hot reset, link down or PERST_N ends service of every function. -/
  | endpointReset
  /-- HOST_READ_COMPLETION (R214): A completion for a host read arrives and its bytes are placed; the read is
  complete when all have arrived. -/
  | hostReadCompletion (fn : Nat) (tag : Nat) (off : Nat) (data : Bytes) (poisoned : Bool)
  /-- COMPLETION_TIMEOUT (R217): A host read times out and the ring, job or segment outcome follows by what the read
  was for. -/
  | completionTimeout (fn : Nat) (tag : Nat)
  /-- BAR_WRITE_OUTSIDE (R208): A host write outside defined BAR content or to an internal-pool doorbell is
  discarded with an HF_ERR bit. -/
  | barWriteOutside (fn : Nat) (off : Nat)
  /-- COMPLETION_TIMEOUT_VALUE_WRITE (R216): A write of the Completion Timeout Value selects a timeout, or is
  discarded if reserved. -/
  | completionTimeoutValueWrite (fn : Nat) (enc : Nat)
  /-- L1_IDLE_EXPIRY (R220): After L1_IDLE µs of idleness the endpoint requests ASPM L1. -/
  | l1IdleExpiry
  /-- L0S_IDLE_EXPIRY (R221): After L0S_IDLE × 100 ns without traffic the transmitter enters L0s. -/
  | l0sIdleExpiry
  /-- SPDM_REQUEST (R222): An SPDM request over DOE is answered by the secure world, or with Busy during a restart.
  -/
  | spdmRequest (code : Nat)
  /-- MQ_TARGET_WRITE (R246): MQ_IND_CMD writes a target entry, failing with TARGET_ACTIVE or VALUE_INVALID. -/
  | mqTargetWrite (index : Nat)
  /-- MQ_QP_WRITE (R246): MQ_IND_CMD writes a queue-pair entry. -/
  | mqQpWrite (index : Nat)
  /-- MQ_IND_READ (R246): MQ_IND_CMD with OP read fills the data registers with a target or queue-pair entry. -/
  | mqIndRead (target : Nat) (index : Nat)
  /-- DRIVE_COMPLETION_CAPTURE (R234): A drive's CQ write or MSI reaches the capture page and the engine records the
  completion. -/
  | driveCompletionCapture (qp : Nat) (cid : Nat) (status : Nat) (result : Nat)
  /-- PASS_SQ_DOORBELL (R237): A pass-through SQ tail doorbell write makes the engine check and forward or refuse
  new entries. -/
  | passSqDoorbell (qp : Nat) (tail : Nat)
  /-- PASS_CQ_DOORBELL (R237): A pass-through CQ head doorbell write returns completion entries. -/
  | passCqDoorbell (qp : Nat) (head : Nat)
  /-- MEDIA_COMMAND_TIMEOUT (R243): A command reaches MQ_TIMEOUT.CMD ms, is aborted and reissued after
  reconciliation. -/
  | mediaCommandTimeout (cmd : Nat)
  /-- DRIVE_REMOVED (R244): A drive is removed or its port enters DPC; its targets go offline and commands fail. -/
  | driveRemoved (port : Nat)
  /-- DRIVE_ADDED (R244): Presence is detected on a root port and DRIVE_ADDED is set. -/
  | driveAdded (port : Nat)
  /-- QFWORLD_WRITE (R256): An M-mode write of qfworld changes W, fenced before and after. -/
  | qfworldWrite (hart : Nat) (w : Nat) (pw : Nat)
  /-- QFSILLAGE_WRITE (R259): A write of qfsillage sets the tag, or traps in S-mode when outside qftaglim. -/
  | qfsillageWrite (hart : Nat) (mode : Mode) (value : Nat)
  /-- QFOPP_WRITE (R262): A write of qfopp.REQ takes effect at the next beat boundary. -/
  | qfoppWrite (hart : Nat) (value : Nat)
  /-- CUSTOM_CSR_ILLEGAL (R254): A disallowed access to a Kloesk CSR raises an illegal- or virtual-instruction
  exception. -/
  | customCsrIllegal (hart : Nat) (csr : Nat) (mode : Mode) (isWrite : Bool) (value : Nat)
  /-- TRAP_TO_M_MODE (R256): A trap into M-mode copies W into PW, sets W to 0 and saves an entry record. -/
  | trapToMMode (hart : Nat) (cause : Nat) (mepc : Nat) (mpp : Nat) (mpv : Bool)
  /-- MRET (R256): An MRET copies PW into W and clears the entry record when W becomes 1. -/
  | mret (hart : Nat)
  /-- HART_ACCESS (R257): A hart load, store, atomic or fetch is checked against the watermark and served by its
  caches. -/
  | hartAccess (hart : Nat) (kind : HartOp) (addr : Nat) (size : Nat) (data : Bytes)
  /-- CORE_FAULT (R270): An uncorrectable error in core state fails the hart. -/
  | coreFault (hart : Nat)
  /-- HART_HANG_TIMEOUT (R270): No instruction retires for 10 ms outside WFI with nothing outstanding, so the hart
  fails. -/
  | hartHangTimeout (hart : Nat)
  /-- TAKEOVER_COMPLETE (R266): A spare reaches the reset vector as the hart ID and held MSIs are discarded. -/
  | takeoverComplete (hart : Nat)
  /-- MIGRATION_COMPLETE (R266): The hart runs on the spare and held MSIs are delivered to its files. -/
  | migrationComplete (hart : Nat)
  /-- MSI_DELIVERY (R251): An MSI write reaches an IMSIC file and is delivered, held during a move, or discarded. -/
  | msiDelivery (addr : Nat) (data : Nat) (who : By) (width : Nat)
  /-- STAGING_WAY_EMPTY (R282): The staging way is empty and the engine joins dispatch at the next boundary. -/
  | stagingWayEmpty (engine : Nat)
  /-- ACCUM_WAYS_LOCKED (R283): Ways entering the accumulator lock are emptied and LOCK_BUSY clears. -/
  | accumWaysLocked
  /-- CACHE_UNCORRECTABLE (R289): An uncorrectable error in L3 or the system cache invalidates, poisons or fences.
  -/
  | cacheUncorrectable (place : CachePlace) (unit : Nat) (kind : LineKind) (line : Nat)
  /-- RD_SHARED (R304): A read for sharing reaches the home and is granted S or E after any snoop. -/
  | rdShared (msg : CohMsg)
  /-- RD_UNIQUE (R304): A read for ownership reaches the home and is granted E or M after snoops. -/
  | rdUnique (msg : CohMsg)
  /-- OWN (R305): An ownership request without data reaches the home, served as RD_UNIQUE when the die lost the
  line. -/
  | own (msg : CohMsg) (zero : Bool)
  /-- RD_ONCE (R304): A coherent read from an agent without a cache returns data with no copy kept. -/
  | rdOnce (msg : CohMsg)
  /-- WR_LINE (R304): A masked write from an agent without a cache invalidates copies and merges in the system
  cache. -/
  | wrLine (msg : CohMsg) (stash : Option Stash)
  /-- EVICT (R304): A clean eviction notice reaches the home and is acknowledged with EVC_ACK. -/
  | evict (msg : CohMsg) (empty : Bool)
  /-- WRITEBACK (R304): A dirty line's writeback reaches the home, or is acknowledged STALE when superseded. -/
  | writeback (msg : CohMsg) (empty : Bool)
  /-- AMO (R311): An AMO reaches the home, which executes it far or grants the line by prediction. -/
  | amo (msg : CohMsg) (op : AmoOp) (size : Nat) (offset : Nat) (operand : Nat)
  /-- CMO_CLEAN (R304): A CLEAN CMO writes dirty data into the system cache and keeps a clean copy. -/
  | cmoClean (msg : CohMsg)
  /-- CMO_FLUSH (R304): A FLUSH CMO invalidates every copy up to the system cache. -/
  | cmoFlush (msg : CohMsg)
  /-- CMO_INVAL (R306): An INVAL CMO is performed as a flush. -/
  | cmoInval (msg : CohMsg)
  /-- SNP_SHARED (R307): A die agent answers SNP_SHARED from the line's die state. -/
  | snpShared (die : Nat) (line : Nat)
  /-- SNP_UNIQUE (R307): A die agent answers SNP_UNIQUE by invalidating and sending data. -/
  | snpUnique (die : Nat) (line : Nat)
  /-- SNP_ONCE (R307): A die agent answers SNP_ONCE with a copy and unchanged state. -/
  | snpOnce (die : Nat) (line : Nat)
  /-- SNP_INV (R307): A die agent answers SNP_INV by invalidating and sending dirty data only. -/
  | snpInv (die : Nat) (line : Nat)
  /-- SNP_CLEAN (R307): A die agent answers SNP_CLEAN by sending dirty data and keeping a clean copy. -/
  | snpClean (die : Nat) (line : Nat)
  /-- SNP_STASH (R314): A die agent answers a stash offer with STASH_ACCEPT or STASH_DECLINE. -/
  | snpStash (die : Nat) (line : Nat) (way : StashWay)
  /-- SNP_RESP (R297): The home receives a data-less snoop answer and updates the directory and PRESENT. -/
  | snpResp (die : Nat) (line : Nat)
  /-- SNP_DATA (R308): The home receives a snoop answer with data, writing superseded dirty data into the system
  cache. -/
  | snpData (die : Nat) (line : Nat)
  /-- STASH_ACCEPT (R314): The home receives STASH_ACCEPT and sends DATA granting S. -/
  | stashAccept (die : Nat) (line : Nat)
  /-- STASH_DECLINE (R314): The home receives STASH_DECLINE and the line stays in the system cache. -/
  | stashDecline (die : Nat) (line : Nat)
  /-- COMP (R303): A requester receives COMP for OWN, WR_LINE, ACC_WR, CMO or a far AMO. -/
  | comp (die : Nat) (line : Nat)
  /-- EVC_ACK (R308): A die agent receives EVC_ACK and frees the eviction-buffer entry. -/
  | evcAck (die : Nat) (line : Nat)
  /-- COMP_ACK (R303): The home receives COMP_ACK and the line stops being busy. -/
  | compAck (die : Nat) (line : Nat)
  /-- DATA (R294): A requester receives the line with its granted state and sends COMP_ACK. -/
  | data (die : Nat) (line : Nat) (victim : Option Nat)
  /-- WB_DATA (R304): The home receives the data of a WRITEBACK or offered EVICT. -/
  | wbData (die : Nat) (line : Nat) (bytes : Bytes) (poison : Bool)
  /-- WR_DATA (R299): The home receives the bytes and mask of a WR_LINE or ACC_WR. -/
  | wrData (line : Nat) (bytes : Bytes) (mask : Nat) (poison : Bool)
  /-- LR_SNOOP_HOLD_EXPIRY (R309): After 128 cycles, or at the SC, held snoops for an LR line are answered. -/
  | lrSnoopHoldExpiry (die : Nat) (line : Nat)
  /-- DIRECTORY_ENTRY_UNCORRECTABLE (R429): A directory entry reads uncorrectable; all 8 lines are snooped and it
  becomes NONE. -/
  | directoryEntryUncorrectable (sector : Nat)
  /-- DIRECTORY_WALK_COMPLETE (R432): The background walk applying a die loss to every directory entry ends. -/
  | directoryWalkComplete (die : Nat)
  /-- FLIT_RECEIVED (R324): A router receives a flit, discards it on a bad CRC, acknowledges and forwards it. -/
  | flitReceived (die : Nat) (stop : Nat) (net : Nat) (vc : Nat) (flit : Flit) (crcOk : Bool)
  /-- FLIT_DELIVER (R325): A destination NI delivers flits in SEQ order, holding early flits and discarding
  duplicates. -/
  | flitDeliver (die : Nat) (stop : Nat) (net : Nat) (src : Nat)
  /-- NOC_LINK_FAIL (R328): After 4 failed resends or 128 silent cycles a link is fenced and traffic takes its
  detour. -/
  | nocLinkFail (die : Nat) (link : Nat)
  /-- ROUTER_FENCED (R328): A router parity error fences every link to it. -/
  | routerFenced (die : Nat) (stop : Nat)
  /-- ROUTE_COMPILE_DONE (R328): Gunel finishes new NI and detour tables and the NIs hold changed-route flits at the
  next boundary. -/
  | routeCompileDone (die : Nat)
  /-- ROUTE_TABLE_INSTALL (R328): With detour queues empty, the NIs take the new tables and release held flits. -/
  | routeTableInstall (die : Nat)
  /-- SB_IDENT (R347): An IDENT sideband message arrives and generation and index are checked. -/
  | sbIdent (port : Nat) (msg : SbIdent)
  /-- MAP_ANNOUNCE (R352): A C-die receives MAP_ANNOUNCE and adopts the H-die's width and map. -/
  | mapAnnounce (port : Nat) (width : Nat) (map : List Nat) (wh : Nat)
  /-- MAP_ADOPT (R352): The H-die receives MAP_ADOPT and records any mismatch. -/
  | mapAdopt (port : Nat) (hash : Nat)
  /-- MAP_REJECT (R352): The H-die receives MAP_REJECT and both sides of the port train fully. -/
  | mapReject (port : Nat) (wires : List Nat)
  /-- WIRE_REPORT (R355): The H-die receives a C-die's per-wire pattern error counts. -/
  | wireReport (port : Nat) (dir : Nat) (wire : Nat) (errs : Nat)
  /-- TEST_DONE (R349): A side receives the confirmation result of Bilum training. -/
  | testDone (port : Nat) (ok : Bool)
  /-- CREDIT_INIT (R349): CREDIT_INIT is received and the streams start. -/
  | creditInit (port : Nat)
  /-- SB_MSG_TIMEOUT (R346): No reply within 5 µs makes the H-die resend, failing the port after 8 tries. -/
  | sbMsgTimeout (port : Nat)
  /-- BILUM_FLIT_RECEIVED (R340): A Bilum flit arrives; a bad CRC discards it and later flits and sets NAK. -/
  | bilumFlitReceived (port : Nat) (dir : Nat) (grp : Nat) (crcOk : Bool) (idle : Bool) (cls : Nat)
  /-- BILUM_REPLAY_TIMEOUT (R340): An acknowledgement stalled 64 ns makes the sender resend, failing the port after
  8 resends. -/
  | bilumReplayTimeout (port : Nat) (dir : Nat) (grp : Nat)
  /-- CREDIT_FRAME (R341): A credit frame arrives, returning credits, acknowledgement and NAK, or is ignored on a
  bad CRC. -/
  | creditFrame (port : Nat) (dir : Nat) (word : Nat)
  /-- BILUM_RECAL_SLOT (R354): In phase 4 of every RECAL_BEATS-th beat each port re-measures token delay and re-
  centres its DLLs. -/
  | bilumRecalSlot (port : Nat) (delay : Nat)
  /-- SWAP_LIMIT_REACHED (R355): A wire's pattern errors reach SWAP_LIMIT in a beat, starting a repair. -/
  | swapLimitReached (port : Nat) (dir : Nat) (wire : Nat)
  /-- BLOCK_LOST (R356): A block's forwarded clock has no edge for 16 ns and the port moves to half width. -/
  | blockLost (port : Nat) (dir : Nat) (block : Nat)
  /-- BILUM_PORT_FAIL (R357): A Bilum port fails and its traffic is redirected through the die's other port. -/
  | bilumPortFail (port : Nat)
  /-- BILUM_RETRAIN_TIMER (R357): 10 ms after a port failure it trains fully again, up to 3 attempts. -/
  | bilumRetrainTimer (port : Nat)
  /-- RETRAIN (R359): A write of 1 to BL_CTRL.RETRAIN starts full training at the next boundary when the other port
  is UP. -/
  | retrain (port : Nat)
  /-- CLK_SILENT (R358): Every C-die to H-die forwarded clock of both ports of a die falls silent for 40 ns. -/
  | clkSilent (die : Nat)
  /-- REFRESH_DUE (R367): At tREFI a refresh falls due for a rank and is issued or postponed. -/
  | refreshDue (ch : Nat) (rank : Nat) (busy : Bool)
  /-- MR4_READ (R369): Every 256 beats each rank's MR4 refresh-rate indication is read. -/
  | mr4Read (ch : Nat) (rank : Nat) (twice : Bool)
  /-- DRAM_RECAL_SLOT (R372): In phase 4 of a scheduled beat a channel recalibrates one rank. -/
  | dramRecalSlot (ch : Nat)
  /-- MC_RATE_WRITE (R374): A write of MC_CTRL.RATE schedules a rate change or is discarded with CFG. -/
  | mcRateWrite (ch : Nat) (value : Nat)
  /-- RATE_CHANGE_COMPLETE (R373): Verification ends a rate change and admission resumes. -/
  | rateChangeComplete (failed : List Nat)
  /-- DRAM_READ (R377): DRAM read data returns and is decoded: corrected, uncorrectable or poisoned. -/
  | dramRead (ch : Nat) (line : Nat) (errs : List DevErr) (partner : List DevErr) (deadline : Option Nat)
  /-- DRAM_WRITE (R366): A whole-line write reaches a channel's write queue. -/
  | dramWrite (ch : Nat) (line : Nat) (data : Bytes) (poison : Bool)
  /-- MERGE_BUFFER_WRITE (R383): A partial write at the controller allocates a merge entry and read-modify-writes
  the line. -/
  | mergeBufferWrite (ch : Nat) (line : Nat) (data : Bytes) (mask : Nat)
  /-- CHANNEL_FENCE (R380): A channel failing self-check or not answering is fenced. -/
  | channelFence (ch : Nat)
  /-- SCRUB_BURST (R381): In phase 6 with credit of 8, the scrubber reads 8 consecutive lines. -/
  | scrubBurst (ch : Nat) (errs : List DevErr)
  /-- QT_RESERVE_WRITE (R395): A QT_RESERVE write is accepted if within CAP, or discarded with ADMISSION_DENIED. -/
  | qtReserveWrite (value : Nat)
  /-- STOP_SET (R401): A full channel queue sets STOP within 2 hub cycles. -/
  | stopSet
  /-- STOP_CLEAR (R401): STOP clears when every queue holds 56 entries or fewer. -/
  | stopClear
  /-- ARBITER_CYCLE (R403): An arbiter decides the next cycle's grant by class, wait limit and rotation. -/
  | arbiterCycle (inst : Nat) (port : Nat) (reqs : List Nat) (still : Bool) (unitEnd : Bool) (last : Bool)
  /-- QT_IND_READ (R412): QT_IND_CMD with OP read fills QT_IND_DATA0 with a function or queue-pair entry. -/
  | qtIndRead (target : Nat) (index : Nat)
  /-- QT_IND_WRITE (R412): QT_IND_CMD with OP write sets an arbitration entry or clears HOLD_FLAG. -/
  | qtIndWrite (target : Nat) (index : Nat)
  /-- HA_PAIR_MISMATCH (R436): A home-agent pair's outputs mismatch and the pair stops. -/
  | haPairMismatch (pair : Nat)
  /-- RE_INSTANCE_FAILOVER (R437): A ring-engine instance self-check or disagreement fences one instance. -/
  | reInstanceFailover (inst : Nat) (selfCheck : Bool)
  /-- ENGINE_SRAM_UNCORRECTABLE (R430): An uncorrectable engine SRAM error replays the segment, failing the engine
  on a second within 256 beats. -/
  | engineSramUncorrectable (engine : Nat)
  /-- SELF_TEST_COMPLETE (R438): A unit's self-test ends; the unit returns with TEST_PASSED or is withdrawn. -/
  | selfTestComplete (unitType : Nat) (unit : Nat) (pass : Bool)
  /-- WS_SECURE_TOP_WRITE (R445): A secure write of TOP sets the watermark for the next boundary, or is discarded
  when locked. -/
  | wsSecureTopWrite (value : Nat) (who : By)
  /-- WS_CLAIM_WRITE (R450): A secure write of WS_CLAIM or WS_CLAIM_TILE claims or releases blocks. -/
  | wsClaimWrite (reg : Nat) (value : Nat) (who : By)
  /-- DEBUG_HALT_REQUEST (R453): A halt request is taken, ignored or held pending by world and debug enables. -/
  | debugHaltRequest (hart : Nat)
  /-- WS_KEY_READ (R469): WS_KEY_CMD OP READ places a slot's metadata in WS_KEY_META. -/
  | wsKeyRead (slot : Nat) (who : By)
  /-- LOAD (R455): WS_KEY_CMD OP LOAD loads a key slot's key, type and generation, or fails with VALUE_INVALID. -/
  | load (slot : Nat) (who : By)
  /-- CLEAR (R455): WS_KEY_CMD OP CLEAR sets a key slot's TYPE to empty. -/
  | clear (slot : Nat) (who : By)
  /-- SIGN_KEY (R457): WS_KEY_CMD OP SIGN_KEY loads the sealing key and clears SIGN_READY. -/
  | signKey (who : By)
  /-- SIGN_READY (R457): The signing service publishes the public key and SIGNER_ID and sets SIGN_READY. -/
  | signReady
  /-- SECURE_WATCHDOG_LAPSE (R576): The secure watchdog period passes without KICK and a restart with cause 1
  starts. -/
  | secureWatchdogLapse
  /-- KICK (R576): A secure write of 1 to WS_WDOG.KICK restarts the watchdog period. -/
  | kick (who : By)
  /-- REQ (R459): A secure write of 1 to WS_RESTART.REQ starts a restart with cause 2. -/
  | req (who : By)
  /-- SIGNING_SRAM_UNCORRECTABLE (R459): An uncorrectable error in the signing service SRAM starts a restart with
  cause 4. -/
  | signingSramUncorrectable
  /-- SECURE_IMAGE_LOADED (R459): The image is loaded and the restart identity is sent to every hart's M-level file.
  -/
  | secureImageLoaded (measurement : Bytes)
  /-- DONE (R467): A secure write of 1 to WS_RESTART.DONE after step 4 ends the restart. -/
  | done (who : By)
  /-- SECURE_RESTART_TIMEOUT (R461): A restart not done within 250 ms is counted failed and retried, giving up after
  3. -/
  | secureRestartTimeout
  /-- REFCLK_SYS_LOSS (R472): REFCLK_SYS stops and the whole package stops undetected. -/
  | refclkSysLoss
  /-- REFCLK_RP_LOSS (R472): REFCLK_RP stops and every drive is treated as removed. -/
  | refclkRpLoss
  /-- EP_REFCLK_LOSS (R472): EP_REFCLK stops and the endpoint link goes down. -/
  | epRefclkLoss
  /-- GUNEL_LAPSE (R472): The H-die's watch of Gunel's heartbeat lapses and it reports directly to the error ring.
  -/
  | gunelLapse
  /-- CRYSTAL_COUNT_END (R473): A crystal's fixed stability count ends and its consumers start. -/
  | crystalCountEnd (which : Nat)
  /-- PLL_WAIT_END (R473): A PLL's fixed 20 µs wait ends and the PLL is used. -/
  | pllWaitEnd (which : Nat)
  /-- THERMAL_CRITICAL (R478): A sensor reaches 110 °C and the package stops. -/
  | thermalCritical (die : Nat)
  /-- DROOP (R482): A droop detector stretches the core clock period. -/
  | droop (tile : Nat)
  /-- DROOP_STRETCH_END (R482): 64 cycles after a droop ends the clock stretch ends. -/
  | droopStretchEnd (tile : Nat)
  /-- RUN (R485): PWR_CMD OP RUN leaves Quiet with a rate change to the full rate. -/
  | run (src : Nat)
  /-- QUIET (R485): PWR_CMD OP QUIET caps cores to OPP 0 and starts a rate change to QUIET_RATE. -/
  | quiet (src : Nat)
  /-- STANDBY (R486): PWR_CMD OP STANDBY takes the package to Standby through the entry steps. -/
  | standby (src : Nat)
  /-- DRYDOWN (R486): PWR_CMD OP DRYDOWN takes the package to Drydown. -/
  | drydown (src : Nat)
  /-- GATE (R490): PWR_CMD OP GATE powers down a tile, C-die, channel, signing service or endpoint. -/
  | gate (target : Nat) (index : Nat) (src : Nat)
  /-- UNGATE (R490): PWR_CMD OP UNGATE powers a gated unit up again. -/
  | ungate (target : Nat) (index : Nat) (src : Nat)
  /-- WAKE_SOURCE_FIRE (R488): An enabled wake source fires in Standby or Drydown and starts a warm start. -/
  | wakeSourceFire (src : Nat) (facts : StartFacts)
  /-- TILE_RETENTION_ENTRY (R489): A hart in WFI for TILE_IDLE µs has its tile written back and held in retention.
  -/
  | tileRetentionEntry (tile : Nat)
  /-- TILE_RETENTION_WAKE (R489): An interrupt or halt request wakes a tile from retention. -/
  | tileRetentionWake (tile : Nat)
  /-- GUNEL_WATCHDOG_LAPSE (R496): Gunel's watchdog lapses or an uncorrectable code error occurs and Gunel restarts.
  -/
  | gunelWatchdogLapse
  /-- GUNEL_RESTART_DONE (R496): Gunel runs its image again and RESTARTS rises. -/
  | gunelRestartDone
  /-- SENSOR_SAMPLE (R497): Every 1 ms Gunel samples the sensors of powered domains. -/
  | sensorSample (readings : List Nat)
  /-- LIFETIME_WRITE (R503): Hourly Gunel writes the lifetime record to alternating NOR copies. -/
  | lifetimeWrite
  /-- GET_INFO (R507): Mailbox GET_INFO returns image versions, slots and memory configuration. -/
  | getInfo (secure : Bool) (who : By)
  /-- READ_LOG (R507): Mailbox READ_LOG returns the oldest SRAM log record at or after a SEQ. -/
  | readLog (secure : Bool) (who : By)
  /-- READ_LIFETIME (R507): Mailbox READ_LIFETIME returns 64 bytes of the lifetime record. -/
  | readLifetime (secure : Bool) (who : By)
  /-- READ_SENSOR (R507): Mailbox READ_SENSOR returns a sensor value. -/
  | readSensor (secure : Bool) (who : By)
  /-- QUEUE_TEST (R438): Mailbox QUEUE_TEST queues a unit's self-test. -/
  | queueTest (secure : Bool) (who : By)
  /-- CANCEL_TEST (R439): Mailbox CANCEL_TEST withdraws a queued or deferred test. -/
  | cancelTest (secure : Bool) (who : By)
  /-- POWER (R507): Mailbox POWER carries a PWR_CMD request through Gunel. -/
  | power (secure : Bool) (who : By)
  /-- DIE_RESET (R521): Mailbox DIE_RESET starts a partial reset of a C-die, or fails by status checks. -/
  | dieReset (secure : Bool) (who : By)
  /-- DIE_BIST_DONE (R523): A reset C-die finishes BIST and its tiles, hart IDs and engines return. -/
  | dieBistDone (die : Nat) (tiles : List Bool) (engines : List Bool) (linkOk : Bool)
  /-- SET_MEMCFG (R507): Mailbox SET_MEMCFG replaces the memory configuration in NOR. -/
  | setMemcfg (secure : Bool) (who : By)
  /-- HART_STARTED (R521): Secure mailbox HART_STARTED clears a hart ID's stopped flag. -/
  | hartStarted (secure : Bool) (who : By)
  /-- HART_STOPPED (R521): Secure mailbox HART_STOPPED sets a hart ID's stopped flag. -/
  | hartStopped (secure : Bool) (who : By)
  /-- PLDM_UPDATE (R506): A PLDM Type 5 update writes a component into the inactive slot and verifies it. -/
  | pldmUpdate (comp : Nat) (image : Bytes)
  /-- ACTIVATE_FIRMWARE (R506): ActivateFirmware flips the active slot and restarts Gunel for a Gunel image. -/
  | activateFirmware (comp : Nat)
  /-- HUB_LAPSE (R509): The hub heartbeat stalls 100 µs; Gunel logs a Package-fatal record and asserts FAULT_N. -/
  | hubLapse
  /-- PKG_RESET_RELEASE (R511): Release of package cold reset makes Gunel choose and run a start. -/
  | pkgResetRelease (facts : StartFacts)
  /-- START_STEP_TIMEOUT (R517): A start step passes its bound and the start fails. -/
  | startStepTimeout
  /-- PKG_RESET_ASSERT (R559): PKG_RESET_N is asserted, a PCR in any state. -/
  | pkgResetAssert
  /-- MAIN_PG_RISE (R554): MAIN_PG rises and the package raises RAIL_EN_CD. -/
  | mainPgRise
  /-- CD_PG_RISE (R554): CD_PG rises and the start proceeds with powered C-dies. -/
  | cdPgRise
  /-- POWER_GOOD_TIMEOUT (R556): A power-good does not rise within its bound and the start fails. -/
  | powerGoodTimeout
  /-- RAIL_LOSS (R556): A supply rail is lost in service and is reported, not masked. -/
  | railLoss (rail : Nat)
  /-- VFL_POWER_UP (R526): VFL ramps up and Flacon starts a new epoch after its fixed waits. -/
  | vflPowerUp
  /-- FLACON_SAMPLE (R528): Each of 8,192 samples per second adds V × I to each channel's accumulator; a
  sample is the rail voltage in mV and the shunt drop in nV. -/
  | flaconSample (samples : List (Int × Int))
  /-- XTAL_F_STOP (R535): XTAL_F shows no edge for 1 ms and Flacon stops metering. -/
  | xtalFStop
  /-- XTAL_F_RETURN (R535): XTAL_F returns and Flacon starts a new epoch with a TYPE 3 entry. -/
  | xtalFReturn
  /-- FLACON_CAL_RISE (R532): FLACON_CAL rises and Flacon logs a TYPE 1 entry. -/
  | flaconCalRise
  /-- FLACON_CALIBRATE (R533): A calibration write over I3C while FLACON_CAL is high changes a channel's shunt and
  trims. -/
  | flaconCalibrate (ch : Nat) (shunt : Nat) (gain : Int) (offset : Int)
  /-- FL_GET_INFO (R537): Flacon GET_INFO returns version, serial, epoch and counts. -/
  | flGetInfo (viaI3c : Bool)
  /-- GET_PUBKEY (R537): Flacon GET_PUBKEY returns the meter public key. -/
  | getPubkey (viaI3c : Bool)
  /-- READ_METER (R537): Flacon READ_METER returns a signed meter record. -/
  | readMeter (viaI3c : Bool)
  /-- FL_READ_LOG (R537): Flacon READ_LOG returns a signed log entry or NOT_FOUND. -/
  | flReadLog (viaI3c : Bool)
  /-- FL_MAILBOX_TIMEOUT (R537): Flacon does not answer within 100 ms and the mailbox ends with NOT_READY. -/
  | flMailboxTimeout
  /-- PM_DUMP (R545): At a boundary that is a multiple of EVERY + 1, selected counter sets are sampled and dumped or
  skipped. -/
  | pmDump
  /-- PM_DUMP_ENTRY_WRITTEN (R546): A dump entry's writes complete and PM_DUMP_PI advances past it. -/
  | pmDumpEntryWritten
  /-- USER_COUNTER_READ (R540): A user or guest counter read succeeds or traps by USER_ENABLE and counter enables.
  -/
  | userCounterRead (hart : Nat) (mode : Mode) (csr : Nat)
  /-- PM_PART_WRITE (R541): A PM_PART write that makes the configuration not small clears USER_ENABLE at the next
  boundary. -/
  | pmPartWrite (value : Nat)
  /-- USER_ENABLE_WRITE (R541): A write of USER_ENABLE = 1 is discarded with NOT_SMALL when the configuration is not
  small. -/
  | userEnableWrite (value : Nat)
  /-- PM_DUMP_CI_WRITE (R549): A write of PM_DUMP_CI returns entries or is discarded when out of range. -/
  | pmDumpCiWrite (value : Nat)
  /-- RESERVED_ACCESS (R566): An access to a reserved address faults, reads zero or poison, and is logged. -/
  | reservedAccess (addr : Nat) (who : By) (isRead : Bool)
  /-- OFFLINE_PAGE_ACCESS (R571): An access to a register page of an out-of-service C-die reads held values or
  discards writes. -/
  | offlinePageAccess (acc : Access)
  /-- LINK_UP (R516): The endpoint link finishes training and its data link layer comes up, after which
  configuration space answers and doorbells are recorded. -/
  | linkUp (speed : Nat) (width : Nat) (flit : Bool)
  /-- FLR_COMPLETE (R223): An FLR of a function completes within 20 µs, ending the FLR in progress and IN_FLR. -/
  | flrComplete (fn : Nat)
  /-- SB_SET_FAIL (R343): One Bilum sideband set fails its checks or loses its clock, and the receiver switches to
  the other set and records SB_SET. -/
  | sbSetFail (port : Nat) (set : Nat)
  /-- ALERT_N (R362): A DIMM asserts ALERT_N for a CA parity or write CRC error and the controller replays the
  write, setting MC_ERR.LINK_RETRY. -/
  | alertN (ch : Nat)
  /-- CONTROL_STOP_ERROR (R432): An uncorrectable error in a C-die's control stop causes the H-die to declare the
  die lost, cause 5. -/
  | controlStopError (die : Nat)
  /-- ENGINE_CONTROL_PARITY (R435): A parity error in an engine's control state fails the engine, and its segment
  replays. -/
  | engineControlParity (engine : Nat)
  /-- BRIDGE_PARITY_ERROR (R334): A parity error in an asynchronous bridge sets NOC_ERR.BRIDGE, and the bridge's
  Bilum port or tile is handled as failed. -/
  | bridgeParityError (die : Nat) (bridge : BridgeOf)
  /-- TRACKER_UNCORRECTABLE (R430): An uncorrectable error in a home tracker is handled as a home-agent pair
  failure. -/
  | trackerUncorrectable (pair : Nat)
  /-- ROM_RECOVERY (R505): In ROM recovery, Gunel receives and checks a signed image over the UART. -/
  | romRecovery (image : Bytes)
  deriving DecidableEq, Repr

end Sys2Proof
end

