-- ==== Sys2Proof/Decode.lean ====
section
/-!
DEFINITION. The words of the table of operations and events: no row of it gives bits, so no word spells a command.
-/

namespace Sys2Proof

/-- The command that a word of the table's bits spells: the table gives none of its 254 rows any bits.
(DEDUCED, log 21) -/
def decodeTableWord (_nbits _w : Nat) : Option Instr := none

end Sys2Proof
end

