-- ==== Sys2Proof/Config.lean ====
section
/-!
DEFINITION. What the spec leaves open: constants with no body.  Nothing in Lean can evaluate one or prove a value of
it, so a statement that mentions one holds whatever it is.
-/

namespace Sys2Proof

/-- The n-th free value: what an instruction reads or writes where the spec states no value. The state holds the
counter `n`. (DESIGN CHOICE, log 2) -/
opaque Config.freeNat : Nat → Nat

/-- R111: the compressed form that the engine's match finder gives a block, from the level, the segment size, the
64 KiB of history and the block's content; Kloesk does not specify the match finder. (DEDUCED, log 41) -/
opaque Config.zstdBlock : (level segment : Nat) → (history content : Bytes) → Bytes

/-- R462 to R464: the translation that the in-memory directories of the RISC-V IOMMU Architecture Specification give:
from the ddtp register, the device identifier, the address and whether the access writes, a physical address or a
fault cause. The spec cites that standard and does not repeat its walk. (PRESUMED, log 15) -/
opaque Config.iommuWalk : (ddtp dev iova : Nat) → (write : Bool) → Except Nat Nat

/-- R463: the capabilities register of the IOMMU, in the layout of that standard. (PRESUMED, log 15) -/
opaque Config.iommuCapabilities : Nat

/-- R222: the body of an SPDM answer, from the request code and the three measurement blocks. The spec cites DSP0274
and does not repeat its formats. (PRESUMED, log 53) -/
opaque Config.spdmAnswer : (code : Nat) → (blocks : List Bytes) → Bytes

/-- R505: whether the signature of a firmware image verifies under the Kloesk key of the boot ROM, whose value the
spec does not give. (DEDUCED, log 85) -/
opaque Config.imageGood : Bytes → Bool

/-- R275: the system-cache bank and the set that a line is placed in, and the slice of its die's L3 and the set; the
hashes are not architecturally visible. (DESIGN CHOICE, log 65) -/
opaque Config.scPlace : (line : Nat) → Nat × Nat
opaque Config.l3Place : (line : Nat) → Nat × Nat

/-- R295, R296: the home-agent pair and directory set of a sector, as one number. (DEDUCED, log 64) -/
opaque Config.dirSet : (sector : Nat) → Nat

/-- R311: the predictor entry of a line. (DEDUCED, log 67) -/
opaque Config.amoEntry : (line : Nat) → Nat

/-- R322, R326, R357: what the tables that Gunel writes hold: the gateway stop of a hub quadrant towards another for a
destination, the hub stop of a Bilum port, and which of a C-die's two ports a flit takes. (DESIGN CHOICE, log 13) -/
opaque Config.hubGateway : (quadrant towards dst : Nat) → Nat
opaque Config.hubPortStop : (port : Nat) → Nat
opaque Config.secondPort : (src dst : Nat) → Bool

/-- R327: the detour-table route of a router for an output and a destination. (DESIGN CHOICE, log 13) -/
opaque Config.detour : (stop next dst : Nat) → (fences : List Nat) → List Nat

/-- R507: data register `i` of the answer to GET_INFO, from the images in the four slots, the active slots and the memory
configuration; the spec does not give its layout. (PRESUMED, log 86) -/
opaque Config.infoWord : (i : Nat) → (images : List Bytes) → (gunelSlot secureSlot memcfg : Nat) → Nat

/-- R533: a rail voltage in mV under a channel's voltage gain and offset trims, whose units the spec does not give.
(DEDUCED, log 89) -/
opaque Config.flaconTrim : (gain offset millivolts : Int) → Int

/-- R530, R537: the legal-version identifier of Flacon's ROM, 8 ASCII bytes, and the SHA-384 of the ROM.
(DEDUCED, log 97) -/
opaque Config.flaconVersion : Nat
opaque Config.flaconRomHash : Nat

/-- R543: what a counter shows of events that no command carries, at one moment: the time, the number of the dump, the
messages sent so far, and the counter's key. (DEDUCED, log 92) -/
opaque Config.unseenCount : (time dump sent key : Nat) → Nat

/-- R501: the serial number of the package, and of the DIMM in each slot of each channel. (DEDUCED, log 97) -/
opaque Config.packageSerial : Nat
opaque Config.dimmSerial : (channel slot : Nat) → Nat

end Sys2Proof
end

