-- ==== Sys2Proof/Machine/Bits.lean ====
section
/-!
DEFINITION. Bit fields, little-endian integers, saturation and two's complement (R5, R6), each said once.
-/

namespace Sys2Proof.Machine

/-- Bits [lo + w − 1 : lo] of `n` (R5). -/
def bits (n lo w : Nat) : Nat := n / 2 ^ lo % 2 ^ w

/-- Bit `i` of `n` (R5). -/
def bit (n i : Nat) : Bool := n / 2 ^ i % 2 == 1

/-- `n` with bits [lo + w − 1 : lo] replaced by the low `w` bits of `v`. -/
def putBits (n lo w v : Nat) : Nat :=
  n % 2 ^ lo + v % 2 ^ w * 2 ^ lo + n / 2 ^ (lo + w) * 2 ^ (lo + w)

/-- `n` with bit `i` set. -/
def setBit (n i : Nat) : Nat := if bit n i then n else n + 2 ^ i

/-- `n` with bit `i` cleared. -/
def clearBit (n i : Nat) : Nat := if bit n i then n - 2 ^ i else n

/-- 1 for true, 0 for false: a flag as a register shows it. -/
def ofBool (b : Bool) : Nat := if b then 1 else 0

/-- The number of set bits among the low `w` bits of `n`. -/
def popcount (n w : Nat) : Nat := ((List.range w).filter (bit n)).length

/-- The indices of the set bits among the low `w` bits of `n`, ascending. -/
def setBits (n w : Nat) : List Nat := (List.range w).filter (bit n)

/-- `n + d`, held at the largest value of `w` bits ("saturating"). -/
def satAdd (n d w : Nat) : Nat := min (n + d) (2 ^ w - 1)

/-- `v` moved to the nearer end of `lo` to `hi` ("a value outside acts as the nearer end"). -/
def clamp (lo hi v : Nat) : Nat := max lo (min hi v)

/-- A field whose value 0 acts as `d`. -/
def orDefault (v d : Nat) : Nat := if v == 0 then d else v

/-- The byte string of the `len` lowest bytes of `n`, least significant first (R6). -/
def leBytes : Nat → Nat → Bytes
  | _, 0 => []
  | n, len + 1 => BitVec.ofNat 8 n :: leBytes (n / 256) len

/-- The integer that a little-endian byte string spells (R6). -/
def ofLe : Bytes → Nat
  | [] => 0
  | b :: bs => b.toNat + 256 * ofLe bs

/-- The byte string of the `len` lowest bytes of `n`, most significant first. -/
def beBytes (n len : Nat) : Bytes := (leBytes n len).reverse

/-- The integer that a big-endian byte string spells. -/
def ofBe (bs : Bytes) : Nat := bs.foldl (fun a b => a * 256 + b.toNat) 0

/-- `n` bytes from offset `off`, zeros where the string is shorter. -/
def slice (bs : Bytes) (off n : Nat) : Bytes :=
  let t := (bs.drop off).take n
  t ++ List.replicate (n - t.length) 0

/-- The little-endian field of `n` bytes at offset `off` of a layout (R6). -/
def leAt (bs : Bytes) (off n : Nat) : Nat := ofLe (slice bs off n)

/-- `n` zero bytes. -/
def zeros (n : Nat) : Bytes := List.replicate n 0

/-- `bs` lengthened with zeros to `n` bytes, or cut to `n`. -/
def padTo (bs : Bytes) (n : Nat) : Bytes := bs.take n ++ zeros (n - bs.length)

/-- `bs` lengthened with zeros to a multiple of `m` bytes. -/
def padMul (bs : Bytes) (m : Nat) : Bytes := bs ++ zeros ((m - bs.length % m) % m)

/-- `bs` cut into pieces of `n` bytes, the last one shorter; the fuel is the length. -/
def piecesFuel (n : Nat) : Nat → Bytes → List Bytes
  | 0, _ => []
  | fuel + 1, bs => if bs.isEmpty then [] else bs.take n :: piecesFuel n fuel (bs.drop n)

/-- `bs` cut into pieces of `n` bytes, the last one shorter. -/
def pieces (n : Nat) (bs : Bytes) : List Bytes := piecesFuel n bs.length bs

/-- Bytewise exclusive or; the result has the length of the longer string. -/
def xorBytes : Bytes → Bytes → Bytes
  | a :: as, b :: bs => (a ^^^ b) :: xorBytes as bs
  | [], bs => bs
  | as, [] => as

/-- The integer of the `w`-bit two's complement number `n`. -/
def toSigned (n w : Nat) : Int := if n % 2 ^ w < 2 ^ (w - 1) then (n % 2 ^ w : Nat) else (n % 2 ^ w : Nat) - (2 ^ w : Nat)

/-- The `w`-bit two's complement number of the integer `i`. -/
def ofSigned (i : Int) (w : Nat) : Nat := (i % (2 ^ w : Nat)).toNat

/-- `i` held between `lo` and `hi`. -/
def clampInt (lo hi i : Int) : Int := max lo (min hi i)

/-- Division rounding up. -/
def ceilDiv (a b : Nat) : Nat := (a + b - 1) / b

/-- The distance from `b` to `a` on a wrapping counter of `w` bits (R61). -/
def wrapSub (a b w : Nat) : Nat := (a % 2 ^ w + 2 ^ w - b % 2 ^ w) % 2 ^ w

end Sys2Proof.Machine
end

