-- ==== Sys2Proof/Machine/Gf.lean ====
section
/-!
DEFINITION. The two code fields (R130 to R132) and the checks CRC-8, CRC-16 and CRC-32 that the spec's messages carry.
-/

namespace Sys2Proof.Machine

/-- The product of polynomials over GF(2), reduced modulo `poly` of degree `w`, over the `n` low bits of `b`. -/
def polyMulMod (poly w : Nat) : Nat → Nat → Nat → Nat → Nat
  | 0, _, _, acc => acc
  | n + 1, a, b, acc =>
    let acc' := if b % 2 == 1 then acc ^^^ a else acc
    let a2 := a * 2
    polyMulMod poly w n (if a2 / 2 ^ w % 2 == 1 then a2 ^^^ poly else a2) (b / 2) acc'

/-- The reduction polynomial of a code field: 0 is GF(2^8), 1 is GF(2^16) (R130). -/
def gfPoly (field : Nat) : Nat := if field == 0 then 0x11D else 0x1100B

/-- The width of a symbol in bits (R130). -/
def gfWidth (field : Nat) : Nat := if field == 0 then 8 else 16

/-- The product of two field elements (R132). -/
def gfMul (field a b : Nat) : Nat := polyMulMod (gfPoly field) (gfWidth field) (gfWidth field) a b 0

/-- `a` to the power 2^(n) − 1 times `acc` squared along the way: n squarings with a product each. -/
def gfPowOnes (field : Nat) : Nat → Nat → Nat → Nat
  | 0, _, acc => acc
  | n + 1, sq, acc =>
    let s := gfMul field sq sq
    gfPowOnes field n s (gfMul field acc s)

/-- The inverse of a non-zero element: its power 2^w − 2 (R132). -/
def gfInv (field a : Nat) : Nat := gfPowOnes field (gfWidth field - 1) a 1

/-- One step of a bitwise CRC register of `w` bits, least significant bit first. -/
def crcStepR (poly : Nat) : Nat → Nat → Nat
  | 0, c => c
  | n + 1, c => crcStepR poly n (if c % 2 == 1 then c / 2 ^^^ poly else c / 2)

/-- CRC-32 of IEEE 802.3 (R501). -/
def crc32 (bs : Bytes) : Nat :=
  (bs.foldl (fun c b => crcStepR 0xEDB88320 8 (c ^^^ b.toNat)) 0xFFFFFFFF) ^^^ 0xFFFFFFFF

/-- One step of a bitwise CRC register of `w` bits, most significant bit first. -/
def crcStepL (poly w : Nat) : Nat → Nat → Nat
  | 0, c => c
  | n + 1, c => crcStepL poly w n (if c / 2 ^ (w - 1) % 2 == 1 then (c * 2) % 2 ^ w ^^^ poly else (c * 2) % 2 ^ w)

end Sys2Proof.Machine
end

