-- ==== Sys2Proof/Machine/Regs.lean ====
section
/-!
DEFINITION. Every field of every set-up register (R8 to R14, R570), one constant per row of the spec's register
tables: where it lies, its access code, its reset domain and value, and whether a write of it waits for the beat
boundary (R12) or needs the block quiesced (R13).  A field's value lives in the register store under `Fld.key`; the
key spells the page, the offset, the lowest bit and the reset domain, so that a reset of a domain is a filter of keys.
The fields that HF_FN_SEL and CLK_TRIM_SEL select are stored once per function and once per tile, on pages of their own
above the 128 of R570.
-/

namespace Sys2Proof.Machine

/-- Access codes of a register field (R8). -/
inductive Acc where
  | ro | rw | rw1c | rw1s | wo | rwo | rws | rwl
  deriving DecidableEq, Repr

/-- Reset domains (R14). -/
inductive Dom where
  | pcr | pws | die | flr
  deriving DecidableEq, Repr

/-- The code of a reset domain in a field's key. -/
def Dom.code : Dom → Nat
  | .pcr => 0
  | .pws => 1
  | .die => 2
  | .flr => 3

/-- One register field (R8 to R14). -/
structure Fld where
  page : Nat
  off : Nat
  lo : Nat
  width : Nat
  acc : Acc
  dom : Dom
  reset : Nat
  beat : Bool := false
  quiesced : Bool := false
  secret : Bool := false
  deriving DecidableEq, Repr

/-- The key of a field in the register store: page, offset, lowest bit and reset domain. -/
def Fld.key (f : Fld) : Nat := ((f.page * 4096 + f.off) * 64 + f.lo) * 4 + f.dom.code

/-- The reset domain that a key spells. -/
def keyDom (k : Nat) : Nat := k % 4

/-- The page that a key spells. -/
def keyPage (k : Nat) : Nat := k / 1048576

/-- One register: its offset on the page, its width in bits and its fields (R11). -/
structure Reg where
  off : Nat
  bits : Nat
  fields : List Fld
  deriving DecidableEq, Repr

/-- R570: the register page of the NoC of a die, 0 to 11 the C-dies and 12 the H-die. -/
abbrev nocPage (die : Nat) : Nat := if die == 12 then 15 else 16 + die

/-- The store page of the fields that HF_FN_SEL selects, one per function (R227). -/
abbrev hfFnPage (fn : Nat) : Nat := 1024 + fn

/-- The store page of the fields that CLK_TRIM_SEL selects, one per tile (R492). -/
abbrev clkTrimPage (tile : Nat) : Nat := 2048 + tile

/-! ### The beat (R52 to R56) -/

/-- R52. -/
abbrev BT_CTRL.LEN : Fld :=
  { page := 0, off := 0x0, lo := 0, width := 1, acc := .rw, dom := .pcr, reset := 0, quiesced := true }

/-- R52. -/
abbrev BT_CTRL.ALIGN_EN : Fld :=
  { page := 0, off := 0x0, lo := 1, width := 1, acc := .rw, dom := .pcr, reset := 0, beat := true }

/-- R52. -/
abbrev BT_CTRL.ACTIVE_SEL : Fld :=
  { page := 0, off := 0x0, lo := 2, width := 1, acc := .rw, dom := .pcr, reset := 0, quiesced := true }

/-- R52. -/
abbrev BT_CTRL.SLEW_MAX : Fld :=
  { page := 0, off := 0x0, lo := 8, width := 8, acc := .rw, dom := .pcr, reset := 8, beat := true }

/-- R53. -/
abbrev BT_STATUS.RUN : Fld :=
  { page := 0, off := 0x8, lo := 0, width := 1, acc := .ro, dom := .pcr, reset := 0 }

/-- R53. -/
abbrev BT_STATUS.ACTIVE : Fld :=
  { page := 0, off := 0x8, lo := 1, width := 1, acc := .ro, dom := .pcr, reset := 0 }

/-- R53. -/
abbrev BT_STATUS.FENCED_A : Fld :=
  { page := 0, off := 0x8, lo := 2, width := 1, acc := .ro, dom := .pcr, reset := 0 }

/-- R53. -/
abbrev BT_STATUS.FENCED_B : Fld :=
  { page := 0, off := 0x8, lo := 3, width := 1, acc := .ro, dom := .pcr, reset := 0 }

/-- R53. -/
abbrev BT_STATUS.ENGINES_IDLE : Fld :=
  { page := 0, off := 0x8, lo := 4, width := 1, acc := .ro, dom := .pcr, reset := 1 }

/-- R53. -/
abbrev BT_STATUS.ALIGNED : Fld :=
  { page := 0, off := 0x8, lo := 5, width := 1, acc := .ro, dom := .pcr, reset := 0 }

/-- R54. -/
abbrev BT_COUNT.COUNT : Fld :=
  { page := 0, off := 0x10, lo := 0, width := 64, acc := .ro, dom := .pcr, reset := 0 }

/-- R55. -/
abbrev BT_ERR.CMP_MISMATCH : Fld :=
  { page := 0, off := 0x18, lo := 0, width := 1, acc := .rw1c, dom := .pcr, reset := 0 }

/-- R55. -/
abbrev BT_ERR.SELF_A : Fld :=
  { page := 0, off := 0x18, lo := 1, width := 1, acc := .rw1c, dom := .pcr, reset := 0 }

/-- R55. -/
abbrev BT_ERR.SELF_B : Fld :=
  { page := 0, off := 0x18, lo := 2, width := 1, acc := .rw1c, dom := .pcr, reset := 0 }

/-- R55. -/
abbrev BT_ERR.TOKEN_CHECK : Fld :=
  { page := 0, off := 0x18, lo := 3, width := 1, acc := .rw1c, dom := .pcr, reset := 0 }

/-- R55. -/
abbrev BT_ERR.ALIGN_LOST : Fld :=
  { page := 0, off := 0x18, lo := 4, width := 1, acc := .rw1c, dom := .pcr, reset := 0 }

/-- R55. -/
abbrev BT_ERR.SKEW_LIMIT : Fld :=
  { page := 0, off := 0x18, lo := 5, width := 1, acc := .rw1c, dom := .pcr, reset := 0 }

/-- R56. -/
abbrev BT_ALIGN_OFS.OFS : Fld :=
  { page := 0, off := 0x20, lo := 0, width := 32, acc := .ro, dom := .pcr, reset := 0 }

/-- R56. -/
abbrev BT_SKEW.MAX : Fld :=
  { page := 0, off := 0x28, lo := 0, width := 8, acc := .ro, dom := .pcr, reset := 0 }

/-- R56. -/
abbrev BT_SKEW.DIE : Fld :=
  { page := 0, off := 0x28, lo := 8, width := 5, acc := .ro, dom := .pcr, reset := 0 }

/-! ### Ring engine (R92 to R94) -/

/-- R92. -/
abbrev RE_CTRL.RUN : Fld :=
  { page := 1, off := 0x0, lo := 0, width := 1, acc := .rw, dom := .pws, reset := 0, beat := true }

/-- R92. -/
abbrev RE_STATUS.IDLE : Fld :=
  { page := 1, off := 0x8, lo := 0, width := 1, acc := .ro, dom := .pws, reset := 1 }

/-- R92. -/
abbrev RE_STATUS.ACTIVE : Fld :=
  { page := 1, off := 0x8, lo := 1, width := 1, acc := .ro, dom := .pws, reset := 0 }

/-- R92. -/
abbrev RE_STATUS.FENCED : Fld :=
  { page := 1, off := 0x8, lo := 2, width := 1, acc := .ro, dom := .pws, reset := 0 }

/-- R92. -/
abbrev RE_STATUS.ENGINES : Fld :=
  { page := 1, off := 0x8, lo := 8, width := 5, acc := .ro, dom := .pws, reset := 24 }

/-- R92. -/
abbrev RE_STATUS.WINDOW_BEAT : Fld :=
  { page := 1, off := 0x8, lo := 13, width := 8, acc := .ro, dom := .pws, reset := 0 }

/-- R93. -/
abbrev RE_RESERVE.SLOTS : Fld :=
  { page := 1, off := 0x10, lo := 0, width := 4, acc := .rw, dom := .pcr, reset := 6 }

/-- R93. -/
abbrev RE_RESERVE.WEIGHT : Fld :=
  { page := 1, off := 0x10, lo := 8, width := 8, acc := .rw, dom := .pcr, reset := 1, beat := true }

/-- R93. -/
abbrev RE_ERR.DB_SIZE : Fld :=
  { page := 1, off := 0x18, lo := 0, width := 1, acc := .rw1c, dom := .pws, reset := 0 }

/-- R93. -/
abbrev RE_ERR.DB_RANGE : Fld :=
  { page := 1, off := 0x18, lo := 1, width := 1, acc := .rw1c, dom := .pws, reset := 0 }

/-- R93. -/
abbrev RE_ERR.CR_WRITE : Fld :=
  { page := 1, off := 0x18, lo := 2, width := 1, acc := .rw1c, dom := .pws, reset := 0 }

/-- R93. -/
abbrev RE_ERR.INSTANCE : Fld :=
  { page := 1, off := 0x18, lo := 3, width := 1, acc := .rw1c, dom := .pws, reset := 0 }

/-- R94. -/
abbrev RE_IND_CMD.INDEX : Fld :=
  { page := 1, off := 0x20, lo := 0, width := 13, acc := .rw, dom := .pws, reset := 0 }

/-- R94. -/
abbrev RE_IND_CMD.TARGET : Fld :=
  { page := 1, off := 0x20, lo := 13, width := 1, acc := .rw, dom := .pws, reset := 0 }

/-- R94. -/
abbrev RE_IND_CMD.OP : Fld :=
  { page := 1, off := 0x20, lo := 16, width := 1, acc := .rw, dom := .pws, reset := 0 }

/-- R94. -/
abbrev RE_IND_CMD.STATUS : Fld :=
  { page := 1, off := 0x20, lo := 24, width := 4, acc := .ro, dom := .pws, reset := 0 }

/-- R94. -/
abbrev RE_IND_CMD.GO : Fld :=
  { page := 1, off := 0x20, lo := 31, width := 1, acc := .rw1s, dom := .pws, reset := 0 }

/-- R94. -/
abbrev RE_IND_DATA.DATA (i : Nat) : Fld :=
  { page := 1, off := 0x40 + 8 * i, lo := 0, width := 64, acc := .rw, dom := .pws, reset := 0 }

/-! ### Archive engines (R97) -/

/-- R97. -/
abbrev AE_CTRL.ENABLE (e : Nat) : Fld :=
  { page := 32 + e, off := 0x0, lo := 0, width := 1, acc := .rw, dom := .pcr, reset := 1 }

/-- R97. -/
abbrev AE_STATUS.STATE (e : Nat) : Fld :=
  { page := 32 + e, off := 0x8, lo := 0, width := 3, acc := .ro, dom := .die, reset := 0 }

/-- R97. -/
abbrev AE_STATUS.SUSPECT (e : Nat) : Fld :=
  { page := 32 + e, off := 0x8, lo := 3, width := 1, acc := .ro, dom := .die, reset := 0 }

/-- R97. -/
abbrev AE_STATUS.LATE (e : Nat) : Fld :=
  { page := 32 + e, off := 0x8, lo := 8, width := 24, acc := .ro, dom := .die, reset := 0 }

/-- R97. -/
abbrev AE_ERR.DOUBLE_OVERRUN (e : Nat) : Fld :=
  { page := 32 + e, off := 0x10, lo := 0, width := 1, acc := .rw1c, dom := .die, reset := 0 }

/-- R97. -/
abbrev AE_ERR.NO_FINISH (e : Nat) : Fld :=
  { page := 32 + e, off := 0x10, lo := 1, width := 1, acc := .rw1c, dom := .die, reset := 0 }

/-- R97. -/
abbrev AE_ERR.SELFTEST_FAIL (e : Nat) : Fld :=
  { page := 32 + e, off := 0x10, lo := 2, width := 1, acc := .rw1c, dom := .die, reset := 0 }

/-- R97. -/
abbrev AE_ERR.SRAM_CORRECTED (e : Nat) : Fld :=
  { page := 32 + e, off := 0x10, lo := 3, width := 1, acc := .rw1c, dom := .die, reset := 0 }

/-- R97. -/
abbrev AE_ERR.SRAM_UNCORRECTED (e : Nat) : Fld :=
  { page := 32 + e, off := 0x10, lo := 4, width := 1, acc := .rw1c, dom := .die, reset := 0 }

/-! ### Conos (R201, R202) -/

/-- R201. -/
abbrev CN_CTRL.ENABLE : Fld :=
  { page := 4, off := 0x0, lo := 0, width := 1, acc := .rw, dom := .pcr, reset := 0, quiesced := true }

/-- R201. -/
abbrev CN_CTRL.TTL : Fld :=
  { page := 4, off := 0x0, lo := 8, width := 8, acc := .rw, dom := .pcr, reset := 16 }

/-- R201. -/
abbrev CN_ID.PKG_ID : Fld :=
  { page := 4, off := 0x8, lo := 0, width := 14, acc := .rw, dom := .pcr, reset := 0, quiesced := true }

/-- R201. -/
abbrev CN_TIMEOUT.E2E : Fld :=
  { page := 4, off := 0x10, lo := 0, width := 8, acc := .rw, dom := .pcr, reset := 20 }

/-- R201. -/
abbrev CN_TIMEOUT.READ : Fld :=
  { page := 4, off := 0x10, lo := 8, width := 8, acc := .rw, dom := .pcr, reset := 100 }

/-- R201. -/
abbrev CN_TIMEOUT.FULL_WAIT : Fld :=
  { page := 4, off := 0x10, lo := 16, width := 8, acc := .rw, dom := .pcr, reset := 64 }

/-- R201. -/
abbrev CN_TIMEOUT.ACK_WAIT : Fld :=
  { page := 4, off := 0x10, lo := 24, width := 8, acc := .rw, dom := .pcr, reset := 125 }

/-- R201. -/
abbrev CN_ALIGN.ROOT : Fld :=
  { page := 4, off := 0x18, lo := 0, width := 1, acc := .rw, dom := .pcr, reset := 1 }

/-- R201. -/
abbrev CN_ALIGN.PARENT_PORT : Fld :=
  { page := 4, off := 0x18, lo := 1, width := 2, acc := .rw, dom := .pcr, reset := 0 }

/-- R201. -/
abbrev CN_ALIGN.INTERVAL : Fld :=
  { page := 4, off := 0x18, lo := 8, width := 8, acc := .rw, dom := .pcr, reset := 16, beat := true }

/-- R201. -/
abbrev CN_EVENT.ID_CONFLICT : Fld :=
  { page := 4, off := 0x20, lo := 0, width := 1, acc := .rw1c, dom := .pcr, reset := 0 }

/-- R201. -/
abbrev CN_EVENT.PORT_FAILED : Fld :=
  { page := 4, off := 0x20, lo := 1, width := 1, acc := .rw1c, dom := .pcr, reset := 0 }

/-- R201. -/
abbrev CN_EVENT.FLOW_FAILED : Fld :=
  { page := 4, off := 0x20, lo := 2, width := 1, acc := .rw1c, dom := .pcr, reset := 0 }

/-- R201. -/
abbrev CN_EVENT.REFUSED : Fld :=
  { page := 4, off := 0x20, lo := 3, width := 1, acc := .rw1c, dom := .pcr, reset := 0 }

/-- R201. -/
abbrev CN_EVENT.TTL_EXPIRED : Fld :=
  { page := 4, off := 0x20, lo := 4, width := 1, acc := .rw1c, dom := .pcr, reset := 0 }

/-- R201. -/
abbrev CN_EVENT.NO_ROUTE : Fld :=
  { page := 4, off := 0x20, lo := 5, width := 1, acc := .rw1c, dom := .pcr, reset := 0 }

/-- R201. -/
abbrev CN_EVENT.ALIGN_LEN : Fld :=
  { page := 4, off := 0x20, lo := 6, width := 1, acc := .rw1c, dom := .pcr, reset := 0 }

/-- R201. -/
abbrev CN_EVENT.READ_FAILED : Fld :=
  { page := 4, off := 0x20, lo := 7, width := 1, acc := .rw1c, dom := .pcr, reset := 0 }

/-- R201. -/
abbrev CN_EVENT.DRAINED : Fld :=
  { page := 4, off := 0x20, lo := 8, width := 1, acc := .rw1c, dom := .pcr, reset := 0 }

/-- R201. -/
abbrev CN_EVENT_INFO.PKG : Fld :=
  { page := 4, off := 0x28, lo := 0, width := 14, acc := .ro, dom := .pcr, reset := 0 }

/-- R201. -/
abbrev CN_EVENT_INFO.PORT : Fld :=
  { page := 4, off := 0x28, lo := 14, width := 2, acc := .ro, dom := .pcr, reset := 0 }

/-- R201. -/
abbrev CN_EVENT_INFO.WINDOW : Fld :=
  { page := 4, off := 0x28, lo := 16, width := 10, acc := .ro, dom := .pcr, reset := 0 }

/-- R201. -/
abbrev CN_EVENT_INFO.STATUS : Fld :=
  { page := 4, off := 0x28, lo := 32, width := 3, acc := .ro, dom := .pcr, reset := 0 }

/-- R201. -/
abbrev CN_EVENT_INFO.EVENT : Fld :=
  { page := 4, off := 0x28, lo := 35, width := 5, acc := .ro, dom := .pcr, reset := 0 }

/-- R201. -/
abbrev CN_WAKE.SEND : Fld :=
  { page := 4, off := 0x30, lo := 0, width := 4, acc := .wo, dom := .pcr, reset := 0 }

/-- R201. -/
abbrev CN_WAKE.SENDING : Fld :=
  { page := 4, off := 0x30, lo := 4, width := 4, acc := .ro, dom := .pcr, reset := 0 }

/-- R201. -/
abbrev CN_WAKE.SEEN : Fld :=
  { page := 4, off := 0x30, lo := 8, width := 4, acc := .rw1c, dom := .pcr, reset := 0 }

/-- R201. -/
abbrev CN_MSI_ADDR.ADDR : Fld :=
  { page := 4, off := 0x38, lo := 0, width := 64, acc := .rw, dom := .pcr, reset := 0 }

/-- R201. -/
abbrev CN_MSI_DATA.DATA : Fld :=
  { page := 4, off := 0x40, lo := 0, width := 32, acc := .rw, dom := .pcr, reset := 0 }

/-- R201. -/
abbrev CN_PORT_CTRL.ENABLE (n : Nat) : Fld :=
  { page := 4, off := 0x100 + 0x20 * n, lo := 0, width := 1, acc := .rw, dom := .pcr, reset := 0 }

/-- R201. -/
abbrev CN_PORT_CTRL.MEDIUM (n : Nat) : Fld :=
  { page := 4, off := 0x100 + 0x20 * n, lo := 1, width := 1, acc := .rw, dom := .pcr, reset := 0, quiesced := true }

/-- R201. -/
abbrev CN_PORT_CTRL.RETRIES (n : Nat) : Fld :=
  { page := 4, off := 0x100 + 0x20 * n, lo := 4, width := 4, acc := .rw, dom := .pcr, reset := 3 }

/-- R201. -/
abbrev CN_PORT_STATUS.STATE (n : Nat) : Fld :=
  { page := 4, off := 0x108 + 0x20 * n, lo := 0, width := 3, acc := .ro, dom := .pws, reset := 0 }

/-- R201. -/
abbrev CN_PORT_STATUS.STEP (n : Nat) : Fld :=
  { page := 4, off := 0x108 + 0x20 * n, lo := 3, width := 3, acc := .ro, dom := .pws, reset := 0 }

/-- R201. -/
abbrev CN_PORT_STATUS.PEER_PKG (n : Nat) : Fld :=
  { page := 4, off := 0x108 + 0x20 * n, lo := 16, width := 14, acc := .ro, dom := .pws, reset := 0 }

/-- R201. -/
abbrev CN_PORT_STATUS.PEER_PORT (n : Nat) : Fld :=
  { page := 4, off := 0x108 + 0x20 * n, lo := 30, width := 2, acc := .ro, dom := .pws, reset := 0 }

/-- R201. -/
abbrev CN_PORT_CNT.RESENDS (n : Nat) : Fld :=
  { page := 4, off := 0x110 + 0x20 * n, lo := 0, width := 32, acc := .ro, dom := .pws, reset := 0 }

/-- R201. -/
abbrev CN_PORT_CNT.CORRECTED (n : Nat) : Fld :=
  { page := 4, off := 0x110 + 0x20 * n, lo := 32, width := 32, acc := .ro, dom := .pws, reset := 0 }

/-- R202. -/
abbrev CN_IND_DATA.DATA (i : Nat) : Fld :=
  { page := 4, off := 0x50 + 8 * i, lo := 0, width := 64, acc := .rw, dom := .pws, reset := 0 }

/-- R202. -/
abbrev CN_IND_CMD.INDEX : Fld :=
  { page := 4, off := 0x48, lo := 0, width := 14, acc := .rw, dom := .pws, reset := 0 }

/-- R202. -/
abbrev CN_IND_CMD.TARGET : Fld :=
  { page := 4, off := 0x48, lo := 14, width := 1, acc := .rw, dom := .pws, reset := 0 }

/-- R202. -/
abbrev CN_IND_CMD.OP : Fld :=
  { page := 4, off := 0x48, lo := 16, width := 1, acc := .rw, dom := .pws, reset := 0 }

/-- R202. -/
abbrev CN_IND_CMD.STATUS : Fld :=
  { page := 4, off := 0x48, lo := 24, width := 4, acc := .ro, dom := .pws, reset := 0 }

/-- R202. -/
abbrev CN_IND_CMD.GO : Fld :=
  { page := 4, off := 0x48, lo := 31, width := 1, acc := .rw1s, dom := .pws, reset := 0 }

/-! ### Host endpoint (R225 to R227) -/

/-- R225. -/
abbrev HF_CTRL.TARGET_SPEED : Fld :=
  { page := 2, off := 0x0, lo := 0, width := 3, acc := .rw, dom := .pcr, reset := 6, quiesced := true }

/-- R225. -/
abbrev HF_CTRL.TOTAL_VFS : Fld :=
  { page := 2, off := 0x0, lo := 8, width := 8, acc := .rw, dom := .pcr, reset := 255, quiesced := true }

/-- R225. -/
abbrev HF_CTRL.LINK_EN : Fld :=
  { page := 2, off := 0x0, lo := 16, width := 1, acc := .rw, dom := .pcr, reset := 0 }

/-- R225. -/
abbrev HF_DEVID.BASE : Fld :=
  { page := 2, off := 0x8, lo := 0, width := 24, acc := .rw, dom := .pcr, reset := 0, quiesced := true }

/-- R225. -/
abbrev HF_STATUS.LINK_UP : Fld :=
  { page := 2, off := 0x10, lo := 0, width := 1, acc := .ro, dom := .pcr, reset := 0 }

/-- R225. -/
abbrev HF_STATUS.SPEED : Fld :=
  { page := 2, off := 0x10, lo := 1, width := 3, acc := .ro, dom := .pcr, reset := 0 }

/-- R225. -/
abbrev HF_STATUS.WIDTH : Fld :=
  { page := 2, off := 0x10, lo := 4, width := 5, acc := .ro, dom := .pcr, reset := 0 }

/-- R225. -/
abbrev HF_STATUS.FLIT : Fld :=
  { page := 2, off := 0x10, lo := 9, width := 1, acc := .ro, dom := .pcr, reset := 0 }

/-- R225. -/
abbrev HF_STATUS.LSTATE : Fld :=
  { page := 2, off := 0x10, lo := 10, width := 3, acc := .ro, dom := .pcr, reset := 5 }

/-- R225. -/
abbrev HF_STATUS.NUM_VFS : Fld :=
  { page := 2, off := 0x10, lo := 16, width := 8, acc := .ro, dom := .pcr, reset := 0 }

/-- R226. -/
abbrev HF_PM.L1_IDLE : Fld :=
  { page := 2, off := 0x18, lo := 0, width := 16, acc := .rw, dom := .pcr, reset := 64 }

/-- R226. -/
abbrev HF_PM.L0S_IDLE : Fld :=
  { page := 2, off := 0x18, lo := 16, width := 8, acc := .rw, dom := .pcr, reset := 10 }

/-- R226. -/
abbrev HF_ERR.DB_POOL : Fld :=
  { page := 2, off := 0x20, lo := 0, width := 1, acc := .rw1c, dom := .pcr, reset := 0 }

/-- R226. -/
abbrev HF_ERR.DB_RESERVED : Fld :=
  { page := 2, off := 0x20, lo := 1, width := 1, acc := .rw1c, dom := .pcr, reset := 0 }

/-- R226. -/
abbrev HF_ERR.VECTOR_RANGE : Fld :=
  { page := 2, off := 0x20, lo := 2, width := 1, acc := .rw1c, dom := .pcr, reset := 0 }

/-- R226. -/
abbrev HF_ERR.UNEXPECTED_CPL : Fld :=
  { page := 2, off := 0x20, lo := 3, width := 1, acc := .rw1c, dom := .pcr, reset := 0 }

/-- R226. -/
abbrev HF_ERR.POISON_RX : Fld :=
  { page := 2, off := 0x20, lo := 4, width := 1, acc := .rw1c, dom := .pcr, reset := 0 }

/-- R226. -/
abbrev HF_ERR.CPL_TIMEOUT : Fld :=
  { page := 2, off := 0x20, lo := 5, width := 1, acc := .rw1c, dom := .pcr, reset := 0 }

/-- R226. -/
abbrev HF_ERR_INFO.FUNCTION : Fld :=
  { page := 2, off := 0x28, lo := 0, width := 8, acc := .ro, dom := .pcr, reset := 0 }

/-- R226. -/
abbrev HF_ERR_INFO.RING : Fld :=
  { page := 2, off := 0x28, lo := 8, width := 5, acc := .ro, dom := .pcr, reset := 0 }

/-- R226. -/
abbrev HF_ERR_INFO.EVENT : Fld :=
  { page := 2, off := 0x28, lo := 16, width := 5, acc := .ro, dom := .pcr, reset := 0 }

/-- R227. -/
abbrev HF_FN_SEL.FUNCTION : Fld :=
  { page := 2, off := 0x30, lo := 0, width := 8, acc := .rw, dom := .pcr, reset := 0 }

/-- R227. -/
abbrev HF_FN_CTRL.ALLOW (fn : Nat) : Fld :=
  { page := hfFnPage fn, off := 0x38, lo := 0, width := 1, acc := .rw, dom := .pcr, reset := 0 }

/-- R227. -/
abbrev HF_FN_STATUS.ENABLED (fn : Nat) : Fld :=
  { page := hfFnPage fn, off := 0x40, lo := 0, width := 1, acc := .ro, dom := .pcr, reset := 0 }

/-- R227. -/
abbrev HF_FN_STATUS.BME (fn : Nat) : Fld :=
  { page := hfFnPage fn, off := 0x40, lo := 1, width := 1, acc := .ro, dom := .pcr, reset := 0 }

/-- R227. -/
abbrev HF_FN_STATUS.IN_FLR (fn : Nat) : Fld :=
  { page := hfFnPage fn, off := 0x40, lo := 2, width := 1, acc := .ro, dom := .pcr, reset := 0 }

/-- R227. -/
abbrev HF_FN_STATUS.D3 (fn : Nat) : Fld :=
  { page := hfFnPage fn, off := 0x40, lo := 3, width := 1, acc := .ro, dom := .pcr, reset := 0 }

/-- R227. -/
abbrev HF_FN_STATUS.TAGS (fn : Nat) : Fld :=
  { page := hfFnPage fn, off := 0x40, lo := 4, width := 10, acc := .ro, dom := .pcr, reset := 0 }

/-! ### Media queues (R245, R246) -/

/-- R245. -/
abbrev MQ_CTRL.ENABLE : Fld :=
  { page := 3, off := 0x0, lo := 0, width := 1, acc := .rw, dom := .pcr, reset := 0 }

/-- R245. -/
abbrev MQ_QUAD.MODE (q : Nat) : Fld :=
  { page := 3, off := 0x8, lo := 2 * q, width := 2, acc := .rw, dom := .pcr, reset := 0, quiesced := true }

/-- R245. -/
abbrev MQ_STATUS.IDLE : Fld :=
  { page := 3, off := 0x10, lo := 0, width := 1, acc := .ro, dom := .pws, reset := 1 }

/-- R245. -/
abbrev MQ_LINK.UP : Fld :=
  { page := 3, off := 0x18, lo := 0, width := 32, acc := .ro, dom := .pws, reset := 0 }

/-- R245. -/
abbrev MQ_TIMEOUT.CMD : Fld :=
  { page := 3, off := 0x20, lo := 0, width := 16, acc := .rw, dom := .pcr, reset := 8000 }

/-- R245. -/
abbrev MQ_TIMEOUT.RETRIES : Fld :=
  { page := 3, off := 0x20, lo := 16, width := 4, acc := .rw, dom := .pcr, reset := 3 }

/-- R245. -/
abbrev MQ_EVENT.DRIVE_REMOVED : Fld :=
  { page := 3, off := 0x28, lo := 0, width := 1, acc := .rw1c, dom := .pcr, reset := 0 }

/-- R245. -/
abbrev MQ_EVENT.DRIVE_ADDED : Fld :=
  { page := 3, off := 0x28, lo := 1, width := 1, acc := .rw1c, dom := .pcr, reset := 0 }

/-- R245. -/
abbrev MQ_EVENT.MEDIA_ERROR : Fld :=
  { page := 3, off := 0x28, lo := 2, width := 1, acc := .rw1c, dom := .pcr, reset := 0 }

/-- R245. -/
abbrev MQ_EVENT.POOL_EMPTY : Fld :=
  { page := 3, off := 0x28, lo := 3, width := 1, acc := .rw1c, dom := .pcr, reset := 0 }

/-- R245. -/
abbrev MQ_EVENT.TIMEOUT : Fld :=
  { page := 3, off := 0x28, lo := 4, width := 1, acc := .rw1c, dom := .pcr, reset := 0 }

/-- R245. -/
abbrev MQ_EVENT.PASS_REFUSED : Fld :=
  { page := 3, off := 0x28, lo := 5, width := 1, acc := .rw1c, dom := .pcr, reset := 0 }

/-- R245. -/
abbrev MQ_EVENT.RECONCILED : Fld :=
  { page := 3, off := 0x28, lo := 6, width := 1, acc := .rw1c, dom := .pcr, reset := 0 }

/-- R245. -/
abbrev MQ_EVENT_INFO.TARGET : Fld :=
  { page := 3, off := 0x30, lo := 0, width := 12, acc := .ro, dom := .pcr, reset := 0 }

/-- R245. -/
abbrev MQ_EVENT_INFO.PORT : Fld :=
  { page := 3, off := 0x30, lo := 12, width := 5, acc := .ro, dom := .pcr, reset := 0 }

/-- R245. -/
abbrev MQ_EVENT_INFO.NVME_STATUS : Fld :=
  { page := 3, off := 0x30, lo := 32, width := 15, acc := .ro, dom := .pcr, reset := 0 }

/-- R245. -/
abbrev MQ_EVENT_INFO.EVENT : Fld :=
  { page := 3, off := 0x30, lo := 47, width := 5, acc := .ro, dom := .pcr, reset := 0 }

/-- R245. -/
abbrev MQ_MSI_ADDR.ADDR : Fld :=
  { page := 3, off := 0x38, lo := 0, width := 64, acc := .rw, dom := .pcr, reset := 0 }

/-- R245. -/
abbrev MQ_MSI_DATA.DATA : Fld :=
  { page := 3, off := 0x40, lo := 0, width := 32, acc := .rw, dom := .pcr, reset := 0 }

/-- R246. -/
abbrev MQ_IND_DATA.DATA (i : Nat) : Fld :=
  { page := 3, off := 0x50 + 8 * i, lo := 0, width := 64, acc := .rw, dom := .pws, reset := 0 }

/-- R246. -/
abbrev MQ_IND_CMD.INDEX : Fld :=
  { page := 3, off := 0x48, lo := 0, width := 13, acc := .rw, dom := .pws, reset := 0 }

/-- R246. -/
abbrev MQ_IND_CMD.TARGET : Fld :=
  { page := 3, off := 0x48, lo := 13, width := 1, acc := .rw, dom := .pws, reset := 0 }

/-- R246. -/
abbrev MQ_IND_CMD.OP : Fld :=
  { page := 3, off := 0x48, lo := 16, width := 1, acc := .rw, dom := .pws, reset := 0 }

/-- R246. -/
abbrev MQ_IND_CMD.STATUS : Fld :=
  { page := 3, off := 0x48, lo := 24, width := 4, acc := .ro, dom := .pws, reset := 0 }

/-- R246. -/
abbrev MQ_IND_CMD.GO : Fld :=
  { page := 3, off := 0x48, lo := 31, width := 1, acc := .rw1s, dom := .pws, reset := 0 }

/-! ### System cache (R290) -/

/-- R290. -/
abbrev SC_CTRL.SC_MODE : Fld :=
  { page := 5, off := 0x0, lo := 0, width := 2, acc := .rw, dom := .pcr, reset := 0, beat := true }

/-- R290. -/
abbrev SC_CTRL.L3_MODE : Fld :=
  { page := 5, off := 0x0, lo := 2, width := 2, acc := .rw, dom := .pcr, reset := 0, beat := true }

/-- R290. -/
abbrev SC_LOCK.ACCUM_WAYS : Fld :=
  { page := 5, off := 0x8, lo := 0, width := 3, acc := .rw, dom := .pcr, reset := 4, quiesced := true }

/-- R290. -/
abbrev SC_STATUS.FENCED : Fld :=
  { page := 5, off := 0x10, lo := 0, width := 8, acc := .ro, dom := .pws, reset := 0 }

/-- R290. -/
abbrev SC_STATUS.REGIONS : Fld :=
  { page := 5, off := 0x10, lo := 8, width := 15, acc := .ro, dom := .pws, reset := 0 }

/-- R290. -/
abbrev SC_STATUS.LOCK_BUSY : Fld :=
  { page := 5, off := 0x10, lo := 23, width := 1, acc := .ro, dom := .pws, reset := 0 }

/-- R290. -/
abbrev SC_LWI.COUNT : Fld :=
  { page := 5, off := 0x18, lo := 0, width := 64, acc := .ro, dom := .pcr, reset := 0 }

/-- R290. -/
abbrev SC_FENCED0.BANK : Fld :=
  { page := 5, off := 0x20, lo := 0, width := 64, acc := .ro, dom := .pws, reset := 0 }

/-- R290. -/
abbrev SC_FENCED1.BANK : Fld :=
  { page := 5, off := 0x28, lo := 0, width := 64, acc := .ro, dom := .pws, reset := 0 }

/-! ### Home agents (R316) -/

/-- R316. -/
abbrev HA_CTRL.AMO_MODE : Fld :=
  { page := 6, off := 0x0, lo := 0, width := 2, acc := .rw, dom := .pcr, reset := 0, beat := true }

/-- R316. -/
abbrev HA_CTRL.EXCL_READ : Fld :=
  { page := 6, off := 0x0, lo := 2, width := 1, acc := .rw, dom := .pcr, reset := 1, beat := true }

/-- R316. -/
abbrev HA_CTRL.STASH_EN : Fld :=
  { page := 6, off := 0x0, lo := 3, width := 1, acc := .rw, dom := .pcr, reset := 1, beat := true }

/-- R316. -/
abbrev HA_STATUS.IN_SERVICE : Fld :=
  { page := 6, off := 0x8, lo := 0, width := 6, acc := .ro, dom := .pcr, reset := 32 }

/-- R316. -/
abbrev HA_STATUS.SPARES : Fld :=
  { page := 6, off := 0x8, lo := 6, width := 2, acc := .ro, dom := .pcr, reset := 2 }

/-- R316. -/
abbrev HA_STATUS.REHOMED : Fld :=
  { page := 6, off := 0x8, lo := 8, width := 8, acc := .ro, dom := .pcr, reset := 0 }

/-- R316. -/
abbrev HA_BINV.COUNT : Fld :=
  { page := 6, off := 0x10, lo := 0, width := 64, acc := .ro, dom := .pcr, reset := 0 }

/-- R316. -/
abbrev HA_STALE.COUNT : Fld :=
  { page := 6, off := 0x18, lo := 0, width := 64, acc := .ro, dom := .pcr, reset := 0 }

/-! ### On-die networks (R334) -/

/-- R334. -/
abbrev NOC_CTRL.EXPRESS_EN (die : Nat) : Fld :=
  { page := nocPage die, off := 0x0, lo := 0, width := 1, acc := .rw, dom := .pcr, reset := 1, quiesced := true }

/-- R334. -/
abbrev NOC_CTRL.HP_BURST (die : Nat) : Fld :=
  { page := nocPage die, off := 0x0, lo := 4, width := 4, acc := .rw, dom := .pcr, reset := 4, beat := true }

/-- R334. -/
abbrev NOC_STATUS.LINKS_FENCED (die : Nat) : Fld :=
  { page := nocPage die, off := 0x8, lo := 0, width := 9, acc := .ro, dom := .die, reset := 0 }

/-- R334. -/
abbrev NOC_STATUS.ROUTERS_FENCED (die : Nat) : Fld :=
  { page := nocPage die, off := 0x8, lo := 9, width := 7, acc := .ro, dom := .die, reset := 0 }

/-- R334. -/
abbrev NOC_STATUS.ROUTE_GEN (die : Nat) : Fld :=
  { page := nocPage die, off := 0x8, lo := 16, width := 16, acc := .ro, dom := .die, reset := 0 }

/-- R334. -/
abbrev NOC_ERR.LINK_REPLAY (die : Nat) : Fld :=
  { page := nocPage die, off := 0x10, lo := 0, width := 1, acc := .rw1c, dom := .die, reset := 0 }

/-- R334. -/
abbrev NOC_ERR.LINK_FENCED (die : Nat) : Fld :=
  { page := nocPage die, off := 0x10, lo := 1, width := 1, acc := .rw1c, dom := .die, reset := 0 }

/-- R334. -/
abbrev NOC_ERR.ROUTER_FENCED (die : Nat) : Fld :=
  { page := nocPage die, off := 0x10, lo := 2, width := 1, acc := .rw1c, dom := .die, reset := 0 }

/-- R334. -/
abbrev NOC_ERR.DUPLICATE (die : Nat) : Fld :=
  { page := nocPage die, off := 0x10, lo := 3, width := 1, acc := .rw1c, dom := .die, reset := 0 }

/-- R334. -/
abbrev NOC_ERR.NO_ROUTE (die : Nat) : Fld :=
  { page := nocPage die, off := 0x10, lo := 4, width := 1, acc := .rw1c, dom := .die, reset := 0 }

/-- R334. -/
abbrev NOC_ERR.BRIDGE (die : Nat) : Fld :=
  { page := nocPage die, off := 0x10, lo := 5, width := 1, acc := .rw1c, dom := .die, reset := 0 }

/-- R334. -/
abbrev NOC_CNT.REPLAYS (die : Nat) : Fld :=
  { page := nocPage die, off := 0x18, lo := 0, width := 32, acc := .ro, dom := .die, reset := 0 }

/-- R334. -/
abbrev NOC_CNT.DUPLICATES (die : Nat) : Fld :=
  { page := nocPage die, off := 0x18, lo := 32, width := 32, acc := .ro, dom := .die, reset := 0 }

/-- R334. -/
abbrev NOC_FENCE.LINK (die i : Nat) : Fld :=
  { page := nocPage die, off := 0x20 + 8 * i, lo := 0, width := 64, acc := .ro, dom := .die, reset := 0 }

/-! ### Bilum (R359 to R361) -/

/-- R359. -/
abbrev BL_CTRL.ENABLE (p : Nat) : Fld :=
  { page := 64 + p, off := 0x0, lo := 0, width := 1, acc := .rw, dom := .pcr, reset := 1, quiesced := true }

/-- R359. -/
abbrev BL_CTRL.ALLOW_HALF (p : Nat) : Fld :=
  { page := 64 + p, off := 0x0, lo := 1, width := 1, acc := .rw, dom := .pcr, reset := 1, quiesced := true }

/-- R359. -/
abbrev BL_CTRL.RETRAIN (p : Nat) : Fld :=
  { page := 64 + p, off := 0x0, lo := 2, width := 1, acc := .wo, dom := .pcr, reset := 0 }

/-- R359. -/
abbrev BL_CTRL.RECAL_BEATS (p : Nat) : Fld :=
  { page := 64 + p, off := 0x0, lo := 4, width := 8, acc := .rw, dom := .pcr, reset := 125, beat := true }

/-- R359. -/
abbrev BL_CTRL.SWAP_LIMIT (p : Nat) : Fld :=
  { page := 64 + p, off := 0x0, lo := 12, width := 8, acc := .rw, dom := .pcr, reset := 4, beat := true }

/-- R359. -/
abbrev BL_STATUS.STATE (p : Nat) : Fld :=
  { page := 64 + p, off := 0x8, lo := 0, width := 3, acc := .ro, dom := .pws, reset := 0 }

/-- R359. -/
abbrev BL_STATUS.WIDTH (p : Nat) : Fld :=
  { page := 64 + p, off := 0x8, lo := 3, width := 2, acc := .ro, dom := .pws, reset := 0 }

/-- R359. -/
abbrev BL_STATUS.STEP (p : Nat) : Fld :=
  { page := 64 + p, off := 0x8, lo := 5, width := 4, acc := .ro, dom := .pws, reset := 0 }

/-- R359. -/
abbrev BL_STATUS.GEN (p : Nat) : Fld :=
  { page := 64 + p, off := 0x8, lo := 9, width := 2, acc := .ro, dom := .pws, reset := 0 }

/-- R359. -/
abbrev BL_STATUS.SB_SET (p : Nat) : Fld :=
  { page := 64 + p, off := 0x8, lo := 11, width := 1, acc := .ro, dom := .pws, reset := 0 }

/-- R359. -/
abbrev BL_STATUS.SPARES_USED (p : Nat) : Fld :=
  { page := 64 + p, off := 0x8, lo := 12, width := 6, acc := .ro, dom := .pws, reset := 0 }

/-- R359. -/
abbrev BL_STATUS.ATTEMPTS (p : Nat) : Fld :=
  { page := 64 + p, off := 0x8, lo := 18, width := 4, acc := .ro, dom := .pws, reset := 0 }

/-- R359. -/
abbrev BL_HASH.HUB (p : Nat) : Fld :=
  { page := 64 + p, off := 0x10, lo := 0, width := 32, acc := .ro, dom := .pcr, reset := 0 }

/-- R359. -/
abbrev BL_HASH.DIE (p : Nat) : Fld :=
  { page := 64 + p, off := 0x10, lo := 32, width := 32, acc := .ro, dom := .pws, reset := 0 }

/-- R359. -/
abbrev BL_TOKEN.DELAY (p : Nat) : Fld :=
  { page := 64 + p, off := 0x48, lo := 0, width := 16, acc := .ro, dom := .pws, reset := 0 }

/-- R360. -/
abbrev BL_MAP_TX0.WIRE (p b : Nat) : Fld :=
  { page := 64 + p, off := 0x18, lo := 8 * b, width := 6, acc := .ro, dom := .pcr, reset := 63 }

/-- R360. -/
abbrev BL_MAP_TX1.WIRE (p b : Nat) : Fld :=
  { page := 64 + p, off := 0x20, lo := 8 * b, width := 6, acc := .ro, dom := .pcr, reset := 63 }

/-- R360. -/
abbrev BL_MAP_RX0.WIRE (p b : Nat) : Fld :=
  { page := 64 + p, off := 0x28, lo := 8 * b, width := 6, acc := .ro, dom := .pcr, reset := 63 }

/-- R360. -/
abbrev BL_MAP_RX1.WIRE (p b : Nat) : Fld :=
  { page := 64 + p, off := 0x30, lo := 8 * b, width := 6, acc := .ro, dom := .pcr, reset := 63 }

/-- R360. -/
abbrev BL_MAP_TX0.LOST (p b : Nat) : Fld :=
  { page := 64 + p, off := 0x18, lo := 8 * b + 6, width := 1, acc := .ro, dom := .pcr, reset := 0 }

/-- R360. -/
abbrev BL_MAP_TX1.LOST (p b : Nat) : Fld :=
  { page := 64 + p, off := 0x20, lo := 8 * b + 6, width := 1, acc := .ro, dom := .pcr, reset := 0 }

/-- R360. -/
abbrev BL_MAP_RX0.LOST (p b : Nat) : Fld :=
  { page := 64 + p, off := 0x28, lo := 8 * b + 6, width := 1, acc := .ro, dom := .pcr, reset := 0 }

/-- R360. -/
abbrev BL_MAP_RX1.LOST (p b : Nat) : Fld :=
  { page := 64 + p, off := 0x30, lo := 8 * b + 6, width := 1, acc := .ro, dom := .pcr, reset := 0 }

/-- R361. -/
abbrev BL_ERR.REPLAY (p : Nat) : Fld :=
  { page := 64 + p, off := 0x38, lo := 0, width := 1, acc := .rw1c, dom := .pws, reset := 0 }

/-- R361. -/
abbrev BL_ERR.SWAP (p : Nat) : Fld :=
  { page := 64 + p, off := 0x38, lo := 1, width := 1, acc := .rw1c, dom := .pws, reset := 0 }

/-- R361. -/
abbrev BL_ERR.HALF (p : Nat) : Fld :=
  { page := 64 + p, off := 0x38, lo := 2, width := 1, acc := .rw1c, dom := .pws, reset := 0 }

/-- R361. -/
abbrev BL_ERR.PORT_FAILED (p : Nat) : Fld :=
  { page := 64 + p, off := 0x38, lo := 3, width := 1, acc := .rw1c, dom := .pws, reset := 0 }

/-- R361. -/
abbrev BL_ERR.CLK_SILENT (p : Nat) : Fld :=
  { page := 64 + p, off := 0x38, lo := 4, width := 1, acc := .rw1c, dom := .pws, reset := 0 }

/-- R361. -/
abbrev BL_ERR.SB_SET (p : Nat) : Fld :=
  { page := 64 + p, off := 0x38, lo := 5, width := 1, acc := .rw1c, dom := .pws, reset := 0 }

/-- R361. -/
abbrev BL_ERR.MAP_MISMATCH (p : Nat) : Fld :=
  { page := 64 + p, off := 0x38, lo := 6, width := 1, acc := .rw1c, dom := .pws, reset := 0 }

/-- R361. -/
abbrev BL_ERR.MAP_REJECT (p : Nat) : Fld :=
  { page := 64 + p, off := 0x38, lo := 7, width := 1, acc := .rw1c, dom := .pws, reset := 0 }

/-- R361. -/
abbrev BL_ERR.INDEX_CONFLICT (p : Nat) : Fld :=
  { page := 64 + p, off := 0x38, lo := 8, width := 1, acc := .rw1c, dom := .pws, reset := 0 }

/-- R361. -/
abbrev BL_ERR.GEN_MISMATCH (p : Nat) : Fld :=
  { page := 64 + p, off := 0x38, lo := 9, width := 1, acc := .rw1c, dom := .pws, reset := 0 }

/-- R361. -/
abbrev BL_CNT.REPLAYS (p : Nat) : Fld :=
  { page := 64 + p, off := 0x40, lo := 0, width := 32, acc := .ro, dom := .pws, reset := 0 }

/-- R361. -/
abbrev BL_CNT.PATTERN_ERRS (p : Nat) : Fld :=
  { page := 64 + p, off := 0x40, lo := 32, width := 32, acc := .ro, dom := .pws, reset := 0 }

/-! ### Memory channels (R385 to R387) -/

/-- R385. -/
abbrev MC_CTRL.MIRROR (c : Nat) : Fld :=
  { page := 96 + c, off := 0x0, lo := 0, width := 1, acc := .rw, dom := .pcr, reset := 0, quiesced := true }

/-- R385. -/
abbrev MC_CTRL.ALLOW_4800 (c : Nat) : Fld :=
  { page := 96 + c, off := 0x0, lo := 1, width := 1, acc := .rw, dom := .pcr, reset := 1, quiesced := true }

/-- R385. -/
abbrev MC_CTRL.ALLOW_3200 (c : Nat) : Fld :=
  { page := 96 + c, off := 0x0, lo := 2, width := 1, acc := .rw, dom := .pcr, reset := 1, quiesced := true }

/-- R385. -/
abbrev MC_CTRL.RATE (c : Nat) : Fld :=
  { page := 96 + c, off := 0x0, lo := 4, width := 2, acc := .rw, dom := .pws, reset := 0, beat := true }

/-- R385. -/
abbrev MC_CTRL.CAL_BEATS (c : Nat) : Fld :=
  { page := 96 + c, off := 0x0, lo := 8, width := 8, acc := .rw, dom := .pcr, reset := 125, beat := true }

/-- R385. -/
abbrev MC_STATUS.STATE (c : Nat) : Fld :=
  { page := 96 + c, off := 0x8, lo := 0, width := 3, acc := .ro, dom := .pws, reset := 0 }

/-- R385. -/
abbrev MC_STATUS.RATE (c : Nat) : Fld :=
  { page := 96 + c, off := 0x8, lo := 3, width := 2, acc := .ro, dom := .pws, reset := 0 }

/-- R385. -/
abbrev MC_STATUS.SET (c : Nat) : Fld :=
  { page := 96 + c, off := 0x8, lo := 5, width := 1, acc := .ro, dom := .pws, reset := 0 }

/-- R385. -/
abbrev MC_STATUS.ALONE (c : Nat) : Fld :=
  { page := 96 + c, off := 0x8, lo := 6, width := 1, acc := .ro, dom := .pws, reset := 0 }

/-- R385. -/
abbrev MC_STATUS.POSTPONED (c : Nat) : Fld :=
  { page := 96 + c, off := 0x8, lo := 8, width := 4, acc := .ro, dom := .pws, reset := 0 }

/-- R385. -/
abbrev MC_STATUS.SIZE (c : Nat) : Fld :=
  { page := 96 + c, off := 0x8, lo := 16, width := 10, acc := .ro, dom := .pcr, reset := 0 }

/-- R385. -/
abbrev MC_STATUS.DIMMS (c : Nat) : Fld :=
  { page := 96 + c, off := 0x8, lo := 26, width := 2, acc := .ro, dom := .pcr, reset := 0 }

/-- R385. -/
abbrev MC_STATUS.RANKS (c : Nat) : Fld :=
  { page := 96 + c, off := 0x8, lo := 28, width := 2, acc := .ro, dom := .pcr, reset := 0 }

/-- R385. -/
abbrev MC_REFRESH.FGR (c : Nat) : Fld :=
  { page := 96 + c, off := 0x10, lo := 0, width := 1, acc := .rw, dom := .pcr, reset := 1, quiesced := true }

/-- R385. -/
abbrev MC_REFRESH.POSTPONE_MAX (c : Nat) : Fld :=
  { page := 96 + c, off := 0x10, lo := 4, width := 4, acc := .rw, dom := .pcr, reset := 8, beat := true }

/-- R385. -/
abbrev MC_ECC.MARK_LIMIT (c : Nat) : Fld :=
  { page := 96 + c, off := 0x18, lo := 0, width := 8, acc := .rw, dom := .pcr, reset := 16, beat := true }

/-- R386. -/
abbrev MC_MARK.DEVICE (c e : Nat) : Fld :=
  { page := 96 + c, off := 0x20, lo := 8 * e, width := 4, acc := .ro, dom := .pcr, reset := 0 }

/-- R386. -/
abbrev MC_MARK.VALID (c e : Nat) : Fld :=
  { page := 96 + c, off := 0x20, lo := 8 * e + 7, width := 1, acc := .ro, dom := .pcr, reset := 0 }

/-- R386. -/
abbrev MC_SCRUB.PASS_HOURS (c : Nat) : Fld :=
  { page := 96 + c, off := 0x28, lo := 0, width := 8, acc := .rw, dom := .pcr, reset := 24, beat := true }

/-- R386. -/
abbrev MC_SCRUB.PASSES (c : Nat) : Fld :=
  { page := 96 + c, off := 0x28, lo := 16, width := 16, acc := .ro, dom := .pcr, reset := 0 }

/-- R386. -/
abbrev MC_SCRUB_POS.LINE (c : Nat) : Fld :=
  { page := 96 + c, off := 0x30, lo := 0, width := 34, acc := .ro, dom := .pcr, reset := 0 }

/-- R387. -/
abbrev MC_ERR.CORRECTED (c : Nat) : Fld :=
  { page := 96 + c, off := 0x38, lo := 0, width := 1, acc := .rw1c, dom := .pws, reset := 0 }

/-- R387. -/
abbrev MC_ERR.UNCORRECTED (c : Nat) : Fld :=
  { page := 96 + c, off := 0x38, lo := 1, width := 1, acc := .rw1c, dom := .pws, reset := 0 }

/-- R387. -/
abbrev MC_ERR.MARKED (c : Nat) : Fld :=
  { page := 96 + c, off := 0x38, lo := 2, width := 1, acc := .rw1c, dom := .pws, reset := 0 }

/-- R387. -/
abbrev MC_ERR.SECOND_DEVICE (c : Nat) : Fld :=
  { page := 96 + c, off := 0x38, lo := 3, width := 1, acc := .rw1c, dom := .pws, reset := 0 }

/-- R387. -/
abbrev MC_ERR.POISON_READ (c : Nat) : Fld :=
  { page := 96 + c, off := 0x38, lo := 4, width := 1, acc := .rw1c, dom := .pws, reset := 0 }

/-- R387. -/
abbrev MC_ERR.LINK_RETRY (c : Nat) : Fld :=
  { page := 96 + c, off := 0x38, lo := 5, width := 1, acc := .rw1c, dom := .pws, reset := 0 }

/-- R387. -/
abbrev MC_ERR.CFG (c : Nat) : Fld :=
  { page := 96 + c, off := 0x38, lo := 6, width := 1, acc := .rw1c, dom := .pws, reset := 0 }

/-- R387. -/
abbrev MC_ERR.TRAIN_FAIL (c : Nat) : Fld :=
  { page := 96 + c, off := 0x38, lo := 7, width := 1, acc := .rw1c, dom := .pws, reset := 0 }

/-- R387. -/
abbrev MC_ERR.FENCED (c : Nat) : Fld :=
  { page := 96 + c, off := 0x38, lo := 8, width := 1, acc := .rw1c, dom := .pws, reset := 0 }

/-- R387. -/
abbrev MC_ERR.MIRROR_REPAIR (c : Nat) : Fld :=
  { page := 96 + c, off := 0x38, lo := 9, width := 1, acc := .rw1c, dom := .pws, reset := 0 }

/-- R387. -/
abbrev MC_ERR_INFO.LINE (c : Nat) : Fld :=
  { page := 96 + c, off := 0x40, lo := 0, width := 34, acc := .ro, dom := .pws, reset := 0 }

/-- R387. -/
abbrev MC_ERR_INFO.RANK (c : Nat) : Fld :=
  { page := 96 + c, off := 0x40, lo := 34, width := 2, acc := .ro, dom := .pws, reset := 0 }

/-- R387. -/
abbrev MC_ERR_INFO.SUBCH (c : Nat) : Fld :=
  { page := 96 + c, off := 0x40, lo := 36, width := 1, acc := .ro, dom := .pws, reset := 0 }

/-- R387. -/
abbrev MC_ERR_INFO.DEVICE (c : Nat) : Fld :=
  { page := 96 + c, off := 0x40, lo := 37, width := 4, acc := .ro, dom := .pws, reset := 0 }

/-- R387. -/
abbrev MC_ERR_INFO.EVENT (c : Nat) : Fld :=
  { page := 96 + c, off := 0x40, lo := 41, width := 5, acc := .ro, dom := .pws, reset := 0 }

/-- R387. -/
abbrev MC_CNT.CORRECTED (c : Nat) : Fld :=
  { page := 96 + c, off := 0x48, lo := 0, width := 32, acc := .ro, dom := .pws, reset := 0 }

/-- R387. -/
abbrev MC_CNT.UNCORRECTED (c : Nat) : Fld :=
  { page := 96 + c, off := 0x48, lo := 32, width := 32, acc := .ro, dom := .pws, reset := 0 }

/-! ### Traffic regulation (R409 to R413) -/

/-- R409. -/
abbrev QT_RESERVE.HP : Fld :=
  { page := 7, off := 0x0, lo := 0, width := 16, acc := .rw, dom := .pcr, reset := 200, beat := true }

/-- R409. -/
abbrev QT_RESERVE.DL_ENG : Fld :=
  { page := 7, off := 0x0, lo := 16, width := 16, acc := .rw, dom := .pcr, reset := 4400, beat := true }

/-- R409. -/
abbrev QT_RESERVE.DL_HUB : Fld :=
  { page := 7, off := 0x0, lo := 32, width := 16, acc := .rw, dom := .pcr, reset := 400, beat := true }

/-- R409. -/
abbrev QT_CAP.CAP : Fld :=
  { page := 7, off := 0x8, lo := 0, width := 16, acc := .ro, dom := .pcr, reset := 0 }

/-- R409. -/
abbrev QT_CAP.SUSTAIN : Fld :=
  { page := 7, off := 0x8, lo := 16, width := 16, acc := .ro, dom := .pws, reset := 0 }

/-- R409. -/
abbrev QT_CAP.BE_POOL : Fld :=
  { page := 7, off := 0x8, lo := 32, width := 16, acc := .ro, dom := .pws, reset := 0 }

/-- R409. -/
abbrev QT_CAP.DL_SCALE : Fld :=
  { page := 7, off := 0x8, lo := 48, width := 5, acc := .ro, dom := .pws, reset := 16 }

/-- R409. -/
abbrev QT_CAP.THR : Fld :=
  { page := 7, off := 0x8, lo := 53, width := 3, acc := .ro, dom := .pws, reset := 0 }

/-- R409. -/
abbrev QT_CAP.STOP : Fld :=
  { page := 7, off := 0x8, lo := 56, width := 1, acc := .ro, dom := .pws, reset := 0 }

/-- R409. -/
abbrev QT_STATUS.CFG : Fld :=
  { page := 7, off := 0x10, lo := 0, width := 2, acc := .ro, dom := .pcr, reset := 0 }

/-- R410. -/
abbrev QT_BE_WEIGHT.W (c : Nat) : Fld :=
  { page := 7, off := 0x18, lo := 8 * c, width := 8, acc := .rw, dom := .pcr, reset := 1, beat := true }

/-- R410. -/
abbrev QT_ARB_CTRL.WAIT_LIMIT (k : Nat) : Fld :=
  { page := 7, off := 0x20, lo := 16 * k, width := 8, acc := .rw, dom := .pcr, reset := 32, beat := true }

/-- R410. -/
abbrev QT_ARB_CTRL.HOLD_LIMIT (k : Nat) : Fld :=
  { page := 7, off := 0x20, lo := 16 * k + 8, width := 8, acc := .rw, dom := .pcr, reset := 64, beat := true }

/-- R410. -/
abbrev QT_ARB_CLASS.DDR (c : Nat) : Fld :=
  { page := 7, off := 0x28, lo := 2 * c, width := 2, acc := .rw, dom := .pcr, reset := if c == 0 then 3 else if c == 1 then 2 else 1, beat := true }

/-- R410. -/
abbrev QT_ARB_CLASS.SC (c : Nat) : Fld :=
  { page := 7, off := 0x28, lo := 2 * c + 16, width := 2, acc := .rw, dom := .pcr, reset := if c == 0 then 3 else if c == 1 then 2 else 1, beat := true }

/-- R410. -/
abbrev QT_SRC_TAG.GUNEL : Fld :=
  { page := 7, off := 0x30, lo := 0, width := 8, acc := .rw, dom := .pcr, reset := 0, quiesced := true }

/-- R410. -/
abbrev QT_SRC_TAG.INTERNAL : Fld :=
  { page := 7, off := 0x30, lo := 8, width := 8, acc := .rw, dom := .pcr, reset := 0, quiesced := true }

/-- R410. -/
abbrev QT_SRC_TAG.RP : Fld :=
  { page := 7, off := 0x30, lo := 16, width := 8, acc := .rw, dom := .pcr, reset := 0, quiesced := true }

/-- R410. -/
abbrev QT_SRC_TAG.MQ : Fld :=
  { page := 7, off := 0x30, lo := 24, width := 8, acc := .rw, dom := .pcr, reset := 0, quiesced := true }

/-- R411. -/
abbrev QT_ERR.DL_SCALED : Fld :=
  { page := 7, off := 0x38, lo := 0, width := 1, acc := .rw1c, dom := .pws, reset := 0 }

/-- R411. -/
abbrev QT_ERR.HP_UNCOVERED : Fld :=
  { page := 7, off := 0x38, lo := 1, width := 1, acc := .rw1c, dom := .pws, reset := 0 }

/-- R411. -/
abbrev QT_ERR.HOLD_CUT : Fld :=
  { page := 7, off := 0x38, lo := 2, width := 1, acc := .rw1c, dom := .pws, reset := 0 }

/-- R411. -/
abbrev QT_ERR.DL_LATE : Fld :=
  { page := 7, off := 0x38, lo := 3, width := 1, acc := .rw1c, dom := .pws, reset := 0 }

/-- R411. -/
abbrev QT_HOLD_INFO.INSTANCE : Fld :=
  { page := 7, off := 0x40, lo := 0, width := 2, acc := .ro, dom := .pws, reset := 0 }

/-- R411. -/
abbrev QT_HOLD_INFO.PORT : Fld :=
  { page := 7, off := 0x40, lo := 2, width := 5, acc := .ro, dom := .pws, reset := 0 }

/-- R411. -/
abbrev QT_HOLD_INFO.REQUESTER : Fld :=
  { page := 7, off := 0x40, lo := 7, width := 13, acc := .ro, dom := .pws, reset := 0 }

/-- R412. -/
abbrev QT_IND_DATA0.DATA : Fld :=
  { page := 7, off := 0x50, lo := 0, width := 64, acc := .rw, dom := .pws, reset := 0 }

/-- R412. -/
abbrev QT_IND_CMD.INDEX : Fld :=
  { page := 7, off := 0x48, lo := 0, width := 13, acc := .rw, dom := .pws, reset := 0 }

/-- R412. -/
abbrev QT_IND_CMD.TARGET : Fld :=
  { page := 7, off := 0x48, lo := 13, width := 1, acc := .rw, dom := .pws, reset := 0 }

/-- R412. -/
abbrev QT_IND_CMD.OP : Fld :=
  { page := 7, off := 0x48, lo := 16, width := 1, acc := .rw, dom := .pws, reset := 0 }

/-- R412. -/
abbrev QT_IND_CMD.STATUS : Fld :=
  { page := 7, off := 0x48, lo := 24, width := 4, acc := .ro, dom := .pws, reset := 0 }

/-- R412. -/
abbrev QT_IND_CMD.GO : Fld :=
  { page := 7, off := 0x48, lo := 31, width := 1, acc := .rw1s, dom := .pws, reset := 0 }

/-- R413: the class of sillage tag `t`. -/
abbrev QT_MAP.CLASS (t : Nat) : Fld :=
  { page := 7, off := 0x100 + 8 * (t / 16), lo := 4 * (t % 16), width := 3, acc := .rw, dom := .pcr, reset := 2, beat := true }

/-! ### Worlds and security (R465 to R469) -/

/-- R465. -/
abbrev WS_SECURE_TOP.TOP : Fld :=
  { page := 8, off := 0x0, lo := 26, width := 26, acc := .rws, dom := .pcr, reset := 0, beat := true }

/-- R465. -/
abbrev WS_LOCK.TOP_LOCK : Fld :=
  { page := 8, off := 0x8, lo := 0, width := 1, acc := .rws, dom := .pcr, reset := 0 }

/-- R465. -/
abbrev WS_LOCK.DEBUG_LOCK : Fld :=
  { page := 8, off := 0x8, lo := 1, width := 1, acc := .rws, dom := .pcr, reset := 0 }

/-- R465. -/
abbrev WS_STATUS.RESTARTING : Fld :=
  { page := 8, off := 0x10, lo := 0, width := 1, acc := .ro, dom := .pcr, reset := 0 }

/-- R465. -/
abbrev WS_STATUS.DOWN : Fld :=
  { page := 8, off := 0x10, lo := 1, width := 1, acc := .ro, dom := .pcr, reset := 0 }

/-- R465. -/
abbrev WS_STATUS.SIGN_READY : Fld :=
  { page := 8, off := 0x10, lo := 2, width := 1, acc := .ro, dom := .pcr, reset := 0 }

/-- R465. -/
abbrev WS_STATUS.FAILS : Fld :=
  { page := 8, off := 0x10, lo := 3, width := 2, acc := .ro, dom := .pcr, reset := 0 }

/-- R465. -/
abbrev WS_STATUS.RESTARTS : Fld :=
  { page := 8, off := 0x10, lo := 8, width := 8, acc := .ro, dom := .pcr, reset := 0 }

/-- R465. -/
abbrev WS_DEBUG.SID : Fld :=
  { page := 8, off := 0x50, lo := 0, width := 1, acc := .rws, dom := .pcr, reset := 0 }

/-- R465. -/
abbrev WS_DEBUG.SNID : Fld :=
  { page := 8, off := 0x50, lo := 1, width := 1, acc := .rws, dom := .pcr, reset := 0 }

/-- R465. -/
abbrev WS_DEBUG.NID : Fld :=
  { page := 8, off := 0x50, lo := 2, width := 1, acc := .rws, dom := .pcr, reset := 1 }

/-- R465. -/
abbrev WS_DEBUG.NNID : Fld :=
  { page := 8, off := 0x50, lo := 3, width := 1, acc := .rws, dom := .pcr, reset := 1 }

/-- R466. -/
abbrev WS_CLAIM.CDIE : Fld :=
  { page := 8, off := 0x18, lo := 0, width := 12, acc := .rws, dom := .pws, reset := 0 }

/-- R466. -/
abbrev WS_CLAIM.CHANNEL : Fld :=
  { page := 8, off := 0x18, lo := 12, width := 16, acc := .rws, dom := .pws, reset := 0 }

/-- R466. -/
abbrev WS_CLAIM.SIGN : Fld :=
  { page := 8, off := 0x18, lo := 28, width := 1, acc := .rws, dom := .pws, reset := 0 }

/-- R466. -/
abbrev WS_CLAIM.ENDPOINT : Fld :=
  { page := 8, off := 0x18, lo := 29, width := 1, acc := .rws, dom := .pws, reset := 0 }

/-- R466. -/
abbrev WS_CLAIM_TILE.TILE (i : Nat) : Fld :=
  { page := 8, off := 0x20 + 8 * i, lo := 0, width := 64, acc := .rws, dom := .pws, reset := 0 }

/-- R467. -/
abbrev WS_WDOG.PERIOD : Fld :=
  { page := 8, off := 0x58, lo := 0, width := 16, acc := .rws, dom := .pcr, reset := 1000 }

/-- R467. -/
abbrev WS_WDOG.KICK : Fld :=
  { page := 8, off := 0x58, lo := 16, width := 1, acc := .wo, dom := .pcr, reset := 0 }

/-- R467. -/
abbrev WS_RESTART.REQ : Fld :=
  { page := 8, off := 0x60, lo := 0, width := 1, acc := .wo, dom := .pcr, reset := 0 }

/-- R467. -/
abbrev WS_RESTART.DONE : Fld :=
  { page := 8, off := 0x60, lo := 1, width := 1, acc := .wo, dom := .pcr, reset := 0 }

/-- R467. -/
abbrev WS_RESTART.CAUSE : Fld :=
  { page := 8, off := 0x60, lo := 2, width := 3, acc := .ro, dom := .pcr, reset := 0 }

/-- R467. -/
abbrev WS_RESTART.IDENTITY : Fld :=
  { page := 8, off := 0x60, lo := 16, width := 11, acc := .rws, dom := .pcr, reset := 1 }

/-- R467. -/
abbrev WS_IOMMU.INTERNAL_DEVID : Fld :=
  { page := 8, off := 0x68, lo := 0, width := 24, acc := .rw, dom := .pcr, reset := 0, quiesced := true }

/-- R467. -/
abbrev WS_IOMMU.RP_BASE : Fld :=
  { page := 8, off := 0x68, lo := 24, width := 24, acc := .rw, dom := .pcr, reset := 65536, quiesced := true }

/-- R468. -/
abbrev WS_ERR.VIOLATION : Fld :=
  { page := 8, off := 0x70, lo := 0, width := 1, acc := .rw1c, dom := .pcr, reset := 0 }

/-- R468. -/
abbrev WS_ERR.MSI_SECURE : Fld :=
  { page := 8, off := 0x70, lo := 1, width := 1, acc := .rw1c, dom := .pcr, reset := 0 }

/-- R468. -/
abbrev WS_ERR.REG_WRITE : Fld :=
  { page := 8, off := 0x70, lo := 2, width := 1, acc := .rw1c, dom := .pcr, reset := 0 }

/-- R468. -/
abbrev WS_ERR.REFUSED : Fld :=
  { page := 8, off := 0x70, lo := 3, width := 1, acc := .rw1c, dom := .pcr, reset := 0 }

/-- R468. -/
abbrev WS_ERR.CFG : Fld :=
  { page := 8, off := 0x70, lo := 4, width := 1, acc := .rw1c, dom := .pcr, reset := 0 }

/-- R468. -/
abbrev WS_ERR.RESTART : Fld :=
  { page := 8, off := 0x70, lo := 5, width := 1, acc := .rw1c, dom := .pcr, reset := 0 }

/-- R468. -/
abbrev WS_ERR.DOWN : Fld :=
  { page := 8, off := 0x70, lo := 6, width := 1, acc := .rw1c, dom := .pcr, reset := 0 }

/-- R468. -/
abbrev WS_ERR_INFO.ADDR : Fld :=
  { page := 8, off := 0x78, lo := 0, width := 52, acc := .ro, dom := .pcr, reset := 0 }

/-- R468. -/
abbrev WS_ERR_INFO.SOURCE : Fld :=
  { page := 8, off := 0x78, lo := 52, width := 4, acc := .ro, dom := .pcr, reset := 0 }

/-- R468. -/
abbrev WS_ERR_INFO.EVENT : Fld :=
  { page := 8, off := 0x78, lo := 56, width := 5, acc := .ro, dom := .pcr, reset := 0 }

/-- R469. -/
abbrev WS_KEY_CMD.SLOT : Fld :=
  { page := 8, off := 0x80, lo := 0, width := 14, acc := .rws, dom := .pws, reset := 0 }

/-- R469. -/
abbrev WS_KEY_CMD.OP : Fld :=
  { page := 8, off := 0x80, lo := 16, width := 2, acc := .rws, dom := .pws, reset := 0 }

/-- R469. -/
abbrev WS_KEY_CMD.STATUS : Fld :=
  { page := 8, off := 0x80, lo := 24, width := 4, acc := .ro, dom := .pws, reset := 0 }

/-- R469. -/
abbrev WS_KEY_CMD.GO : Fld :=
  { page := 8, off := 0x80, lo := 31, width := 1, acc := .rws, dom := .pws, reset := 0 }

/-- R469. -/
abbrev WS_KEY_META.FUNCTION : Fld :=
  { page := 8, off := 0x88, lo := 0, width := 8, acc := .rws, dom := .pws, reset := 0 }

/-- R469. -/
abbrev WS_KEY_META.FN_VALID : Fld :=
  { page := 8, off := 0x88, lo := 8, width := 1, acc := .rws, dom := .pws, reset := 0 }

/-- R469. -/
abbrev WS_KEY_META.INTERNAL_OK : Fld :=
  { page := 8, off := 0x88, lo := 9, width := 1, acc := .rws, dom := .pws, reset := 0 }

/-- R469. -/
abbrev WS_KEY_META.TYPE : Fld :=
  { page := 8, off := 0x88, lo := 10, width := 2, acc := .rws, dom := .pws, reset := 0 }

/-- R469. -/
abbrev WS_KEY_META.GEN : Fld :=
  { page := 8, off := 0x88, lo := 32, width := 32, acc := .rws, dom := .pws, reset := 0 }

/-- R469. -/
abbrev WS_KEY_DATA.KEY (i : Nat) : Fld :=
  { page := 8, off := 0xc0 + 8 * i, lo := 0, width := 64, acc := .rws, dom := .pws, reset := 0, secret := true }

/-- R469. -/
abbrev WS_SEAL_PUB.PUB (i : Nat) : Fld :=
  { page := 8, off := 0x100 + 8 * i, lo := 0, width := 64, acc := .ro, dom := .pws, reset := 0 }

/-- R469. -/
abbrev WS_SIGNER_ID.ID (i : Nat) : Fld :=
  { page := 8, off := 0x180 + 8 * i, lo := 0, width := 64, acc := .ro, dom := .pws, reset := 0 }

/-! ### Clocks (R492) -/

/-- R492. -/
abbrev CLK_CTRL.MARGIN_EN : Fld :=
  { page := 9, off := 0x0, lo := 0, width := 1, acc := .rw, dom := .pcr, reset := 1, beat := true }

/-- R492. -/
abbrev CLK_CTRL.DROOP_EN : Fld :=
  { page := 9, off := 0x0, lo := 1, width := 1, acc := .rw, dom := .pcr, reset := 1, beat := true }

/-- R492. -/
abbrev CLK_CTRL.RETIRE_EN : Fld :=
  { page := 9, off := 0x0, lo := 2, width := 1, acc := .rw, dom := .pcr, reset := 1 }

/-- R492. -/
abbrev CLK_CTRL.TARGET : Fld :=
  { page := 9, off := 0x0, lo := 8, width := 8, acc := .rw, dom := .pcr, reset := 40, beat := true }

/-- R492. -/
abbrev CLK_STATUS.XTAL_G_OK : Fld :=
  { page := 9, off := 0x8, lo := 0, width := 1, acc := .ro, dom := .pcr, reset := 0 }

/-- R492. -/
abbrev CLK_STATUS.XTAL_F_OK : Fld :=
  { page := 9, off := 0x8, lo := 1, width := 1, acc := .ro, dom := .pcr, reset := 0 }

/-- R492. -/
abbrev CLK_STATUS.GUNEL_HB : Fld :=
  { page := 9, off := 0x8, lo := 2, width := 1, acc := .ro, dom := .pcr, reset := 0 }

/-- R492. -/
abbrev CLK_ERR.GUNEL_LAPSE : Fld :=
  { page := 9, off := 0x10, lo := 0, width := 1, acc := .rw1c, dom := .pcr, reset := 0 }

/-- R492. -/
abbrev CLK_ERR.TRIM_LIMIT : Fld :=
  { page := 9, off := 0x10, lo := 1, width := 1, acc := .rw1c, dom := .pws, reset := 0 }

/-- R492. -/
abbrev CLK_ERR.DROOP : Fld :=
  { page := 9, off := 0x10, lo := 2, width := 1, acc := .rw1c, dom := .pws, reset := 0 }

/-- R492. -/
abbrev CLK_ERR.RETIRE : Fld :=
  { page := 9, off := 0x10, lo := 3, width := 1, acc := .rw1c, dom := .pws, reset := 0 }

/-- R492. -/
abbrev CLK_TRIM_SEL.TILE : Fld :=
  { page := 9, off := 0x18, lo := 0, width := 9, acc := .rw, dom := .pcr, reset := 0 }

/-- R492. -/
abbrev CLK_TRIM.TRIM (tile : Nat) : Fld :=
  { page := clkTrimPage tile, off := 0x20, lo := 0, width := 8, acc := .ro, dom := .pws, reset := 0 }

/-- R492. -/
abbrev CLK_TRIM.MARGIN (tile : Nat) : Fld :=
  { page := clkTrimPage tile, off := 0x20, lo := 8, width := 8, acc := .ro, dom := .pws, reset := 0 }

/-- R492. -/
abbrev CLK_TRIM.AGE (tile : Nat) : Fld :=
  { page := clkTrimPage tile, off := 0x20, lo := 16, width := 8, acc := .ro, dom := .pcr, reset := 0 }

/-- R492. -/
abbrev CLK_TRIM.DROOPS (tile : Nat) : Fld :=
  { page := clkTrimPage tile, off := 0x20, lo := 24, width := 32, acc := .ro, dom := .pws, reset := 0 }

/-! ### Power (R493, R494) -/

/-- R493. -/
abbrev PWR_CTRL.TDP : Fld :=
  { page := 10, off := 0x0, lo := 0, width := 10, acc := .rw, dom := .pcr, reset := 500, beat := true }

/-- R493. -/
abbrev PWR_CTRL.HYST : Fld :=
  { page := 10, off := 0x0, lo := 10, width := 6, acc := .rw, dom := .pcr, reset := 10, beat := true }

/-- R493. -/
abbrev PWR_CTRL.QUIET_RATE : Fld :=
  { page := 10, off := 0x0, lo := 16, width := 1, acc := .rw, dom := .pcr, reset := 0 }

/-- R493. -/
abbrev PWR_CTRL.TILE_IDLE : Fld :=
  { page := 10, off := 0x0, lo := 18, width := 14, acc := .rw, dom := .pcr, reset := 100, beat := true }

/-- R493. -/
abbrev PWR_THERM.TJ_MAX : Fld :=
  { page := 10, off := 0x8, lo := 0, width := 8, acc := .rw, dom := .pcr, reset := 95, beat := true }

/-- R493. -/
abbrev PWR_THERM.TJ_CRIT : Fld :=
  { page := 10, off := 0x8, lo := 8, width := 8, acc := .ro, dom := .pcr, reset := 110 }

/-- R493. -/
abbrev PWR_STATUS.STATE : Fld :=
  { page := 10, off := 0x10, lo := 0, width := 3, acc := .ro, dom := .pws, reset := 0 }

/-- R493. -/
abbrev PWR_STATUS.DUTY : Fld :=
  { page := 10, off := 0x10, lo := 3, width := 4, acc := .ro, dom := .pws, reset := 8 }

/-- R493. -/
abbrev PWR_STATUS.MIN_CAP : Fld :=
  { page := 10, off := 0x10, lo := 7, width := 4, acc := .ro, dom := .pws, reset := 15 }

/-- R493. -/
abbrev PWR_STATUS.TCAP_LOW : Fld :=
  { page := 10, off := 0x10, lo := 11, width := 12, acc := .ro, dom := .pws, reset := 0 }

/-- R493. -/
abbrev PWR_MEAS.POWER : Fld :=
  { page := 10, off := 0x18, lo := 0, width := 16, acc := .ro, dom := .pws, reset := 0 }

/-- R493. -/
abbrev PWR_MEAS.TJ_HOT : Fld :=
  { page := 10, off := 0x18, lo := 16, width := 8, acc := .ro, dom := .pws, reset := 0 }

/-- R493. -/
abbrev PWR_MEAS.TJ_DIE : Fld :=
  { page := 10, off := 0x18, lo := 24, width := 4, acc := .ro, dom := .pws, reset := 0 }

/-- R494. -/
abbrev PWR_CMD.INDEX : Fld :=
  { page := 10, off := 0x20, lo := 0, width := 9, acc := .rw, dom := .pws, reset := 0 }

/-- R494. -/
abbrev PWR_CMD.TARGET : Fld :=
  { page := 10, off := 0x20, lo := 9, width := 3, acc := .rw, dom := .pws, reset := 0 }

/-- R494. -/
abbrev PWR_CMD.OP : Fld :=
  { page := 10, off := 0x20, lo := 12, width := 4, acc := .rw, dom := .pws, reset := 0 }

/-- R494. -/
abbrev PWR_CMD.STATUS : Fld :=
  { page := 10, off := 0x20, lo := 16, width := 4, acc := .ro, dom := .pws, reset := 0 }

/-- R494. -/
abbrev PWR_CMD.GO : Fld :=
  { page := 10, off := 0x20, lo := 31, width := 1, acc := .rw1s, dom := .pws, reset := 0 }

/-- R494. -/
abbrev PWR_WAKE.EN : Fld :=
  { page := 10, off := 0x28, lo := 0, width := 4, acc := .rw, dom := .pcr, reset := 15 }

/-- R494. -/
abbrev PWR_WAKE.CAUSE : Fld :=
  { page := 10, off := 0x28, lo := 4, width := 4, acc := .ro, dom := .pcr, reset := 0 }

/-- R494. -/
abbrev PWR_ERR.THERM_CAP : Fld :=
  { page := 10, off := 0x30, lo := 0, width := 1, acc := .rw1c, dom := .pws, reset := 0 }

/-- R494. -/
abbrev PWR_ERR.REFUSED : Fld :=
  { page := 10, off := 0x30, lo := 1, width := 1, acc := .rw1c, dom := .pws, reset := 0 }

/-- R494. -/
abbrev PWR_ERR.TDP_LIMIT : Fld :=
  { page := 10, off := 0x30, lo := 2, width := 1, acc := .rw1c, dom := .pws, reset := 0 }

/-- R494. -/
abbrev PWR_ERR.DUTY : Fld :=
  { page := 10, off := 0x30, lo := 3, width := 1, acc := .rw1c, dom := .pws, reset := 0 }

/-! ### Gunel (R510) -/

/-- R510. -/
abbrev GN_CTRL.WDOG_MS : Fld :=
  { page := 11, off := 0x0, lo := 0, width := 16, acc := .rws, dom := .pcr, reset := 500 }

/-- R510. -/
abbrev GN_STATUS.RUNNING : Fld :=
  { page := 11, off := 0x8, lo := 0, width := 1, acc := .ro, dom := .pcr, reset := 0 }

/-- R510. -/
abbrev GN_STATUS.SLOT : Fld :=
  { page := 11, off := 0x8, lo := 1, width := 1, acc := .ro, dom := .pcr, reset := 0 }

/-- R510. -/
abbrev GN_STATUS.HUB_LAPSE : Fld :=
  { page := 11, off := 0x8, lo := 2, width := 1, acc := .ro, dom := .pcr, reset := 0 }

/-- R510. -/
abbrev GN_STATUS.RECOVERY : Fld :=
  { page := 11, off := 0x8, lo := 3, width := 1, acc := .ro, dom := .pcr, reset := 0 }

/-- R510. -/
abbrev GN_STATUS.RESTARTS : Fld :=
  { page := 11, off := 0x8, lo := 16, width := 8, acc := .ro, dom := .pcr, reset := 0 }

/-- R510. -/
abbrev GN_RING_BASE.BASE : Fld :=
  { page := 11, off := 0x10, lo := 0, width := 52, acc := .rw, dom := .pcr, reset := 0 }

/-- R510. -/
abbrev GN_RING_CTRL.ENABLE : Fld :=
  { page := 11, off := 0x18, lo := 0, width := 1, acc := .rw, dom := .pcr, reset := 0 }

/-- R510. -/
abbrev GN_RING_CTRL.LOG2 : Fld :=
  { page := 11, off := 0x18, lo := 4, width := 5, acc := .rw, dom := .pcr, reset := 10 }

/-- R510. -/
abbrev GN_RING_MSI_ADDR.ADDR : Fld :=
  { page := 11, off := 0x20, lo := 0, width := 64, acc := .rw, dom := .pcr, reset := 0 }

/-- R510. -/
abbrev GN_RING_MSI_DATA.DATA : Fld :=
  { page := 11, off := 0x28, lo := 0, width := 32, acc := .rw, dom := .pcr, reset := 0 }

/-- R510. -/
abbrev GN_MBOX_CMD.OP : Fld :=
  { page := 11, off := 0x100, lo := 0, width := 8, acc := .rw, dom := .pws, reset := 0 }

/-- R510. -/
abbrev GN_MBOX_CMD.STATUS : Fld :=
  { page := 11, off := 0x100, lo := 8, width := 4, acc := .ro, dom := .pws, reset := 0 }

/-- R510. -/
abbrev GN_MBOX_CMD.OVERRUN : Fld :=
  { page := 11, off := 0x100, lo := 12, width := 1, acc := .rw1c, dom := .pws, reset := 0 }

/-- R510. -/
abbrev GN_MBOX_CMD.GO : Fld :=
  { page := 11, off := 0x100, lo := 31, width := 1, acc := .rw1s, dom := .pws, reset := 0 }

/-- R510. -/
abbrev GN_MBOX_DATA.DATA (i : Nat) : Fld :=
  { page := 11, off := 0x140 + 8 * i, lo := 0, width := 64, acc := .rw, dom := .pws, reset := 0 }

/-- R510. -/
abbrev GN_SMBOX_DATA.DATA (i : Nat) : Fld :=
  { page := 11, off := 0x240 + 8 * i, lo := 0, width := 64, acc := .rw, dom := .pws, reset := 0 }

/-- R510. -/
abbrev GN_SMBOX_CMD.OP : Fld :=
  { page := 11, off := 0x200, lo := 0, width := 8, acc := .rws, dom := .pws, reset := 0 }

/-- R510. -/
abbrev GN_SMBOX_CMD.STATUS : Fld :=
  { page := 11, off := 0x200, lo := 8, width := 4, acc := .ro, dom := .pws, reset := 0 }

/-- R510. -/
abbrev GN_SMBOX_CMD.OVERRUN : Fld :=
  { page := 11, off := 0x200, lo := 12, width := 1, acc := .rw1c, dom := .pws, reset := 0 }

/-- R510. -/
abbrev GN_SMBOX_CMD.GO : Fld :=
  { page := 11, off := 0x200, lo := 31, width := 1, acc := .rws, dom := .pws, reset := 0 }

/-! ### Flacon (R538) -/

/-- R538. -/
abbrev FL_STATUS.READY : Fld :=
  { page := 12, off := 0x0, lo := 0, width := 1, acc := .ro, dom := .pcr, reset := 0 }

/-- R538. -/
abbrev FL_STATUS.ALARM : Fld :=
  { page := 12, off := 0x0, lo := 1, width := 1, acc := .rw1c, dom := .pcr, reset := 0 }

/-- R538. -/
abbrev FL_STATUS.CAL : Fld :=
  { page := 12, off := 0x0, lo := 2, width := 1, acc := .ro, dom := .pcr, reset := 0 }

/-- R538. -/
abbrev FL_STATUS.FUSES_OUT : Fld :=
  { page := 12, off := 0x0, lo := 3, width := 1, acc := .ro, dom := .pcr, reset := 0 }

/-- R538. -/
abbrev FL_MB_CMD.OP : Fld :=
  { page := 12, off := 0x8, lo := 0, width := 8, acc := .rw, dom := .pws, reset := 0 }

/-- R538. -/
abbrev FL_MB_CMD.STATUS : Fld :=
  { page := 12, off := 0x8, lo := 8, width := 4, acc := .ro, dom := .pws, reset := 0 }

/-- R538. -/
abbrev FL_MB_CMD.OVERRUN : Fld :=
  { page := 12, off := 0x8, lo := 12, width := 1, acc := .rw1c, dom := .pws, reset := 0 }

/-- R538. -/
abbrev FL_MB_CMD.GO : Fld :=
  { page := 12, off := 0x8, lo := 31, width := 1, acc := .rw1s, dom := .pws, reset := 0 }

/-- R538. -/
abbrev FL_MB_ARG.ARG (i : Nat) : Fld :=
  { page := 12, off := 0x10 + 8 * i, lo := 0, width := 64, acc := .rw, dom := .pws, reset := 0 }

/-- R538. -/
abbrev FL_MB_RSP.RSP (i : Nat) : Fld :=
  { page := 12, off := 0x100 + 8 * i, lo := 0, width := 64, acc := .ro, dom := .pws, reset := 0 }

/-! ### Performance monitoring (R549) -/

/-- R549. -/
abbrev PM_CTRL.USER_ENABLE : Fld :=
  { page := 13, off := 0x0, lo := 0, width := 1, acc := .rw, dom := .pcr, reset := 0 }

/-- R549. -/
abbrev PM_STATUS.SMALL : Fld :=
  { page := 13, off := 0x8, lo := 0, width := 1, acc := .ro, dom := .pcr, reset := 0 }

/-- R549. -/
abbrev PM_STATUS.DUMPING : Fld :=
  { page := 13, off := 0x8, lo := 1, width := 1, acc := .ro, dom := .pws, reset := 0 }

/-- R549. -/
abbrev PM_STATUS.DROPPED : Fld :=
  { page := 13, off := 0x8, lo := 16, width := 16, acc := .ro, dom := .pws, reset := 0 }

/-- R549. -/
abbrev PM_PART.PART (d : Nat) : Fld :=
  { page := 13, off := 0x10, lo := 4 * d, width := 4, acc := .rw, dom := .pcr, reset := 0 }

/-- R549. -/
abbrev PM_PART.SHARED (d : Nat) : Fld :=
  { page := 13, off := 0x10, lo := 48 + d, width := 1, acc := .rw, dom := .pcr, reset := 0 }

/-- R549. -/
abbrev PM_DUMP_BASE.BASE : Fld :=
  { page := 13, off := 0x18, lo := 0, width := 52, acc := .rw, dom := .pcr, reset := 0, quiesced := true }

/-- R549. -/
abbrev PM_DUMP_CTRL.EVERY : Fld :=
  { page := 13, off := 0x20, lo := 0, width := 16, acc := .rw, dom := .pcr, reset := 0, beat := true }

/-- R549. -/
abbrev PM_DUMP_CTRL.RING_LOG2 : Fld :=
  { page := 13, off := 0x20, lo := 16, width := 4, acc := .rw, dom := .pcr, reset := 8, quiesced := true }

/-- R549. -/
abbrev PM_DUMP_CTRL.ENTRY_LOG2 : Fld :=
  { page := 13, off := 0x20, lo := 20, width := 4, acc := .rw, dom := .pcr, reset := 12, quiesced := true }

/-- R549. -/
abbrev PM_DUMP_CTRL.TAG : Fld :=
  { page := 13, off := 0x20, lo := 24, width := 8, acc := .rw, dom := .pcr, reset := 0, beat := true }

/-- R549. -/
abbrev PM_DUMP_CTRL.SETS : Fld :=
  { page := 13, off := 0x20, lo := 32, width := 15, acc := .rw, dom := .pcr, reset := 0, beat := true }

/-- R549. -/
abbrev PM_DUMP_CTRL.ENABLE : Fld :=
  { page := 13, off := 0x20, lo := 47, width := 1, acc := .rw, dom := .pcr, reset := 0, beat := true }

/-- R549. -/
abbrev PM_DUMP_PI.PI : Fld :=
  { page := 13, off := 0x28, lo := 0, width := 32, acc := .ro, dom := .pws, reset := 0 }

/-- R549. -/
abbrev PM_DUMP_CI.CI : Fld :=
  { page := 13, off := 0x30, lo := 0, width := 32, acc := .rw, dom := .pws, reset := 0 }

/-- R549. -/
abbrev PM_ERR.NOT_SMALL : Fld :=
  { page := 13, off := 0x38, lo := 0, width := 1, acc := .rw1c, dom := .pws, reset := 0 }

/-- R549. -/
abbrev PM_ERR.DROPPED : Fld :=
  { page := 13, off := 0x38, lo := 1, width := 1, acc := .rw1c, dom := .pws, reset := 0 }

/-- R549. -/
abbrev PM_ERR.ENTRY_SMALL : Fld :=
  { page := 13, off := 0x38, lo := 2, width := 1, acc := .rw1c, dom := .pws, reset := 0 }

/-- R549. -/
abbrev PM_ERR.REFUSED : Fld :=
  { page := 13, off := 0x38, lo := 3, width := 1, acc := .rw1c, dom := .pws, reset := 0 }

/-- R549. -/
abbrev PM_RD_SEL.SET : Fld :=
  { page := 13, off := 0x40, lo := 0, width := 4, acc := .rw, dom := .pws, reset := 0 }

/-- R549. -/
abbrev PM_RD_SEL.INSTANCE : Fld :=
  { page := 13, off := 0x40, lo := 4, width := 9, acc := .rw, dom := .pws, reset := 0 }

/-- R549. -/
abbrev PM_RD_SEL.COUNTER : Fld :=
  { page := 13, off := 0x40, lo := 13, width := 5, acc := .rw, dom := .pws, reset := 0 }

/-- R549. -/
abbrev PM_RD_DATA.VALUE : Fld :=
  { page := 13, off := 0x48, lo := 0, width := 64, acc := .ro, dom := .pws, reset := 0 }

/-! ### The registers of each page, in the order of their offsets (R570) -/

/-- The beat (R52 to R56): the registers of the page. -/
def regsBT : List Reg :=
  [{ off := 0x0, bits := 32, fields := [BT_CTRL.LEN, BT_CTRL.ALIGN_EN, BT_CTRL.ACTIVE_SEL, BT_CTRL.SLEW_MAX] }] ++
  [{ off := 0x8, bits := 32, fields := [BT_STATUS.RUN, BT_STATUS.ACTIVE, BT_STATUS.FENCED_A, BT_STATUS.FENCED_B, BT_STATUS.ENGINES_IDLE, BT_STATUS.ALIGNED] }] ++
  [{ off := 0x10, bits := 64, fields := [BT_COUNT.COUNT] }] ++
  [{ off := 0x18, bits := 32, fields := [BT_ERR.CMP_MISMATCH, BT_ERR.SELF_A, BT_ERR.SELF_B, BT_ERR.TOKEN_CHECK, BT_ERR.ALIGN_LOST, BT_ERR.SKEW_LIMIT] }] ++
  [{ off := 0x20, bits := 32, fields := [BT_ALIGN_OFS.OFS] }] ++
  [{ off := 0x28, bits := 32, fields := [BT_SKEW.MAX, BT_SKEW.DIE] }]

/-- Ring engine (R92 to R94): the registers of the page. -/
def regsRE : List Reg :=
  [{ off := 0x0, bits := 32, fields := [RE_CTRL.RUN] }] ++
  [{ off := 0x8, bits := 32, fields := [RE_STATUS.IDLE, RE_STATUS.ACTIVE, RE_STATUS.FENCED, RE_STATUS.ENGINES, RE_STATUS.WINDOW_BEAT] }] ++
  [{ off := 0x10, bits := 32, fields := [RE_RESERVE.SLOTS, RE_RESERVE.WEIGHT] }] ++
  [{ off := 0x18, bits := 32, fields := [RE_ERR.DB_SIZE, RE_ERR.DB_RANGE, RE_ERR.CR_WRITE, RE_ERR.INSTANCE] }] ++
  [{ off := 0x20, bits := 32, fields := [RE_IND_CMD.INDEX, RE_IND_CMD.TARGET, RE_IND_CMD.OP, RE_IND_CMD.STATUS, RE_IND_CMD.GO] }] ++
  ((List.range 8).map fun i => { off := 0x40 + 8 * i, bits := 64, fields := [RE_IND_DATA.DATA i] })

/-- Archive engines (R97): the registers of the page. -/
def regsAE (e : Nat) : List Reg :=
  [{ off := 0x0, bits := 32, fields := [AE_CTRL.ENABLE e] }] ++
  [{ off := 0x8, bits := 32, fields := [AE_STATUS.STATE e, AE_STATUS.SUSPECT e, AE_STATUS.LATE e] }] ++
  [{ off := 0x10, bits := 32, fields := [AE_ERR.DOUBLE_OVERRUN e, AE_ERR.NO_FINISH e, AE_ERR.SELFTEST_FAIL e, AE_ERR.SRAM_CORRECTED e, AE_ERR.SRAM_UNCORRECTED e] }]

/-- Conos (R201, R202): the registers of the page. -/
def regsCN : List Reg :=
  [{ off := 0x0, bits := 32, fields := [CN_CTRL.ENABLE, CN_CTRL.TTL] }] ++
  [{ off := 0x8, bits := 32, fields := [CN_ID.PKG_ID] }] ++
  [{ off := 0x10, bits := 32, fields := [CN_TIMEOUT.E2E, CN_TIMEOUT.READ, CN_TIMEOUT.FULL_WAIT, CN_TIMEOUT.ACK_WAIT] }] ++
  [{ off := 0x18, bits := 32, fields := [CN_ALIGN.ROOT, CN_ALIGN.PARENT_PORT, CN_ALIGN.INTERVAL] }] ++
  [{ off := 0x20, bits := 32, fields := [CN_EVENT.ID_CONFLICT, CN_EVENT.PORT_FAILED, CN_EVENT.FLOW_FAILED, CN_EVENT.REFUSED, CN_EVENT.TTL_EXPIRED, CN_EVENT.NO_ROUTE, CN_EVENT.ALIGN_LEN, CN_EVENT.READ_FAILED, CN_EVENT.DRAINED] }] ++
  [{ off := 0x28, bits := 64, fields := [CN_EVENT_INFO.PKG, CN_EVENT_INFO.PORT, CN_EVENT_INFO.WINDOW, CN_EVENT_INFO.STATUS, CN_EVENT_INFO.EVENT] }] ++
  [{ off := 0x30, bits := 32, fields := [CN_WAKE.SEND, CN_WAKE.SENDING, CN_WAKE.SEEN] }] ++
  [{ off := 0x38, bits := 64, fields := [CN_MSI_ADDR.ADDR] }] ++
  [{ off := 0x40, bits := 32, fields := [CN_MSI_DATA.DATA] }] ++
  [{ off := 0x48, bits := 32, fields := [CN_IND_CMD.INDEX, CN_IND_CMD.TARGET, CN_IND_CMD.OP, CN_IND_CMD.STATUS, CN_IND_CMD.GO] }] ++
  ((List.range 4).map fun i => { off := 0x50 + 8 * i, bits := 64, fields := [CN_IND_DATA.DATA i] }) ++
  ((List.range 4).map fun i => { off := 0x100 + 0x20 * i, bits := 32, fields := [CN_PORT_CTRL.ENABLE i, CN_PORT_CTRL.MEDIUM i, CN_PORT_CTRL.RETRIES i] }) ++
  ((List.range 4).map fun i => { off := 0x108 + 0x20 * i, bits := 32, fields := [CN_PORT_STATUS.STATE i, CN_PORT_STATUS.STEP i, CN_PORT_STATUS.PEER_PKG i, CN_PORT_STATUS.PEER_PORT i] }) ++
  ((List.range 4).map fun i => { off := 0x110 + 0x20 * i, bits := 64, fields := [CN_PORT_CNT.RESENDS i, CN_PORT_CNT.CORRECTED i] })

/-- Host endpoint (R225 to R227): the registers of the page. -/
def regsHF (fn : Nat) : List Reg :=
  [{ off := 0x0, bits := 32, fields := [HF_CTRL.TARGET_SPEED, HF_CTRL.TOTAL_VFS, HF_CTRL.LINK_EN] }] ++
  [{ off := 0x8, bits := 32, fields := [HF_DEVID.BASE] }] ++
  [{ off := 0x10, bits := 32, fields := [HF_STATUS.LINK_UP, HF_STATUS.SPEED, HF_STATUS.WIDTH, HF_STATUS.FLIT, HF_STATUS.LSTATE, HF_STATUS.NUM_VFS] }] ++
  [{ off := 0x18, bits := 32, fields := [HF_PM.L1_IDLE, HF_PM.L0S_IDLE] }] ++
  [{ off := 0x20, bits := 32, fields := [HF_ERR.DB_POOL, HF_ERR.DB_RESERVED, HF_ERR.VECTOR_RANGE, HF_ERR.UNEXPECTED_CPL, HF_ERR.POISON_RX, HF_ERR.CPL_TIMEOUT] }] ++
  [{ off := 0x28, bits := 64, fields := [HF_ERR_INFO.FUNCTION, HF_ERR_INFO.RING, HF_ERR_INFO.EVENT] }] ++
  [{ off := 0x30, bits := 32, fields := [HF_FN_SEL.FUNCTION] }] ++
  [{ off := 0x38, bits := 32, fields := [HF_FN_CTRL.ALLOW fn] }] ++
  [{ off := 0x40, bits := 32, fields := [HF_FN_STATUS.ENABLED fn, HF_FN_STATUS.BME fn, HF_FN_STATUS.IN_FLR fn, HF_FN_STATUS.D3 fn, HF_FN_STATUS.TAGS fn] }]

/-- Media queues (R245, R246): the registers of the page. -/
def regsMQ : List Reg :=
  [{ off := 0x0, bits := 32, fields := [MQ_CTRL.ENABLE] }] ++
  [{ off := 0x8, bits := 32, fields := ((List.range 8).map fun j => MQ_QUAD.MODE j) }] ++
  [{ off := 0x10, bits := 32, fields := [MQ_STATUS.IDLE] }] ++
  [{ off := 0x18, bits := 32, fields := [MQ_LINK.UP] }] ++
  [{ off := 0x20, bits := 32, fields := [MQ_TIMEOUT.CMD, MQ_TIMEOUT.RETRIES] }] ++
  [{ off := 0x28, bits := 32, fields := [MQ_EVENT.DRIVE_REMOVED, MQ_EVENT.DRIVE_ADDED, MQ_EVENT.MEDIA_ERROR, MQ_EVENT.POOL_EMPTY, MQ_EVENT.TIMEOUT, MQ_EVENT.PASS_REFUSED, MQ_EVENT.RECONCILED] }] ++
  [{ off := 0x30, bits := 64, fields := [MQ_EVENT_INFO.TARGET, MQ_EVENT_INFO.PORT, MQ_EVENT_INFO.NVME_STATUS, MQ_EVENT_INFO.EVENT] }] ++
  [{ off := 0x38, bits := 64, fields := [MQ_MSI_ADDR.ADDR] }] ++
  [{ off := 0x40, bits := 32, fields := [MQ_MSI_DATA.DATA] }] ++
  [{ off := 0x48, bits := 32, fields := [MQ_IND_CMD.INDEX, MQ_IND_CMD.TARGET, MQ_IND_CMD.OP, MQ_IND_CMD.STATUS, MQ_IND_CMD.GO] }] ++
  ((List.range 4).map fun i => { off := 0x50 + 8 * i, bits := 64, fields := [MQ_IND_DATA.DATA i] })

/-- System cache (R290): the registers of the page. -/
def regsSC : List Reg :=
  [{ off := 0x0, bits := 32, fields := [SC_CTRL.SC_MODE, SC_CTRL.L3_MODE] }] ++
  [{ off := 0x8, bits := 32, fields := [SC_LOCK.ACCUM_WAYS] }] ++
  [{ off := 0x10, bits := 32, fields := [SC_STATUS.FENCED, SC_STATUS.REGIONS, SC_STATUS.LOCK_BUSY] }] ++
  [{ off := 0x18, bits := 64, fields := [SC_LWI.COUNT] }] ++
  [{ off := 0x20, bits := 64, fields := [SC_FENCED0.BANK] }] ++
  [{ off := 0x28, bits := 64, fields := [SC_FENCED1.BANK] }]

/-- Home agents (R316): the registers of the page. -/
def regsHA : List Reg :=
  [{ off := 0x0, bits := 32, fields := [HA_CTRL.AMO_MODE, HA_CTRL.EXCL_READ, HA_CTRL.STASH_EN] }] ++
  [{ off := 0x8, bits := 32, fields := [HA_STATUS.IN_SERVICE, HA_STATUS.SPARES, HA_STATUS.REHOMED] }] ++
  [{ off := 0x10, bits := 64, fields := [HA_BINV.COUNT] }] ++
  [{ off := 0x18, bits := 64, fields := [HA_STALE.COUNT] }]

/-- On-die networks (R334): the registers of the page. -/
def regsNOC (die : Nat) : List Reg :=
  [{ off := 0x0, bits := 32, fields := [NOC_CTRL.EXPRESS_EN die, NOC_CTRL.HP_BURST die] }] ++
  [{ off := 0x8, bits := 32, fields := [NOC_STATUS.LINKS_FENCED die, NOC_STATUS.ROUTERS_FENCED die, NOC_STATUS.ROUTE_GEN die] }] ++
  [{ off := 0x10, bits := 32, fields := [NOC_ERR.LINK_REPLAY die, NOC_ERR.LINK_FENCED die, NOC_ERR.ROUTER_FENCED die, NOC_ERR.DUPLICATE die, NOC_ERR.NO_ROUTE die, NOC_ERR.BRIDGE die] }] ++
  [{ off := 0x18, bits := 64, fields := [NOC_CNT.REPLAYS die, NOC_CNT.DUPLICATES die] }] ++
  ((List.range 4).map fun i => { off := 0x20 + 8 * i, bits := 64, fields := [NOC_FENCE.LINK die i] })

/-- Bilum (R359 to R361): the registers of the page. -/
def regsBL (p : Nat) : List Reg :=
  [{ off := 0x0, bits := 32, fields := [BL_CTRL.ENABLE p, BL_CTRL.ALLOW_HALF p, BL_CTRL.RETRAIN p, BL_CTRL.RECAL_BEATS p, BL_CTRL.SWAP_LIMIT p] }] ++
  [{ off := 0x8, bits := 32, fields := [BL_STATUS.STATE p, BL_STATUS.WIDTH p, BL_STATUS.STEP p, BL_STATUS.GEN p, BL_STATUS.SB_SET p, BL_STATUS.SPARES_USED p, BL_STATUS.ATTEMPTS p] }] ++
  [{ off := 0x10, bits := 64, fields := [BL_HASH.HUB p, BL_HASH.DIE p] }] ++
  [{ off := 0x18, bits := 64, fields := ((List.range 8).map fun j => BL_MAP_TX0.WIRE p j) ++ ((List.range 8).map fun j => BL_MAP_TX0.LOST p j) }] ++
  [{ off := 0x20, bits := 64, fields := ((List.range 8).map fun j => BL_MAP_TX1.WIRE p j) ++ ((List.range 8).map fun j => BL_MAP_TX1.LOST p j) }] ++
  [{ off := 0x28, bits := 64, fields := ((List.range 8).map fun j => BL_MAP_RX0.WIRE p j) ++ ((List.range 8).map fun j => BL_MAP_RX0.LOST p j) }] ++
  [{ off := 0x30, bits := 64, fields := ((List.range 8).map fun j => BL_MAP_RX1.WIRE p j) ++ ((List.range 8).map fun j => BL_MAP_RX1.LOST p j) }] ++
  [{ off := 0x38, bits := 32, fields := [BL_ERR.REPLAY p, BL_ERR.SWAP p, BL_ERR.HALF p, BL_ERR.PORT_FAILED p, BL_ERR.CLK_SILENT p, BL_ERR.SB_SET p, BL_ERR.MAP_MISMATCH p, BL_ERR.MAP_REJECT p, BL_ERR.INDEX_CONFLICT p, BL_ERR.GEN_MISMATCH p] }] ++
  [{ off := 0x40, bits := 64, fields := [BL_CNT.REPLAYS p, BL_CNT.PATTERN_ERRS p] }] ++
  [{ off := 0x48, bits := 32, fields := [BL_TOKEN.DELAY p] }]

/-- Memory channels (R385 to R387): the registers of the page. -/
def regsMC (c : Nat) : List Reg :=
  [{ off := 0x0, bits := 32, fields := [MC_CTRL.MIRROR c, MC_CTRL.ALLOW_4800 c, MC_CTRL.ALLOW_3200 c, MC_CTRL.RATE c, MC_CTRL.CAL_BEATS c] }] ++
  [{ off := 0x8, bits := 32, fields := [MC_STATUS.STATE c, MC_STATUS.RATE c, MC_STATUS.SET c, MC_STATUS.ALONE c, MC_STATUS.POSTPONED c, MC_STATUS.SIZE c, MC_STATUS.DIMMS c, MC_STATUS.RANKS c] }] ++
  [{ off := 0x10, bits := 32, fields := [MC_REFRESH.FGR c, MC_REFRESH.POSTPONE_MAX c] }] ++
  [{ off := 0x18, bits := 32, fields := [MC_ECC.MARK_LIMIT c] }] ++
  [{ off := 0x20, bits := 64, fields := ((List.range 4).map fun j => MC_MARK.DEVICE c j) ++ ((List.range 4).map fun j => MC_MARK.VALID c j) }] ++
  [{ off := 0x28, bits := 64, fields := [MC_SCRUB.PASS_HOURS c, MC_SCRUB.PASSES c] }] ++
  [{ off := 0x30, bits := 64, fields := [MC_SCRUB_POS.LINE c] }] ++
  [{ off := 0x38, bits := 32, fields := [MC_ERR.CORRECTED c, MC_ERR.UNCORRECTED c, MC_ERR.MARKED c, MC_ERR.SECOND_DEVICE c, MC_ERR.POISON_READ c, MC_ERR.LINK_RETRY c, MC_ERR.CFG c, MC_ERR.TRAIN_FAIL c, MC_ERR.FENCED c, MC_ERR.MIRROR_REPAIR c] }] ++
  [{ off := 0x40, bits := 64, fields := [MC_ERR_INFO.LINE c, MC_ERR_INFO.RANK c, MC_ERR_INFO.SUBCH c, MC_ERR_INFO.DEVICE c, MC_ERR_INFO.EVENT c] }] ++
  [{ off := 0x48, bits := 64, fields := [MC_CNT.CORRECTED c, MC_CNT.UNCORRECTED c] }]

/-- Traffic regulation (R409 to R413): the registers of the page. -/
def regsQT : List Reg :=
  [{ off := 0x0, bits := 64, fields := [QT_RESERVE.HP, QT_RESERVE.DL_ENG, QT_RESERVE.DL_HUB] }] ++
  [{ off := 0x8, bits := 64, fields := [QT_CAP.CAP, QT_CAP.SUSTAIN, QT_CAP.BE_POOL, QT_CAP.DL_SCALE, QT_CAP.THR, QT_CAP.STOP] }] ++
  [{ off := 0x10, bits := 32, fields := [QT_STATUS.CFG] }] ++
  [{ off := 0x18, bits := 64, fields := ((List.range 6).map fun j => QT_BE_WEIGHT.W j) }] ++
  [{ off := 0x20, bits := 64, fields := ((List.range 4).map fun j => QT_ARB_CTRL.WAIT_LIMIT j) ++ ((List.range 4).map fun j => QT_ARB_CTRL.HOLD_LIMIT j) }] ++
  [{ off := 0x28, bits := 32, fields := ((List.range 8).map fun j => QT_ARB_CLASS.DDR j) ++ ((List.range 8).map fun j => QT_ARB_CLASS.SC j) }] ++
  [{ off := 0x30, bits := 32, fields := [QT_SRC_TAG.GUNEL, QT_SRC_TAG.INTERNAL, QT_SRC_TAG.RP, QT_SRC_TAG.MQ] }] ++
  [{ off := 0x38, bits := 32, fields := [QT_ERR.DL_SCALED, QT_ERR.HP_UNCOVERED, QT_ERR.HOLD_CUT, QT_ERR.DL_LATE] }] ++
  [{ off := 0x40, bits := 32, fields := [QT_HOLD_INFO.INSTANCE, QT_HOLD_INFO.PORT, QT_HOLD_INFO.REQUESTER] }] ++
  [{ off := 0x48, bits := 32, fields := [QT_IND_CMD.INDEX, QT_IND_CMD.TARGET, QT_IND_CMD.OP, QT_IND_CMD.STATUS, QT_IND_CMD.GO] }] ++
  [{ off := 0x50, bits := 64, fields := [QT_IND_DATA0.DATA] }] ++
  ((List.range 16).map fun i => { off := 0x100 + 8 * i, bits := 64, fields := (List.range 16).map fun j => QT_MAP.CLASS (16 * i + j) })

/-- Worlds and security (R465 to R469): the registers of the page. -/
def regsWS : List Reg :=
  [{ off := 0x0, bits := 64, fields := [WS_SECURE_TOP.TOP] }] ++
  [{ off := 0x8, bits := 32, fields := [WS_LOCK.TOP_LOCK, WS_LOCK.DEBUG_LOCK] }] ++
  [{ off := 0x10, bits := 32, fields := [WS_STATUS.RESTARTING, WS_STATUS.DOWN, WS_STATUS.SIGN_READY, WS_STATUS.FAILS, WS_STATUS.RESTARTS] }] ++
  [{ off := 0x18, bits := 64, fields := [WS_CLAIM.CDIE, WS_CLAIM.CHANNEL, WS_CLAIM.SIGN, WS_CLAIM.ENDPOINT] }] ++
  ((List.range 6).map fun i => { off := 0x20 + 8 * i, bits := 64, fields := [WS_CLAIM_TILE.TILE i] }) ++
  [{ off := 0x50, bits := 32, fields := [WS_DEBUG.SID, WS_DEBUG.SNID, WS_DEBUG.NID, WS_DEBUG.NNID] }] ++
  [{ off := 0x58, bits := 32, fields := [WS_WDOG.PERIOD, WS_WDOG.KICK] }] ++
  [{ off := 0x60, bits := 32, fields := [WS_RESTART.REQ, WS_RESTART.DONE, WS_RESTART.CAUSE, WS_RESTART.IDENTITY] }] ++
  [{ off := 0x68, bits := 64, fields := [WS_IOMMU.INTERNAL_DEVID, WS_IOMMU.RP_BASE] }] ++
  [{ off := 0x70, bits := 32, fields := [WS_ERR.VIOLATION, WS_ERR.MSI_SECURE, WS_ERR.REG_WRITE, WS_ERR.REFUSED, WS_ERR.CFG, WS_ERR.RESTART, WS_ERR.DOWN] }] ++
  [{ off := 0x78, bits := 64, fields := [WS_ERR_INFO.ADDR, WS_ERR_INFO.SOURCE, WS_ERR_INFO.EVENT] }] ++
  [{ off := 0x80, bits := 32, fields := [WS_KEY_CMD.SLOT, WS_KEY_CMD.OP, WS_KEY_CMD.STATUS, WS_KEY_CMD.GO] }] ++
  [{ off := 0x88, bits := 64, fields := [WS_KEY_META.FUNCTION, WS_KEY_META.FN_VALID, WS_KEY_META.INTERNAL_OK, WS_KEY_META.TYPE, WS_KEY_META.GEN] }] ++
  ((List.range 8).map fun i => { off := 0xc0 + 8 * i, bits := 64, fields := [WS_KEY_DATA.KEY i] }) ++
  ((List.range 13).map fun i => { off := 0x100 + 8 * i, bits := 64, fields := [WS_SEAL_PUB.PUB i] }) ++
  ((List.range 2).map fun i => { off := 0x180 + 8 * i, bits := 64, fields := [WS_SIGNER_ID.ID i] })

/-- Clocks (R492): the registers of the page. -/
def regsCLK (tile : Nat) : List Reg :=
  [{ off := 0x0, bits := 32, fields := [CLK_CTRL.MARGIN_EN, CLK_CTRL.DROOP_EN, CLK_CTRL.RETIRE_EN, CLK_CTRL.TARGET] }] ++
  [{ off := 0x8, bits := 32, fields := [CLK_STATUS.XTAL_G_OK, CLK_STATUS.XTAL_F_OK, CLK_STATUS.GUNEL_HB] }] ++
  [{ off := 0x10, bits := 32, fields := [CLK_ERR.GUNEL_LAPSE, CLK_ERR.TRIM_LIMIT, CLK_ERR.DROOP, CLK_ERR.RETIRE] }] ++
  [{ off := 0x18, bits := 32, fields := [CLK_TRIM_SEL.TILE] }] ++
  [{ off := 0x20, bits := 64, fields := [CLK_TRIM.TRIM tile, CLK_TRIM.MARGIN tile, CLK_TRIM.AGE tile, CLK_TRIM.DROOPS tile] }]

/-- Power (R493, R494): the registers of the page. -/
def regsPWR : List Reg :=
  [{ off := 0x0, bits := 32, fields := [PWR_CTRL.TDP, PWR_CTRL.HYST, PWR_CTRL.QUIET_RATE, PWR_CTRL.TILE_IDLE] }] ++
  [{ off := 0x8, bits := 32, fields := [PWR_THERM.TJ_MAX, PWR_THERM.TJ_CRIT] }] ++
  [{ off := 0x10, bits := 32, fields := [PWR_STATUS.STATE, PWR_STATUS.DUTY, PWR_STATUS.MIN_CAP, PWR_STATUS.TCAP_LOW] }] ++
  [{ off := 0x18, bits := 32, fields := [PWR_MEAS.POWER, PWR_MEAS.TJ_HOT, PWR_MEAS.TJ_DIE] }] ++
  [{ off := 0x20, bits := 32, fields := [PWR_CMD.INDEX, PWR_CMD.TARGET, PWR_CMD.OP, PWR_CMD.STATUS, PWR_CMD.GO] }] ++
  [{ off := 0x28, bits := 32, fields := [PWR_WAKE.EN, PWR_WAKE.CAUSE] }] ++
  [{ off := 0x30, bits := 32, fields := [PWR_ERR.THERM_CAP, PWR_ERR.REFUSED, PWR_ERR.TDP_LIMIT, PWR_ERR.DUTY] }]

/-- Gunel (R510): the registers of the page. -/
def regsGN : List Reg :=
  [{ off := 0x0, bits := 32, fields := [GN_CTRL.WDOG_MS] }] ++
  [{ off := 0x8, bits := 32, fields := [GN_STATUS.RUNNING, GN_STATUS.SLOT, GN_STATUS.HUB_LAPSE, GN_STATUS.RECOVERY, GN_STATUS.RESTARTS] }] ++
  [{ off := 0x10, bits := 64, fields := [GN_RING_BASE.BASE] }] ++
  [{ off := 0x18, bits := 32, fields := [GN_RING_CTRL.ENABLE, GN_RING_CTRL.LOG2] }] ++
  [{ off := 0x20, bits := 64, fields := [GN_RING_MSI_ADDR.ADDR] }] ++
  [{ off := 0x28, bits := 32, fields := [GN_RING_MSI_DATA.DATA] }] ++
  [{ off := 0x100, bits := 32, fields := [GN_MBOX_CMD.OP, GN_MBOX_CMD.STATUS, GN_MBOX_CMD.OVERRUN, GN_MBOX_CMD.GO] }] ++
  ((List.range 8).map fun i => { off := 0x140 + 8 * i, bits := 64, fields := [GN_MBOX_DATA.DATA i] }) ++
  [{ off := 0x200, bits := 32, fields := [GN_SMBOX_CMD.OP, GN_SMBOX_CMD.STATUS, GN_SMBOX_CMD.OVERRUN, GN_SMBOX_CMD.GO] }] ++
  ((List.range 8).map fun i => { off := 0x240 + 8 * i, bits := 64, fields := [GN_SMBOX_DATA.DATA i] })

/-- Flacon (R538): the registers of the page. -/
def regsFL : List Reg :=
  [{ off := 0x0, bits := 32, fields := [FL_STATUS.READY, FL_STATUS.ALARM, FL_STATUS.CAL, FL_STATUS.FUSES_OUT] }] ++
  [{ off := 0x8, bits := 32, fields := [FL_MB_CMD.OP, FL_MB_CMD.STATUS, FL_MB_CMD.OVERRUN, FL_MB_CMD.GO] }] ++
  ((List.range 2).map fun i => { off := 0x10 + 8 * i, bits := 64, fields := [FL_MB_ARG.ARG i] }) ++
  ((List.range 32).map fun i => { off := 0x100 + 8 * i, bits := 64, fields := [FL_MB_RSP.RSP i] })

/-- Performance monitoring (R549): the registers of the page. -/
def regsPM : List Reg :=
  [{ off := 0x0, bits := 32, fields := [PM_CTRL.USER_ENABLE] }] ++
  [{ off := 0x8, bits := 32, fields := [PM_STATUS.SMALL, PM_STATUS.DUMPING, PM_STATUS.DROPPED] }] ++
  [{ off := 0x10, bits := 64, fields := ((List.range 12).map fun j => PM_PART.PART j) ++ ((List.range 12).map fun j => PM_PART.SHARED j) }] ++
  [{ off := 0x18, bits := 64, fields := [PM_DUMP_BASE.BASE] }] ++
  [{ off := 0x20, bits := 64, fields := [PM_DUMP_CTRL.EVERY, PM_DUMP_CTRL.RING_LOG2, PM_DUMP_CTRL.ENTRY_LOG2, PM_DUMP_CTRL.TAG, PM_DUMP_CTRL.SETS, PM_DUMP_CTRL.ENABLE] }] ++
  [{ off := 0x28, bits := 32, fields := [PM_DUMP_PI.PI] }] ++
  [{ off := 0x30, bits := 32, fields := [PM_DUMP_CI.CI] }] ++
  [{ off := 0x38, bits := 32, fields := [PM_ERR.NOT_SMALL, PM_ERR.DROPPED, PM_ERR.ENTRY_SMALL, PM_ERR.REFUSED] }] ++
  [{ off := 0x40, bits := 32, fields := [PM_RD_SEL.SET, PM_RD_SEL.INSTANCE, PM_RD_SEL.COUNTER] }] ++
  [{ off := 0x48, bits := 64, fields := [PM_RD_DATA.VALUE] }]

/-- R570: the registers of set-up page `n`, `fn` and `tile` being what HF_FN_SEL and CLK_TRIM_SEL name; the IOMMU's
page 14 follows its own layout (R463) and is not listed here. -/
def regsOfPage (fn tile n : Nat) : List Reg :=
  if n == 0 then regsBT
  else if n == 1 then regsRE
  else if n == 2 then regsHF fn
  else if n == 3 then regsMQ
  else if n == 4 then regsCN
  else if n == 5 then regsSC
  else if n == 6 then regsHA
  else if n == 7 then regsQT
  else if n == 8 then regsWS
  else if n == 9 then regsCLK tile
  else if n == 10 then regsPWR
  else if n == 11 then regsGN
  else if n == 12 then regsFL
  else if n == 13 then regsPM
  else if n == 15 then regsNOC 12
  else if 16 ≤ n ∧ n ≤ 27 then regsNOC (n - 16)
  else if 32 ≤ n ∧ n ≤ 55 then regsAE (n - 32)
  else if 64 ≤ n ∧ n ≤ 87 then regsBL (n - 64)
  else if 96 ≤ n ∧ n ≤ 111 then regsMC (n - 96)
  else []

end Sys2Proof.Machine
end

