-- ==== Sys2Proof/Machine/Tbl.lean ====
section
/-!
DEFINITION. A sparse table: a list of key and value pairs with strictly rising keys and no entry equal to the value
that an absent key reads as.  Memory, the register store and every indexed set of contexts have this one form, so
equal tables are equal lists.
-/

namespace Sys2Proof.Machine

/-- A sparse table from natural-number keys. -/
abbrev Tbl (α : Type) := List (Nat × α)

/-- The entry at key `k`. -/
def Tbl.find {α : Type} : Tbl α → Nat → Option α
  | [], _ => none
  | (j, a) :: t, k => if k = j then some a else Tbl.find t k

/-- The value at key `k`, `d` where no entry stands. -/
def Tbl.get {α : Type} (d : α) (t : Tbl α) (k : Nat) : α := (t.find k).getD d

/-- `t` with no entry at key `k`. -/
def Tbl.erase {α : Type} (t : Tbl α) (k : Nat) : Tbl α := t.filter fun e => e.1 != k

/-- `t` with the entry `a` at key `k`. -/
def Tbl.insert {α : Type} : Tbl α → Nat → α → Tbl α
  | [], k, a => [(k, a)]
  | (j, b) :: t, k, a =>
    if k = j then (k, a) :: t else if k < j then (k, a) :: (j, b) :: t else (j, b) :: Tbl.insert t k a

/-- `t` with the value `a` at key `k`; the value that an absent key reads as leaves no entry. -/
def Tbl.set {α : Type} [DecidableEq α] (d : α) (t : Tbl α) (k : Nat) (a : α) : Tbl α :=
  if a = d then t.erase k else t.insert k a

/-- The value at `k` changed by `f`. -/
def Tbl.mod {α : Type} [DecidableEq α] (d : α) (t : Tbl α) (k : Nat) (f : α → α) : Tbl α :=
  Tbl.set d t k (f (Tbl.get d t k))

/-- Keys rise strictly. -/
def Tbl.rising {α : Type} : Tbl α → Bool
  | [] => true
  | [_] => true
  | (i, _) :: (j, b) :: t => decide (i < j) && Tbl.rising ((j, b) :: t)

/-- The canonical form: keys rise strictly and no entry holds the value of an absent key. -/
def Tbl.wf {α : Type} [DecidableEq α] (d : α) (t : Tbl α) : Bool :=
  t.rising && t.all fun e => decide (e.2 ≠ d)

/-- The entries whose key satisfies `p`. -/
def Tbl.keep {α : Type} (p : Nat → Bool) (t : Tbl α) : Tbl α := t.filter fun e => p e.1

/-- Every value passed through `f`, the default entries dropped. -/
def Tbl.mapVals {α : Type} [DecidableEq α] (d : α) (t : Tbl α) (f : Nat → α → α) : Tbl α :=
  (t.map fun e => (e.1, f e.1 e.2)).filter fun e => decide (e.2 ≠ d)

end Sys2Proof.Machine
end

