-- ==== Sys2Proof/Machine/Zstd.lean ====
section
/-!
DEFINITION. The Zstandard decoder of the recall direction (R112), after RFC 8878: frame headers and their limits, blocks,
literals, Huffman and FSE tables, sequences, the content checksum.
-/

namespace Sys2Proof.Machine

/-! ### Bits read backwards -/

/-- A bitstream that is read from its last bit towards its first: all its bits as one number, and how many are left;
past the first bit the stream reads zeros and `left` is negative. -/
structure BackBits where
  all : Nat
  left : Int
  deriving DecidableEq, Repr

/-- The stream of a byte string, whose highest set bit is a mark; none where the last byte is zero. -/
def BackBits.ofBytes (b : Bytes) : Option BackBits :=
  match b.getLast? with
  | none => none
  | some x => if x == 0 then none else some { all := ofLe b, left := (ofLe b).log2 }

/-- The next `n` bits without taking them. -/
def BackBits.peek (s : BackBits) (n : Nat) : Nat :=
  if 0 ≤ s.left - n then s.all / 2 ^ (s.left - n).toNat % 2 ^ n
  else s.all % 2 ^ s.left.toNat * 2 ^ (n - s.left.toNat) % 2 ^ n

/-- The stream after `n` bits. -/
def BackBits.skip (s : BackBits) (n : Nat) : BackBits := { s with left := s.left - n }

/-! ### FSE tables -/

/-- A decoding state: its symbol, the bits to read and the state they are added to. -/
structure FseCell where
  symbol : Nat := 0
  bits : Nat := 0
  base : Nat := 0
  deriving DecidableEq, Repr

/-- An FSE decoding table: its accuracy and its cells. -/
structure Fse where
  log : Nat
  cells : Array FseCell
  deriving DecidableEq, Repr

/-- The zero counts that follow a zero count: how many, and the bit position after their flags. -/
def fseZeros (all : Nat) : Nat → Nat → Nat → Nat × Nat
  | 0, n, pos => (n, pos)
  | fuel + 1, n, pos =>
    let r := bits all pos 2
    if r == 3 then fseZeros all fuel (n + 3) (pos + 2) else (n + r, pos + 2)

/-- The normalised counts of a table description, from bit `pos` on; −1 is a count below one. -/
def fseCounts (all limit : Nat) : Nat → Nat → Nat → List Int → Option (List Int × Nat)
  | 0, _, _, _ => none
  | fuel + 1, left, pos, acc =>
    if left == 0 then some (acc.reverse, pos)
    else if limit < pos then none
    else
      let n := (left + 1).log2 + 1
      let v := bits all pos n
      let low := 2 ^ (n - 1) - 1
      let threshold := 2 ^ n - 1 - (left + 1)
      let (v, pos) :=
        if v % 2 ^ (n - 1) < threshold then (v % 2 ^ (n - 1), pos + n - 1)
        else (if v > low then v - threshold else v, pos + n)
      let p : Int := (v : Int) - 1
      let used := p.natAbs
      if used > left then none
      else if p == 0 then
        let (z, pos) := fseZeros all 256 0 pos
        fseCounts all limit fuel left pos (List.replicate z 0 ++ (0 :: acc))
      else fseCounts all limit fuel (left - used) pos (p :: acc)

/-- The next place of the spread that is not taken from the top. -/
def fseStep (size high : Nat) : Nat → Nat → Nat
  | 0, pos => pos
  | fuel + 1, pos =>
    let p := (pos + (size / 2 + size / 8 + 3)) % size
    if high ≤ p then fseStep size high fuel p else p

/-- The symbols spread over the states. -/
def fseSpread (size : Nat) (counts : List Int) : Array Nat :=
  let start : Array Nat × Nat := (Array.replicate size 0, size)
  let (cells, high) := counts.zipIdx.foldl (fun (s : Array Nat × Nat) c =>
    if c.1 == -1 then (s.1.setIfInBounds (s.2 - 1) c.2, s.2 - 1) else s) start
  (counts.zipIdx.foldl (fun (s : Array Nat × Nat) c =>
    (List.range c.1.toNat).foldl (fun s _ => (s.1.setIfInBounds s.2 c.2, fseStep size high size s.2)) s)
    (cells, 0)).1

/-- The decoding table of normalised counts. -/
def Fse.build (log : Nat) (counts : List Int) : Fse :=
  let size := 2 ^ log
  let spread := fseSpread size counts
  let next : Array Nat := (counts.map fun c => if c == -1 then 1 else c.toNat).toArray
  let (cells, _) := spread.foldl (fun (s : Array FseCell × Array Nat) sym =>
    let n := s.2.getD sym 0
    let b := log - n.log2
    (s.1.push { symbol := sym, bits := b, base := n * 2 ^ b - size }, s.2.setIfInBounds sym (n + 1))) (#[], next)
  { log := log, cells := cells }

/-- A table description at the head of `b`: the table and the bytes it takes; `maxLog` bounds the accuracy and `maxSym`
the symbols. -/
def Fse.read (b : Bytes) (maxLog maxSym : Nat) : Option (Fse × Nat) :=
  let part := b.take 512
  let all := ofLe part
  let log := bits all 0 4 + 5
  if maxLog < log then none else
  match fseCounts all (8 * part.length) (maxSym + 2) (2 ^ log) 4 [] with
  | none => none
  | some (counts, pos) =>
    let bytes := ceilDiv pos 8
    if maxSym + 1 < counts.length || b.length < bytes then none else some (Fse.build log counts, bytes)

/-- The table with one symbol. -/
def Fse.single (sym : Nat) : Fse := { log := 0, cells := #[{ symbol := sym }] }

/-- The cell of a state. -/
def Fse.cell (f : Fse) (state : Nat) : FseCell := f.cells.getD state {}

/-- The next state. -/
def Fse.next (f : Fse) (state : Nat) (s : BackBits) : Nat × BackBits :=
  let c := f.cell state
  (c.base + s.peek c.bits, s.skip c.bits)

/-! ### Huffman tables -/

/-- A Huffman decoding table: the longest code, and for each value of that many bits the symbol and its length. -/
structure Huff where
  max : Nat
  cells : Array (Nat × Nat)
  deriving DecidableEq, Repr

/-- The weights of an FSE stream with two states in turn. -/
def huffWeights (f : Fse) : Nat → Nat → Nat → BackBits → List Nat → Option (List Nat)
  | 0, _, _, _, _ => none
  | fuel + 1, a, b, s, acc =>
    let acc := (f.cell a).symbol :: acc
    let (a', s) := f.next a s
    if s.left < 0 then some (((f.cell b).symbol :: acc).reverse)
    else huffWeights f fuel b a' s acc

/-- The Huffman table of the weights; the last symbol's weight completes them. -/
def Huff.build (ws : List Nat) : Option Huff :=
  let sum := (ws.map fun w => if w == 0 then 0 else 2 ^ (w - 1)).sum
  if sum == 0 || 255 < ws.length then none else
  let max := sum.log2 + 1
  let left := 2 ^ max - sum
  if 11 < max || left != 2 ^ left.log2 then none else
  let ws := ws ++ [left.log2 + 1]
  let lens := ws.map fun w => if w == 0 then 0 else max + 1 - w
  let cells := (List.range max).foldl (fun (a : Array (Nat × Nat)) i =>
    let len := max - i
    lens.zipIdx.foldl (fun a l => if l.1 == len then a ++ Array.replicate (2 ^ i) (l.2, len) else a) a) #[]
  some { max := max, cells := cells }

/-- A Huffman tree description at the head of `b`: the table and the bytes it takes. -/
def Huff.read (b : Bytes) : Option (Huff × Nat) :=
  match b with
  | [] => none
  | h :: t =>
    if 128 ≤ h.toNat then
      let n := h.toNat - 127
      let len := (n + 1) / 2
      if t.length < len then none else
      let ws := (List.range n).map fun i =>
        let x := (t.getD (i / 2) 0).toNat
        if i % 2 == 0 then x / 16 else x % 16
      (Huff.build ws).map fun f => (f, 1 + len)
    else
      let part := t.take h.toNat
      if t.length < h.toNat then none else
      match Fse.read part 6 255 with
      | none => none
      | some (f, used) => match BackBits.ofBytes (part.drop used) with
        | none => none
        | some s =>
          let a := s.peek f.log
          let s := s.skip f.log
          let b := s.peek f.log
          let s := s.skip f.log
          match huffWeights f 256 a b s [] with
          | none => none
          | some ws => (Huff.build ws).map fun g => (g, 1 + h.toNat)

/-- The bytes of one Huffman stream; it ends where its first bit is taken. -/
def Huff.stream (h : Huff) : Nat → BackBits → List Byte → Option Bytes
  | 0, s, acc => if s.left == 0 then some acc.reverse else none
  | n + 1, s, acc =>
    let c := h.cells.getD (s.peek h.max) (0, 0)
    if c.2 == 0 then none else Huff.stream h n (s.skip c.2) (BitVec.ofNat 8 c.1 :: acc)

/-- The `n` bytes that a Huffman-coded byte string holds. -/
def Huff.decode (h : Huff) (n : Nat) (b : Bytes) : Option Bytes :=
  match BackBits.ofBytes b with
  | none => none
  | some s => h.stream n s []

/-! ### Literals -/

/-- What later blocks of a segment may use again (R112, limit 4). -/
structure ZTables where
  huff : Option Huff := none
  ll : Option Fse := none
  of : Option Fse := none
  ml : Option Fse := none
  deriving DecidableEq, Repr

/-- Why a block or a frame is not decoded: it breaks the format, or it exceeds a limit of R112. -/
inductive ZBad where
  | error
  | limit (n : Nat)
  deriving DecidableEq, Repr

/-- The four streams of literals. -/
def Huff.four (h : Huff) (n : Nat) (b : Bytes) : Option Bytes :=
  let a1 := leAt b 0 2
  let a2 := leAt b 2 2
  let a3 := leAt b 4 2
  let t := b.drop 6
  let each := (n + 3) / 4
  if b.length < 6 + a1 + a2 + a3 + 1 || n < 3 * each then none else
  match h.decode each (t.take a1), h.decode each ((t.drop a1).take a2), h.decode each ((t.drop (a1 + a2)).take a3),
    h.decode (n - 3 * each) (t.drop (a1 + a2 + a3)) with
  | some w, some x, some y, some z => some (w ++ x ++ y ++ z)
  | _, _, _, _ => none

/-- The literals section at the head of a block: the literals, the tables after it, and the bytes it takes. -/
def zLiterals (t : ZTables) (b : Bytes) : Except ZBad (Bytes × ZTables × Nat) :=
  let h := leAt b 0 1
  let type := h % 4
  let sf := bits h 2 2
  if type < 2 then
    let (n, hl) := if sf % 2 == 0 then (h / 8, 1) else if sf == 1 then (leAt b 0 2 / 16, 2) else (leAt b 0 3 / 16, 3)
    let body := if type == 0 then n else 1
    if b.length < hl + body || 131072 < n then .error .error
    else if type == 0 then .ok ((b.drop hl).take n, t, hl + n)
    else .ok (List.replicate n (b.getD hl 0), t, hl + 1)
  else
    let (w, hl) := if sf < 2 then (10, 3) else if sf == 2 then (14, 4) else (18, 5)
    let v := leAt b 0 hl
    let n := bits v 4 w
    let size := bits v (4 + w) w
    if b.length < hl + size || 131072 < n then .error .error else
    let part := (b.drop hl).take size
    let table : Except ZBad (Huff × Nat) :=
      if type == 2 then match Huff.read part with
        | some x => .ok x
        | none => .error .error
      else match t.huff with
        | some x => .ok (x, 0)
        | none => .error (.limit 4)
    match table with
    | .error e => .error e
    | .ok (f, used) =>
      let body := part.drop used
      match if sf == 0 then f.decode n body else f.four n body with
      | none => .error .error
      | some lits => .ok (lits, { t with huff := some f }, hl + size)

/-! ### Sequences -/

/-- The predefined counts of literal lengths. -/
def llDefault : List Int := [4, 3, 2, 2, 2, 2, 2, 2, 2, 2, 2, 2, 2, 1, 1, 1, 2, 2, 2, 2, 2, 2, 2, 2, 2, 3, 2, 1, 1, 1, 1, 1,
  -1, -1, -1, -1]

/-- The predefined counts of match lengths. -/
def mlDefault : List Int := [1, 4, 3, 2, 2, 2, 2, 2, 2] ++ List.replicate 37 1 ++ List.replicate 7 (-1)

/-- The predefined counts of offsets. -/
def ofDefault : List Int := [1, 1, 1, 1, 1, 1, 2, 2, 2] ++ List.replicate 15 1 ++ List.replicate 5 (-1)

/-- A literal-length code: its base and its extra bits. -/
def llCode (c : Nat) : Nat × Nat :=
  if c < 16 then (c, 0) else
  [(16, 1), (18, 1), (20, 1), (22, 1), (24, 2), (28, 2), (32, 3), (40, 3), (48, 4), (64, 6), (128, 7), (256, 8), (512, 9),
    (1024, 10), (2048, 11), (4096, 12), (8192, 13), (16384, 14), (32768, 15), (65536, 16)].getD (c - 16) (0, 0)

/-- A match-length code: its base and its extra bits. -/
def mlCode (c : Nat) : Nat × Nat :=
  if c < 32 then (c + 3, 0) else
  [(35, 1), (37, 1), (39, 1), (41, 1), (43, 2), (47, 2), (51, 3), (59, 3), (67, 4), (83, 4), (99, 5), (131, 7), (259, 8),
    (515, 9), (1027, 10), (2051, 11), (4099, 12), (8195, 13), (16387, 14), (32771, 15), (65539, 16)].getD (c - 32) (0, 0)

/-- One of the three tables of the sequences section: its mode, the predefined counts, the table used last. -/
def zTable (mode : Nat) (b : Bytes) (defLog : Nat) (defCounts : List Int) (maxLog maxSym : Nat) (last : Option Fse) :
    Except ZBad (Fse × Nat) :=
  if mode == 0 then .ok (Fse.build defLog defCounts, 0)
  else if mode == 1 then
    if b.isEmpty || maxSym < leAt b 0 1 then .error .error else .ok (Fse.single (leAt b 0 1), 1)
  else if mode == 2 then match Fse.read b maxLog maxSym with
    | some x => .ok x
    | none => .error .error
  else match last with
    | some f => .ok (f, 0)
    | none => .error (.limit 4)

/-- A sequence: literals to copy, the offset value, the length of the match. -/
abbrev ZSeq := Nat × Nat × Nat

/-- The sequences of a bitstream; the states are not moved on after the last. -/
def zSeqs (ll off ml : Fse) : Nat → Nat → Nat → Nat → BackBits → List ZSeq → Option (List ZSeq)
  | 0, _, _, _, s, acc => if s.left == 0 then some acc.reverse else none
  | n + 1, a, o, m, s, acc =>
    let oc := (off.cell o).symbol
    let (mb, mx) := mlCode (ml.cell m).symbol
    let (lb, lx) := llCode (ll.cell a).symbol
    let ov := 2 ^ oc + s.peek oc
    let s := s.skip oc
    let mv := mb + s.peek mx
    let s := s.skip mx
    let lv := lb + s.peek lx
    let s := s.skip lx
    if s.left < 0 then none
    else if n == 0 then zSeqs ll off ml 0 a o m s ((lv, ov, mv) :: acc)
    else
      let (a, s) := ll.next a s
      let (m, s) := ml.next m s
      let (o, s) := off.next o s
      zSeqs ll off ml n a o m s ((lv, ov, mv) :: acc)

/-- The offset of a sequence and the three offsets kept after it. -/
def zOffset (reps : List Nat) (ov ll : Nat) : Nat × List Nat :=
  let r := fun i => reps.getD i 0
  if 3 < ov then (ov - 3, [ov - 3, r 0, r 1]) else
  let i := if ll == 0 then ov else ov - 1
  if i == 0 then (r 0, reps)
  else if i == 1 then (r 1, [r 1, r 0, r 2])
  else if i == 2 then (r 2, [r 2, r 0, r 1])
  else (r 0 - 1, [r 0 - 1, r 0, r 1])

/-- `n` bytes copied from `off` bytes back, one after the other. -/
def zCopy (out : Array Byte) (off : Nat) : Nat → Array Byte
  | 0 => out
  | n + 1 => zCopy (out.push (out.getD (out.size - off) 0)) off n

/-- The sequences carried out on the content so far; `window` bounds the offsets. -/
def zExecute (window : Nat) : List ZSeq → Array Byte → Bytes → List Nat → Option (Array Byte × List Nat)
  | [], out, lits, reps => some (out ++ lits.toArray, reps)
  | (l, ov, m) :: t, out, lits, reps =>
    if lits.length < l then none else
    let out := out ++ (lits.take l).toArray
    let (off, reps) := zOffset reps ov l
    if off == 0 || window < off || out.size < off then none
    else zExecute window t (zCopy out off m) (lits.drop l) reps

/-- A Compressed block: its content, the tables and the offsets after it; `history` is the frame's content before it. -/
def zBlock (t : ZTables) (reps : List Nat) (window : Nat) (history b : Bytes) : Except ZBad (Bytes × ZTables × List Nat) :=
  match zLiterals t b with
  | .error e => .error e
  | .ok (lits, t, used) =>
    let b := b.drop used
    let h0 := leAt b 0 1
    let (n, hl) := if h0 < 128 then (h0, 1) else if h0 < 255 then ((h0 - 128) * 256 + leAt b 1 1, 2)
      else (leAt b 1 2 + 0x7F00, 3)
    if b.length < hl then .error .error
    else if n == 0 then if b.length == hl then .ok (lits, t, reps) else .error .error
    else
      let modes := leAt b hl 1
      if b.length < hl + 1 || modes % 4 != 0 then .error .error else
      let b := b.drop (hl + 1)
      match zTable (bits modes 6 2) b 6 llDefault 9 35 t.ll with
      | .error e => .error e
      | .ok (ll, u1) => match zTable (bits modes 4 2) (b.drop u1) 5 ofDefault 8 31 t.of with
        | .error e => .error e
        | .ok (off, u2) => match zTable (bits modes 2 2) (b.drop (u1 + u2)) 6 mlDefault 9 52 t.ml with
          | .error e => .error e
          | .ok (ml, u3) => match BackBits.ofBytes (b.drop (u1 + u2 + u3)) with
            | none => .error .error
            | some s =>
              let a := s.peek ll.log
              let s := s.skip ll.log
              let o := s.peek off.log
              let s := s.skip off.log
              let m := s.peek ml.log
              let s := s.skip ml.log
              match zSeqs ll off ml n a o m s [] with
              | none => .error .error
              | some seqs => match zExecute window seqs history.toArray lits reps with
                | none => .error .error
                | some (out, reps) =>
                  .ok (out.toList.drop history.length, { t with ll := some ll, of := some off, ml := some ml }, reps)

/-! ### Frame headers -/

/-- What a frame header says: its length, the window, the content's length, whether a checksum follows. -/
structure ZFrame where
  header : Nat := 0
  window : Nat := 0
  content : Option Nat := none
  checksum : Bool := false
  deriving DecidableEq, Repr

/-- The bytes of a frame header by its descriptor, the magic number included. -/
def zHeaderLen (fhd : Nat) : Nat :=
  5 + (if bit fhd 5 then 0 else 1) + [0, 1, 2, 4].getD (fhd % 4) 0 +
    (if bits fhd 6 2 == 0 then ofBool (bit fhd 5) else 2 ^ bits fhd 6 2)

/-- R112: a frame header, the lowest limit exceeded first. -/
def zHeader (b : Bytes) : Except ZBad ZFrame :=
  let fhd := leAt b 4 1
  let single := bit fhd 5
  let len := zHeaderLen fhd
  if leAt b 0 4 != 0xFD2FB528 || bit fhd 3 || b.length < len then .error .error else
  let o := if single then 5 else 6
  let wd := leAt b 5 1
  let base := 2 ^ (10 + wd / 8)
  let didLen := [0, 1, 2, 4].getD (fhd % 4) 0
  let did := leAt b o didLen
  let fcsLen := if bits fhd 6 2 == 0 then ofBool single else 2 ^ bits fhd 6 2
  let fcs := leAt b (o + didLen) fcsLen + if fcsLen == 2 then 256 else 0
  let window := if single then fcs else base + base / 8 * (wd % 8)
  if 65536 < window then .error (.limit 1)
  else if did != 0 then .error (.limit 2)
  else .ok { header := len, window := window, content := if fcsLen == 0 then none else some fcs, checksum := bit fhd 2 }

/-- Whether four bytes are the magic number of a skippable frame. -/
def zSkippable (magic : Nat) : Bool := magic / 16 == 0x184D2A5

/-! ### The content checksum -/

/-- A left rotation of 64 bits. -/
def rol64 (x r : Nat) : Nat := x * 2 ^ r % 2 ^ 64 + x % 2 ^ 64 / 2 ^ (64 - r)

/-- The five primes. -/
def xxP (i : Nat) : Nat :=
  [11400714785074694791, 14029467366897019727, 1609587929392839161, 9650029242287828579, 2870177450012600261].getD (i - 1) 0

/-- One round. -/
def xxRound (acc x : Nat) : Nat := rol64 ((acc + x * xxP 2) % 2 ^ 64) 31 * xxP 1 % 2 ^ 64

/-- An accumulator merged. -/
def xxMerge (h v : Nat) : Nat := ((h ^^^ xxRound 0 v) * xxP 1 + xxP 4) % 2 ^ 64

/-- XXH64 with seed 0. -/
def xxh64 (b : Bytes) : Nat :=
  let n := b.length
  let full := n / 32 * 32
  let start : List Nat := [(xxP 1 + xxP 2) % 2 ^ 64, xxP 2, 0, 2 ^ 64 - xxP 1]
  let vs := (pieces 32 (b.take full)).foldl (fun vs s => vs.zipIdx.map fun v => xxRound v.1 (leAt s (8 * v.2) 8)) start
  let v := fun i => vs.getD i 0
  let h := if n < 32 then xxP 5 else
    vs.foldl xxMerge ((rol64 (v 0) 1 + rol64 (v 1) 7 + rol64 (v 2) 12 + rol64 (v 3) 18) % 2 ^ 64)
  let h := (h + n) % 2 ^ 64
  let rest := b.drop full
  let h := (pieces 8 (rest.take (rest.length / 8 * 8))).foldl (fun h p =>
    (rol64 (h ^^^ xxRound 0 (ofLe p)) 27 * xxP 1 + xxP 4) % 2 ^ 64) h
  let rest := rest.drop (rest.length / 8 * 8)
  let h := if 4 ≤ rest.length then (rol64 (h ^^^ leAt rest 0 4 * xxP 1 % 2 ^ 64) 23 * xxP 2 + xxP 3) % 2 ^ 64 else h
  let rest := if 4 ≤ rest.length then rest.drop 4 else rest
  let h := rest.foldl (fun h x => rol64 (h ^^^ x.toNat * xxP 5 % 2 ^ 64) 11 * xxP 1 % 2 ^ 64) h
  let h := (h ^^^ h / 2 ^ 33) * xxP 2 % 2 ^ 64
  let h := (h ^^^ h / 2 ^ 29) * xxP 3 % 2 ^ 64
  h ^^^ h / 2 ^ 32

end Sys2Proof.Machine
end

