-- ==== Sys2Proof/Machine/State.lean ====
section
/-!
DEFINITION. The state of the QF-2880 as plain data.  Every field of every set-up register lives in `Chip.regs`, under
the key of its `Fld` constant and absent while it holds its reset value; the structures below hold what the spec gives
the machine beside its registers, one structure per block.  A default value is the value at reset; where the spec
gives none, the assumption log names it.
-/

namespace Sys2Proof.Machine

/-! ### Messages that leave the modelled part -/

/-- What the machine sends to something outside the model: the harts' own pipelines, the host, peers, drives and the
board.  The outbox keeps them in the order sent; the newest is first. (DESIGN CHOICE, log 4) -/
inductive Out where
  | readData (value : Nat)
  | msi (addr data : Nat)
  | msix (fn vector addr data : Nat)
  | hostWrite (fn iova : Nat) (data : Bytes)
  | hostRead (fn tag iova len : Nat)
  | aer (fn kind : Nat)
  | frame (port : Nat) (f : Frame)
  | wakePattern (port : Nat)
  | driveCommand (qp cid : Nat) (sqe : Bytes)
  | driveDoorbell (qp : Nat) (cq : Bool) (value : Nat)
  | trap (hart cause tval : Nat)
  | csrValue (hart value : Nat)
  | loadValue (hart value : Nat) (poison : Bool)
  | coherence (msg : String) (die line : Nat) (detail : Nat)
  | cohData (msg : String) (die line : Nat) (data : Bytes) (poison : Bool)
  | flit (die stop net vc : Nat) (f : Flit)
  | noc (msg : String) (die stop : Nat) (detail : Nat)
  | sideband (port : Nat) (msg : String) (detail : Nat)
  | dram (ch : Nat) (cmd : String) (detail : Nat)
  | token (value : Nat)
  | pin (name : String) (level : Nat)
  | mailbox (name : String) (data : Bytes)
  | spdm (data : Bytes)
  | power (what : String) (index value : Nat)
  | record (r : Bytes)
  | device (addr : Nat) (data : Bytes)
  deriving DecidableEq, Repr

/-! ### Reasons to stop -/

/-- Reasons for a fault.  No command of this block ends in one: the type names the one case a step could meet. -/
inductive Fault where
  /-- Raised by no meaning: a block has no execution that the spec leaves without an outcome. Safe. -/
  | none
  deriving DecidableEq, Repr

/-- Reasons for a refusal. -/
inductive Refusal where
  /-- Raised by an arm of exec whose command has no meaning yet. Safe. -/
  | notModelled (mnemonic : String)
  deriving DecidableEq, Repr

/-! ### The ring engine and the jobs (03 to 06) -/

/-- A ring context (R95) and what the ring engine keeps beside it (R66, R77); `held` has the writes, by offset, that wait
for the beat boundary (R12). (DESIGN CHOICE, log 5) -/
structure Ring where
  wrBase : Nat := 0
  crBase : Nat := 0
  wrLog2 : Nat := 0
  crLog2 : Nat := 0
  depth : Nat := 0
  flags : Nat := 0
  vector : Nat := 0
  coalCount : Nat := 0
  coalBeats : Nat := 0
  state : Nat := 0
  wrPi : Nat := 0
  wrCi : Nat := 0
  crPi : Nat := 0
  crCi : Nat := 0
  msiAddr : Nat := 0
  msiData : Nat := 0
  inProgress : Nat := 0
  sinceIrq : Nat := 0
  oldest : Nat := 0
  fetching : Bool := false
  dead : Bool := false
  held : List (Nat × Nat) := []
  nextSeq : Nat := 0
  deriving DecidableEq, Repr

/-- A function context (R96) and the accounting of its window (R86); `held` has the writes that wait for the boundary.
(DESIGN CHOICE, log 5) -/
structure FnCtx where
  weight : Nat := 1
  fetchCap : Nat := 0
  tagLo : Nat := 0
  tagHi : Nat := 0
  tagDefault : Nat := 0
  rate : Nat := 0
  credit : Nat := 0
  usedLast : Nat := 0
  deferred : Nat := 0
  used : Nat := 0
  cur : Int := 0
  fetched : Nat := 0
  rateNow : Nat := 0
  lastRing : Nat := 31
  turn : Nat := 31
  held : List (Nat × Nat) := []
  deriving DecidableEq, Repr

/-- A descriptor (R70). -/
structure Desc where
  opcode : Nat := 0
  flags : Nat := 0
  stages : Nat := 0
  jobTag : Nat := 0
  src : Nat := 0
  dst : Nat := 0
  length : Nat := 0
  keySlot : Nat := 0
  objectId : Nat := 0
  param : Nat := 0
  dstLimit : Nat := 0
  modes : Nat := 0
  avgExp : Nat := 0
  sillage : Nat := 0
  affinity : Nat := 0
  tail : Nat := 0
  deriving DecidableEq, Repr

/-- One accumulate item that a running segment still has to send to the homes (R140, R141, R144). -/
inductive OutItem where
  /-- A payload line: its DST address (none for a fold that writes no line, R146), the bytes, the offset of the first
  masked byte in the line, the stripe, the column j and the line position p. -/
  | fold (addr : Option Nat) (data : Bytes) (at_ : Nat) (stripe column position : Nat)
  /-- The close of a stripe: its number, its data-fragment count, and for each parity fragment its index, its DST
  address when it is written, and the 64 bytes of its header without the hash and the tag. -/
  | close (stripe columns : Nat) (parities : List (Nat × Option Nat × Bytes))
  /-- The manifest at `addr` is to be signed (R125): SIGN_REQUEST, then SIGNATURE_RETURN. -/
  | sign (manifest : Bytes)
  deriving DecidableEq, Repr

/-- The checkpoint of a job (R126, R166).  Hash midstates and the GHASH accumulator stand as the bytes they are
computed from; from `begun` on are the rows of the recall direction: the stream bytes taken and not yet decoded, the
decoder's frame and repeat offsets, the stripe with its verified, erased and rebuilt parts, and the report.
(DEDUCED, log 98) -/
structure Ck where
  pos : Nat := 0
  closing : Bool := false
  chunk : Nat := 0
  chunkPlain : Bytes := []
  chunkStart : Nat := 0
  gear : Nat := 0
  frame : Bytes := []
  sealed : Nat := 0
  leaves : List Bytes := []
  streamLen : Nat := 0
  fragFill : Bytes := []
  hashes : List Bytes := []
  closedStripes : Nat := 0
  hits : Nat := 0
  outLen : Nat := 0
  begun : Bool := false
  buf : Bytes := []
  chunkOpen : Bool := false
  decode : Nat := 0
  zstd : ZFrame := {}
  reps : List Nat := [1, 4, 8]
  dstOff : Nat := 0
  stripe : Option Nat := none
  stripesDone : Nat := 0
  verified : List Nat := []
  erased : List Nat := []
  rebuilt : List (Nat × Nat) := []
  compressed : Option (Nat × Bool) := none
  heads : List Nat := []
  folds : Nat := 0
  closed : Bool := false
  regen : Nat := 0
  reports : Nat := 0
  degraded : Bool := false
  deriving DecidableEq, Repr

/-- Where a job stands (R73, R79, R80). -/
inductive JobState where
  | paramRead | waiting | running | replaying | regionWait | done
  deriving DecidableEq, Repr

/-- A job context (R79); `stop` is the status and DETAIL with which it ends at the next boundary (R191, R217),
`placed` the number of fragments under each entry of its placement list (R194), `fetchedAt` the phases of the beat count at
its fetch (R544). -/
structure Job where
  ring : Nat := 0
  seq : Nat := 0
  internal : Bool := false
  desc : Desc := {}
  params : Bytes := []
  generation : Nat := 0
  loads : Nat := 0
  state : JobState := .paramRead
  readyAt : Nat := 0
  segments : Nat := 0
  lastBeat : Nat := 0
  lastEngine : Option Nat := none
  outLen : Nat := 0
  replayed : Bool := false
  late : Bool := false
  degraded : Bool := false
  hit : Bool := false
  ck : Ck := {}
  region : Option Nat := none
  waitingRegion : Bool := false
  rebuild : Bool := false
  placed : Tbl Nat := []
  placeFail : Option Nat := none
  stop : Option (Nat × Nat) := none
  fetchedAt : Nat := 0
  deriving DecidableEq, Repr

/-- A key slot (R454, R456); `loads` counts its LOAD and CLEAR commands. -/
structure KeySlot where
  key : Bytes := []
  type : Nat := 0
  generation : Nat := 0
  fn : Nat := 0
  fnValid : Bool := false
  internalOk : Bool := false
  loads : Nat := 0
  deriving DecidableEq, Repr

/-- A segment held by an engine (R43 to R46, R423): `key` is the key it was dispatched with, `after` the end state that
stands in staging once it ran, `places` the placement list (R192), `ahead` the input read ahead (R215), `crossed` that a
boundary without dispatch passed (R373), and from `bin` on what R543 and R544 count when it commits. -/
structure Seg where
  job : Nat := 0
  number : Nat := 0
  dispatched : Nat := 0
  ran : Bool := false
  finished : Bool := false
  overrun : Bool := false
  items : List OutItem := []
  after : Ck := {}
  status : Option (Nat × Nat) := none
  last : Bool := false
  fragments : List (Nat × Nat × Nat) := []
  signWait : Bool := false
  places : Bytes := []
  key : KeySlot := {}
  replay : Bool := false
  ahead : List HostRead := []
  crossed : Bool := false
  bin : Nat := 0
  read : Nat := 0
  closes : Nat := 0
  plans : Nat := 0
  deriving DecidableEq, Repr

/-- What an engine has beside its registers (R46, R97, R282). -/
structure Eng where
  seg : Option Seg := none
  failed : Bool := false
  inTest : Bool := false
  lastOver : Bool := false
  suspect : Bool := false
  inService : Bool := true
  sramError : Option Nat := none
  stagingBusy : Bool := false
  deriving DecidableEq, Repr

/-- The ring engine (03); `plan` has the slots of the beat under way: engine, job, and 0 for the internal reserve, 1 for credit,
2 for surplus (R86). -/
structure RingEngine where
  rings : Tbl Ring := []
  fns : Tbl FnCtx := []
  jobs : Tbl Job := []
  plan : List (Nat × Nat × Nat) := []
  replays : List Nat := []
  sharePtr : Nat := 255
  rotPtr : Nat := 0
  lastPool : Nat := 8191
  poolUsed : Nat := 0
  poolCur : Int := 0
  e : Nat := 24
  v : Nat := 6
  n : Nat := 0
  regionQueue : List Nat := []
  instanceB : Bool := false
  fencedOther : Bool := false
  deriving DecidableEq, Repr

/-- An accumulator region (R137, R146): its owner job, the accumulators' bytes by position in the stripe's parity order,
the close copy, and the fold log of the running segment (R144). -/
structure Region where
  job : Nat := 0
  lines : Nat := 0
  acc : List Bytes := []
  copy : Option (List Bytes) := none
  log : List OutItem := []
  restoring : Bool := false
  deriving DecidableEq, Repr

/-! ### The beat (02) -/

/-- A C-die's own beat timer (R32, R33). -/
structure DieBeat where
  count : Nat := 0
  misses : Nat := 0
  stopped : Bool := false
  fullDue : Bool := true
  deriving DecidableEq, Repr

/-- The beat master (02); `held` has the register writes that wait for the beat boundary (R12), `alignMissed` the requests without
a response, `start` the time at which the beat began, `slew` the ns by which it began later than that (R47), `issued`
whether a token has gone out since PCR (R30, R31), and `windowDue` whether the share window of this beat has still to begin
(R38, R84). (DESIGN CHOICE, log 3) -/
structure Beat where
  phase : Nat := 0
  held : List (Fld × Nat) := []
  dies : Tbl DieBeat := []
  alignInEffect : Bool := false
  alignMissed : Nat := 0
  start : Nat := 0
  slew : Int := 0
  stopped : Bool := false
  issued : Bool := false
  skewMax : Nat := 0
  skewDie : Nat := 0
  windowDue : Bool := false
  deriving DecidableEq, Repr

/-! ### The host endpoint (08) -/

/-- One vector of a function's MSI-X table (R209). (PRESUMED, log 7) -/
structure Vector where
  addr : Nat := 0
  data : Nat := 0
  masked : Bool := true
  pending : Bool := false
  deriving DecidableEq, Repr

/-- The configuration space of a host function that a rule reads or writes (R205 to R216, R223, R227).
(PRESUMED, log 7) -/
structure HostFn where
  busMaster : Bool := false
  d3 : Bool := false
  inFlr : Bool := false
  dropDue : Bool := false
  tenBit : Bool := false
  mrrs : Nat := 2
  timeoutCode : Nat := 0
  msixOn : Bool := false
  mask : Bool := false
  vectors : Tbl Vector := []
  aer : Nat := 0
  deriving DecidableEq, Repr

/-- What an outstanding host read is for (R212, R215); the data of a dropped one has no consumer left. -/
inductive TagUse where
  | descriptor (ring : Nat)
  | param (job : Nat)
  | readAhead (job : Nat)
  | dropped
  deriving DecidableEq, Repr

/-- An outstanding read of host memory (R212 to R217). -/
structure HostTag where
  fn : Nat := 0
  use : TagUse := .descriptor 0
  iova : Nat := 0
  len : Nat := 0
  got : List (Nat × Bytes) := []
  poisoned : Bool := false
  quarantined : Bool := false
  deriving DecidableEq, Repr

/-- The host endpoint (08): the requests that wait for a tag and the answers that have arrived whole; `ranges` is the
model's own map of which IOVA ranges of a device lie behind the endpoint; `aspm` has L0s, L1, L1.1 and L1.2 enabled, from
bit 0 up (R220, R221). (PRESUMED, log 7) -/
structure HostEnd where
  fns : Tbl HostFn := []
  vfEnable : Bool := false
  numVfs : Nat := 0
  tags : Tbl HostTag := []
  queue : List (Nat × TagUse × Nat × Nat) := []
  arrived : Tbl (List HostRead) := []
  ranges : List (Nat × Nat × Nat) := []
  block3 : Bytes := []
  aspm : Nat := 0
  deriving DecidableEq, Repr

/-! ### Conos (07) -/

/-- A Conos port beyond its registers (R174 to R179, R198 to R200). -/
structure Port where
  failures : Nat := 0
  step : Nat := 0
  timer : Bool := false
  wakeRetry : Nat := 0
  pattern : Bool := false
  identHeld : Bool := false
  identSeen : Bool := false
  peerPkg : Nat := 0
  txSeq : Nat := 0
  rxSeq : Nat := 0
  replay : List Frame := []
  resends : Nat := 0
  credits : List Nat := [64, 64, 64]
  owed : List Nat := [0, 0, 0]
  waiting : List Frame := []
  deriving DecidableEq, Repr

/-- A window entry (R184), as the layout gives it. (DESIGN CHOICE, log 9) -/
structure WinEntry where
  base : Nat := 0
  sizeLog2 : Nat := 0
  kind : Nat := 0
  peerLo : Nat := 0
  peerHi : Nat := 0
  deviceId : Nat := 0
  tag : Nat := 0
  stashDie : Nat := 0
  slotLog2 : Nat := 0
  mediaTarget : Nat := 0
  deriving DecidableEq, Repr

/-- A window (R184, R187, R188, R193): the entry in effect, the shadow, the old generations with the boundaries of
grace left, and the landing slots in use. (DESIGN CHOICE, log 9) -/
structure Window where
  entry : WinEntry := {}
  gen : Nat := 0
  shadow : Option WinEntry := none
  old : List (Nat × WinEntry × Nat) := []
  draining : Bool := false
  drained : Bool := false
  slots : List Nat := []
  deriving DecidableEq, Repr

/-- Both ends of a flow with one peer in one virtual channel (R180, R181): at the destination, the operation whose frames
are arriving, as window, generation and first FLOW_SEQ, and whether the rest of it is refused (R185, R187); at the source,
the operations resent once (R187, R195). -/
structure Flow where
  txSeq : Nat := 0
  unacked : List Frame := []
  resends : Nat := 0
  syncDue : Bool := true
  rxSeq : Nat := 0
  failed : Bool := false
  op : Option (Nat × Nat × Nat) := none
  refused : Bool := false
  reissued : List Nat := []
  deriving DecidableEq, Repr

/-- An outstanding remote read (R191). -/
structure RemoteRead where
  peer : Nat := 0
  window : Nat := 0
  off : Nat := 0
  flowSeq : Nat := 0
  len : Nat := 0
  reissued : Bool := false
  hart : Option Nat := none
  job : Option Nat := none
  got : List (Nat × Bytes) := []
  poisoned : Bool := false
  deriving DecidableEq, Repr

/-- An outstanding push (R193 to R195). -/
structure Push where
  peer : Nat := 0
  window : Nat := 0
  flowSeq : Nat := 0
  job : Option Nat := none
  entry : Nat := 0
  stripe : Nat := 0
  fragment : Nat := 0
  addr : Nat := 0
  len : Nat := 0
  resultAddr : Nat := 0
  fullSince : Option Nat := none
  reissued : Bool := false
  sentAt : Nat := 0
  deriving DecidableEq, Repr

/-- A fragment landing in a push window (R193): the generation it is stamped with, its slot, and the bytes landed so far of
its header. -/
structure Landing where
  window : Nat := 0
  gen : Nat := 0
  slot : Nat := 0
  head : Bytes := []
  deriving DecidableEq, Repr

/-- Conos (07); `pushQueue` has the pushes that wait for a free PUSH_TAG, `writers` names the job of each remote write by
peer and first FLOW_SEQ (R191); `landings` are keyed 2,048 × source package + PUSH_TAG. (DESIGN CHOICE, log 9) -/
structure Conos where
  ports : Tbl Port := []
  windows : Tbl Window := []
  routes : Tbl Nat := []
  flows : Tbl Flow := []
  reads : Tbl RemoteRead := []
  pushes : Tbl Push := []
  pushQueue : List Push := []
  landings : Tbl Landing := []
  nextTag : Nat := 0
  nextPush : Nat := 0
  writers : List (Nat × Nat × Nat) := []
  deriving DecidableEq, Repr

/-! ### Media (09) -/

/-- A target entry (R231) and what the engine keeps of the target (R233, R239, R240): the zone size and capacity that
Report Zones gave, the open zones, the one whose turn it is, and the placements written that no Flush yet covers.
(DESIGN CHOICE, log 10) -/
structure Target where
  port : Nat := 0
  flags : Nat := 0
  rid : Nat := 0
  nsid : Nat := 0
  lbaLog2 : Nat := 0
  zonesOpen : Nat := 0
  qpFirst : Nat := 0
  qpCount : Nat := 0
  state : Nat := 0
  zoneFirst : Nat := 0
  zoneCount : Nat := 0
  zoneSize : Nat := 0
  zoneCap : Nat := 0
  openZones : List Nat := []
  rr : Nat := 0
  uncovered : List Nat := []
  deriving DecidableEq, Repr

/-- The engine's record of a zone of a target's pool (R239, R243): the LBAs given out, the write pointer from the zone's
start, the extents of completed appends, and whether the zone is finished or was not empty at initialisation. -/
structure Zone where
  used : Nat := 0
  wp : Nat := 0
  extents : List (Nat × Nat) := []
  full : Bool := false
  deriving DecidableEq, Repr

/-- A queue-pair entry (R232) and its indices (R237). (DESIGN CHOICE, log 10) -/
structure QPair where
  sqBase : Nat := 0
  cqBase : Nat := 0
  qlog2 : Nat := 0
  flags : Nat := 0
  target : Nat := 0
  msiData : Nat := 0
  msiAddr : Nat := 0
  sqTail : Nat := 0
  cqHead : Nat := 0
  cqTail : Nat := 0
  nextCid : Nat := 0
  deriving DecidableEq, Repr

/-- What a media command is for (R233, R237, R239 to R243); `reconcile` names the command whose zone is reconciled and
the step. -/
inductive MediaUse where
  | init (step sub : Nat)
  | place (placement : Nat)
  | flush (covers : List Nat)
  | zoneMgmt (zone action : Nat)
  | pass (cid : Nat)
  | abort (cmd : Nat)
  | reconcile (cmd step : Nat)
  deriving DecidableEq, Repr

/-- A media command in flight (R243); `at_` and `until_` are the pointers of a reconciliation. -/
structure MediaCmd where
  target : Nat := 0
  qp : Nat := 0
  cid : Nat := 0
  use : MediaUse := .flush []
  zone : Nat := 0
  retries : Nat := 0
  aborted : Bool := false
  at_ : Nat := 0
  until_ : Nat := 0
  sqe : Bytes := []
  deriving DecidableEq, Repr

/-- A placement (R238 to R241): the fragment to write to a target, for a job or for the push of a Conos peer. -/
structure Placement where
  job : Option Nat := none
  push : Option (Nat × Nat) := none
  window : Nat := 0
  slot : Nat := 0
  entry : Nat := 0
  object : Nat := 0
  fragment : Nat := 0
  stripe : Nat := 0
  addr : Nat := 0
  len : Nat := 0
  target : Nat := 0
  zoned : Bool := true
  lba : Nat := 0
  resultAddr : Nat := 0
  issued : Bool := false
  deriving DecidableEq, Repr

/-- The media queue engine (09). -/
structure Media where
  targets : Tbl Target := []
  qps : Tbl QPair := []
  zones : Tbl Zone := []
  cmds : Tbl MediaCmd := []
  places : Tbl Placement := []
  nextCmd : Nat := 0
  nextPlace : Nat := 0
  present : List Nat := []
  deriving DecidableEq, Repr

/-! ### Harts and tiles (10, 18, 19) -/

/-- A hart ID's state that the rules read or write: qfworld, qfsillage, qftaglim, qfopp and qfremap (R255 to R269), the
trap registers and the entry record (R271, R447), the interrupt files (R251) by number (0 M, 1 S, 1 + g guest g) as sets of
pending identities, the move in progress (tile and reason) with the MSIs held for it (R267), and the LR reservation.
(DESIGN CHOICE, log 11) -/
structure Hart where
  w : Nat := 0
  pw : Nat := 0
  sillage : Nat := 0
  tagLo : Nat := 0
  tagHi : Nat := 255
  oppReq : Nat := 9
  oppCur : Nat := 9
  oppCap : Nat := 15
  oppHeld : Option Nat := none
  online : Bool := false
  stopped : Bool := true
  moved : Bool := false
  reason : Nat := 0
  moves : Nat := 0
  ptile : Option Nat := none
  mode : Mode := .m
  pc : Nat := 0
  a0 : Nat := 0
  mepc : Nat := 0
  mcause : Nat := 0
  mtval : Nat := 0
  mpp : Nat := 0
  mpv : Bool := false
  entry : Option (Nat × Nat × Bool × Nat) := none
  inStub : Bool := false
  halted : Bool := false
  haltPending : Bool := false
  moving : Option (Nat × Nat) := none
  heldMsis : List (Nat × Nat) := []
  files : Tbl Nat := []
  reservation : Option Nat := none
  mcounteren : Nat := 0
  hcounteren : Nat := 0
  scounteren : Nat := 0
  deriving DecidableEq, Repr

/-- A core tile (R264, R265, R479 to R482, R489): the phases of the beat with its slack below the target, the phases in a row
with slack to spare, and the beats for which its CAP may not rise (R481). -/
structure Tile where
  hart : Option Nat := none
  failed : Bool := false
  inTest : Bool := false
  gated : Bool := false
  retention : Bool := false
  below : Nat := 0
  above : Nat := 0
  capHold : Nat := 0
  stretch : Bool := false
  deriving DecidableEq, Repr

/-! ### Caches and coherence (11, 12) -/

/-- The state of a line on a die (R292). -/
inductive Line where
  | i | s | e | o | m
  deriving DecidableEq, Repr

/-- What a die holds of a line (R292, R293): its state, its bytes when they may differ from the home's with their mark, the
engine in whose locked staging way it lies (R281, R285), and the hart whose LR holds snoops back (R309).
(DEDUCED, log 62) -/
structure DieLine where
  st : Line := .i
  data : Option Bytes := none
  poison : Bool := false
  locked : Option Nat := none
  lrHold : Option Nat := none
  deriving DecidableEq, Repr

/-- An entry of a die agent's eviction buffer (R301, R308). -/
structure Evict where
  st : Line := .i
  data : Option Bytes := none
  poison : Bool := false
  stale : Bool := false
  deriving DecidableEq, Repr

/-- The snoops (R299). -/
inductive Snoop where
  | shared | unique | once | inv | clean
  deriving DecidableEq, Repr

/-- A snoop's answer on its way to the home (R299): the resulting state, and the data where it carries any that may differ
from the home's. -/
structure SnpAns where
  st : Line := .i
  dirty : Bool := false
  data : Option Bytes := none
  poison : Bool := false
  empty : Bool := false
  superseded : Bool := false
  deriving DecidableEq, Repr

/-- A DATA or COMP on its way to a die (R299): the granted state, the bytes when they may differ from the home's, the old
value of a far AMO, and whether COMP_ACK is due. -/
structure Grant where
  st : Line := .i
  data : Option Bytes := none
  poison : Bool := false
  old : Option Nat := none
  comp : Bool := false
  deriving DecidableEq, Repr

/-- An access of a hart that waits at its die agent (R293). -/
structure HartReq where
  hart : Nat
  op : HartOp
  addr : Nat
  size : Nat
  data : Bytes
  deriving DecidableEq, Repr

/-- A line's state at the home (R296). -/
inductive HomeLine where
  | none | shared | owned (d : Nat) | ownedShared (d : Nat)
  deriving DecidableEq, Repr

/-- A directory entry of a sector (R296). -/
structure Sector where
  present : List Nat := []
  lines : Tbl HomeLine := []
  deriving DecidableEq, Repr

/-- The requests a home serves (R299, R304, R314); `binv` is its own back-invalidation (R298) or repair (R429). -/
inductive HomeReq where
  | rdShared (exclOk : Bool) | rdUnique | own (zero : Bool) | rdOnce
  | wrLine (stash : Option Stash)
  | evict (empty : Bool)
  | writeback (empty : Bool)
  | amo (op : AmoOp) (size offset operand : Nat)
  | cmo (kind : Nat)
  | stash
  | binv (all : Bool)
  deriving DecidableEq, Repr

/-- A request at a home: the die (12 for an agent without a cache), its world, the request. -/
structure HomeItem where
  die : Nat
  who : By
  req : HomeReq
  deriving DecidableEq, Repr

/-- A line that a home is serving (R302, R303): the request, the line's state before it, the dies whose answer it awaits,
the answer of the owner with the dirty data collected, whether it awaits WB_DATA or WR_DATA, whether it awaits COMP_ACK, the
sector whose back-invalidation it awaits, and the requests waiting behind it. -/
structure Busy where
  item : HomeItem
  before : HomeLine := .none
  awaiting : List Nat := []
  ownerSt : Line := .i
  dirty : Bool := false
  data : Option Bytes := none
  poison : Bool := false
  needData : Bool := false
  granted : Bool := false
  blocked : Option Nat := none
  waiting : List HomeItem := []
  deriving DecidableEq, Repr

/-- A home-agent pair (R295, R436, R438); `idle` marks one of the 32 that handed its slice over and is a spare since. -/
structure Pair where
  idle : Bool := false
  failed : Bool := false
  failing : Bool := false
  spareFor : Option Nat := none
  inTest : Bool := false
  deriving DecidableEq, Repr

/-- An entry of the AMO predictor (R312). -/
structure Predict where
  counter : Nat := 0
  sender : Option Nat := none
  deriving DecidableEq, Repr

/-- Caches, homes and directory (11, 12).  Lines on dies are keyed 16 × line + die; `sc` has the lines that the system cache
holds, 1 clean and 2 dirty; `psel` has the insertion counters (R279), banks first, then slices. -/
structure Coherence where
  dir : Tbl Sector := []
  die : Tbl DieLine := []
  evict : Tbl Evict := []
  answers : Tbl SnpAns := []
  grants : Tbl Grant := []
  waits : Tbl (List HartReq) := []
  heldSnoops : Tbl (List Snoop) := []
  busy : List (Nat × Busy) := []
  wrData : List (Nat × Bytes × Nat × Bool) := []
  sc : Tbl Nat := []
  predict : Tbl Predict := []
  pairs : Tbl Pair := []
  psel : Tbl Nat := []
  slicesFenced : List Nat := []
  banksFenced : List Nat := []
  lost : List Nat := []
  lockWaits : Nat := 0
  deriving DecidableEq, Repr

/-- A fault that is reported at the boundary, or whose recovery starts there: the unit, the reason of a move (R269), the beat
and the time of its detection (R415), and whether it is a second fault (R421). -/
structure Due where
  unit : Nat
  reason : Nat := 0
  beat : Nat := 0
  time : Nat := 0
  second : Bool := false
  deriving DecidableEq, Repr

/-! ### Networks and Bilum (13, 14) -/

/-- A router's input queue and its replay buffers (R323, R324). -/
structure Router where
  queue : List Flit := []
  replay : List Flit := []
  deriving DecidableEq, Repr

/-- A network interface's ordering state for one source and network (R318, R325). (DESIGN CHOICE, log 13) -/
structure Ni where
  expect : Nat := 0
  holding : Tbl (Option Flit) := []
  deriving DecidableEq, Repr

/-- Recovery of the networks of a die (R328): the fenced links and routers, those not yet reported, and how far the new
tables are. -/
structure NocDie where
  links : List Nat := []
  routers : List Nat := []
  newLinks : List Due := []
  newRouters : List Due := []
  compiling : Bool := false
  tableReady : Bool := false
  holding : Bool := false
  deriving DecidableEq, Repr

/-- The on-die networks (13): routers keyed 256 × die + stop; interfaces by that number, the network and the source;
`resends` counts the consecutive resends of a flit on an input. -/
structure Noc where
  routers : Tbl Router := []
  nis : Tbl Ni := []
  resends : Tbl Nat := []
  dies : Tbl NocDie := []
  deriving DecidableEq, Repr

/-- A Bilum port beyond its registers (14): the failed wires and lost blocks by direction, the width that the H-die has
decided, the map that the C-die retains, the steps of a swap, the sideband, and what the next boundary starts. -/
structure BPort where
  failed : List (Nat × Nat) := []
  lost : List (Nat × Nat) := []
  width : Nat := 0
  retained : Option (Nat × List Nat) := none
  swapDue : Bool := false
  switchDue : Bool := false
  timer : Bool := false
  tries : Nat := 0
  setFail : List Nat := []
  index : Option Nat := none
  retrainDue : Bool := false
  deriving DecidableEq, Repr

/-- One lane group of a Bilum direction (R340): flits sent, acknowledged and received modulo 256, resends without progress,
and whether the receiver discards until the resend. -/
structure BGroup where
  sent : Nat := 0
  acked : Nat := 0
  received : Nat := 0
  resends : Nat := 0
  discarding : Bool := false
  deriving DecidableEq, Repr

/-- The Bilum links (14): groups keyed 8 × port + 4 × direction + network; the credits returned so far for each virtual
channel of a group, and the consecutive bad credit frames of each direction. -/
structure Bilum where
  ports : Tbl BPort := []
  groups : Tbl BGroup := []
  credits : Tbl Nat := []
  badCredit : Tbl Nat := []
  deriving DecidableEq, Repr

/-! ### DRAM and traffic (15, 16) -/

/-- A rank of a channel (R367 to R372): postponed refreshes, whether MR4 asks for twice the rate, recalibration slots had. -/
structure Rank where
  postponed : Nat := 0
  doubled : Bool := false
  slots : Nat := 0
  deriving DecidableEq, Repr

/-- A memory channel beyond its registers (15): its ranks and the one whose slot is next, the corrected errors of this scrub
pass by device position, the write queue, the replays of the write under way, and the scrub credit in 2⁻³² lines. -/
structure Channel where
  ranks : Tbl Rank := []
  nextRank : Nat := 0
  corr : Tbl Nat := []
  writes : List Nat := []
  retries : Nat := 0
  scrubCredit : Nat := 0
  deriving DecidableEq, Repr

/-- A change of the DRAM rate (R373, R374): `waiting` until its first boundary; `second` is the return after a failed
verification. -/
structure RateChange where
  target : Nat := 0
  previous : Nat := 0
  running : Bool := false
  second : Bool := false
  deriving DecidableEq, Repr

/-- The memory controllers (15); `next` is a RATE write that waits for a change to end (R374), `untrained` the reduced rates
that the last cold start did not train, `installed` the GiB of DRAM the board fits (R365). -/
structure Dram where
  ch : Tbl Channel := []
  change : Option RateChange := none
  next : Option Nat := none
  untrained : List Nat := []
  installed : Nat := 4096
  deriving DecidableEq, Repr

/-- An arbiter's state for one instance (R402 to R405). (DESIGN CHOICE, log 20) -/
structure Arb where
  waits : Tbl Nat := []
  ptr : List Nat := [0, 0, 0, 0]
  fptr : Nat := 0
  grant : Option Nat := none
  heldFor : Nat := 0
  deriving DecidableEq, Repr

/-- Traffic regulation (16): the token buckets in sixteenths of a line, keyed 512 × kind + regulator with kind 0 for DL and
1 + c for BEc, and regulators as R543 numbers them, 366 standing for the DL bucket that the hub sources share; the arbiters,
keyed 256 × instance + port; the arbitration entries (R412), functions first and queue pairs from 256 on, and the classes that
wait for the boundary, one higher; the exact BE_POOL of R396 in 640,000ths of its unit; the beats since DL was last scaled.
(DESIGN CHOICE, log 20) -/
structure Traffic where
  buckets : Tbl Nat := []
  arbs : Tbl Arb := []
  entries : Tbl Nat := []
  entriesHeld : Tbl Nat := []
  pool : Nat := 0
  unscaled : Nat := 256
  level : Nat := 0
  word : Nat := 0
  stop : Bool := false
  deriving DecidableEq, Repr

/-! ### Faults, worlds, power, Gunel, start (17 to 21) -/

/-- A C-die as the failover and restart rules see it (R432, R521 to R524): `step` is that of R522 in a partial reset, 0 outside
one; `planned` says that the die was in service when it began. -/
structure Die where
  inService : Bool := false
  lost : Bool := false
  cause : Nat := 0
  walk : Bool := false
  lostAt : Nat := 0
  step : Nat := 0
  planned : Bool := false
  autoDue : Bool := false
  heldOut : Bool := false
  deriving DecidableEq, Repr

/-- Failover state (17); `enables` has the AE_CTRL.ENABLE written for engines whose C-die is out of service (R571);
`recovering` the ring-engine and beat-master instances, by unit type and number, that a fault has fenced and Gunel has not
returned (R420). -/
structure Faults where
  enables : Tbl Nat := []
  dies : Tbl Die := []
  fatal : Bool := false
  movesDue : List Due := []
  pairsDue : List Due := []
  recovering : List (Nat × Nat) := []
  deriving DecidableEq, Repr

/-- Worlds and security (18). -/
structure Worlds where
  keys : Tbl KeySlot := []
  signKey : Option Nat := none
  signPending : Bool := false
  restartStep : Nat := 0
  watchdog : Bool := false
  gaveUp : Bool := false
  iommu : Tbl Nat := []
  faultQueue : List (Nat × Nat × Nat) := []
  wdogSince : Nat := 0
  deriving DecidableEq, Repr

/-- Package power states (R484). -/
inductive PkgState where
  | off | starting | run | quiet | enterQuiet | leaveQuiet | enterStandby | enterDrydown | standby | drydown
  deriving DecidableEq, Repr

/-- A power request that waits for the boundary (R451, R494); `src` is 0 for PWR_CMD from the normal world, 1 from the secure
world, 2 for Gunel's interfaces, 3 and 4 for the normal and the secure mailbox. -/
structure PwrReq where
  op : Nat
  target : Nat
  index : Nat
  src : Nat
  deriving DecidableEq, Repr

/-- Clocks and power (19): `tcap` the thermal ceilings by die; `samples` the package power of each phase of the beat; `highs`
the highest sensor reading of each die in it (12 the H-die); `plls` those in use by the number of PLL_WAIT_END; `refLost` the
clock inputs that have stopped: 0 REFCLK_SYS, 1 REFCLK_RP, 2 EP_REFCLK. -/
structure Power where
  pkg : PkgState := .off
  tcap : Tbl Nat := []
  requests : List PwrReq := []
  samples : List Nat := []
  highs : Tbl Int := []
  gatedDies : List Nat := []
  gatedChannels : List Nat := []
  gatedSign : Bool := false
  gatedEndpoint : Bool := false
  wake : Option (Nat × StartFacts) := none
  plls : List Nat := []
  refLost : List Nat := []
  deriving DecidableEq, Repr

/-- An online self-test or a retirement (R438, R439, R480), with the tile that it withdraws. -/
structure Test where
  unitType : Nat
  unit : Nat
  running : Bool := false
  deferred : Bool := false
  retire : Bool := false
  tile : Nat := 0
  deriving DecidableEq, Repr

/-- The lifetime record (R501): error counts by index, corrected first; the histograms by die and bin, the voltages from 256
on; DRAM marks by channel and byte of MC_MARK; aging by tile; starts as the eight words and two bytes of the layout; the spare
usage as last noted; and the second under way: its samples, the highest readings of each die (temperatures, and the voltages
from 16 on, 32,768 higher), and the dies that were not powered for all of it. -/
structure Life where
  counts : Tbl Nat := []
  histo : Tbl Nat := []
  marks : Tbl Nat := []
  age : Tbl Nat := []
  starts : Tbl Nat := []
  spare : Bytes := []
  firstStart : Nat := 0
  pcrs : Nat := 0
  samples : Nat := 0
  highs : Tbl Nat := []
  off : List Nat := []
  writeSeq : Nat := 0
  deriving DecidableEq, Repr

/-- Gunel (20): its logs; the tests; the lifetime record and its two NOR copies, the newer first; the active slot of each
component and what was written into the slots (2 × component + slot); the memory configuration in NOR and the one the saved
training results are of; the last sensor readings and droop sums; the components with a verified image in the other slot.
(DESIGN CHOICE, log 16) -/
structure Gunel where
  seq : Nat := 0
  log : List Bytes := []
  nor : List Bytes := []
  tests : List Test := []
  life : Life := {}
  lifeCopies : List Life := []
  activeSlot : Nat := 0
  secureSlot : Nat := 0
  slots : Tbl Bytes := []
  verified : List Nat := []
  memcfg : Option Nat := none
  saved : Option Nat := none
  sensors : Tbl Nat := []
  droops : Tbl Nat := []
  faultN : Bool := false
  restarting : Bool := false
  recovery : Bool := false
  deriving DecidableEq, Repr

/-- Starts and restarts (21, 24): the kind of the start (0 cold, 1 remembered-training cold, 2 warm, 3 limp), the step it has
reached, what it finds, the failed limp starts in a row; the rail enables, the power-goods seen, and PKG_RESET_N.
(DESIGN CHOICE, log 17) -/
structure Start where
  kind : Nat := 0
  running : Bool := false
  step : Nat := 0
  facts : StartFacts := {}
  limps : Nat := 0
  railMain : Bool := false
  railCd : Bool := false
  mainPg : Bool := false
  cdPg : Bool := false
  reset : Bool := true
  deriving DecidableEq, Repr

/-- Flacon (22): its fuses burnt, the epoch's counts, the energy of each channel in mJ with the rest below in 2⁻¹³ µJ, the
calibration, the log; `started` since VFL came up, `clockStopped` while XTAL_F shows no edge, `overLogged` the channels whose
first overrange of the epoch is in the log, `logAtLast` the length of the log at the last record. -/
structure Flacon where
  started : Bool := false
  clockStopped : Bool := false
  metering : Bool := false
  epoch : Nat := 0
  ticks : Nat := 0
  seq : Nat := 0
  energy : List Nat := [0, 0, 0, 0, 0, 0, 0, 0]
  residue : List Nat := [0, 0, 0, 0, 0, 0, 0, 0]
  shunt : List Nat := [1000000, 1000000, 1000000, 1000000, 1000000, 1000000, 1000000, 1000000]
  gain : List Int := [0, 0, 0, 0, 0, 0, 0, 0]
  offset : List Int := [0, 0, 0, 0, 0, 0, 0, 0]
  calId : Nat := 0
  log : List Bytes := []
  overLogged : Nat := 0
  channelsOk : Nat := 255
  clockFault : Bool := false
  firstRecord : Bool := true
  logAtLast : Nat := 0
  calLand : Bool := false
  key : Nat := 1
  deriving DecidableEq, Repr

/-- Performance counters (23): the unit counters by `counterKey`, the number of the next dump, and the records of the dump
whose writes are in progress. -/
structure Perf where
  counters : Tbl Nat := []
  dumpSeq : Nat := 0
  dumpPending : List Bytes := []
  deriving DecidableEq, Repr

/-! ### The whole machine -/

/-- Everything the commands act on. -/
structure Chip where
  regs : Tbl Nat := []
  mem : List Host.Cell := []
  poison : Tbl Bool := []
  out : List Out := []
  free : Nat := 0
  time : Nat := 0
  beat : Beat := {}
  re : RingEngine := {}
  eng : Tbl Eng := []
  acc : Tbl Region := []
  hf : HostEnd := {}
  cn : Conos := {}
  mq : Media := {}
  harts : Tbl Hart := []
  tiles : Tbl Tile := []
  coh : Coherence := {}
  noc : Noc := {}
  bl : Bilum := {}
  mc : Dram := {}
  qt : Traffic := {}
  flt : Faults := {}
  ws : Worlds := {}
  pwr : Power := {}
  gn : Gunel := {}
  start : Start := {}
  fl : Flacon := {}
  pm : Perf := {}
  deriving DecidableEq, Repr

/-- The machine: the block and the queue of the commands that wait, the front first. -/
structure State where
  chip : Chip := {}
  pending : List Instr := []
  deriving DecidableEq, Repr

/-- The machine right after package cold reset (R14): every register at its reset value, nothing in memory, no command
waiting. (DESIGN CHOICE, log 1) -/
def State.reset : State := {}

end Sys2Proof.Machine
end

