-- ==== Sys2Proof/Machine/Ops.lean ====
section
/-!
DEFINITION. The named operations over registers, memory, free values, messages and error records, each said once.
-/

namespace Sys2Proof.Machine

/-! ### Registers (R8, R14) -/

/-- The value of a register field: the stored one, or its reset value (R14). -/
def Chip.rd (k : Chip) (f : Fld) : Nat := Tbl.get f.reset k.regs f.key

/-- The field `f` set to the low bits of `v`, by hardware. (DEDUCED, log 96) -/
def Chip.wr (k : Chip) (f : Fld) (v : Nat) : Chip :=
  { k with regs := Tbl.set f.reset k.regs f.key (v % 2 ^ f.width) }

/-- The one-bit field `f` set (an error bit, R55 and its like). -/
def Chip.raise (k : Chip) (f : Fld) : Chip := k.wr f 1

/-- The counting field `f` raised by `d`, saturating. -/
def Chip.bump (k : Chip) (f : Fld) (d : Nat) : Chip := k.wr f (satAdd (k.rd f) d f.width)

/-- Whether the one-bit field `f` reads 1. -/
def Chip.on (k : Chip) (f : Fld) : Bool := k.rd f == 1

/-- The beat counter (R30, R54). -/
def Chip.now (k : Chip) : Nat := k.rd BT_COUNT.COUNT

/-- The package's segment size (R41). -/
def Chip.segmentSize (k : Chip) : Nat := if k.on BT_CTRL.LEN then 65536 else 131072

/-- The beat length in units of 10 ns (R27, R253). -/
def Chip.beatTicks (k : Chip) : Nat := if k.on BT_CTRL.LEN then 400 else 800

/-- The field `f` to be set to `v` at the beat boundary; of several writes the last takes effect (R12).
(DEDUCED, log 27) -/
def Chip.hold (k : Chip) (f : Fld) (v : Nat) : Chip :=
  { k with beat := { k.beat with held := k.beat.held.filter (fun e => e.1.key != f.key) ++ [(f, v % 2 ^ f.width)] } }

/-! ### Messages and free values -/

/-- `o` sent to something outside the modelled part. (DESIGN CHOICE, log 4) -/
def Chip.emit (k : Chip) (o : Out) : Chip := { k with out := o :: k.out }

/-- The messages `os` sent in order. -/
def Chip.emitAll (k : Chip) (os : List Out) : Chip := os.foldl Chip.emit k

/-- A value that the spec leaves open, and the machine with the counter of such values advanced.
(DESIGN CHOICE, log 2) -/
def Chip.fresh (k : Chip) : Nat × Chip := (Config.freeNat k.free, { k with free := k.free + 1 })

/-- Something to send wakes the endpoint link from L0s or L1 (R220, R221). -/
def Chip.wakeLink (k : Chip) : Chip := if k.rd HF_STATUS.LSTATE < 5 then k.wr HF_STATUS.LSTATE 0 else k

/-! ### Memory (R364, R565) -/

/-- The bytes at addresses `a` to `a + n − 1` of cells that hold no address below `a`. -/
def dense : Nat → Nat → List Host.Cell → Bytes
  | 0, _, _ => []
  | n + 1, a, [] => 0 :: dense n (a + 1) []
  | n + 1, a, (j, b) :: m => if j = a then b :: dense n (a + 1) m else 0 :: dense n (a + 1) ((j, b) :: m)

/-- The bytes that memory holds at `a` to `a + n − 1`; an address not listed reads 0. (DESIGN CHOICE, log 1) -/
def memBytes (m : List Host.Cell) (a n : Nat) : Bytes := dense n a (m.filter fun c => decide (a ≤ c.1))

/-- The cells of a byte string placed at `a`: the zero bytes leave none. -/
def cells : Nat → Bytes → List Host.Cell
  | _, [] => []
  | a, b :: bs => if b = 0 then cells (a + 1) bs else (a, b) :: cells (a + 1) bs

/-- Memory with the byte string `bs` at `a`. (DESIGN CHOICE, log 1) -/
def memPut (m : List Host.Cell) (a : Nat) (bs : Bytes) : List Host.Cell :=
  m.filter (fun c => decide (c.1 < a)) ++ cells a bs ++ m.filter (fun c => decide (a + bs.length ≤ c.1))

/-- The canonical form of memory: addresses strictly rising, no byte that an unlisted address reads as. -/
abbrev Memory.wf (m : List Host.Cell) : Bool := Tbl.wf (0 : BitVec 8) m

/-- One byte of memory. (DESIGN CHOICE, log 1) -/
abbrev byteAt (m : List Host.Cell) (a : Nat) : Byte := Tbl.get 0 m a

/-- The numbers of the 64-byte lines that `n` bytes at `a` touch. -/
def linesOf (a n : Nat) : List Nat :=
  if n == 0 then [] else (List.range ((a + n - 1) / 64 - a / 64 + 1)).map (a / 64 + ·)

/-- The copies that may differ from the home's: on C-dies, in eviction buffers, in messages under way and in trackers: the
line's number, its bytes and its mark (R292, R308). -/
def Chip.dirtyCopies (k : Chip) : List (Nat × Bytes × Bool) :=
  (k.coh.die.filterMap fun e => e.2.data.map fun d => (e.1 / 16, d, e.2.poison)) ++
  (k.coh.evict.filterMap fun e => if e.2.stale then none else e.2.data.map fun d => (e.1 / 16, d, e.2.poison)) ++
  (k.coh.answers.filterMap fun e => e.2.data.map fun d => (e.1 / 16, d, e.2.poison)) ++
  (k.coh.grants.filterMap fun e => e.2.data.map fun d => (e.1 / 16, d, e.2.poison)) ++
  (k.coh.busy.filterMap fun e => e.2.data.map fun d => (e.1, d, e.2.poison))

/-- `bs`, the bytes at `a`, with the part of them that line `line` covers taken from `d`. -/
def overlay (a : Nat) (bs : Bytes) (line : Nat) (d : Bytes) : Bytes :=
  bs.zipIdx.map fun p =>
    if (a + p.2) / 64 == line then d.getD ((a + p.2) % 64) 0 else p.1

/-- The current bytes at `a`: a coherent read without a copy kept (R304, RD_ONCE). -/
def Chip.load (k : Chip) (a n : Nat) : Bytes :=
  (k.dirtyCopies.filter fun c => (linesOf a n).contains c.1).foldl (fun bs c => overlay a bs c.1 c.2.1)
    (memBytes k.mem a n)

/-- R364: the channel of a physical address: the exclusive or of its eleven fields of 4 bits from bit 8 up. -/
def channelOf (pa : Nat) : Nat := (List.range 11).foldl (fun c i => c ^^^ bits pa (8 + 4 * i) 4) 0

/-- Whether channel `c` is fenced (R380). -/
def Chip.chFenced (k : Chip) (c : Nat) : Bool := k.rd (MC_STATUS.STATE c) == 5

/-- R380: whether every read of line `l` from DRAM returns poison: its channel is fenced, and no partner serves it; the system
cache still serves a line it holds. (DEDUCED, log 73) -/
def Chip.dramGone (k : Chip) (l : Nat) : Bool :=
  let c := channelOf (64 * l)
  k.chFenced c && (!k.on (MC_CTRL.MIRROR 0) || k.chFenced (c ^^^ 1)) && Tbl.get 0 k.coh.sc l == 0

/-- The poison mark of line `l` at its home (R310, R380). -/
def Chip.linePoison (k : Chip) (l : Nat) : Bool := Tbl.get false k.poison l || k.dramGone l

/-- Whether a line that `n` bytes at `a` touch carries the poison mark (R310). -/
def Chip.poisoned (k : Chip) (a n : Nat) : Bool :=
  (linesOf a n).any fun l =>
    match (k.dirtyCopies.find? fun c => c.1 == l) with
    | some c => c.2.2
    | none => k.linePoison l

/-- Whether a die, a buffer or a message holds anything of line `l`. -/
def Chip.cohTouches (k : Chip) (l : Nat) : Bool :=
  k.coh.die.any (fun e => e.1 / 16 == l) || k.coh.evict.any (fun e => e.1 / 16 == l) ||
  k.coh.answers.any (fun e => e.1 / 16 == l) || k.coh.grants.any (fun e => e.1 / 16 == l) ||
  k.coh.busy.any (fun e => e.1 == l)

/-- R285: the locked staging lines among the copies of line `l` counted as they are invalidated. -/
def Chip.countLocked (k : Chip) (l : Nat) : Chip :=
  k.bump SC_LWI.COUNT (k.coh.die.filter fun e => e.1 / 16 == l && e.2.locked.isSome && e.2.st != .i).length

/-- The reservations of harts on line `l` lost. -/
def Chip.loseReservations (k : Chip) (l : Nat) (p : Nat → Bool) : Chip :=
  { k with harts := Tbl.mapVals {} k.harts fun h g =>
      if g.reservation == some l && p h then { g with reservation := none } else g }

/-- Line `l` recalled to its home before an agent without a cache writes it (R304, WR_LINE): the current bytes are the
home's, and no die keeps a copy. (DESIGN CHOICE, log 63) -/
def Chip.recallLine (k : Chip) (l : Nat) : Chip :=
  let k := match k.dirtyCopies.find? fun c => c.1 == l with
    | some c => { k with mem := memPut k.mem (64 * l) (padTo c.2.1 64), poison := Tbl.set false k.poison l c.2.2 }
    | none => k
  let k := (k.countLocked l).loseReservations l fun _ => true
  { k with coh := { k.coh with
      die := k.coh.die.filter fun e => e.1 / 16 != l
      evict := k.coh.evict.map fun e => if e.1 / 16 == l then (e.1, { e.2 with stale := true }) else e
      answers := k.coh.answers.map fun e => if e.1 / 16 == l then (e.1, { e.2 with data := none }) else e
      grants := k.coh.grants.map fun e => if e.1 / 16 == l then (e.1, { e.2 with data := none }) else e
      busy := k.coh.busy.map fun e => if e.1 == l then (e.1, { e.2 with data := none }) else e
      dir := if k.coh.busy.any (fun e => e.1 == l) then k.coh.dir else
        Tbl.mod {} k.coh.dir (l / 8) fun s => { s with lines := s.lines.erase (l % 8) } } }

/-- The byte string `bs` written at `a` by an agent without a cache: every die copy is invalidated, the bytes merge at
the home and go through to DRAM (R286, R304, R428); a line written whole loses its poison mark, a line written in part
keeps it (R287). (DESIGN CHOICE, log 63) -/
def Chip.store (k : Chip) (a : Nat) (bs : Bytes) : Chip :=
  if bs.isEmpty then k else
  let ls := linesOf a bs.length
  let k := (ls.filter k.cohTouches).foldl Chip.recallLine k
  let whole := ls.filter fun l => a ≤ 64 * l && 64 * l + 64 ≤ a + bs.length
  { k with
    mem := memPut k.mem a bs
    poison := k.poison.filter fun e => !(whole.contains e.1)
    coh := { k.coh with sc := ls.foldl (fun t l => Tbl.set 0 t l 1) k.coh.sc } }

/-- Line `l` given the poison mark (R310). -/
def Chip.mark (k : Chip) (l : Nat) : Chip := { k with poison := k.poison.set false l true }

/-- The bytes of DRAM the package presents: what the board fits, or half of it under mirroring (R365, R565). -/
def Chip.dramSize (k : Chip) : Nat := k.mc.installed * 2 ^ 30 / (if k.on (MC_CTRL.MIRROR 0) then 2 else 1)

/-- The first byte address that is not secure DRAM; a TOP above the DRAM acts as its size (R445). (DEDUCED, log 78) -/
def Chip.secureTop (k : Chip) : Nat := min (k.rd WS_SECURE_TOP.TOP * 2 ^ 26) k.dramSize

/-! ### Unit counters (R543, R544) -/

/-- The key of counter `j` of instance `i` of a set. -/
def counterKey (set i j : Nat) : Nat := (set * 512 + i) * 32 + j

/-- R543: counter `j` of instance `i` of a set raised by `n`; no counter counts while the beat is stopped (R31).
(DEDUCED, log 92) -/
def Chip.count (k : Chip) (set i j n : Nat) : Chip :=
  if k.beat.stopped || n == 0 then k else
  { k with pm := { k.pm with counters := Tbl.mod 0 k.pm.counters (counterKey set i j) fun v => (v + n) % 2 ^ 64 } }

/-- R544: the bin of a latency `v` in units of `u`. (DEDUCED, log 92) -/
def histBin (v u : Nat) : Nat := if v < u then 0 else min 15 (1 + Nat.log2 (v / max 1 u))

/-- R544: a latency that the commands do not carry counted: its bin is a free value. (DEDUCED, log 92) -/
def Chip.histFree (k : Chip) (set i : Nat) : Chip :=
  let (v, k) := k.fresh
  k.count set i (v % 16) 1

/-! ### Error records (R414 to R418, R498 to R502) -/

/-- An event as a rule states it; what the rule does not name has the default of R415; `seen` is the beat and the time of its
detection where it is reported later. (DEDUCED, log 33) -/
structure Ev where
  cls : Nat
  unitType : Nat
  unit : Nat
  cause : Nat := 0xFF
  action : Nat := 0
  status : Nat := 0
  info0 : Nat := 0
  info1 : Nat := 0
  count : Nat := 0
  hart : Nat := 0xFFFF
  fn : Nat := 0xFFFF
  seen : Option (Nat × Nat) := none
  deriving DecidableEq, Repr

/-- The error record of an event (R415). (DEDUCED, log 33) -/
def Ev.record (e : Ev) (seq beat time : Nat) : Bytes :=
  leBytes seq 4 ++ leBytes e.cls 1 ++ leBytes e.unitType 1 ++ leBytes e.unit 2 ++ leBytes beat 8 ++ leBytes time 8 ++
  leBytes e.cause 1 ++ leBytes e.action 1 ++ leBytes e.status 2 ++ leBytes e.count 4 ++ leBytes e.info0 8 ++
  leBytes e.info1 8 ++ leBytes e.hart 2 ++ leBytes e.fn 2 ++ zeros 12

/-- R502: the first entry of the lifetime record's error counts for a unit type, none where it counts in no entry. -/
def lifeIndex (unitType unit info0 : Nat) : Option Nat :=
  if unitType == 0 then some (info0 % 65536 % 336)
  else if unitType == 1 then some (336 + unit)
  else if unitType == 2 then some (614 + unit)
  else if unitType == 3 then some (616 + unit)
  else if unitType == 4 then some (528 + unit)
  else if unitType == 5 then some (360 + unit)
  else if unitType == 6 then some unit
  else if unitType == 7 then some (599 + unit)
  else if unitType == 8 then some (504 + unit)
  else if unitType == 10 then some (488 + unit)
  else if unitType == 11 then some (562 + unit)
  else if unitType == 12 then some 598
  else if unitType == 13 then some (566 + unit)
  else if unitType == 14 then some 613
  else if unitType == 16 then some 612
  else none

/-- The lifetime error count of an event raised by one (R502). -/
def Chip.countLife (k : Chip) (e : Ev) : Chip :=
  match lifeIndex e.unitType e.unit e.info0 with
  | none => k
  | some i =>
    if e.cls ≤ 3 then
      let key := 2 * i + ofBool (e.cls != 0)
      { k with gn := { k.gn with life := { k.gn.life with
          counts := Tbl.mod 0 k.gn.life.counts key fun n => satAdd n 1 64 } } }
    else k

/-- The record with its COUNT one higher, saturating (R499). -/
def addCount (r : Bytes) : Bytes := r.take 28 ++ leBytes (satAdd (leAt r 28 4) 1 32) 4 ++ r.drop 32

/-- Whether log record `r` is of the same unit, cause and action as event `e` (R499). -/
def sameEvent (e : Ev) (r : Bytes) : Bool :=
  leAt r 5 1 == e.unitType && leAt r 6 2 == e.unit && leAt r 24 1 == e.cause && leAt r 25 1 == e.action

/-- R418: the address of the error-ring entry of record number `seq`. -/
def Chip.ringSlot (k : Chip) (seq : Nat) : Nat :=
  k.rd GN_RING_BASE.BASE / 4096 * 4096 + 64 * (seq % 2 ^ clamp 6 16 (k.rd GN_RING_CTRL.LOG2))

/-- R500: a write of the error ring into secure DRAM is refused: VIOLATION and what WS_ERR_INFO shows, without an event. -/
def Chip.ringRefused (k : Chip) (addr : Nat) : Chip :=
  (((k.raise WS_ERR.VIOLATION).wr WS_ERR_INFO.ADDR addr).wr WS_ERR_INFO.SOURCE 9).wr WS_ERR_INFO.EVENT 0

/-- The record `r` written at `addr`, where memory lies. -/
def Chip.ringPut (k : Chip) (addr : Nat) (r : Bytes) : Chip := if addr < 2 ^ 43 then k.store addr r else k

/-- R500: the MSI of a record that is not Corrected. -/
def Chip.ringSignal (k : Chip) (cls : Nat) : Chip :=
  if cls == 0 then k else k.emit (.msi (k.rd GN_RING_MSI_ADDR.ADDR) (k.rd GN_RING_MSI_DATA.DATA))

/-- The error-ring entry of a record, and its MSI (R418, R500). -/
def Chip.errorRing (k : Chip) (seq cls : Nat) (r : Bytes) : Chip :=
  if !k.on GN_RING_CTRL.ENABLE then k
  else if k.ringSlot seq < k.secureTop then k.ringRefused (k.ringSlot seq)
  else (k.ringPut (k.ringSlot seq) r).ringSignal cls

/-- R498: a record in Gunel's log, and in NOR unless it is Corrected. -/
def Gunel.note (g : Gunel) (cls : Nat) (r : Bytes) : Gunel :=
  { g with
    seq := (g.seq + 1) % 2 ^ 32
    log := (r :: g.log).take 4096
    nor := if cls == 0 then g.nor else (r :: g.nor).take 65536 }

/-- An event reported as a new error record. -/
def Chip.logNew (k : Chip) (e : Ev) : Chip :=
  let seq := k.gn.seq
  let at_ := e.seen.getD (k.now, k.time)
  let r := e.record seq at_.1 at_.2
  ({ k with gn := k.gn.note e.cls r }.emit (.record r)).errorRing seq e.cls r

/-- R499: a Corrected event counted in the latest record like it, at place `i` of the log. -/
def Chip.mergeEvent (k : Chip) (i : Nat) (r : Bytes) : Chip :=
  { k with gn := { k.gn with log := k.gn.log.set i (addCount r) } }

/-- R499: whether an event joins record `r`: both are Corrected and less than one second apart. -/
def Chip.merges (k : Chip) (e : Ev) (r : Bytes) : Bool :=
  e.cls == 0 && leAt r 4 1 == 0 && decide (k.time < leAt r 16 8 + 100000000)

/-- An event reported as an error record: merged into the latest record like it when both are Corrected and less than
one second apart, otherwise a new record in the log, in NOR unless Corrected, and in the error ring (R418, R498 to
R500). -/
def Chip.log (k : Chip) (e : Ev) : Chip :=
  let k := k.countLife e
  match k.gn.log.findIdx? (sameEvent e) with
  | some i => if k.merges e (k.gn.log.getD i []) then k.mergeEvent i (k.gn.log.getD i []) else k.logNew e
  | none => k.logNew e

/-! ### Second faults (R420, R421) -/

/-- R420: recovery from an earlier fault has not ended: a takeover is under way, a replay has not committed, a home-agent pair
waits for its rehome, an instance for its return, a network for its new routes, a Bilum port for its switch. (DEDUCED,
log 76) -/
def Chip.recovering (k : Chip) : Bool :=
  !k.flt.movesDue.isEmpty || !k.flt.pairsDue.isEmpty || !k.flt.recovering.isEmpty || !k.re.replays.isEmpty
    || (k.harts.any fun e => e.2.moving.any fun m => decide (m.2 ≤ 2))
    || (k.eng.any fun e => e.2.seg.any fun s => s.replay)
    || (k.noc.dies.any fun e => e.2.compiling || !e.2.newLinks.isEmpty || !e.2.newRouters.isEmpty)
    || (k.bl.ports.any fun e => e.2.swapDue || e.2.switchDue)

/-- A fault of unit `n` detected now, for the boundary (R415, R421). -/
def Chip.due (k : Chip) (n reason : Nat) : Due :=
  { unit := n, reason := reason, beat := k.now, time := k.time, second := k.recovering }

/-- STATUS of a covered fault's record (R417, R421). -/
def secondStatus (second : Bool) : Nat := if second then 4 else 0

/-- A bit of WS_ERR set, with what WS_ERR_INFO then shows, and its event (R468). (DEDUCED, log 32) -/
def Chip.wsErr (k : Chip) (f : Fld) (addr source : Nat) : Chip :=
  ((((k.raise f).wr WS_ERR_INFO.ADDR addr).wr WS_ERR_INFO.SOURCE source).wr WS_ERR_INFO.EVENT f.lo).log
    { cls := 0, unitType := 15, unit := 0, cause := f.lo, info0 := addr }


/-- R507: the memory configuration in NOR in the form of SET_MEMCFG; before any, that of the MC reset values: both reduced
rates and FGR. (DESIGN CHOICE, log 16) -/
def Gunel.config (g : Gunel) : Nat := g.memcfg.getD 14

/-- The code of PWR_STATUS.STATE (R493); in a state that has none the field holds its PWS value. -/
def PkgState.code : PkgState → Nat
  | .quiet => 1
  | .enterQuiet => 2
  | .leaveQuiet => 3
  | .enterStandby => 4
  | .enterDrydown => 5
  | _ => 0

/-- Whether the PHYs of the H-die have power (R484, R486): a start ends with them on. -/
def PkgState.powered : PkgState → Bool
  | .off | .starting | .standby | .drydown => false
  | _ => true

/-- Whether the package runs ring work: Run, Quiet or the way between them (R484). -/
def PkgState.up : PkgState → Bool
  | .run | .quiet | .enterQuiet | .leaveQuiet => true
  | _ => false

/-- The state of engine `e`. -/
abbrev Chip.engine (k : Chip) (e : Nat) : Eng := Tbl.get {} k.eng e

/-- Engine `e` changed by `f`. -/
def Chip.setEngine (k : Chip) (e : Nat) (f : Eng → Eng) : Chip := { k with eng := Tbl.mod {} k.eng e f }

/-- The context of ring `r`. -/
abbrev Chip.ring (k : Chip) (r : Nat) : Ring := Tbl.get {} k.re.rings r

/-- Ring `r` changed by `f`. -/
def Chip.setRing (k : Chip) (r : Nat) (f : Ring → Ring) : Chip :=
  { k with re := { k.re with rings := Tbl.mod {} k.re.rings r f } }

/-- The context of function `f` (R96). -/
abbrev Chip.fnCtx (k : Chip) (f : Nat) : FnCtx := Tbl.get {} k.re.fns f

/-- Function context `f` changed by `g`. -/
def Chip.setFn (k : Chip) (f : Nat) (g : FnCtx → FnCtx) : Chip :=
  { k with re := { k.re with fns := Tbl.mod {} k.re.fns f g } }

/-- The configuration space of host function `f`. -/
abbrev Chip.hostFn (k : Chip) (f : Nat) : HostFn := Tbl.get {} k.hf.fns f

/-- Host function `f` changed by `g`. -/
def Chip.setHostFn (k : Chip) (f : Nat) (g : HostFn → HostFn) : Chip :=
  { k with hf := { k.hf with fns := Tbl.mod {} k.hf.fns f g } }

/-- The hart ID `h`. -/
abbrev Chip.hart (k : Chip) (h : Nat) : Hart := Tbl.get {} k.harts h

/-- Hart ID `h` changed by `f`. -/
def Chip.setHart (k : Chip) (h : Nat) (f : Hart → Hart) : Chip := { k with harts := Tbl.mod {} k.harts h f }

/-- The tile `t` (28 × die + tile). -/
abbrev Chip.tile (k : Chip) (t : Nat) : Tile := Tbl.get {} k.tiles t

/-- Tile `t` changed by `f`. -/
def Chip.setTile (k : Chip) (t : Nat) (f : Tile → Tile) : Chip := { k with tiles := Tbl.mod {} k.tiles t f }

/-- The failover state of C-die `d`. -/
abbrev Chip.dieState (k : Chip) (d : Nat) : Die := Tbl.get {} k.flt.dies d

/-- The failover state of C-die `d` changed by `f`. -/
def Chip.setDie (k : Chip) (d : Nat) (f : Die → Die) : Chip :=
  { k with flt := { k.flt with dies := Tbl.mod {} k.flt.dies d f } }

/-- The identity machine step: a command that the rule makes without effect. -/
abbrev Chip.same (k : Chip) : Chip := k

end Sys2Proof.Machine
end

