-- ==== Sys2Proof/Machine/GunelOps.lean ====
section
/-!
DEFINITION. The lifetime record (R501 to R503): its bytes, and its writes to NOR.
-/

namespace Sys2Proof.Machine

/-- The byte string of the bits that `p` sets among the first `8 × n`. -/
def bitmap (n : Nat) (p : Nat → Bool) : Bytes :=
  (List.range n).map fun i => BitVec.ofNat 8 ((List.range 8).foldl (fun v j => if p (8 * i + j) then v + 2 ^ j else v) 0)

/-- R501: spare usage as the package stands. -/
def Chip.spareUsage (k : Chip) : Bytes :=
  bitmap 42 (fun t => (k.tile t).failed) ++ bitmap 3 (fun e => (k.engine e).failed) ++
  leBytes (k.rd HA_STATUS.REHOMED) 1 ++
  leBytes (((List.range 24).map fun p => k.rd (BL_STATUS.SPARES_USED p)).foldl max 0) 1 ++ zeros 17

/-- R480, R503: what Gunel copies into the record from the units: spare usage and the aging estimates. -/
def Chip.lifeSync (k : Chip) : Chip :=
  let age := (List.range 336).foldl (fun t i => Tbl.set 0 t i (k.rd (CLK_TRIM.AGE i))) k.gn.life.age
  { k with gn := { k.gn with life := { k.gn.life with spare := k.spareUsage, age := age } } }

/-- R501: the counts of starts. -/
def Life.startBytes (l : Life) : Bytes :=
  ((List.range 7).flatMap fun i => leBytes (Tbl.get 0 l.starts i) 4) ++ leBytes (Tbl.get 0 l.starts 7) 1 ++
  leBytes (Tbl.get 0 l.starts 8) 1 ++ zeros 34

/-- R501: the DRAM device marks: one entry for each slot of each channel; `ranks` gives the ranks of a DIMM. -/
def Life.markBytes (l : Life) (ranks : Nat → Nat) : Bytes :=
  (List.range 32).flatMap fun i =>
    let c := i / 2
    let first := 2 * (i % 2) * ranks c
    leBytes (Config.dimmSerial c (i % 2)) 8 ++ leBytes c 1 ++ leBytes (i % 2) 1 ++
    ((List.range 4).flatMap fun j => leBytes (if j < 2 * ranks c then Tbl.get 0 l.marks (8 * c + first + j) else 0) 1) ++ zeros 2

/-- R501: the record up to its check. -/
def Life.body (l : Life) (ranks : Nat → Nat) : Bytes :=
  [0x51, 0x46, 0x4C, 0x52, 0x01, 0, 0, 0] ++ leBytes Config.packageSerial 8 ++ leBytes l.firstStart 8 ++
  leBytes l.pcrs 4 ++ zeros 36 ++
  ((List.range 208).flatMap fun i => leBytes (Tbl.get 0 l.histo i) 8) ++
  ((List.range 208).flatMap fun i => leBytes (Tbl.get 0 l.histo (256 + i)) 8) ++
  ((List.range 1280).flatMap fun i => leBytes (Tbl.get 0 l.counts i) 8) ++
  padTo l.spare 64 ++ l.startBytes ++ l.markBytes ranks ++
  ((List.range 336).flatMap fun i => leBytes (Tbl.get 0 l.age i) 1) ++ zeros 1760 ++ leBytes l.writeSeq 8 ++ zeros 4

/-- R501: the lifetime record as Gunel holds it. -/
def Chip.lifeRecord (k : Chip) : Bytes :=
  let b := k.gn.life.body fun c => k.rd (MC_STATUS.RANKS c)
  b ++ leBytes (crc32 b) 4

/-- R503: the record written to the older of the two NOR copies, WRITE_SEQ one higher. -/
def Chip.lifeWrite (k : Chip) : Chip :=
  let k := k.lifeSync
  let k := { k with gn := { k.gn with life := { k.gn.life with writeSeq := (k.gn.life.writeSeq + 1) % 2 ^ 64 } } }
  { k with gn := { k.gn with lifeCopies := (k.gn.life :: k.gn.lifeCopies).take 2 } }

/-- R419, R505, R509, R518, R560: FAULT_N asserted until the next PCR; the lifetime record is written first (R503). -/
def Chip.assertFault (k : Chip) : Chip :=
  if k.gn.faultN then k else
  let k := k.lifeWrite
  { k with gn := { k.gn with faultN := true } }.emit (.pin "FAULT_N" 0)

end Sys2Proof.Machine
end

