-- ==== Sys2Proof/Machine/ConosLink.lean ====
section
/-!
DEFINITION. The sending side of Conos (R176 to R183, R189 to R191): ports and their link sequence, routes, flows, and
the remote writes and reads that an access to the aperture becomes.
-/

namespace Sys2Proof.Machine

/-- Conos port `n`. -/
abbrev Chip.port (k : Chip) (n : Nat) : Port := Tbl.get {} k.cn.ports n

/-- Conos port `n` changed by `f`. -/
def Chip.setPort (k : Chip) (n : Nat) (f : Port → Port) : Chip :=
  { k with cn := { k.cn with ports := Tbl.mod {} k.cn.ports n f } }

/-- The key of the flow with package `peer` in virtual channel `vc` (R180). -/
def flowKey (peer vc : Nat) : Nat := 2 * peer + vc

/-- The flow with package `peer` in virtual channel `vc`. -/
abbrev Chip.flow (k : Chip) (peer vc : Nat) : Flow := Tbl.get {} k.cn.flows (flowKey peer vc)

/-- That flow changed by `f`. -/
def Chip.setFlow (k : Chip) (peer vc : Nat) (f : Flow → Flow) : Chip :=
  { k with cn := { k.cn with flows := Tbl.mod {} k.cn.flows (flowKey peer vc) f } }

/-- A bit of CN_EVENT set with what CN_EVENT_INFO then shows; the MSI goes out when the bit newly sets (R201).
(DEDUCED, log 32) -/
def Chip.cnEvent (k : Chip) (f : Fld) (peer port window status : Nat) : Chip :=
  let was := k.on f
  let k := (((((k.raise f).wr CN_EVENT_INFO.PKG peer).wr CN_EVENT_INFO.PORT port).wr CN_EVENT_INFO.WINDOW window).wr
    CN_EVENT_INFO.STATUS status).wr CN_EVENT_INFO.EVENT f.lo
  if was then k else k.emit (.msi (k.rd CN_MSI_ADDR.ADDR) (k.rd CN_MSI_DATA.DATA))

/-- R182, R183: the port a frame for package `dst` leaves by. -/
def Chip.route (k : Chip) (dst : Nat) : Option Nat :=
  let e := Tbl.get 0 k.cn.routes dst
  let up := fun n => k.rd (CN_PORT_STATUS.STATE n) == 2
  if !bit e 4 then none
  else if up (bits e 0 2) then some (bits e 0 2)
  else if bit e 5 && up (bits e 2 2) then some (bits e 2 2)
  else none

/-- The virtual channel to which a port owes the most credit, and how much (R179). -/
def Port.creditDue (p : Port) : Nat × Nat :=
  let o := fun v => p.owed.getD v 0
  let v := if o 0 ≥ o 1 && o 0 ≥ o 2 then 0 else if o 1 ≥ o 2 then 1 else 2
  (v, min 63 (o v))

/-- A frame sent on port `n` with the next LINK_SEQ (R178); without credit for its virtual channel it waits (R179). -/
def Chip.sendLink (k : Chip) (n : Nat) (f : Frame) : Chip :=
  let p := k.port n
  if p.credits.getD f.vc 0 == 0 then k.setPort n fun p => { p with waiting := p.waiting ++ [f] } else
  let (cv, c) := p.creditDue
  let f := { f with
    linkSeq := p.txSeq
    linkAck := wrapSub p.rxSeq 1 16
    creditVc := cv
    credit := c }
  ((k.setPort n fun p => { p with
    txSeq := (p.txSeq + 1) % 65536
    credits := p.credits.set f.vc (p.credits.getD f.vc 0 - 1)
    owed := p.owed.set cv (p.owed.getD cv 0 - c)
    replay := p.replay ++ [f] }).count 8 n 0 1).emit (.frame n f)

/-- The frames of port `n` that waited for credit, sent while it holds any. -/
def Chip.drainPort (k : Chip) (n : Nat) : Chip :=
  let w := (k.port n).waiting
  w.foldl (fun k f => k.sendLink n f) (k.setPort n fun p => { p with waiting := [] })

/-- A frame sent towards its destination: on the routed port, or on the loop back to this package (port 4), or dropped
with NO_ROUTE (R182). -/
def Chip.sendFrame (k : Chip) (f : Frame) : Chip :=
  if f.dst == k.rd CN_ID.PKG_ID then k.emit (.frame 4 f) else
  match k.route f.dst with
  | some n => k.sendLink n f
  | none => k.cnEvent CN_EVENT.NO_ROUTE f.dst 0 f.window 6

/-- A frame of this package for package `dst` (R176, R182). -/
def Chip.newFrame (k : Chip) (op vc dst window arg : Nat) (last : Bool) (body : Bytes) : Frame :=
  { kind := if vc == 2 then 1 else 2, vc := vc, op := op, linkSeq := 0, linkAck := 0, last := last, poison := false,
    sync := false, nak := false, dst := dst, src := k.rd CN_ID.PKG_ID, window := window,
    ttl := orDefault (k.rd CN_CTRL.TTL) 16, creditVc := 0, credit := 0, flowSeq := 0, arg := arg, body := body }

/-- A frame given the next FLOW_SEQ of its flow, kept in the end-to-end store and sent; a flow has at most 1,024
frames on their way (R180, R181); after a Package-fatal condition flows stop (R419). -/
def Chip.sendFlow (k : Chip) (f : Frame) : Chip :=
  if k.flt.fatal then k else
  let fl := k.flow f.dst f.vc
  let f := { f with flowSeq := fl.txSeq, sync := fl.syncDue }
  if f.dst == k.rd CN_ID.PKG_ID then
    (k.setFlow f.dst f.vc fun l => { l with txSeq := (l.txSeq + 1) % 2 ^ 32, syncDue := false }).emit (.frame 4 f)
  else
    let k := k.setFlow f.dst f.vc fun l => { l with
      txSeq := (l.txSeq + 1) % 2 ^ 32, syncDue := false, unacked := l.unacked ++ [f] }
    if fl.unacked.length < 1024 then k.sendFrame f else k

/-- Whether an operation can leave for package `dst` (R182): Conos is on, and the package is the local one or routed. -/
def Chip.reachable (k : Chip) (dst : Nat) : Bool :=
  k.on CN_CTRL.ENABLE && (dst == k.rd CN_ID.PKG_ID || (k.route dst).isSome)

/-- The package, window and offset that an aperture address names (R189). -/
def apertureParts (addr : Nat) : Nat × Nat × Nat := (bits addr 36 14, bits addr 26 10, bits addr 0 26)

/-- Whether an address lies in the Conos aperture (R189, R565). -/
def inAperture (addr : Nat) : Bool := decide (2 ^ 51 ≤ addr ∧ addr < 2 ^ 51 + 2 ^ 50)

/-- A posted remote write of `bs` at aperture address `addr`: WRITE frames of at most 224 bytes (R190); false where
the package has no route, the event of R191 then standing with UNREACHABLE. -/
def Chip.apertureWrite (k : Chip) (addr : Nat) (bs : Bytes) (poison : Bool) (job : Option Nat) : Chip × Bool :=
  let (dst, w, off) := apertureParts addr
  if !k.reachable dst then (k.cnEvent CN_EVENT.REFUSED dst 0 w 6, false) else
  let first := (k.flow dst 0).txSeq
  let ps := pieces 224 bs
  let k := ps.zipIdx.foldl (fun k p =>
    k.sendFlow { k.newFrame 1 0 dst w (off + 224 * p.2) (p.2 + 1 == ps.length) p.1 with poison := poison }) k
  let k := match job with
    | some j => { k with cn := { k.cn with writers := (dst, first, j) :: k.cn.writers } }
    | none => k
  (k, true)

/-- Whether every remote write of job `j` counts as written: no frame of it is unacknowledged (R24, R190). -/
def Chip.writesDone (k : Chip) (j : Nat) : Bool :=
  k.cn.writers.all fun w => w.2.2 != j || !((k.flow w.1 0).unacked.any fun f => f.flowSeq == w.2.1)

/-- A remote read of `len` bytes at aperture address `addr` with a new READ_TAG (R191); none where there is no
route. -/
def Chip.apertureRead (k : Chip) (addr len : Nat) (hart job : Option Nat) : Chip × Option Nat :=
  let (dst, w, off) := apertureParts addr
  if !k.reachable dst then (k, none) else
  let tag := k.cn.nextTag
  let k := { k with cn := { k.cn with
    nextTag := (tag + 1) % 65536
    reads := k.cn.reads.insert tag
      { peer := dst, window := w, off := off, flowSeq := (k.flow dst 0).txSeq, len := len, hart := hart, job := job } } }
  (k.sendFlow (k.newFrame 2 0 dst w tag true (leBytes len 4 ++ leBytes off 4)), some tag)

end Sys2Proof.Machine
end

