-- ==== Sys2Proof/Machine/Dma.lean ====
section
/-!
DEFINITION. How every agent with W = 1 other than a hart reaches memory: the IOMMU (R462 to R464, R567), then DRAM, the
Conos aperture, an interrupt file or a reserved address (R565, R566), or host memory behind the endpoint (R211, R215).
-/

namespace Sys2Proof.Machine

/-- R462: the device ID of host function `f`. -/
def Chip.devOfFn (k : Chip) (f : Nat) : Nat := k.rd HF_DEVID.BASE + f

/-- R462: the device ID of a ring and its jobs. -/
def Chip.devOfRing (k : Chip) (r : Nat) (internal : Bool) : Nat :=
  if internal then k.rd WS_IOMMU.INTERNAL_DEVID else k.devOfFn (r / 32)

/-- The IOMMU's ddtp register, at offset 16 of its page (R463); the page is held in words of 4 bytes.
(PRESUMED, log 15) -/
def Chip.ddtp (k : Chip) : Nat := Tbl.get 0 k.ws.iommu 16 + 2 ^ 32 * Tbl.get 0 k.ws.iommu 20

/-- Whether an address lies in an IMSIC file (R568). -/
def inImsic (pa : Nat) : Bool :=
  decide (0xF_D000_0000_0000 ≤ pa ∧ pa < 0xF_D000_0012_0000) || decide (0xF_D100_0000_0000 ≤ pa ∧ pa < 0xF_D100_0090_0000)

/-- R463, R464, R567: the physical address of one access that stays within a page, or the fault cause. The Off mode
of ddtp refuses every request, the Bare mode passes it, and the directory modes walk memory. (PRESUMED, log 15) -/
def Chip.translate (k : Chip) (dev iova size : Nat) (write : Bool) : Except Nat Nat :=
  let cause := if write then 7 else 5
  let out : Except Nat Nat :=
    if k.ddtp % 16 == 0 then .error 256
    else if k.ddtp % 16 == 1 then .ok iova
    else Config.iommuWalk k.ddtp dev iova write
  match out with
  | .error c => .error c
  | .ok pa =>
    if pa < k.secureTop || 2 ^ 52 ≤ pa then .error cause
    else if 0xF_C000_0000_0000 ≤ pa then
      if write && size == 4 && pa % 4 == 0 && inImsic pa then .ok pa else .error cause
    else .ok pa

/-- A fault of the IOMMU put in its fault queue (R463, R464). -/
def Chip.iommuFault (k : Chip) (cause dev iova : Nat) : Chip :=
  { k with ws := { k.ws with faultQueue := k.ws.faultQueue ++ [(cause, dev, iova)] } }

/-- The pieces of an access that stay within one page of 4 KiB: offset and length. -/
def pageParts (iova n : Nat) : List (Nat × Nat) :=
  if n == 0 then [] else
  (List.range ((iova + n - 1) / 4096 - iova / 4096 + 1)).map fun i =>
    let a := max iova ((iova / 4096 + i) * 4096)
    let b := min (iova + n) ((iova / 4096 + i + 1) * 4096)
    (a - iova, b - a)

/-- Whether `n` bytes at `iova` of device `dev` lie behind the endpoint (the model's own map of host memory).
(DESIGN CHOICE, log 8) -/
def Chip.isHost (k : Chip) (dev iova n : Nat) : Bool :=
  k.hf.ranges.any fun r => r.1 == dev && decide (r.2.1 ≤ iova ∧ iova + n ≤ r.2.1 + r.2.2)

/-- The outcome of a read: the bytes, or why none came. -/
inductive Got where
  | bytes (b : Bytes)
  | fault (cause : Nat)
  | poison
  | timeout
  deriving DecidableEq, Repr

/-- Two outcomes of consecutive parts of one read. -/
def Got.append : Got → Got → Got
  | .bytes a, .bytes b => .bytes (a ++ b)
  | .bytes _, r => r
  | l, _ => l

/-- What the answers in hand give for the `n` bytes at `iova`: all from one answer, or nothing has come in time.
(DEDUCED, log 40) -/
def answerOf (rs : List HostRead) (iova n : Nat) : Got :=
  match rs.find? fun r => decide (r.iova ≤ iova ∧ iova + n ≤ r.iova + r.len) with
  | some r => match r.answer with
    | .data b => .bytes (slice b (iova - r.iova) n)
    | .poisoned => .poison
    | .timeout => .timeout
  | none => .timeout

/-- The bytes that the package itself has sent to host memory at `iova` of function `fn`, the latest first; none where it
has not written them all (R82: the host leaves an output area alone until its job completes). -/
def Chip.sentBack (k : Chip) (fn iova n : Nat) : Option Bytes :=
  (List.range n).mapM fun i => k.out.findSome? fun o => match o with
    | .hostWrite f a b => if f == fn && a ≤ iova + i && iova + i < a + b.length then b[iova + i - a]? else none
    | _ => none

/-- What the physical address gives a reader other than a hart: DRAM, the aperture by the answers in hand (a remote
read with no answer is poison, R191), a reserved address with the poison mark (R566). -/
def Chip.readPa (k : Chip) (rs : List HostRead) (iova pa n : Nat) : Got :=
  if pa + n ≤ k.dramSize then if k.poisoned pa n then .poison else .bytes (k.load pa n)
  else if inAperture pa then match answerOf rs iova n with
    | .bytes b => .bytes b
    | _ => .poison
  else .poison

/-- A read of `n` bytes at `iova` under device `dev` (R462 to R464); `rs` holds the answers of host memory and of
peers. (DEDUCED, log 40) -/
def Chip.dmaRead (k : Chip) (rs : List HostRead) (dev iova n : Nat) : Got :=
  (pageParts iova n).foldl (fun g p =>
    g.append (
      if k.isHost dev (iova + p.1) p.2 then answerOf rs (iova + p.1) p.2
      else match k.translate dev (iova + p.1) p.2 false with
        | .error c => .fault c
        | .ok pa => k.readPa rs (iova + p.1) pa p.2)) (.bytes [])

/-- A read of `n` bytes of a job's own output at `iova` under device `dev`. -/
def Chip.readBack (k : Chip) (dev iova n : Nat) : Got :=
  if k.isHost dev iova n then match k.sentBack (dev - k.rd HF_DEVID.BASE) iova n with
    | some b => .bytes b
    | none => .timeout
  else k.dmaRead [] dev iova n

/-- A write of `bs` to physical address `pa` by an agent other than a hart; false where a remote write has no route. -/
def Chip.writePa (k : Chip) (pa : Nat) (bs : Bytes) (poison : Bool) (job : Option Nat) : Chip × Bool :=
  if pa + bs.length ≤ k.dramSize then
    let k := k.store pa bs
    (if poison then (linesOf pa bs.length).foldl Chip.mark k else k, true)
  else if inAperture pa then k.apertureWrite pa bs poison job
  else if inImsic pa then (k.emit (.msi pa (ofLe bs)), true)
  else (k.log { cls := 0, unitType := 17, unit := 0, info0 := pa }, true)

/-- A write of `bs` at `iova` under device `dev`; false at the first part that faults, the parts before it written. A
write of a function's job to host memory goes out on the link in order (R210). -/
def Chip.dmaWrite (k : Chip) (dev iova : Nat) (bs : Bytes) (poison : Bool := false) (job : Option Nat := none) :
    Chip × Bool :=
  (pageParts iova bs.length).foldl (fun s p =>
    if !s.2 then s else
    let part := slice bs p.1 p.2
    if s.1.isHost dev (iova + p.1) p.2 then
      let fn := dev - s.1.rd HF_DEVID.BASE
      ((s.1.wakeLink.count 6 fn 1 p.2).emit (.hostWrite fn (iova + p.1) part), true)
    else match s.1.translate dev (iova + p.1) p.2 true with
      | .error c => (s.1.iommuFault c dev (iova + p.1), false)
      | .ok pa => s.1.writePa pa part poison job) (k, true)

/-- Whether a whole range may be written: every part of it translates (R464). -/
def Chip.dmaWritable (k : Chip) (dev iova n : Nat) : Bool :=
  (pageParts iova n).all fun p => k.isHost dev (iova + p.1) p.2 ||
    match k.translate dev (iova + p.1) p.2 true with
    | .error _ => false
    | .ok _ => true

end Sys2Proof.Machine
end

