-- ==== Sys2Proof/Machine/HostOps.lean ====
section
/-!
DEFINITION. Shared operations of the host endpoint (08): which functions are enabled, the requests for host memory and
their tags, MSI-X, and the errors it reports.
-/

namespace Sys2Proof.Machine

/-- R205: function `f` is enabled. -/
def Chip.fnEnabled (k : Chip) (f : Nat) : Bool :=
  let c := k.hostFn f
  k.on (HF_FN_CTRL.ALLOW f) && c.busMaster && !c.d3 && !c.inFlr && (f == 0 || (k.hf.vfEnable && decide (f ≤ k.hf.numVfs)))

/-- The enabled functions, ascending. -/
def Chip.enabledFns (k : Chip) : List Nat := (List.range 256).filter k.fnEnabled

/-- A bit of HF_ERR set with what HF_ERR_INFO then shows, and its event (R226). -/
def Chip.hfErr (k : Chip) (f : Fld) (fn ring : Nat) : Chip :=
  ((((k.raise f).wr HF_ERR_INFO.FUNCTION fn).wr HF_ERR_INFO.RING ring).wr HF_ERR_INFO.EVENT f.lo).log
    { cls := 0, unitType := 12, unit := fn, cause := f.lo, info0 := fn + 256 * (ring % 32) + 65536 * f.lo, fn := fn }

/-- An error reported through AER on function `fn` (R219): 0 Completion Timeout, 1 Unexpected Completion, 2 Poisoned
TLP Received. -/
def Chip.aer (k : Chip) (fn kind : Nat) : Chip :=
  (k.setHostFn fn fun c => { c with aer := setBit c.aer kind }).emit (.aer fn kind)

/-! ### MSI-X (R78, R209) -/

/-- R207: the entries of a function's MSI-X table. -/
def tableSize (fn : Nat) : Nat := if fn == 0 then 2048 else 64

/-- An MSI-X message of function `fn`, vector `v`; it stays pending while MSI-X is off, the function or the vector is
masked (R78, R209). -/
def Chip.msix (k : Chip) (fn v : Nat) : Chip :=
  let c := k.hostFn fn
  let e := Tbl.get {} c.vectors v
  if !c.msixOn || c.mask || e.masked then
    k.setHostFn fn fun c => { c with vectors := Tbl.set {} c.vectors v { e with pending := true } }
  else (k.wakeLink.count 6 fn 3 1).emit (.msix fn v e.addr e.data)

/-- The pending messages of function `fn` that may now go out (R78, R209). -/
def Chip.msixFlush (k : Chip) (fn : Nat) : Chip :=
  let c := k.hostFn fn
  if !c.msixOn || c.mask then k else
  let due := c.vectors.filter fun e => e.2.pending && !e.2.masked
  let k := k.setHostFn fn fun c => { c with
    vectors := due.foldl (fun t e => Tbl.set {} t e.1 { e.2 with pending := false }) c.vectors }
  ((if due.isEmpty then k else k.wakeLink).count 6 fn 3 due.length).emitAll (due.map fun e => .msix fn e.1 e.2.addr e.2.data)

/-! ### Reads of host memory (R212 to R217) -/

/-- The key under which the answers of a use are kept. -/
def TagUse.key : TagUse → Nat
  | .descriptor r => r
  | .param j => 8192 + j
  | .readAhead j => 24576 + j
  | .dropped => 40960

/-- R213: the tag values of function `fn`: the first, and how many. -/
def Chip.tagRange (k : Chip) (fn : Nat) : Nat × Nat := if (k.hostFn fn).tenBit then (256, 768) else (0, 256)

/-- The key of an outstanding request: the requester and its tag. -/
def tagKey' (fn tag : Nat) : Nat := fn * 1024 + tag

/-- The tags that function `fn` holds, quarantined ones included (R213, R227). -/
def Chip.tagsHeld (k : Chip) (fn : Nat) : Nat := (k.hf.tags.filter fun e => e.2.fn == fn).length

/-- R213: the tag that function `fn` may take now: within its own values, within its guarantee or among the tags that
are free beyond the guarantees of others. -/
def Chip.freeTag (k : Chip) (fn : Nat) : Option Nat :=
  let (lo, n) := k.tagRange fn
  let fns := k.enabledFns
  let share := 768 / max 1 fns.length
  let held := k.tagsHeld fn
  let owed := (fns.map fun g => if g == fn then 0 else share - k.tagsHeld g).sum
  if k.hf.tags.length ≥ 768 then none
  else if held ≥ share && 768 - k.hf.tags.length ≤ owed then none
  else ((List.range n).map (lo + ·)).find? fun t => (k.hf.tags.find (tagKey' fn t)).isNone

/-- R203: the largest read request of a function, from its code in Device Control. -/
def Chip.maxRead (k : Chip) (fn : Nat) : Nat := 128 * 2 ^ min 5 (k.hostFn fn).mrrs

/-- R212: a read cut so that no request exceeds the largest read request or crosses a 4 KiB boundary. -/
def Chip.hostParts (k : Chip) (fn iova n : Nat) : List (Nat × Nat) :=
  (pageParts iova n).flatMap fun p =>
    let m := k.maxRead fn
    (List.range (ceilDiv p.2 m)).map fun i => (iova + p.1 + i * m, min m (p.2 - i * m))

/-- The requests that wait for a tag, issued in order as far as tags go; a function without a tag does not hold up
another (R213). -/
def Chip.pump (k : Chip) : Chip :=
  k.hf.queue.foldl (fun k q => match k.freeTag q.1 with
    | none => { k with hf := { k.hf with queue := k.hf.queue ++ [q] } }
    | some t => { k with hf := { k.hf with
        tags := k.hf.tags.insert (tagKey' q.1 t) { fn := q.1, use := q.2.1, iova := q.2.2.1, len := q.2.2.2 } } }.emit
        (.hostRead q.1 t q.2.2.1 q.2.2.2) |>.count 6 q.1 2 1)
    { k with hf := { k.hf with queue := [] } }

/-- A read of `n` bytes of host memory at `iova` for function `fn` (R212). -/
def Chip.askHost (k : Chip) (fn : Nat) (use : TagUse) (iova n : Nat) : Chip :=
  Chip.pump { k.wakeLink with hf := { k.hf with
    queue := k.hf.queue ++ (k.hostParts fn iova n).map fun p => (fn, use, p.1, p.2) } }

/-- Whether nothing of a use is outstanding (R214). -/
def Chip.arrivedAll (k : Chip) (use : TagUse) : Bool :=
  !(k.hf.tags.any fun e => e.2.use == use && !e.2.quarantined) && !(k.hf.queue.any fun q => q.2.1 == use)

/-- The answers that have arrived for a use. -/
abbrev Chip.answers (k : Chip) (use : TagUse) : List HostRead := Tbl.get [] k.hf.arrived use.key

/-- Two answers of consecutive reads: the bytes of both, poisoned where one is (R218). -/
def joinAnswers : HostAnswer → HostAnswer → HostAnswer
  | .data x, .data y => .data (x ++ y)
  | .timeout, _ => .timeout
  | _, .timeout => .timeout
  | _, _ => .poisoned

/-- The answers of a use joined into one read where they follow each other without a gap. -/
def joinReads (rs : List HostRead) : List HostRead :=
  rs.foldl (fun acc r => match acc with
    | a :: t => match a.answer, r.answer with
      | .timeout, _ => r :: acc
      | _, .timeout => r :: acc
      | x, y => if a.iova + a.len == r.iova then { a with len := a.len + r.len, answer := joinAnswers x y } :: t else r :: acc
    | [] => [r]) []

/-- The answers of a use forgotten, its requests no longer asked and what is still on its way dropped. -/
def Chip.forget (k : Chip) (use : TagUse) : Chip :=
  { k with hf := { k.hf with
    tags := k.hf.tags.map fun e => if e.2.use == use then (e.1, { e.2 with use := .dropped }) else e
    arrived := k.hf.arrived.erase use.key
    queue := k.hf.queue.filter fun q => q.2.1 != use } }

/-- R223, step 3: the outstanding tags of function `fn` go into quarantine. -/
def Chip.quarantine (k : Chip) (fn : Nat) : Chip :=
  { k with hf := { k.hf with
    tags := k.hf.tags.map fun e => if e.2.fn == fn then (e.1, { e.2 with quarantined := true }) else e
    queue := k.hf.queue.filter fun q => q.1 != fn } }

/-! ### The end of a function's service (R85, R206, R223, R224) -/

/-- R223, steps 1 to 3: function `f` loses its credit and its fetches at once, its jobs are to be dropped at the next
boundary, and its tags go into quarantine. -/
def Chip.endService (k : Chip) (f : Nat) : Chip :=
  let k := (k.setFn f fun c => { c with credit := 0 }).quarantine f
  let k := { k with re := { k.re with
    rings := Tbl.mapVals {} k.re.rings fun r g =>
      if r / 32 == f && !bit g.flags 1 then { g with fetching := false } else g } }
  k.setHostFn f fun c => { c with dropDue := true }

/-- A change `g` of what R205 asks for: the functions that leave service by it lose it (R206, R224). -/
def Chip.changeService (k : Chip) (g : Chip → Chip) : Chip :=
  let before := k.enabledFns
  let k := g k
  (before.filter fun f => !k.fnEnabled f).foldl Chip.endService k

end Sys2Proof.Machine
end

