-- ==== Sys2Proof/Machine/Operands.lean ====
section
/-!
DEFINITION. The memory and register layouts that commands read and write (R6): descriptors, ring and function contexts,
window, route, target and queue-pair entries, completion records and Conos frames, each with its two directions where
both are used.
-/

namespace Sys2Proof.Machine

/-! ### Descriptors (R70) -/

/-- R70: the fields of a 64-byte descriptor. -/
def Desc.ofBytes (b : Bytes) : Desc :=
  { opcode := leAt b 0 1, flags := leAt b 1 1, stages := leAt b 2 2, jobTag := leAt b 4 4, src := leAt b 8 8,
    dst := leAt b 16 8, length := leAt b 24 6, keySlot := leAt b 30 2, objectId := leAt b 32 8, param := leAt b 40 8,
    dstLimit := leAt b 48 8, modes := leAt b 56 1, avgExp := leAt b 57 1, sillage := leAt b 58 1,
    affinity := leAt b 59 1, tail := leAt b 60 4 }

/-- R70: the 64 bytes of a descriptor. -/
def Desc.bytes (d : Desc) : Bytes :=
  leBytes d.opcode 1 ++ leBytes d.flags 1 ++ leBytes d.stages 2 ++ leBytes d.jobTag 4 ++ leBytes d.src 8 ++
  leBytes d.dst 8 ++ leBytes d.length 6 ++ leBytes d.keySlot 2 ++ leBytes d.objectId 8 ++ leBytes d.param 8 ++
  leBytes d.dstLimit 8 ++ leBytes d.modes 1 ++ leBytes d.avgExp 1 ++ leBytes d.sillage 1 ++ leBytes d.affinity 1 ++
  leBytes d.tail 4

/-- Whether stage bit `i` of the descriptor is set (R71). -/
def Desc.stage (d : Desc) (i : Nat) : Bool := bit d.stages i

/-- R71, bit 0. -/
abbrev Desc.chunk (d : Desc) : Bool := d.stage 0
/-- R71, bit 1. -/
abbrev Desc.sha (d : Desc) : Bool := d.stage 1
/-- R71, bit 2. -/
abbrev Desc.blake (d : Desc) : Bool := d.stage 2
/-- R71, bit 3. -/
abbrev Desc.probe (d : Desc) : Bool := d.stage 3
/-- R71, bit 4. -/
abbrev Desc.compress (d : Desc) : Bool := d.stage 4
/-- R71, bit 5. -/
abbrev Desc.encrypt (d : Desc) : Bool := d.stage 5
/-- R71, bit 6. -/
abbrev Desc.ec (d : Desc) : Bool := d.stage 6
/-- R71, bit 7. -/
abbrev Desc.fragment (d : Desc) : Bool := d.stage 7
/-- R71, bit 8. -/
abbrev Desc.manifest (d : Desc) : Bool := d.stage 8
/-- R70, FLAGS bit 0. -/
abbrev Desc.irqNow (d : Desc) : Bool := bit d.flags 0
/-- R70, FLAGS bit 1. -/
abbrev Desc.fence (d : Desc) : Bool := bit d.flags 1
/-- R70, FLAGS bit 2. -/
abbrev Desc.sign (d : Desc) : Bool := bit d.flags 2
/-- R70, FLAGS bit 3. -/
abbrev Desc.place (d : Desc) : Bool := bit d.flags 3
/-- R70, FLAGS bit 4. -/
abbrev Desc.tagValid (d : Desc) : Bool := bit d.flags 4
/-- R70, MODES bit 2: 1 for AES-256-XTS. -/
abbrev Desc.xts (d : Desc) : Bool := bit d.modes 2
/-- R70, MODES bit 3: the field of the code. -/
abbrev Desc.field (d : Desc) : Nat := bits d.modes 3 1
/-- R70, MODES bits [1:0]. -/
abbrev Desc.level (d : Desc) : Nat := bits d.modes 0 2

/-! ### Ring and function contexts (R95, R96) -/

/-- R95: the 64 bytes of a ring context. -/
def Ring.bytes (r : Ring) : Bytes :=
  leBytes r.wrBase 8 ++ leBytes r.crBase 8 ++ leBytes r.wrLog2 1 ++ leBytes r.crLog2 1 ++ leBytes r.depth 1 ++
  leBytes r.flags 1 ++ leBytes r.vector 2 ++ leBytes r.coalCount 2 ++ leBytes r.coalBeats 1 ++ leBytes r.state 1 ++
  zeros 2 ++ leBytes r.wrPi 4 ++ leBytes r.wrCi 4 ++ leBytes r.crPi 4 ++ leBytes r.crCi 4 ++ zeros 4 ++
  leBytes r.msiAddr 8 ++ leBytes r.msiData 4 ++ zeros 4

/-- R96: the 64 bytes of a function context, `held` being the job contexts it holds. -/
def FnCtx.bytes (f : FnCtx) (held : Nat) : Bytes :=
  leBytes f.weight 1 ++ leBytes f.fetchCap 1 ++ leBytes f.tagLo 1 ++ leBytes f.tagHi 1 ++ leBytes f.tagDefault 1 ++
  zeros 1 ++ leBytes f.rate 2 ++ leBytes f.credit 2 ++ leBytes f.usedLast 2 ++ leBytes f.deferred 4 ++
  leBytes held 2 ++ zeros 46

/-! ### Completion records (R74, R75) -/

/-- What a completion record carries beside the ring's own indices. -/
structure Rec where
  tag : Nat := 0
  status : Nat := 0
  ringEvent : Bool := false
  flags : Nat := 0
  segments : Nat := 0
  outLen : Nat := 0
  detail : Nat := 0
  beat : Nat := 0
  deriving DecidableEq, Repr

/-- R74: the 32 bytes of record number `i` of a completion ring, with its PHASE bit (R75). -/
def Rec.bytes (r : Rec) (i crLog2 wrCi : Nat) : Bytes :=
  leBytes r.tag 4 ++ leBytes r.status 2 ++ leBytes (ofBool r.ringEvent) 1 ++
  leBytes (1 - i / 2 ^ crLog2 % 2 + 2 * r.flags) 1 ++ leBytes wrCi 4 ++ leBytes r.segments 4 ++ leBytes r.outLen 6 ++
  leBytes r.detail 2 ++ leBytes r.beat 8

/-! ### Windows, targets and queue pairs (R184, R231, R232) -/

/-- R184: the fields of a window entry that a write carries. -/
def WinEntry.ofBytes (b : Bytes) : WinEntry :=
  { base := leAt b 0 8, sizeLog2 := leAt b 8 1, kind := leAt b 9 1, peerLo := leAt b 12 2, peerHi := leAt b 14 2,
    deviceId := leAt b 16 4, tag := leAt b 20 1, stashDie := leAt b 21 1, slotLog2 := leAt b 22 1,
    mediaTarget := leAt b 24 2 }

/-- R184: STATE of a window. -/
def Window.state (w : Window) : Nat := ofBool w.shadow.isSome + 2 * ofBool w.draining + 4 * ofBool w.drained

/-- R184: the 32 bytes of a window entry as a read shows it. -/
def Window.bytes (w : Window) : Bytes :=
  let e := w.entry
  leBytes e.base 8 ++ leBytes e.sizeLog2 1 ++ leBytes e.kind 1 ++ leBytes (w.gen % 65536) 2 ++ leBytes e.peerLo 2 ++
  leBytes e.peerHi 2 ++ leBytes e.deviceId 4 ++ leBytes e.tag 1 ++ leBytes e.stashDie 1 ++ leBytes e.slotLog2 1 ++
  leBytes w.state 1 ++ leBytes e.mediaTarget 2 ++ zeros 6

/-- R231: target entry `t` with the fields that a write carries. -/
def Target.written (t : Target) (b : Bytes) : Target :=
  { t with
    port := leAt b 0 1, flags := leAt b 1 1, rid := leAt b 2 2, nsid := leAt b 4 4, lbaLog2 := leAt b 8 1
    zonesOpen := leAt b 9 1, qpFirst := leAt b 10 2, qpCount := leAt b 12 1, zoneFirst := leAt b 16 8
    zoneCount := leAt b 24 4 }

/-- R231: the 32 bytes of a target entry. -/
def Target.bytes (t : Target) : Bytes :=
  leBytes t.port 1 ++ leBytes t.flags 1 ++ leBytes t.rid 2 ++ leBytes t.nsid 4 ++ leBytes t.lbaLog2 1 ++
  leBytes t.zonesOpen 1 ++ leBytes t.qpFirst 2 ++ leBytes t.qpCount 1 ++ leBytes t.state 1 ++ zeros 2 ++
  leBytes t.zoneFirst 8 ++ leBytes t.zoneCount 4 ++ zeros 4

/-- R232: queue-pair entry `q` with the fields that a write carries. -/
def QPair.written (q : QPair) (b : Bytes) : QPair :=
  { q with
    sqBase := leAt b 0 8, cqBase := leAt b 8 8, qlog2 := leAt b 16 1, flags := leAt b 17 1, target := leAt b 18 2
    msiData := leAt b 20 4, msiAddr := leAt b 24 8 }

/-- R232: the 32 bytes of a queue-pair entry. -/
def QPair.bytes (q : QPair) : Bytes :=
  leBytes q.sqBase 8 ++ leBytes q.cqBase 8 ++ leBytes q.qlog2 1 ++ leBytes q.flags 1 ++ leBytes q.target 2 ++
  leBytes q.msiData 4 ++ leBytes q.msiAddr 8

/-! ### Conos frames (R176) -/

/-- R176: bytes 0 to 251 of a frame. -/
def frameHead (f : Frame) : Bytes :=
  leBytes (f.kind % 16 + 16 * (f.vc % 16)) 1 ++ leBytes f.op 1 ++ leBytes f.linkSeq 2 ++ leBytes f.linkAck 2 ++
  leBytes (ofBool f.last + 2 * ofBool f.poison + 4 * ofBool f.sync + 8 * ofBool f.nak) 1 ++
  leBytes f.body.length 1 ++ leBytes f.dst 2 ++ leBytes f.src 2 ++ leBytes f.window 2 ++ leBytes f.ttl 1 ++
  leBytes (f.creditVc % 4 + 4 * (f.credit % 64)) 1 ++ leBytes f.flowSeq 4 ++ leBytes f.arg 4 ++ padTo f.body 224 ++
  zeros 4

/-- R176: the 256 bytes of a frame, its CRC-32 last. -/
def frameBytes (f : Frame) : Bytes := frameHead f ++ leBytes (crc32 (frameHead f)) 4

/-- R176: the frame that 256 bytes spell. -/
def frameOfBytes (b : Bytes) : Frame :=
  { kind := leAt b 0 1 % 16, vc := leAt b 0 1 / 16, op := leAt b 1 1, linkSeq := leAt b 2 2, linkAck := leAt b 4 2,
    last := bit (leAt b 6 1) 0, poison := bit (leAt b 6 1) 1, sync := bit (leAt b 6 1) 2, nak := bit (leAt b 6 1) 3,
    dst := leAt b 8 2, src := leAt b 10 2, window := leAt b 12 2, ttl := leAt b 14 1, creditVc := leAt b 15 1 % 4,
    credit := leAt b 15 1 / 4, flowSeq := leAt b 16 4, arg := leAt b 20 4, body := (b.drop 24).take (leAt b 7 1) }

/-- Whether the CRC of a frame's 256 bytes is good (R176). -/
def frameCrcGood (b : Bytes) : Bool := leAt b 252 4 == crc32 (b.take 252)

/-! ### Indirect access (R94) -/

/-- R94: the bytes that `n` data registers hold, least significant first. -/
def Chip.indBytes (k : Chip) (data : Nat → Fld) (n : Nat) : Bytes :=
  (List.range n).foldr (fun i bs => leBytes (k.rd (data i)) 8 ++ bs) []

/-- R94: `n` data registers filled from `bs`. -/
def Chip.setInd (k : Chip) (data : Nat → Fld) (n : Nat) (bs : Bytes) : Chip :=
  (List.range n).foldl (fun k i => k.wr (data i) (leAt bs (8 * i) 8)) k

/-- R94: the end of an indirect command: its STATUS, and BUSY reads 0. -/
def Chip.indDone (k : Chip) (status go : Fld) (v : Nat) : Chip := (k.wr status v).wr go 0

end Sys2Proof.Machine
end

