-- ==== Sys2Proof/Machine/Params.lean ====
section
/-!
DEFINITION. What is checked of a job at fetch (R73): the descriptor (R57, R58, R70, R71, R99, R152, R153), and the
parameter blocks of SEAL (R100, R136) and of the recall-direction jobs (R155, R164, R170).
-/

namespace Sys2Proof.Machine

/-- The offset of the first check, in the order given, that fails. -/
def firstFail (cs : List (Bool × Nat)) : Option Nat := (cs.find? fun c => !c.1).map (·.2)

/-- The lowest offset among the checks that fail (R73). -/
def lowestFail (cs : List (Bool × Nat)) : Option Nat :=
  (cs.filter fun c => !c.1).foldl (fun o c => some (match o with | none => c.2 | some b => min b c.2)) none

/-- Whether every set stage bit lies in `accepted` and every bit of `required` is set (R71, R152). -/
def stagesWithin (s accepted required : Nat) : Bool := s &&& accepted == s && s &&& required == required

/-- R70: the checks that every descriptor with a known opcode passes. -/
def Desc.commonChecks (d : Desc) : List (Bool × Nat) :=
  [ (bits d.flags 5 3 == 0, 1), (bits d.stages 9 7 == 0, 2), (d.dst % 64 == 0, 16),
    (decide (1 ≤ d.length ∧ d.length ≤ 2 ^ 40), 24), (bits d.keySlot 14 2 == 0, 30),
    (bits d.modes 4 4 == 0 && d.level != 3, 56), (d.chunk || d.avgExp == 0, 57), (bits d.affinity 4 3 == 0, 59),
    (d.tail == 0, 60) ]

/-- R99: the conditions of a SEAL job. -/
def Desc.sealChecks (d : Desc) : List (Bool × Nat) :=
  [ (!((d.probe || d.manifest) && !d.sha && !d.blake), 2), (!(d.ec && !d.fragment), 2),
    (!(d.encrypt && d.xts && !d.fragment), 56), (!(d.sign && !d.manifest), 1),
    (!d.chunk || decide (13 ≤ d.avgExp ∧ d.avgExp ≤ 20), 57), (d.compress || d.level == 0, 56),
    (d.param != 0 && d.param % 64 == 0, 40) ]

/-- R152, R153: the conditions of a recall-direction job. -/
def Desc.recallChecks (d : Desc) : List (Bool × Nat) :=
  let stages :=
    if d.opcode == 2 then stagesWithin d.stages 0x1F6 0 && !(d.sha && d.blake) && !(d.ec && !d.fragment) &&
      !(d.manifest && !d.sha && !d.blake)
    else if d.opcode == 4 then stagesWithin d.stages 0xE0 0x80
    else stagesWithin d.stages 0xE0 0xC0
  [ (stages, 2), (!d.fragment || d.src % 8 == 0, 8), (d.param != 0 && d.param % 64 == 0, 40) ]

/-- R73, group 1: the lowest offset among the descriptor's faults. -/
def Desc.invalid (d : Desc) : Option Nat :=
  if d.opcode == 0 || 6 < d.opcode then lowestFail ((false, 0) :: d.commonChecks)
  else if d.opcode == 6 then lowestFail ((d.stages == 0, 2) :: d.commonChecks)
  else if d.opcode == 1 then lowestFail (d.commonChecks ++ d.sealChecks)
  else lowestFail (d.commonChecks ++ d.recallChecks)

/-- The code fields of a parameter block: F, k, m, L, GROUP (R100, R155). -/
structure Code where
  f : Nat
  k : Nat
  m : Nat
  l : Nat
  group : Nat
  deriving DecidableEq, Repr

/-- The code fields at offset `o` for FRAG_SIZE and `o + 4` for the rest. -/
def Code.ofBytes (p : Bytes) (o : Nat) : Code :=
  { f := leAt p o 4, k := leAt p (o + 4) 2, m := leAt p (o + 6) 1, l := leAt p (o + 7) 1, group := leAt p (o + 8) 1 }

/-- The number of local groups of a stripe with `kk` data fragments (R133). -/
def Code.groups (c : Code) (kk : Nat) : Nat := if c.l == 0 then 0 else ceilDiv kk c.group

/-- The number of parity fragments of a stripe with `kk` data fragments. -/
def Code.parities (c : Code) (kk : Nat) : Nat := c.m + c.groups kk * c.l

/-- The fragments of a full stripe: N of R154. -/
def Code.n (c : Code) : Nat := c.k + c.parities c.k

/-- R100: FRAG_SIZE is a multiple of 4,096 within 4,096 to 1,048,576. -/
def Code.sizeGood (c : Code) : Bool := c.f % 4096 == 0 && decide (4096 ≤ c.f ∧ c.f ≤ 1048576)

/-- R136: the rows for a code, in order; `o` is the offset of FRAG_SIZE and `drain` the bound to check, if any. -/
def Code.limits (c : Code) (field o : Nat) (drain : Option Nat) : List (Bool × Nat) :=
  let wide := field == 1
  [ (decide (1 ≤ c.k ∧ c.k ≤ if wide then 4095 else 254), o + 4), (decide (1 ≤ c.m ∧ c.m ≤ if wide then 64 else 32), o + 6),
    (decide (c.l ≤ 4), o + 7),
    (if c.l == 0 then c.group == 0 else decide (1 ≤ c.group ∧ c.group ≤ 64), o + 8),
    (decide (c.n ≤ if wide then 4096 else 255), o + 4),
    (match drain with | none => true | some b => decide (c.f * ceilDiv (c.parities c.k) 128 ≤ b), o) ]

/-- R136: the rows for fragments without a code. -/
def Code.plainLimits (c : Code) (o : Nat) : List (Bool × Nat) :=
  [ (decide (1 ≤ c.k ∧ c.k ≤ 4096), o + 4), (c.m == 0, o + 6), (c.l == 0, o + 7), (c.group == 0, o + 8) ]

/-- R136: the drain bound at the beat length in force. -/
def drainBound (short : Bool) : Nat := if short then 8192 else 16384

/-- The check that bytes `o` to `o + n − 1` of the block are 0, each failing at its own offset. -/
def reserved (p : Bytes) (o n : Nat) : List (Bool × Nat) := (List.range n).map fun i => (leAt p (o + i) 1 == 0, o + i)

/-- R100: the first failing offset of a SEAL parameter block. -/
def sealParamInvalid (d : Desc) (p : Bytes) (short : Bool) : Option Nat :=
  let c := Code.ofBytes p 0
  firstFail (
    (if d.fragment then (c.sizeGood, 0) ::
      (if d.ec then c.limits d.field 0 (some (drainBound short)) else c.plainLimits 0) else []) ++
    (if d.probe then [(decide (leAt p 9 1 ≤ 1), 9)] else []) ++ reserved p 10 2 ++
    (if d.probe then [(decide (10 ≤ leAt p 12 1 ∧ leAt p 12 1 ≤ 34), 12)] else []) ++ reserved p 13 3 ++
    (if d.chunk then [(leAt p 16 8 % 64 == 0, 16)] else []) ++ (if d.probe then [(leAt p 24 8 % 64 == 0, 24)] else []) ++
    [(leAt p 32 8 % 64 == 0, 32)] ++ (if d.sha && d.blake then [(leAt p 48 8 % 32 == 0, 48)] else []) ++
    reserved p 60 4 ++ reserved p 76 52)

/-- The parameters of a recall-direction job (R155). -/
structure Recall where
  code : Code
  hasManifest : Bool
  srcField : Bool
  keyGen : Nat
  streamLen : Nat
  base : Nat
  first : Nat
  chunkTab : Nat
  firstChunk : Nat
  chunks : Nat
  scratch : Nat
  scratchLimit : Nat
  newCode : Code
  newBase : Nat
  report : Nat
  reportLimit : Nat
  deriving DecidableEq, Repr

/-- R155: the fields of the 128-byte block. -/
def Recall.ofBytes (p : Bytes) : Recall :=
  { code := Code.ofBytes p 0, hasManifest := bit (leAt p 9 1) 0, srcField := bit (leAt p 9 1) 1, keyGen := leAt p 12 4,
    streamLen := leAt p 16 8, base := leAt p 24 4, first := leAt p 28 4, chunkTab := leAt p 32 8,
    firstChunk := leAt p 40 4, chunks := leAt p 44 4, scratch := leAt p 48 8, scratchLimit := leAt p 56 8,
    newCode := Code.ofBytes p 64, newBase := leAt p 76 4, report := leAt p 80 8, reportLimit := leAt p 88 4 }

/-- The stream bytes of the object, the manifest included when HAS_MANIFEST is 1 (R155). -/
def Recall.total (r : Recall) : Nat := r.streamLen + if r.hasManifest then 256 else 0

/-- The number of stripes that the object has under a code (R118, R155). -/
def Recall.stripes (r : Recall) : Nat := ceilDiv r.total (max 1 (r.code.k * r.code.f))

/-- R155, R164, R170: the first failing offset of a recall-direction parameter block. -/
def recallParamInvalid (d : Desc) (p : Bytes) (short : Bool) (segment : Nat) : Option Nat :=
  let r := Recall.ofBytes p
  let recalled := d.opcode == 2
  let reencode := d.opcode == 5
  let field := if reencode then ofBool r.srcField else d.field
  let lastStripe := r.first + d.length
  firstFail (
    (if d.fragment then (r.code.sizeGood && (!d.ec || decide (64 + r.code.f ≤ segment)), 0) ::
      (if d.ec then r.code.limits field 0 none else r.code.plainLimits 0) else []) ++
    [(bits (leAt p 9 1) 2 6 == 0 && (reencode || !r.srcField) && (!(recalled && d.manifest) || r.hasManifest), 9)] ++
    reserved p 10 2 ++ [(d.encrypt || r.keyGen == 0, 12)] ++
    (if d.fragment then
      [(decide (r.base ≤ r.first) && (recalled ||
        (if reencode then decide (lastStripe = r.base + r.stripes) else decide (lastStripe ≤ r.base + r.stripes))), 28)]
     else []) ++
    (if recalled then [(r.chunkTab % 64 == 0, 32), (!d.manifest || r.firstChunk == 0, 40), (decide (1 ≤ r.chunks), 44)]
     else []) ++
    (if recalled || reencode then [(r.scratch % 64 == 0, 48)] else []) ++
    (if reencode then (r.newCode.sizeGood, 64) :: r.newCode.limits d.field 64 (some (drainBound short)) else []) ++
    reserved p 73 3 ++ reserved p 92 36)

/-- R73, group 4: the check of the parameter block of a job. -/
def Desc.paramInvalid (d : Desc) (p : Bytes) (short : Bool) : Option Nat :=
  if d.opcode == 1 then sealParamInvalid d p short
  else recallParamInvalid d p short (if short then 65536 else 131072)

end Sys2Proof.Machine
end

