-- ==== Sys2Proof/Machine/RingOps.lean ====
section
/-!
DEFINITION. Shared operations of the ring engine (03): completion records, interrupts, ring errors, job contexts and
accumulator regions.
-/

namespace Sys2Proof.Machine

/-- Job context `c` (R79). -/
abbrev Chip.job (k : Chip) (c : Nat) : Job := Tbl.get {} k.re.jobs c

/-- FUNCTION of the record of an event of job `c`: the host function that owns it (R415). (DEDUCED, log 33) -/
def Chip.jobFunction (k : Chip) (c : Nat) : Nat := if (k.job c).internal then 0xFFFF else (k.job c).ring / 32

/-- Whether job context `c` is in use. -/
def Chip.jobUsed (k : Chip) (c : Nat) : Bool := (k.re.jobs.find c).isSome

/-- Job context `c` changed by `f`, where it is in use. -/
def Chip.setJob (k : Chip) (c : Nat) (f : Job → Job) : Chip :=
  match k.re.jobs.find c with
  | some j => { k with re := { k.re with jobs := k.re.jobs.insert c (f j) } }
  | none => k

/-- Whether ring `r` serves the internal pool: FLAGS.POOL (R59, R95). -/
def Ring.internal (r : Ring) : Bool := bit r.flags 1

/-- Whether ring `r` is enabled and not in the error state (R95). -/
def Ring.running (r : Ring) : Bool := r.state == 1

/-- R95: jobs in progress at most; 0 acts as 8. -/
def Ring.maxJobs (r : Ring) : Nat := orDefault r.depth 8

/-- The device under which ring `r` is read and written (R462). -/
def Chip.ringDev (k : Chip) (r : Nat) : Nat := k.devOfRing r (k.ring r).internal

/-! ### Interrupts (R77, R78, R209) -/

/-- R78, R209: the interrupt of ring `r`, covering every record written before it. -/
def Chip.signalRing (k : Chip) (r : Nat) : Chip :=
  let g := k.ring r
  let k := k.setRing r fun g => { g with sinceIrq := 0, oldest := 0 }
  if g.internal then k.emit (.msi g.msiAddr g.msiData)
  else if g.vector < tableSize (r / 32) then k.msix (r / 32) g.vector
  else k.hfErr HF_ERR.VECTOR_RANGE (r / 32) (r % 32)

/-! ### Completion records (R68, R74 to R77) -/

/-- R68: the completion ring of `r` cannot be written. -/
def Chip.crWrite (k : Chip) (r : Nat) : Chip :=
  ((k.raise RE_ERR.CR_WRITE).setRing r fun g => { g with state := 2, dead := true }).log
    { cls := 2, unitType := 2, unit := ofBool k.re.instanceB, cause := 2, status := 3, info0 := r
      fn := if (k.ring r).internal then 0xFFFF else r / 32 }

/-- R74 to R77: the next completion record of ring `r`, as one 32-byte write, and the interrupt it causes; `now'` is
IRQ_NOW of the job. -/
def Chip.writeRecord (k : Chip) (r : Nat) (rc : Rec) (now' : Bool) : Chip :=
  let g := k.ring r
  let at_ := g.crBase + 32 * (g.crPi % 2 ^ g.crLog2)
  let (k, ok) := k.dmaWrite (k.ringDev r) at_ (rc.bytes g.crPi g.crLog2 g.wrCi)
  if !ok then k.crWrite r else
  let k := k.setRing r fun g => { g with
    crPi := (g.crPi + 1) % 2 ^ 32
    oldest := if g.sinceIrq == 0 then k.now else g.oldest
    sinceIrq := g.sinceIrq + 1 }
  let g := k.ring r
  if now' || rc.ringEvent || (g.coalCount != 0 && g.sinceIrq == g.coalCount) then k.signalRing r else k

/-- R67, R68: ring `r` enters the error state with a RING_EVENT record. -/
def Chip.ringError (k : Chip) (r status detail : Nat) : Chip :=
  (k.writeRecord r { status := status, ringEvent := true, detail := detail % 65536, beat := k.now } false).setRing r
    fun g => { g with state := 2, fetching := false }

/-! ### Job contexts (R79) -/

/-- Whether job `j` belongs to holder `h`: a function, or the internal pool as 256 (R79, R86). -/
def Job.holder (j : Job) : Nat := if j.internal then 256 else j.ring / 32

/-- The job contexts that holder `h` has (R79, R96). (DEDUCED, log 36) -/
def Chip.contexts (k : Chip) (h : Nat) : Nat := (k.re.jobs.filter fun e => e.2.holder == h).length

/-- R79: whether holder `h` may take one more job context: below its guarantee, or one is free beyond what the other
holders are still owed. (DEDUCED, log 36) -/
def Chip.contextFree (k : Chip) (h : Nat) : Bool :=
  let fns := k.enabledFns
  let share := 16384 / (fns.length + 1)
  let used := k.re.jobs.length
  let owed := ((256 :: fns).map fun g => if g == h then 0 else share - k.contexts g).sum
  decide (used < 16384) && (decide (k.contexts h < share) || decide (owed < 16384 - used))

/-- The lowest job context not in use. -/
def Chip.newContext (k : Chip) : Nat :=
  ((List.range (k.re.jobs.length + 1)).find? fun c => (k.re.jobs.find c).isNone).getD 0

/-! ### Accumulator regions (R137, R138, R143) -/

/-- R138: the accumulator lock limit in bytes: SC_LOCK.ACCUM_WAYS ways of the 128 banks, 16 MiB each.
(DEDUCED, log 42) -/
def Chip.lockLimit (k : Chip) : Nat := min 4 (k.rd SC_LOCK.ACCUM_WAYS) * 2 ^ 24

/-- The bytes of locked ways that regions hold. -/
def Chip.lockUsed (k : Chip) : Nat := (k.acc.map fun e => e.2.lines * 64).sum

/-- R137, R146: whether a job keeps a close copy beside its accumulators. -/
def Job.closeCopy (j : Job) : Bool := j.desc.opcode == 3 || j.desc.opcode == 4

/-- R137: whether a job accumulates parity. -/
def Job.accumulates (j : Job) : Bool :=
  (j.desc.opcode == 1 && j.desc.ec) || j.desc.opcode == 5 || j.desc.opcode == 3 || (j.desc.opcode == 4 && j.desc.ec)

/-- The code under which a job's region is laid out: REENCODE accumulates the parity of its new code. -/
def Job.regionCode (j : Job) : Code := if j.desc.opcode == 5 then Code.ofBytes j.params 64 else Code.ofBytes j.params 0

/-- R137: the footprint of a job's region. -/
def Job.footprint (j : Job) : Nat :=
  let c := j.regionCode
  c.parities c.k * c.f * (if j.closeCopy then 2 else 1)

/-- The lowest region handle not in use. -/
def Chip.newRegion (k : Chip) : Nat :=
  ((List.range (k.acc.length + 1)).find? fun h => (k.acc.find h).isNone).getD 0

/-- R137: a zero region for job `c`. (DEDUCED, log 42) -/
def Chip.allocRegion (k : Chip) (c : Nat) : Chip :=
  let j := k.job c
  let h := k.newRegion
  let code := j.regionCode
  let region : Region :=
    { job := c, lines := j.footprint / 64, acc := List.replicate (code.parities code.k) (zeros code.f) }
  { k with acc := k.acc.insert h region }.setJob c
    fun j => { j with region := some h, waitingRegion := false }

/-- R138: the waiting jobs allocated in the order in which they started waiting, none ahead of an earlier one. -/
def Chip.allocRegions (k : Chip) : Chip :=
  (k.re.regionQueue.foldl (fun (s : Chip × Bool) c =>
    if s.2 then ({ s.1 with re := { s.1.re with regionQueue := s.1.re.regionQueue ++ [c] } }, true)
    else if s.1.lockUsed + (s.1.job c).footprint ≤ s.1.lockLimit then (s.1.allocRegion c, false)
    else ({ s.1 with re := { s.1.re with regionQueue := s.1.re.regionQueue ++ [c] } }, true))
    ({ k with re := { k.re with regionQueue := [] } }, false)).1

/-- R143: the region of job `c` released. (DEDUCED, log 42) -/
def Chip.releaseRegion (k : Chip) (c : Nat) : Chip :=
  match (k.job c).region with
  | some h => { k with acc := k.acc.erase h }
  | none => k

/-! ### The end of a job -/

/-- R82, R143, R223: job `c` leaves its context: its region, its read-ahead and its place in every queue with it. -/
def Chip.freeJob (k : Chip) (c : Nat) : Chip :=
  let r := (k.job c).ring
  let k := ((k.releaseRegion c).forget (.param c)).forget (.readAhead c)
  let k := k.setRing r fun g => { g with inProgress := g.inProgress - 1 }
  { k with
    re := { k.re with
      jobs := k.re.jobs.erase c
      regionQueue := k.re.regionQueue.filter (· != c)
      replays := k.re.replays.filter (· != c)
      plan := k.re.plan.filter fun p => p.2.1 != c }
    cn := { k.cn with
      writers := k.cn.writers.filter fun w => w.2.2 != c
      pushQueue := k.cn.pushQueue.filter fun u => u.job != some c
      pushes := k.cn.pushes.map fun e => if e.2.job == some c then (e.1, { e.2 with job := none }) else e }
    mq := { k.mq with
      places := k.mq.places.map fun e => if e.2.job == some c then (e.1, { e.2 with job := none }) else e } }

/-- R544: the latency of a job, in beats, counted; between two bins a free value decides. -/
def Chip.jobLatency (k : Chip) (j : Job) : Chip :=
  let d := 8 * k.now + k.beat.phase - j.fetchedAt
  let (v, k) := if d % 8 == 0 && d != 0 then k.fresh else (0, k)
  k.count 12 j.holder (histBin (d / 8 - v % 2) 1) 1

/-- R74, R76, R83: job `c` ends with its completion record; a job of a stopped ring writes none (R89).
(DEDUCED, log 39) -/
def Chip.endJob (k : Chip) (c status detail : Nat) : Chip :=
  let j := k.job c
  let rc : Rec :=
    { tag := j.desc.jobTag, status := status
      flags := ofBool j.replayed + 2 * ofBool j.late + 4 * ofBool j.degraded + 8 * ofBool j.hit
      segments := j.segments, outLen := j.outLen, detail := detail % 65536
      beat := if j.segments == 0 then k.now else j.lastBeat }
  let k := if (k.ring j.ring).dead || k.flt.fatal then k else (k.writeRecord j.ring rc j.desc.irqNow).jobLatency j
  k.freeJob c

end Sys2Proof.Machine
end

