-- ==== Sys2Proof/Machine/FaultOps.lean ====
section
/-!
DEFINITION. Shared operations of the failover rules (17): the Package-fatal stop, the replay of a segment, the failure of
an engine, and the errors that carry a world (18).
-/

namespace Sys2Proof.Machine

/-- R419: the package stops service. `cause` is the type of the unit whose loss is fatal, 17 for the package itself. -/
def Chip.fatalStop (k : Chip) (cause : Nat) : Chip :=
  if k.flt.fatal then k else
  let k := { k with flt := { k.flt with fatal := true } }
  (k.log { cls := 3, unitType := 17, unit := 0, action := 12, info0 := cause }).assertFault

/-- A fault for which no redundancy is left, reported and fatal (R421). -/
def Chip.secondFault (k : Chip) (unitType unit cause : Nat) : Chip :=
  (k.log { cls := 3, unitType := unitType, unit := unit, cause := cause, action := 12, status := 4 }).fatalStop unitType

/-! ### Engines (R425, R426, R435) -/

/-- R144, R145: the region of job `c` waits to be restored before the replay folds into it. -/
def Chip.holdRegion (k : Chip) (c : Nat) : Chip :=
  match (k.job c).region.bind k.acc.find, (k.job c).region with
  | some g, some h => { k with acc := k.acc.insert h { g with restoring := true } }
  | _, _ => k

/-- R425: the segment that engine `e` holds fails: its attempt stops, and the job waits for a replay slot. -/
def Chip.replaySeg (k : Chip) (e : Nat) : Chip :=
  match (k.engine e).seg with
  | none => k
  | some s =>
    let k := k.setEngine e fun g => { g with seg := none }
    let k := k.setJob s.job fun j => { j with state := .replaying, replayed := true, lastEngine := some e }
    let k := { k with re := { k.re with replays := k.re.replays.filter (· != s.job) ++ [s.job] } }
    k.holdRegion s.job

/-- The record of an engine whose segment replays (R415, R416, R421, R433). -/
def Chip.logEngine (k : Chip) (e cause : Nat) (second : Bool) : Chip :=
  let ev : Ev := { cls := 2, unitType := 1, unit := e, cause := cause, action := 9, status := secondStatus second }
  match (k.engine e).seg with
  | some s => k.log { ev with action := 4, info0 := s.job, info1 := s.number, fn := k.jobFunction s.job }
  | none => k.log ev

/-- R435: engine `e` fails, `second` where that is a second fault (R421): its segment replays, it leaves dispatch at once and its staging way unlocks (R282). -/
def Chip.engineFail (k : Chip) (e cause : Nat) (second : Bool) : Chip :=
  if (k.engine e).failed then k else
  ((k.logEngine e cause second).replaySeg e).setEngine e fun g => { g with
    failed := true, inTest := false, suspect := false, inService := false }

/-- The C-die of engine `e` (R19: engines 2k and 2k + 1 lie on C-die k). -/
abbrev engineDie (e : Nat) : Nat := e / 2

/-! ### World errors (R444, R468) -/

/-- The address of the register at offset `off` of the WS page (R570). -/
abbrev wsAddr (off : Nat) : Nat := 0xF_F000_0000_8000 + off

/-- R8, R444: a write that only the secure world may make, discarded and logged. -/
def Chip.regWriteDenied (k : Chip) (addr : Nat) (who : By) : Chip := k.wsErr WS_ERR.REG_WRITE addr who.source

/-- R450: a request refused for a claim: the claim bit is named. -/
def Chip.refusedSecure (k : Chip) (claim source : Nat) : Chip := k.wsErr WS_ERR.REFUSED claim source

end Sys2Proof.Machine
end

