-- ==== Sys2Proof/Machine/HartOps.lean ====
section
/-!
DEFINITION. Shared operations on harts: traps into M-mode and the return (R256, R447), the restart stub and the forced
exit (R460), the secure-world restart (R459), interrupt files (R251, R267), and the move of a hart ID to a spare (R265 to
R268).
-/

namespace Sys2Proof.Machine

/-! ### Traps (R256, R271, R447) -/

/-- R459: whether traps into M-mode go to the restart stub: from step 2 until step 4 of a restart, and while the secure
world is given up. -/
def Chip.stubInForce (k : Chip) : Bool :=
  k.on WS_STATUS.RESTARTING && (decide (k.ws.restartStep < 4) || k.ws.gaveUp)

/-- SECURE_RESTARTING, as a hart reads it in a0 (R460). -/
def secureRestarting : Nat := 0xFFFF_FFFF_FFFF_FF01

/-- Whether a trap cause is an ECALL (the privileged architecture's causes 8 to 11). -/
def isEcall (cause : Nat) : Bool := decide (8 ≤ cause ∧ cause ≤ 11)

/-- Whether a trap cause is an interrupt. -/
def isInterrupt (cause : Nat) : Bool := decide (2 ^ 63 ≤ cause)

/-- The mode that a saved MPP and MPV name. -/
def modeOf (mpp : Nat) (mpv : Bool) : Mode :=
  if mpp == 3 then .m else if mpp == 1 then (if mpv then .vs else .s) else (if mpv then .vu else .u)

/-- MPP and MPV of a trap taken in a mode. -/
def modeBits : Mode → Nat × Bool
  | .u => (0, false)
  | .s => (1, false)
  | .m => (3, false)
  | .vu => (0, true)
  | .vs => (1, true)

/-- R453: a halt request that waited for W to become 1 is taken when NID is 1. -/
def Hart.takeHalt (h : Hart) (nid : Bool) : Hart :=
  if h.w == 1 && h.haltPending then { h with halted := h.halted || nid, haltPending := false } else h

/-- R460: the return of a hart to the context of its entry record, with W = 1; the caller says at which address and
with which a0. -/
def Hart.leave (h : Hart) (mpp : Nat) (mpv : Bool) (pc a0 : Nat) : Hart :=
  { h with w := 1, entry := none, mode := modeOf mpp mpv, pc := pc, a0 := a0 }

/-- R460: the forced exit of a hart with W = 0. -/
def Hart.forcedExit (h : Hart) : Hart :=
  match h.entry with
  | some (mepc, mpp, mpv, cause) =>
    if isEcall cause then h.leave mpp mpv ((mepc + 4) % 2 ^ 64) secureRestarting else h.leave mpp mpv mepc h.a0
  | none => { h with inStub := true }

/-- R256, R447: a trap into M-mode. (PRESUMED, log 59) -/
def Hart.trap (h : Hart) (cause mepc mpp : Nat) (mpv : Bool) (tval : Nat) : Hart :=
  { h with
    pw := h.w, w := 0, mode := .m
    mepc := mepc, mcause := cause, mtval := tval, mpp := mpp, mpv := mpv
    entry := if h.w == 1 then some (mepc, mpp, mpv, cause) else h.entry }

/-- R460: the stub's answer to a trap of hart `h`: an ECALL returns SECURE_RESTARTING, any other cause is delivered to
HS-mode. -/
def Chip.stub (k : Chip) (h cause tval : Nat) : Chip :=
  let g := k.hart h
  if g.entry.isNone then k.setHart h fun g => { g with inStub := true }
  else if isEcall cause then k.setHart h fun g => g.forcedExit.takeHalt (k.on WS_DEBUG.NID)
  else
    (k.setHart h fun g => (g.leave 1 false g.mepc g.a0).takeHalt (k.on WS_DEBUG.NID)).emit (.trap h cause tval)

/-- R256, R447, R460: a trap of hart `h` into M-mode; while the stub is in force it answers, and a secure interrupt stays
pending. -/
def Chip.trapM (k : Chip) (h cause mepc mpp : Nat) (mpv : Bool) (tval : Nat) : Chip :=
  if k.stubInForce then
    if isInterrupt cause then k
    else (k.setHart h fun g => g.trap cause mepc mpp mpv tval).stub h cause tval
  else k.setHart h fun g => g.trap cause mepc mpp mpv tval

/-- R271: hart `h` consumes poison: a precise trap to M-mode, cause 24 or 25, mtval the address. The command names no
instruction address, so mepc is a free value. -/
def Chip.machineCheck (k : Chip) (h cause addr : Nat) : Chip :=
  let (pc, k) := k.fresh
  let (mpp, mpv) := modeBits (k.hart h).mode
  k.trapM h cause pc mpp mpv addr

/-- R256, R447, R453: MRET. (PRESUMED, log 59) -/
def Hart.mret (h : Hart) (nid : Bool) : Hart :=
  Hart.takeHalt { h with
    w := h.pw
    entry := if h.pw == 1 then none else h.entry
    mode := modeOf h.mpp h.mpv
    pc := h.mepc } nid

/-- An exception that the hart takes under the privileged architecture; mtval of an illegal or virtual instruction is
that architecture's choice, so it is a free value. -/
def Chip.instrTrap (k : Chip) (h cause : Nat) : Chip :=
  let (t, k) := k.fresh
  k.emit (.trap h cause t)

/-! ### Secure-world restart (R459 to R461) -/

/-- R459, step 2: every hart with W = 0 ends its secure execution. -/
def Chip.forcedExits (k : Chip) : Chip :=
  { k with harts := Tbl.mapVals {} k.harts fun _ h =>
      if h.online && h.w == 0 then h.forcedExit.takeHalt (k.on WS_DEBUG.NID) else h }

/-- R442, R468: a bit of WS_ERR that stands for a failure of the secure world, its event and WS_ERR_INFO, whose ADDR and SOURCE
name nothing then. (DEDUCED, log 79) -/
def Chip.wsFailure (k : Chip) (f : Fld) : Chip :=
  ((((k.raise f).wr WS_ERR_INFO.ADDR 0).wr WS_ERR_INFO.SOURCE 0).wr WS_ERR_INFO.EVENT f.lo).log
    { cls := 2, unitType := 15, unit := 0, cause := f.lo, status := 3 }

/-- R459, R461: a restart begins, or begins again, at step 1 and runs through step 2. -/
def Chip.beginRestart (k : Chip) : Chip :=
  let k := ((k.wr WS_STATUS.RESTARTING 1).bump WS_STATUS.RESTARTS 1).wsFailure WS_ERR.RESTART
  Chip.forcedExits { k with ws := { k.ws with restartStep := 1, watchdog := false, gaveUp := false } }

/-- R459, R461: a cause of a secure-world restart; one that arises during a restart, or when the secure world is given up, is
logged alone. (DEDUCED, log 79) -/
def Chip.secureRestart (k : Chip) (cause : Nat) : Chip :=
  if k.on WS_STATUS.RESTARTING then k.log { cls := 2, unitType := 15, unit := 0, status := 3, info0 := cause }
  else (k.wr WS_RESTART.CAUSE cause).beginRestart

/-! ### Interrupt files (R251, R267, R444, R568) -/

/-- R568: the hart ID and file that an address names. -/
def fileOf (addr : Nat) : Option (Nat × Nat) :=
  if 0xF_D000_0000_0000 ≤ addr ∧ addr < 0xF_D000_0012_0000 then some ((addr - 0xF_D000_0000_0000) / 0x1000, 0)
  else if 0xF_D100_0000_0000 ≤ addr ∧ addr < 0xF_D100_0090_0000 then
    let o := addr - 0xF_D100_0000_0000
    some (o / 0x8000, 1 + o % 0x8000 / 0x1000)
  else none

/-- R251: identity `id` pending in file `f` of a hart; identities outside 1 to 2,047 and absent files are ignored. -/
def Hart.deliver (h : Hart) (f id : Nat) : Hart :=
  if 1 ≤ id ∧ id ≤ 2047 ∧ f ≤ 8 then { h with files := Tbl.mod 0 h.files f fun n => setBit n id } else h

/-- R449, R255: NPEND: W is 0 and an interrupt is pending at the S-level file or a guest file. -/
def Hart.npend (h : Hart) : Bool := h.w == 0 && h.files.any fun e => e.1 != 0

/-- The identities pending in a hart's files. -/
def Hart.pendingMsis (h : Hart) : Nat := (h.files.map fun e => popcount e.2 2048).sum

/-- R251, R267: an MSI that has passed the world check: held during a move, lost while no tile runs the hart ID.
(DEDUCED, log 61) -/
def Chip.deliverMsi (k : Chip) (h f id : Nat) : Chip :=
  let g := k.hart h
  if g.moving.isSome then k.setHart h fun g => { g with heldMsis := g.heldMsis ++ [(f, id)] }
  else if g.online then k.setHart h fun g => g.deliver f id
  else k

/-- R251, R444: an MSI write of `width` bytes with world `w`. -/
def Chip.msiWrite (k : Chip) (addr data w width source : Nat) : Chip :=
  match fileOf addr with
  | none => k
  | some (h, f) =>
    if f == 0 && w == 1 then k.wsErr WS_ERR.MSI_SECURE addr source
    else if width != 4 || (addr % 4096 != 0 && addr % 4096 != 4) then k
    else
      let id := if addr % 4096 == 4 then ofBe (leBytes data 4) else data
      k.deliverMsi h f id

/-! ### Moves (R264 to R268, R273) -/

/-- Whether C-die `d` is in service: not lost, not held in reset, not gated (R432, R490, R571). -/
def Chip.dieUp (k : Chip) (d : Nat) : Bool :=
  let s := k.dieState d
  s.inService && !s.lost && !k.pwr.gatedDies.contains d

/-- R264, R265: tile `t` is a free spare. -/
def Chip.spareFree (k : Chip) (t : Nat) : Bool :=
  let x := k.tile t
  !x.failed && !x.inTest && !x.gated && x.hart.isNone && k.dieUp (t / 28)

/-- The free spares of C-die `d`, ascending. -/
def Chip.freeTiles (k : Chip) (d : Nat) : List Nat := ((List.range 28).map (28 * d + ·)).filter k.spareFree

/-- The free spares of the package (R269: SPARES). -/
def Chip.spareCount (k : Chip) : Nat := ((List.range 12).map fun d => (k.freeTiles d).length).sum

/-- R265: the spare for a hart ID that leaves C-die `d`. -/
def Chip.chooseSpare (k : Chip) (d : Nat) : Option Nat :=
  match k.freeTiles d with
  | t :: _ => some t
  | [] =>
    let best := (List.range 12).foldl (fun (b : Nat × Nat) e =>
      let n := (k.freeTiles e).length
      if b.2 < n then (e, n) else b) (0, 0)
    (k.freeTiles best.1).head?

/-- The C-die on which hart ID `h` runs, its home die where it runs nowhere (R269). -/
def Chip.hartDie (k : Chip) (h : Nat) : Nat := match (k.hart h).ptile with
  | some t => t / 28
  | none => h / 24

/-- R266, R267, R273: the hart ID of `m`, which ran on tile `old`, starts its move to tile `t`; the event is reported. -/
def Chip.moveTo (k : Chip) (m : Due) (t old : Nat) : Chip :=
  let h := m.unit
  let g := k.hart h
  let takeover := decide (m.reason ≤ 2)
  let k := k.setTile t fun x => { x with hart := some h, retention := false }
  let k := k.log
    { cls := if takeover then 2 else 4, unitType := 0, unit := h, action := if takeover then 7 else 8
      status := secondStatus (takeover && m.second), info0 := old, info1 := t, count := if takeover then g.pendingMsis else 0
      hart := h, seen := some (m.beat, m.time) }
  k.setHart h fun g => { g with
    moving := some (t, m.reason)
    online := !takeover && g.online
    files := if takeover then [] else g.files }

/-- R265, R266: the hart ID of `m` is to move for its reason (1 core fault, 2 die loss, 3 self-test, 4 retirement); the tile
it leaves is withdrawn, or goes into test. The event is reported with the number of MSIs lost with the files (R267, R273);
where no spare is free the hart ID stays offline, a second fault (R420, R421). (DEDUCED, log 60) -/
def Chip.decideMove (k : Chip) (m : Due) : Chip :=
  let h := m.unit
  let reason := m.reason
  let g := k.hart h
  let takeover := decide (reason ≤ 2)
  let spare := k.chooseSpare (k.hartDie h)
  let old := g.ptile.getD 0xFFFF
  let k := match g.ptile with
    | some t => k.setTile t fun x => { x with
        hart := none
        failed := x.failed || (takeover && reason == 1) || reason == 4
        inTest := reason == 3 }
    | none => k
  match spare with
  | some t => k.moveTo m t old
  | none =>
    let k := k.log
      { cls := 2, unitType := 0, unit := h, status := 4, info0 := old, count := g.pendingMsis, hart := h
        seen := some (m.beat, m.time) }
    k.setHart h fun g => { g with online := false, ptile := none, files := [], heldMsis := [], stopped := true }

/-- R270, R459: hart ID `h` fails: its tile stops, the move is decided at the next boundary, and with W = 0 the secure
world restarts. -/
def Chip.hartFails (k : Chip) (h : Nat) : Chip :=
  let g := k.hart h
  if !g.online then k else
  let m := k.due h 1
  let k := match g.ptile with
    | some t => k.setTile t fun x => { x with failed := true }
    | none => k
  let k := k.setHart h fun g => { g with online := false, halted := false }
  let k := { k with flt := { k.flt with movesDue := k.flt.movesDue ++ [m] } }
  if g.w == 0 then k.secureRestart 3 else k

/-- R255, R266: a hart at its reset, in the secure world; the copy of what a reset does not touch aside. -/
def Hart.afterReset (g : Hart) (t reason : Nat) (stub : Bool) : Hart :=
  { ptile := some t, online := true, stopped := true, moved := true, reason := reason, moves := min 255 (g.moves + 1)
    inStub := stub }

end Sys2Proof.Machine
end

