-- ==== Sys2Proof/Machine/CohOps.lean ====
section
/-!
DEFINITION. Coherence (12) as operations of the two sides: a die agent, which answers snoops, takes grants and serves its
harts, and a home, which orders the requests for a line, snoops and grants.
-/

namespace Sys2Proof.Machine

/-- The key of line `l` on die `d`. -/
abbrev cohKey (l d : Nat) : Nat := l * 16 + d

/-- What die `d` holds of line `l`. -/
abbrev Chip.dieLine (k : Chip) (l d : Nat) : DieLine := Tbl.get {} k.coh.die (cohKey l d)

/-- What die `d` holds of line `l` changed by `f`. -/
def Chip.setDieLine (k : Chip) (l d : Nat) (f : DieLine → DieLine) : Chip :=
  { k with coh := { k.coh with die := Tbl.mod {} k.coh.die (cohKey l d) f } }

/-- The bytes of line `l` as die `d` holds them. -/
def Chip.dieBytes (k : Chip) (l d : Nat) : Bytes := (k.dieLine l d).data.getD (memBytes k.mem (64 * l) 64)

/-- The poison mark of line `l` on die `d`. -/
def Chip.diePoison (k : Chip) (l d : Nat) : Bool :=
  if (k.dieLine l d).data.isSome then (k.dieLine l d).poison else k.linePoison l

/-- R297: whether die `d` holds no line of the sector of line `l`. -/
def Chip.sectorEmpty (k : Chip) (l d : Nat) : Bool :=
  (List.range 8).all fun i => (k.dieLine (l / 8 * 8 + i) d).st == .i

/-- A message of a die agent or a home sent. -/
def Chip.say (k : Chip) (msg : String) (d l detail : Nat) : Chip := k.emit (.coherence msg d l detail)

/-! ### Insertion counters (R279, R280) -/

/-- R279: what the leader sets fix: ACCEPT, DECLINE, or nothing. -/
def leader (set : Nat) : Option Bool := if bits set 6 5 == bits set 0 5 then some (!bit set 5) else none

/-- The counter of unit `u`. -/
def Chip.pselOf (k : Chip) (u : Nat) : Nat := Tbl.get 511 k.coh.psel u

/-- R279, R280: a demand miss in a set of unit `u` under policy `mode`. -/
def Chip.demandMiss (k : Chip) (u set mode : Nat) : Chip :=
  if mode == 1 || mode == 2 then k else
  match leader set with
  | some accept =>
    let n := k.pselOf u
    { k with coh := { k.coh with psel := Tbl.set 511 k.coh.psel u (if accept then min 1023 (n + 1) else n - 1) } }
  | none => k

/-- R279, R280: whether unit `u` accepts a clean victim in a set. -/
def Chip.accepts (k : Chip) (u set mode : Nat) : Bool :=
  if mode == 1 then true else if mode == 2 then false else (leader set).getD (decide (k.pselOf u < 512))

/-- A demand request that misses the system cache at its home. -/
def Chip.scDemand (k : Chip) (l : Nat) : Chip :=
  if Tbl.get 0 k.coh.sc l == 0 then
    let (b, s) := Config.scPlace l
    k.demandMiss b s (k.rd SC_CTRL.SC_MODE)
  else k

/-! ### Data into the system cache -/

/-- Dirty data written into the system cache: it is the home's copy from here on (R298, R304, R308). -/
def Chip.homePut (k : Chip) (l : Nat) (data : Option Bytes) (poison : Bool) : Chip :=
  match data with
  | some d => { k with
      mem := memPut k.mem (64 * l) (padTo d 64)
      poison := Tbl.set false k.poison l poison
      coh := { k.coh with sc := Tbl.set 0 k.coh.sc l 2 } }
  | none => k

/-- The line with the bytes that a 64-bit mask selects replaced. -/
def maskLine (old new : Bytes) (mask : Nat) : Bytes := (padTo old 64).zipIdx.map fun p => if bit mask p.2 then new.getD p.2 0 else p.1

/-- R286, R287: a masked write merged at the home and written through. -/
def Chip.mergeLine (k : Chip) (l : Nat) (bytes : Bytes) (mask : Nat) (poison : Bool) : Chip :=
  let all := mask % 2 ^ 64 == 2 ^ 64 - 1
  { k with
    mem := memPut k.mem (64 * l) (maskLine (memBytes k.mem (64 * l) 64) bytes mask)
    poison := Tbl.set false k.poison l (poison || (!all && k.linePoison l))
    coh := { k.coh with sc := Tbl.set 0 k.coh.sc l 1 } }

/-! ### Atomic operations (R311, R313) -/

/-- The result of an atomic operation on `size` bytes: what is stored, from the old value and the operand.
(DEDUCED, log 67) -/
def amoApply (op : AmoOp) (size old x : Nat) : Nat :=
  let w := 8 * size
  let o := old % 2 ^ w
  let v := x % 2 ^ w
  match op with
  | .swap => v
  | .add => (o + v) % 2 ^ w
  | .and => o &&& v
  | .or => o ||| v
  | .xor => o ^^^ v
  | .min => if toSigned o w ≤ toSigned v w then o else v
  | .max => if toSigned v w ≤ toSigned o w then o else v
  | .minu => min o v
  | .maxu => max o v
  | .cas e => if o == e % 2 ^ w then v else o

/-- R311: the forms that are always near: AMOCAS.Q and the 8-bit and 16-bit AMOCAS. -/
def amoNear (op : AmoOp) (size : Nat) : Bool := match op with
  | .cas _ => size != 4 && size != 8
  | _ => false

/-! ### The die agent: its harts (R271, R272, R293, R309) -/

/-- The mask of the bytes of a line that an access of `size` bytes at `addr` touches. -/
def accMask (addr size : Nat) : Nat := 2 ^ (addr % 64) * (2 ^ min size (64 - addr % 64) - 1)

/-- A store of hart `h` into line `l`, which its die `d` holds in M or E: a line written whole loses its poison mark
(R272); other harts of the die lose their reservations on it. -/
def Chip.dieStore (k : Chip) (l d h addr : Nat) (bytes : Bytes) : Chip :=
  let old := k.dieBytes l d
  let off := addr % 64
  let new := old.take off ++ bytes ++ old.drop (off + bytes.length)
  let poison := k.diePoison l d && decide (bytes.length < 64)
  (k.setDieLine l d fun c => { c with st := .m, data := some (new.take 64), poison := poison }).loseReservations l (· != h)

/-- Whether the die can serve an access with what it holds of the line (R293, R311). -/
def Chip.canServe (k : Chip) (l d : Nat) (r : HartReq) : Bool :=
  let st := (k.dieLine l d).st
  let own := st == .m || st == .e
  match r.op with
  | .load | .fetch => st != .i
  | .sc => own || (k.hart r.hart).reservation != some l
  | .store | .lr | .amo _ | .cboZero => own
  | .cboClean | .cboFlush | .cboInval => false

/-- The request that the die agent sends to the home for an access (R299, R311). -/
def Chip.sendReq (k : Chip) (l d : Nat) (r : HartReq) : Chip :=
  let held := (k.dieLine l d).st != .i
  match r.op with
  | .load | .fetch =>
    let (s, set) := Config.l3Place l
    (k.demandMiss (128 + 28 * d + s) set (k.rd SC_CTRL.L3_MODE)).say "RD_SHARED" d l 1
  | .store | .lr | .sc => k.say (if held then "OWN" else "RD_UNIQUE") d l 0
  | .amo _ => k.say "AMO" d l r.size
  | .cboZero => k.say "OWN" d l 1
  | .cboClean => k.say "CMO" d l 0
  | .cboFlush => k.say "CMO" d l 1
  | .cboInval => k.say "CMO" d l 2

/-- An access performed on the line that the die holds. -/
def Chip.perform (k : Chip) (l d : Nat) (r : HartReq) : Chip :=
  let poison := k.diePoison l d
  let old := ofLe (slice (k.dieBytes l d) (r.addr % 64) r.size)
  match r.op with
  | .fetch => if poison then k.machineCheck r.hart 25 r.addr else k.emit (.loadValue r.hart old false)
  | .load => if poison then k.machineCheck r.hart 24 r.addr else k.emit (.loadValue r.hart old false)
  | .store => k.dieStore l d r.hart r.addr (padTo r.data r.size)
  | .lr =>
    if poison then k.machineCheck r.hart 24 r.addr else
    ((k.setHart r.hart fun g => { g with reservation := some l }).setDieLine l d fun c =>
      { c with lrHold := some r.hart }).emit (.loadValue r.hart old false)
  | .sc =>
    let good := (k.hart r.hart).reservation == some l
    let k := k.setHart r.hart fun g => { g with reservation := none }
    let k := if good then k.dieStore l d r.hart r.addr (padTo r.data r.size) else k
    (k.setDieLine l d fun c => { c with lrHold := none }).emit (.loadValue r.hart (ofBool !good) false)
  | .amo op =>
    if poison then k.machineCheck r.hart 24 r.addr else
    (k.dieStore l d r.hart r.addr (leBytes (amoApply op r.size old (ofLe r.data)) r.size)).emit (.loadValue r.hart old false)
  | .cboZero => k.dieStore l d r.hart (64 * l) (zeros 64)
  | .cboClean | .cboFlush | .cboInval => k

/-- The accesses that wait for line `l` on die `d`, served in order until one needs the home (R293). -/
def Chip.serveWaits (k : Chip) (l d : Nat) : List HartReq → Chip
  | [] => { k with coh := { k.coh with waits := k.coh.waits.erase (cohKey l d) } }
  | r :: rs =>
    if k.canServe l d r then (k.perform l d r).serveWaits l d rs
    else { k.sendReq l d r with coh := { (k.sendReq l d r).coh with
        waits := (k.sendReq l d r).coh.waits.insert (cohKey l d) (r :: rs) } }

/-- An access of a hart to line `l` through its die agent: behind those that wait; while the line is in the eviction
buffer it waits for EVC_ACK. -/
def Chip.dieAccess (k : Chip) (l d : Nat) (r : HartReq) : Chip :=
  match k.coh.waits.find (cohKey l d) with
  | some w => { k with coh := { k.coh with waits := k.coh.waits.insert (cohKey l d) (w ++ [r]) } }
  | none =>
    if (k.coh.evict.find (cohKey l d)).isSome then
      { k with coh := { k.coh with waits := k.coh.waits.insert (cohKey l d) [r] } }
    else k.serveWaits l d [r]

/-! ### The die agent: grants, snoops and evictions (R307 to R309, R314) -/

/-- A DATA or COMP under way to die `d` delivered: the line takes the granted state, COMP_ACK goes out where it is due.
(DEDUCED, log 62) -/
def Chip.takeGrant (k : Chip) (l d : Nat) : Chip :=
  match k.coh.grants.find (cohKey l d) with
  | none => k
  | some g =>
    let k := { k with coh := { k.coh with grants := k.coh.grants.erase (cohKey l d) } }
    let w := (k.coh.waits.find (cohKey l d)).getD []
    if g.st == .i then
      -- the answer of a far AMO, of a CMO, or of a request that the home refused
      match w with
      | [] => k
      | r :: rs =>
        let k := match g.old with
          | some v => if g.poison then k.machineCheck r.hart 24 r.addr else k.emit (.loadValue r.hart v false)
          | none => if !g.poison then k else match r.op with
            | .fetch => k.machineCheck r.hart 25 r.addr
            | .load | .lr | .amo _ => k.machineCheck r.hart 24 r.addr
            | _ => k
        k.serveWaits l d rs
    else
      let k := if g.comp then k.setDieLine l d fun c => { c with
          st := g.st
          data := if g.data.isSome then g.data else c.data
          poison := c.poison && g.data.isNone }
        else (k.setDieLine l d fun c => { c with st := g.st, data := g.data, poison := g.poison }).say "COMP_ACK" d l 0
      k.serveWaits l d w

/-- R307: the resulting state, and whether the answer carries data. -/
def snoopTable (s : Snoop) (st : Line) : Line × Bool :=
  match s, st with
  | .shared, .m => (.o, true)
  | .shared, .o => (.o, true)
  | .shared, .e => (.s, true)
  | .shared, .s => (.s, false)
  | .unique, .m => (.i, true)
  | .unique, .o => (.i, true)
  | .unique, .e => (.i, true)
  | .unique, .s => (.i, false)
  | .once, .m => (.m, true)
  | .once, .o => (.o, true)
  | .once, .e => (.e, true)
  | .once, .s => (.s, false)
  | .inv, .m => (.i, true)
  | .inv, .o => (.i, true)
  | .inv, .e => (.i, false)
  | .inv, .s => (.i, false)
  | .clean, .m => (.e, true)
  | .clean, .o => (.s, true)
  | .clean, .e => (.e, false)
  | .clean, .s => (.s, false)
  | _, .i => (.i, false)

/-- A snoop's answer sent. -/
def Chip.answer (k : Chip) (l d : Nat) (a : SnpAns) (data : Bool) (bytes : Bytes) : Chip :=
  let k := { k with coh := { k.coh with answers := k.coh.answers.insert (cohKey l d) a } }
  if data then k.emit (.cohData "SNP_DATA" d l bytes a.poison) else k.say "SNP_RESP" d l (ofBool a.empty + 2 * ofBool a.superseded)

/-- R307, R308: the die agent answers a snoop, from its eviction buffer where the line is there. -/
def Chip.answerSnoop (k : Chip) (l d : Nat) (s : Snoop) : Chip :=
  match k.coh.evict.find (cohKey l d) with
  | some e =>
    if e.stale then k.answer l d { empty := k.sectorEmpty l d } false [] else
    let (_, data) := snoopTable s e.st
    let dirty := e.st == .m || e.st == .o
    let bytes := e.data.getD (memBytes k.mem (64 * l) 64)
    let k := { k with coh := { k.coh with evict := k.coh.evict.insert (cohKey l d) { e with stale := true } } }
    k.answer l d
      { dirty := dirty && data, data := if dirty && data then e.data else none, poison := e.poison
        empty := k.sectorEmpty l d, superseded := true } data bytes
  | none =>
    let c := k.dieLine l d
    let (st, data) := snoopTable s c.st
    let dirty := c.st == .m || c.st == .o
    let bytes := k.dieBytes l d
    let poison := k.diePoison l d
    let k := if st == .i then
        let k := if c.locked.isSome && c.st != .i then k.bump SC_LWI.COUNT 1 else k
        (k.setDieLine l d fun _ => {}).loseReservations l fun h => k.hartDie h == d
      else k.setDieLine l d fun c => { c with
        st := st
        data := if s == .clean then none else c.data }
    k.answer l d
      { st := st, dirty := dirty && data, data := if dirty && data then c.data else none, poison := poison
        empty := k.sectorEmpty l d } data bytes

/-- A snoop reaches die `d`: a grant under way is there before it (R303); a line under an LR holds it back (R309). A die
that is not in service answers none. -/
def Chip.dieSnoop (k : Chip) (l d : Nat) (s : Snoop) : Chip :=
  if !k.dieUp d then k else
  let k := k.takeGrant l d
  if (k.dieLine l d).lrHold.isSome then
    { k with coh := { k.coh with
        heldSnoops := k.coh.heldSnoops.insert (cohKey l d) (((k.coh.heldSnoops.find (cohKey l d)).getD []) ++ [s]) } }
  else k.answerSnoop l d s

/-- R309: the holding of snoops for line `l` ends, and they are answered. -/
def Chip.releaseHold (k : Chip) (l d : Nat) : Chip :=
  let ss := (k.coh.heldSnoops.find (cohKey l d)).getD []
  let k := { k with coh := { k.coh with heldSnoops := k.coh.heldSnoops.erase (cohKey l d) } }
  let k := k.setDieLine l d fun c => { c with lrHold := none }
  ss.foldl (fun k s => k.answerSnoop l d s) k

/-- R309: the holdings that an SC, or the loss of the reservation, has ended. -/
def Chip.endHolds (k : Chip) : Chip :=
  (k.coh.heldSnoops.filter fun e =>
    match (Tbl.get {} k.coh.die e.1).lrHold with
    | some h => (k.hart h).reservation != some (e.1 / 16)
    | none => true).foldl (fun k e => k.releaseHold (e.1 / 16) (e.1 % 16)) k

/-- R277, R301: line `l` leaves die `d`: it moves to the eviction buffer and its notice goes to the home. -/
def Chip.evictLine (k : Chip) (l d : Nat) : Chip :=
  let c := k.dieLine l d
  if c.st == .i || c.locked.isSome || (k.coh.evict.find (cohKey l d)).isSome || (k.coh.waits.find (cohKey l d)).isSome then k
  else
    let dirty := c.st == .m || c.st == .o
    let k := { k with coh := { k.coh with
      evict := k.coh.evict.insert (cohKey l d) { st := c.st, data := c.data, poison := c.poison } } }
    let k := (k.setDieLine l d fun _ => {}).loseReservations l fun h => k.hartDie h == d
    k.say (if dirty then "WRITEBACK" else "EVICT") d l (ofBool (k.sectorEmpty l d))

/-- R308: EVC_ACK frees the eviction-buffer entry, and what waited for it goes on. -/
def Chip.takeEvcAck (k : Chip) (l d : Nat) : Chip :=
  let k := { k with coh := { k.coh with evict := k.coh.evict.erase (cohKey l d) } }
  match k.coh.waits.find (cohKey l d) with
  | some w => k.serveWaits l d w
  | none => k

/-- R314: whether the die agent can allocate a stashed line. -/
def Chip.stashFits (k : Chip) (l d : Nat) (way : StashWay) : Bool :=
  k.dieUp d && (k.dieLine l d).st == .i && (k.coh.evict.find (cohKey l d)).isNone &&
  match way with
  | .l2 h => (k.hart h).online && (k.hart h).moving.isNone && k.hartDie h == d
  | .open => true
  | .staging e => e / 2 == d && (k.engine e).inService

/-! ### The home: the directory (R296, R297) -/

/-- The directory entry of the sector of line `l`. -/
abbrev Chip.sector (k : Chip) (l : Nat) : Sector := Tbl.get {} k.coh.dir (l / 8)

/-- The directory entry of the sector of line `l` changed by `f`. -/
def Chip.setSector (k : Chip) (l : Nat) (f : Sector → Sector) : Chip :=
  { k with coh := { k.coh with dir := Tbl.mod {} k.coh.dir (l / 8) f } }

/-- The state of line `l` at its home. -/
def Chip.homeLine (k : Chip) (l : Nat) : HomeLine := Tbl.get .none (k.sector l).lines (l % 8)

/-- The state of line `l` at its home set. -/
def Chip.setHomeLine (k : Chip) (l : Nat) (s : HomeLine) : Chip :=
  k.setSector l fun e => { e with lines := Tbl.set .none e.lines (l % 8) s }

/-- The dies in PRESENT of the sector of line `l`; the bits of a lost die are masked (R432). -/
def Chip.presentDies (k : Chip) (l : Nat) : List Nat := (k.sector l).present.filter fun d => !k.coh.lost.contains d

/-- R297: the PRESENT bit of die `d` set. -/
def Chip.setPresent (k : Chip) (l d : Nat) : Chip :=
  k.setSector l fun e => { e with present := (List.range 12).filter fun x => x == d || e.present.contains x }

/-- R297: the PRESENT bit of die `d` cleared. -/
def Chip.clearPresent (k : Chip) (l d : Nat) : Chip := k.setSector l fun e => { e with present := e.present.filter (· != d) }

/-- The owner that a line state names. -/
def HomeLine.owner : HomeLine → Option Nat
  | .owned x => some x
  | .ownedShared x => some x
  | _ => Option.none

/-- R295, R436: the home-agent pair that serves line `l`. -/
def Chip.homePair (k : Chip) (l : Nat) : Nat :=
  let p := Config.dirSet (l / 8) % 32
  ((List.range 34).find? fun n => (Tbl.get {} k.coh.pairs n).spareFor == some p).getD p

/-- R543: counter `j` of the pair of line `l` raised by `n`. -/
def Chip.countHome (k : Chip) (l j n : Nat) : Chip := k.count 5 (k.homePair l) j n

/-- The tracker of line `l`. -/
def Chip.busyLine (k : Chip) (l : Nat) : Option Busy := (k.coh.busy.find? fun e => e.1 == l).map (·.2)

/-- The tracker of line `l` set, or freed. -/
def Chip.setBusy (k : Chip) (l : Nat) (b : Option Busy) : Chip :=
  let others := k.coh.busy.filter fun e => e.1 != l
  { k with coh := { k.coh with busy := match b with
      | some b => others ++ [(l, b)]
      | none => others } }

/-! ### The home: serving a request (R302 to R306, R311 to R314) -/

/-- The name of a snoop. -/
def Snoop.name : Snoop → String
  | .shared => "SNP_SHARED"
  | .unique => "SNP_UNIQUE"
  | .once => "SNP_ONCE"
  | .inv => "SNP_INV"
  | .clean => "SNP_CLEAN"

/-- R311, R312: whether the home executes an AMO far, and the predictor updated after the decision. -/
def Chip.predictAmo (k : Chip) (l d : Nat) (op : AmoOp) (size : Nat) : Bool × Chip :=
  let i := Config.amoEntry l
  let p := Tbl.get {} k.coh.predict i
  let mode := k.rd HA_CTRL.AMO_MODE
  let far := !amoNear op size && (if mode == 1 then false else if mode == 2 then true else decide (2 ≤ p.counter))
  let s := k.homeLine l
  let otherHolds := s != .none && (s.owner.any (· != d) || (k.presentDies l).any (· != d))
  let otherLast := p.sender.any (· != d)
  let counter := if otherHolds || otherLast then min 3 (p.counter + 1) else p.counter - 1
  (far, { k with coh := { k.coh with predict := Tbl.set {} k.coh.predict i { counter := counter, sender := some d } } })

/-- R444: whether the home refuses a request for its world. -/
def Chip.homeRefuses (k : Chip) (l : Nat) (it : HomeItem) : Bool :=
  it.who.w == 1 && decide (64 * l < k.secureTop) && match it.req with
    | .evict _ | .writeback _ | .stash | .binv _ => false
    | _ => true

/-- R305: whether die `d` still holds line `l` when the home takes its OWN. -/
def Chip.stillHolds (k : Chip) (l d : Nat) : Bool :=
  (k.presentDies l).contains d && (k.homeLine l == .shared || (k.homeLine l).owner == some d)

/-- The request as the home serves it: OWN of a lost copy as RD_UNIQUE (R305), an AMO that is granted as RD_UNIQUE (R311). -/
def Chip.asServed (k : Chip) (l : Nat) (it : HomeItem) : HomeItem × Chip :=
  match it.req with
  | .own false => if k.stillHolds l it.die then (it, k) else ({ it with req := .rdUnique }, k)
  | .amo op size _ _ =>
    let (far, k) := k.predictAmo l it.die op size
    if far then (it, k.countHome l 5 1) else ({ it with req := .rdUnique }, k.countHome l 4 1)
  | _ => (it, k)

/-- R304: the snoops of a request: the kind, and the dies. (DEDUCED, log 64) -/
def Chip.snoopsOf (k : Chip) (l : Nat) (it : HomeItem) : Snoop × List Nat :=
  let pres := k.presentDies l
  let s := k.homeLine l
  let x := (s.owner.toList).filter fun d => !k.coh.lost.contains d
  let others := (x ++ pres.filter fun d => !x.contains d).filter (· != it.die)
  match it.req with
  | .rdShared _ => (.shared, x.filter (· != it.die))
  | .rdUnique => (.unique, if s == .none then [] else others)
  | .own false => (.unique, others)
  | .own true => (.inv, pres)
  | .rdOnce => (.once, x)
  | .wrLine _ => (.inv, pres)
  | .amo _ _ _ _ => (.unique, pres)
  | .cmo 0 => (.clean, x)
  | .cmo _ => (.inv, pres)
  | .binv all => (.inv, if all then (List.range 12).filter fun d => k.dieUp d && !k.coh.lost.contains d else pres)
  | .evict _ | .writeback _ | .stash => (.inv, [])

/-- Whether a request needs a directory entry (R296, R298). -/
def HomeReq.needsEntry : HomeReq → Bool
  | .rdShared _ | .rdUnique | .own _ | .stash => true
  | _ => false

/-- R298: the sector whose entry gives way when the set of a new one is full: the one with the fewest lines not NONE. The
pseudo-LRU that settles a tie is not visible, so a free value does. -/
def Chip.dirVictim (k : Chip) (l : Nat) : Option Nat × Chip :=
  if k.coh.dir.length < 16 || (k.coh.dir.find (l / 8)).isSome then (none, k) else
  let set := k.coh.dir.filter fun e => Config.dirSet e.1 == Config.dirSet (l / 8)
  if set.length < 16 then (none, k) else
  let least := set.foldl (fun m e => min m e.2.lines.length) 8
  let ties := set.filter fun e => e.2.lines.length == least
  let (n, k) := k.fresh
  ((ties[n % max 1 ties.length]?).map fun e => e.1, k)

/-- A request refused by its home (R444): a read answers poison, a write is discarded. -/
def Chip.refuse (k : Chip) (l : Nat) (it : HomeItem) : Chip :=
  let k := k.wsErr WS_ERR.VIOLATION (64 * l) it.who.source
  match it.req with
  | .wrLine _ =>
    { k with coh := { k.coh with wrData := k.coh.wrData.eraseP fun w => w.1 == l } }.say "COMP" it.die l 0
  | .rdOnce => k.emit (.cohData "DATA" it.die l (zeros 64) true)
  | .cmo _ =>
    ({ k with coh := { k.coh with grants := k.coh.grants.insert (cohKey l it.die) { comp := true } } }).say "COMP" it.die l 0
  | _ => ({ k with coh := { k.coh with grants := k.coh.grants.insert (cohKey l it.die) { poison := true } } }).emit
      (.cohData "DATA" it.die l (zeros 64) true)

/-- A grant sent to die `d` (R297, R304). -/
def Chip.grant (k : Chip) (l d : Nat) (g : Grant) : Chip :=
  let k := if g.st == .i then k else k.setPresent l d
  let k := { k with coh := { k.coh with grants := k.coh.grants.insert (cohKey l d) g } }
  if g.comp then k.say "COMP" d l 0
  else k.emit (.cohData "DATA" d l (g.data.getD (memBytes k.mem (64 * l) 64)) (if g.data.isSome then g.poison else k.linePoison l))

/-- The result of a request whose snoops are answered (R304, R313): the block, and whether the line stays busy until
COMP_ACK. -/
def Chip.finishReq (k : Chip) (l : Nat) (b : Busy) : Chip × Bool :=
  let d := b.item.die
  match b.item.req with
  | .rdShared excl =>
    match b.before.owner with
    | some x =>
      if x == d then ((k.setHomeLine l (.owned d)).grant l d { st := .e, data := b.data, poison := b.poison }, true)
      else
        let k := k.setHomeLine l (if b.ownerSt == .o then .ownedShared x else .shared)
        (k.grant l d { st := .s, data := b.data, poison := b.poison }, true)
    | none =>
      if b.before == .none && excl && k.on HA_CTRL.EXCL_READ then ((k.setHomeLine l (.owned d)).grant l d { st := .e }, true)
      else ((k.setHomeLine l .shared).grant l d { st := .s }, true)
  | .rdUnique =>
    ((k.setHomeLine l (.owned d)).grant l d { st := if b.dirty then .m else .e, data := b.data, poison := b.poison }, true)
  | .own zero =>
    ((k.setHomeLine l (.owned d)).grant l d { st := .m, data := if zero then some (zeros 64) else none, comp := true }, false)
  | .rdOnce =>
    (k.emit (.cohData "DATA" d l (b.data.getD (memBytes k.mem (64 * l) 64))
      (if b.data.isSome then b.poison else k.linePoison l)), false)
  | .wrLine stash =>
    let k := match k.coh.wrData.find? fun w => w.1 == l with
      | some (_, bytes, mask, poison) =>
        let k := k.mergeLine l bytes mask poison
        { k with coh := { k.coh with wrData := k.coh.wrData.eraseP fun w => w.1 == l } }
      | none => k
    let k := (k.setHomeLine l .none).say "COMP" d l 0
    let to_ := match stash with
      | some (.hart h) => if (k.hart h).online then some (k.hartDie h) else none
      | some (.die t) => some t
      | none => none
    (match to_ with
      | some t => if k.on HA_CTRL.STASH_EN then k.say "SNP_STASH" t l 0 else k
      | none => k, false)
  | .amo op size off x =>
    let k := k.setHomeLine l .none
    let poison := k.linePoison l
    let bytes := memBytes k.mem (64 * l) 64
    let old := leAt bytes off size
    let k := if poison then k else
      let new := amoApply op size old x
      { k with
        mem := memPut k.mem (64 * l) (bytes.take off ++ leBytes new size ++ bytes.drop (off + size))
        coh := { k.coh with sc := Tbl.set 0 k.coh.sc l 2 } }
    (k.grant l d { old := some old, poison := poison }, false)
  | .cmo kind =>
    let k := if kind == 0 then match b.before with
        | .ownedShared _ => k.setHomeLine l .shared
        | .owned x => if b.ownerSt == .i then k.setHomeLine l .none else k.setHomeLine l (.owned x)
        | _ => k
      else k.setHomeLine l .none
    (k.grant l d { comp := true }, false)
  | .stash =>
    if k.homeLine l == .none || k.homeLine l == .shared then ((k.setHomeLine l .shared).grant l d { st := .s }, true)
    else (k, false)
  | .binv _ =>
    let k := k.setHomeLine l .none
    (if (k.sector l).lines.isEmpty && !(k.coh.busy.any fun e => e.1 / 8 == l / 8 && e.1 != l) then
      { k with coh := { k.coh with dir := k.coh.dir.erase (l / 8) } } else k, false)
  | .evict _ | .writeback _ => (k, false)

/-- An EVICT or WRITEBACK as the home takes it (R304, R308): stale where a snoop overtook it or the directory names another
state; a WRITEBACK then awaits its data. -/
def Chip.takeEviction (k : Chip) (l : Nat) (it : HomeItem) (empty wb : Bool) : Chip × Bool :=
  let d := it.die
  let k := k.evictLine l d
  let stale := match k.coh.evict.find (cohKey l d) with
    | some e => e.stale
    | none => true
  let k := if empty then k.clearPresent l d else k
  let s := k.homeLine l
  let held := match s with
    | .none => false
    | .shared => !wb
    | .owned x => x == d
    | .ownedShared x => !wb || x == d
  if stale || !held then
    (((k.bump HA_STALE.COUNT 1).countHome l 3 1).say "EVC_ACK" d l 1, false)
  else if wb then (k, true)
  else (((if s == .owned d then k.setHomeLine l .none else k).say "EVC_ACK" d l 0), false)

/-- The home begins the request `it` for line `l`: the tracker that results, and whether the line stays busy. -/
def Chip.startReq (k : Chip) (l : Nat) (it : HomeItem) (waiting : List HomeItem) : Chip × Option Busy :=
  if k.homeRefuses l it then (k.refuse l it, none) else
  match it.req with
  | .evict e => ((k.takeEviction l it e false).1, none)
  | .writeback e =>
    let (k, wait) := k.takeEviction l it e true
    (k, if wait then some { item := it, before := k.homeLine l, needData := true, waiting := waiting } else none)
  | _ =>
    let (it, k) := k.asServed l it
    let (victim, k) := if it.req.needsEntry then k.dirVictim l else (none, k)
    match victim with
    | some v => (k, some { item := it, blocked := some v, waiting := waiting })
    | none =>
      let k := match it.req with
        | .rdShared _ | .rdUnique | .rdOnce => k.scDemand l
        | _ => k
      let (s, dies) := k.snoopsOf l it
      let k := (dies.foldl (fun k d => k.say s.name d l 0) k).countHome l 1 dies.length
      let need := match it.req with
        | .wrLine _ => !(k.coh.wrData.any fun w => w.1 == l)
        | _ => false
      let b : Busy := { item := it, before := k.homeLine l, awaiting := dies, needData := need, waiting := waiting }
      if !dies.isEmpty || need then (k, some b)
      else
        let (k, hold) := k.finishReq l b
        (k, if hold then some { b with granted := true } else none)

/-- The requests of a free line served in order until one keeps it busy (R302, R303). -/
def Chip.serveHome (k : Chip) (l : Nat) : List HomeItem → Chip
  | [] => k.setBusy l none
  | it :: rest =>
    match k.startReq l it rest with
    | (k, some b) => k.setBusy l (some b)
    | (k, none) => k.serveHome l rest

/-- The request that a line is busy with finished, once nothing is awaited. -/
def Chip.pokeHome (k : Chip) (l : Nat) : Chip :=
  match k.busyLine l with
  | none => k
  | some b =>
    if b.granted || !b.awaiting.isEmpty || b.needData || b.blocked.isSome then k else
    let (k, hold) := k.finishReq l b
    if hold then k.setBusy l (some { b with granted := true }) else k.serveHome l b.waiting

/-- Line `l` released, and the next request begun (R303). -/
def Chip.releaseLine (k : Chip) (l : Nat) : Chip :=
  match k.busyLine l with
  | none => k
  | some b => k.serveHome l b.waiting

/-- A request arrives at the home of line `l` (R302): behind those that wait, or begun at once.
(DESIGN CHOICE, log 12) -/
def Chip.arrive (k : Chip) (l : Nat) (it : HomeItem) : Chip :=
  match k.busyLine l with
  | some b => k.setBusy l (some { b with waiting := b.waiting ++ [it] })
  | none => k.serveHome l [it]

/-- A back-invalidation that a home begins of itself (R298), or the repair of an entry (R429). -/
def homeOwn (all : Bool) : HomeItem := { die := 12, who := { source := 0, id := 0, w := 0 }, req := .binv all }

/-- R298: the back-invalidations that blocked requests wait for, started; and the requests whose victim is gone, begun
again with the entry free. -/
def Chip.backInvalidate (k : Chip) : Chip :=
  k.coh.busy.foldl (fun (k : Chip) (e : Nat × Busy) => match e.2.blocked with
    | none => k
    | some v =>
      let ls := ((List.range 8).map (8 * v + ·)).filter fun l => k.homeLine l != .none
      if ls.isEmpty then
        let k := { k with coh := { k.coh with dir := k.coh.dir.erase v } }
        k.serveHome e.1 (e.2.item :: e.2.waiting)
      else (ls.filter fun l => !(k.coh.busy.any fun x => x.1 == l && (x.2.item :: x.2.waiting).any (·.req == .binv false))).foldl
        (fun k l => ((k.bump HA_BINV.COUNT 1).countHome l 2 1).arrive l (homeOwn false)) k) k

/-- Whether dirty data of a snoop goes into the system cache (R308): the request takes it no further, or the answer is
superseded and grants no M. -/
def HomeReq.writesHome (r : HomeReq) (superseded : Bool) : Bool :=
  match r with
  | .rdUnique | .own _ => false
  | .rdShared _ | .rdOnce => superseded
  | _ => true

/-- A snoop's answer reaches the home (R297, R303, R304, R308). -/
def Chip.takeAnswer (k : Chip) (l d : Nat) : Chip :=
  match k.coh.answers.find (cohKey l d), k.busyLine l with
  | some a, some b =>
    let k := { k with coh := { k.coh with answers := k.coh.answers.erase (cohKey l d) } }
    let k := if a.empty then k.clearPresent l d else k
    let home := a.dirty && b.item.req.writesHome a.superseded
    let k := if home then k.homePut l a.data a.poison else k
    let keep := a.dirty && !home && match b.item.req with
      | .own _ => false
      | _ => true
    let b := { b with
      awaiting := b.awaiting.filter (· != d)
      ownerSt := if b.before.owner == some d then a.st else b.ownerSt
      dirty := b.dirty || a.dirty
      data := if keep then a.data else b.data
      poison := if keep then a.poison else b.poison }
    (k.setBusy l (some b)).pokeHome l
  | some _, none => { k with coh := { k.coh with answers := k.coh.answers.erase (cohKey l d) } }
  | none, _ => k

/-! ### The loss of a C-die (R315) -/

/-- R315: what a lost die owned of a sector. -/
def Chip.dropSector (k : Chip) (d : Nat) (v : Nat) : Chip :=
  (List.range 8).foldl (fun k i =>
    let l := 8 * v + i
    match k.homeLine l with
    | .owned x => if x == d then ({ k with poison := k.poison.set false l true }).setHomeLine l .none else k
    | .ownedShared x =>
      if x != d then k else
      match (k.presentDies l).find? fun y => (k.dieLine l y).st == .s with
      | some y => (k.homePut l (some (k.dieBytes l y)) (k.diePoison l y)).setHomeLine l .shared
      | none => ({ k with poison := k.poison.set false l true }).setHomeLine l .none
    | _ => k) (k.clearPresent (8 * v) d)

/-- R315: the tracker of a line after the loss of die `d`. -/
def Busy.dropDie (b : Busy) (d : Nat) : Busy :=
  { b with
    awaiting := b.awaiting.filter (· != d)
    ownerSt := if b.before.owner == some d then .i else b.ownerSt
    waiting := b.waiting.filter fun it => it.die != d }

/-- R315, R431: C-die `d` is lost: its requests, its copies and the messages under way to and from it with it.
(DEDUCED, log 64) -/
def Chip.dropDie (k : Chip) (d : Nat) : Chip :=
  let k := { k with coh := { k.coh with lost := d :: k.coh.lost.filter (· != d) } }
  let sectors := k.coh.dir.map (·.1)
  let k : Chip := sectors.foldl (fun (k : Chip) v => k.dropSector d v) k
  let k := { k with coh := { k.coh with
    die := k.coh.die.filter fun e => e.1 % 16 != d
    evict := k.coh.evict.filter fun e => e.1 % 16 != d
    answers := k.coh.answers.filter fun e => e.1 % 16 != d
    grants := k.coh.grants.filter fun e => e.1 % 16 != d
    waits := k.coh.waits.filter fun e => e.1 % 16 != d
    heldSnoops := k.coh.heldSnoops.filter fun e => e.1 % 16 != d
    busy := k.coh.busy.map fun (e : Nat × Busy) => (e.1, e.2.dropDie d) } }
  (k.coh.busy.map fun (e : Nat × Busy) => e.1).foldl (fun (k : Chip) (l : Nat) => match k.busyLine l with
    | none => k
    | some b =>
      if b.item.die == d then
        (if b.granted then k else k.homePut l b.data b.poison).releaseLine l
      else k.pokeHome l) k

end Sys2Proof.Machine
end

