-- ==== Sys2Proof/Machine/Flags.lean ====
section
/-!
DEFINITION. The status fields that show the current state of hardware at all times (R14), computed from the state they
show; and what a command's effect becomes: the block with those fields showing, the queue untouched.
-/

namespace Sys2Proof.Machine

/-- The number of fenced banks, and the fenced banks `lo` to `lo + 63` as bits (R290). -/
def bankBits (bs : List Nat) (lo : Nat) : Nat :=
  (List.range 64).foldl (fun n i => if bs.contains (lo + i) then n + 2 ^ i else n) 0

/-- Home-agent pairs that are spare, sound and not taken (R316, R436, R438), ascending. -/
def Chip.freeSpares (k : Chip) : List Nat :=
  (List.range 34).filter fun p =>
    let q := Tbl.get {} k.coh.pairs p
    (32 ≤ p || q.idle) && !q.failed && !q.failing && !q.inTest && q.spareFor.isNone

/-- The lowest CAP among the online harts, 15 where there is none (R493). -/
def Chip.minCap (k : Chip) : Nat := k.harts.foldl (fun m e => if e.2.online then min m e.2.oppCap else m) 15

/-- R53: whether alignment is enabled and the offset lies within SLEW_MAX as it acts. -/
def Chip.aligned (k : Chip) : Bool :=
  let ofs := toSigned (k.rd BT_ALIGN_OFS.OFS) 32
  let max_ : Int := min 40 (k.rd BT_CTRL.SLEW_MAX)
  k.on BT_CTRL.ALIGN_EN && decide (-max_ ≤ ofs ∧ ofs ≤ max_)

/-- R493: the C-dies whose thermal ceiling is below 15, as bits. -/
def Chip.tcapLow (k : Chip) : Nat :=
  (List.range 12).foldl (fun n d => if Tbl.get 15 k.pwr.tcap d < 15 then n + 2 ^ d else n) 0

/-- R541: whether the configuration is small: no C-die is shared, and no partition stands on more than two. -/
def Chip.small (k : Chip) : Bool :=
  let parts := (List.range 12).map fun d => k.rd (PM_PART.PART d)
  (List.range 12).all (fun d => !k.on (PM_PART.SHARED d)) && parts.all fun p => decide (parts.count p ≤ 2)

/-- The status fields that show hardware state, each with the value it shows (R14). (DEDUCED, log 23) -/
def Chip.shows (k : Chip) : List (Fld × Nat) :=
  [ (BT_STATUS.ENGINES_IDLE, ofBool (k.eng.all fun e => e.2.seg.isNone)),
    (BT_STATUS.ALIGNED, ofBool k.aligned),
    (BT_STATUS.RUN, ofBool (k.pwr.pkg.up && !k.beat.stopped)),
    (RE_STATUS.IDLE, ofBool k.re.jobs.isEmpty),
    (RE_STATUS.ACTIVE, ofBool k.re.instanceB),
    (RE_STATUS.FENCED, ofBool k.re.fencedOther),
    (RE_STATUS.ENGINES, k.re.e),
    (MQ_STATUS.IDLE, ofBool k.mq.cmds.isEmpty),
    (SC_STATUS.FENCED, k.coh.banksFenced.length),
    (SC_STATUS.REGIONS, k.acc.length),
    (SC_STATUS.LOCK_BUSY, ofBool (k.coh.lockWaits != 0)),
    (SC_FENCED0.BANK, bankBits k.coh.banksFenced 0),
    (SC_FENCED1.BANK, bankBits k.coh.banksFenced 64),
    (HA_STATUS.SPARES, k.freeSpares.length),
    (HF_STATUS.NUM_VFS, if k.hf.vfEnable then k.hf.numVfs else 0),
    (PWR_STATUS.STATE, k.pwr.pkg.code),
    (PWR_STATUS.MIN_CAP, k.minCap),
    (PWR_STATUS.TCAP_LOW, k.tcapLow),
    (GN_STATUS.SLOT, k.gn.activeSlot),
    (GN_STATUS.RECOVERY, ofBool k.gn.recovery),
    (QT_CAP.THR, k.qt.level),
    (QT_CAP.STOP, ofBool k.qt.stop),
    (WS_STATUS.SIGN_READY, ofBool (k.ws.signKey.isSome && !k.ws.signPending)),
    (FL_STATUS.READY, ofBool k.fl.metering),
    (FL_STATUS.CAL, ofBool k.fl.calLand),
    (FL_STATUS.FUSES_OUT, ofBool (decide (65536 ≤ k.fl.epoch))),
    (PM_STATUS.SMALL, ofBool k.small),
    (PM_STATUS.DUMPING, ofBool (!k.pm.dumpPending.isEmpty)) ]

/-- The status fields of `Chip.shows`. -/
def shownFields : List Fld :=
  [ BT_STATUS.ENGINES_IDLE, BT_STATUS.ALIGNED, BT_STATUS.RUN, RE_STATUS.IDLE, RE_STATUS.ACTIVE, RE_STATUS.FENCED,
    RE_STATUS.ENGINES, MQ_STATUS.IDLE, SC_STATUS.FENCED, SC_STATUS.REGIONS, SC_STATUS.LOCK_BUSY, SC_FENCED0.BANK,
    SC_FENCED1.BANK, HA_STATUS.SPARES, HF_STATUS.NUM_VFS, PWR_STATUS.STATE, PWR_STATUS.MIN_CAP, PWR_STATUS.TCAP_LOW,
    GN_STATUS.SLOT, GN_STATUS.RECOVERY, QT_CAP.THR, QT_CAP.STOP, WS_STATUS.SIGN_READY, FL_STATUS.READY, FL_STATUS.CAL,
    FL_STATUS.FUSES_OUT, PM_STATUS.SMALL, PM_STATUS.DUMPING ]

/-- The block with its status fields showing the hardware (R14). (DEDUCED, log 23) -/
def Chip.refresh (k : Chip) : Chip := k.shows.foldl (fun k p => k.wr p.1 p.2) k

/-- A command's effect: the block after it, its status fields showing, and the same queue. -/
def State.commit (s : State) (k : Chip) : Host.Outcome State Fault Refusal := .next { s with chip := k.refresh }

end Sys2Proof.Machine
end

