-- ==== Sys2Proof/Machine/DieOps.lean ====
section
/-!
DEFINITION. Shared operations that end the service of a Bilum port, of a C-die, of a home-agent pair or of a network (13, 14,
17): the events of their pages, R329, R357, R432 and R436.
-/

namespace Sys2Proof.Machine

/-- A bit of NOC_ERR set on the page of die `d` (12 for the H-die), and its event when it newly sets (R334, R411).
(DEDUCED, log 32) -/
def Chip.nocErr (k : Chip) (f : Fld) (d cls action info0 status : Nat) : Chip :=
  let was := k.on f
  let k := k.raise f
  if was then k else
  k.log { cls := cls, unitType := 7, unit := d, cause := f.lo, action := action, status := status, info0 := info0 }

/-- A bit of BL_ERR set on the page of port `p`, and its event when it newly sets (R361, R411). (DEDUCED, log 32) -/
def Chip.blErr (k : Chip) (f : Fld) (p cls action info0 : Nat) (status : Nat := 0) : Chip :=
  let was := k.on f
  let k := k.raise f
  if was then k else
  k.log { cls := cls, unitType := 8, unit := p, cause := f.lo, action := action, status := status, info0 := info0 }

/-- Bilum port `p`. -/
abbrev Chip.bport (k : Chip) (p : Nat) : BPort := Tbl.get {} k.bl.ports p

/-- Bilum port `p` changed by `f`. -/
def Chip.setBport (k : Chip) (p : Nat) (f : BPort → BPort) : Chip :=
  { k with bl := { k.bl with ports := Tbl.mod {} k.bl.ports p f } }

/-- The other port of the same C-die. -/
def otherPort (p : Nat) : Nat := if p % 2 == 0 then p + 1 else p - 1

/-- Whether Bilum port `p` carries traffic. -/
def Chip.portUp (k : Chip) (p : Nat) : Bool := k.rd (BL_STATUS.STATE p) == 3

/-- R432, step 1: port `p` fenced with its C-die; it stays so until a DIE reset. -/
def Chip.fencePort (k : Chip) (p : Nat) : Chip :=
  (if k.rd (BL_STATUS.STATE p) == 4 then k else k.wr (BL_STATUS.STATE p) 0).setBport p fun b => { b with
    timer := false, swapDue := false, switchDue := false, retrainDue := false }

/-- R267, R432, R433: the hart IDs that run on a lost C-die, or are on their way to it, stop, and their takeover is decided
at the next boundary; a secure one restarts the secure world (R459). -/
def Chip.hartsLost (k : Chip) (d : Nat) (second : Bool) : Chip :=
  (List.range 288).foldl (fun k h =>
    let g := k.hart h
    let here := g.online && g.ptile.any fun t => t / 28 == d
    let coming := g.moving.any fun m => m.1 / 28 == d
    if !here && !coming then k else
    let k := k.setHart h fun g => { g with online := false, halted := false, moving := none }
    let k := { k with flt := { k.flt with movesDue := k.flt.movesDue ++ [{ k.due h 2 with second := second }] } }
    if g.online && g.w == 0 then k.secureRestart 3 else k) k

/-- R432, R435: engine `e` is lost with its C-die; the segment it holds replays. -/
def Chip.engineGone (k : Chip) (e : Nat) (second : Bool) : Chip :=
  if (k.engine e).seg.isSome then k.engineFail e 0xFF second
  else k.setEngine e fun g => { g with failed := true, inTest := false, suspect := false, inService := false }

/-- R432, R433, R435: C-die `d` is lost for `cause`; `second` says that the loss is a second fault (R421, R556), as is that of
the last C-die in service (R420). (DEDUCED, log 76) -/
def Chip.dieLost (k : Chip) (d cause : Nat) (second : Bool) : Chip :=
  let s := k.dieState d
  if !s.inService || s.lost then k else
  let k := k.setDie d fun s => { s with
    lost := true, cause := cause, walk := true, lostAt := k.now, autoDue := true, step := 0, planned := false }
  let none_ := (List.range 12).all fun e => !k.dieUp e
  let k := k.log
    { cls := 2, unitType := 9, unit := d, action := 9, status := secondStatus (none_ || second), info0 := cause }
  let k := ((k.fencePort (2 * d)).fencePort (2 * d + 1)).dropDie d
  let k := (k.engineGone (2 * d) second).engineGone (2 * d + 1) second
  k.hartsLost d second

/-- R357: Bilum port `p` fails, a full training in progress with it (R359): traffic goes through the other port; where that is not up the C-die is lost (R432). -/
def Chip.portFail (k : Chip) (p : Nat) : Chip :=
  if k.rd (BL_STATUS.STATE p) == 4 then k else
  let second := k.recovering
  let k := if k.rd (BL_STATUS.STATE p) == 1 then k.bump (BL_STATUS.ATTEMPTS p) 1 else k
  let again := decide (k.rd (BL_STATUS.ATTEMPTS p) < 3)
  let k := (k.wr (BL_STATUS.STATE p) 4).blErr (BL_ERR.PORT_FAILED p) p 2 9 0 (secondStatus second)
  let k := k.setBport p fun b => { b with timer := again, swapDue := false, switchDue := false, tries := 0 }
  if k.rd (BL_STATUS.STATE (otherPort p)) == 4 then k.dieLost (p / 2) 2 second else k

/-- R329: no route is left on the mesh of die `d`. -/
def Chip.noRoute (k : Chip) (d stop : Nat) : Chip :=
  let k := k.raise (NOC_ERR.NO_ROUTE d)
  if d == 12 then k.secondFault 7 12 4
  else (k.log { cls := 2, unitType := 7, unit := d, cause := 4, action := 9, status := 4, info0 := stop }).dieLost d 4 true

/-! ### Lane maps and training (R349 to R352, R355) -/

/-- The block of a physical wire: data wires are 0 to 255, the spares of block b are 256 + 2b and 257 + 2b (R336). -/
def wireBlock (w : Nat) : Nat := if w < 256 then w / 32 else (w - 256) / 2

/-- The failed wires of block `b` in direction `dir` (0 to the C-die, 1 from it). -/
def BPort.blockFailed (x : BPort) (dir b : Nat) : List Nat :=
  (x.failed.filter fun f => f.1 == dir && wireBlock f.2 == b).map (·.2)

/-- R351: a block has a live clock and at most two failed wires. -/
def BPort.blockGood (x : BPort) (dir b : Nat) : Bool :=
  !x.lost.contains (dir, b) && decide ((x.blockFailed dir b).length ≤ 2)

/-- R351: the width that the H-die chooses; none where the port fails. -/
def BPort.chooseWidth (x : BPort) (allowHalf : Bool) : Option Nat :=
  let good := fun bs => bs.all fun b => x.blockGood 0 b && x.blockGood 1 b
  if good (List.range 8) then some 0
  else if allowHalf && good [0, 1, 2, 3] then some 1
  else if allowHalf && good [4, 5, 6, 7] then some 2
  else none

/-- R351: the data wire, within its block, that spare `i` of block `b` replaces; 0x3F for none. Failed wires take spare 0
first, in ascending order, and a failed spare takes none. -/
def BPort.spareWire (x : BPort) (dir i b : Nat) : Nat :=
  let bad := x.blockFailed dir b
  let wires := (List.range 32).filter fun w => bad.contains (32 * b + w)
  let spares := [0, 1].filter fun s => !bad.contains (256 + 2 * b + s)
  match spares.findIdx? (· == i) with
  | some n => wires.getD n 0x3F
  | none => 0x3F

/-- R351: the 33 bytes of the lane map. -/
def BPort.mapBytes (x : BPort) : List Nat :=
  x.width :: [(0, 0), (0, 1), (1, 0), (1, 1)].flatMap fun p =>
    (List.range 8).map fun b => x.spareWire p.1 p.2 b + 64 * ofBool (x.lost.contains (p.1, b))

/-- R351: the hash of a lane map. -/
def mapHash (m : List Nat) : Nat := crc32 (m.map (BitVec.ofNat 8))

/-- The lane map of port `p` as BL_MAP, BL_HASH and SPARES_USED show it (R359, R360). -/
def Chip.showMap (k : Chip) (p : Nat) : Chip :=
  let x := k.bport p
  let put := fun (k : Chip) (w l : Nat → Nat → Fld) (dir i : Nat) => (List.range 8).foldl (fun k b =>
    (k.wr (w p b) (x.spareWire dir i b)).wr (l p b) (ofBool (x.lost.contains (dir, b)))) k
  let k := put k BL_MAP_TX0.WIRE BL_MAP_TX0.LOST 0 0
  let k := put k BL_MAP_TX1.WIRE BL_MAP_TX1.LOST 0 1
  let k := put k BL_MAP_RX0.WIRE BL_MAP_RX0.LOST 1 0
  let k := put k BL_MAP_RX1.WIRE BL_MAP_RX1.LOST 1 1
  let used := ([(0, 0), (0, 1), (1, 0), (1, 1)].map fun q =>
    ((List.range 8).filter fun b => x.spareWire q.1 q.2 b != 0x3F).length).sum
  (k.wr (BL_HASH.HUB p) (mapHash x.mapBytes)).wr (BL_STATUS.SPARES_USED p) used

/-- R351: the H-die decides the width and the map of port `p`; no width fails the port. -/
def Chip.decideMap (k : Chip) (p : Nat) : Chip :=
  match (k.bport p).chooseWidth (k.on (BL_CTRL.ALLOW_HALF p)) with
  | none => k.portFail p
  | some w => ((k.setBport p fun x => { x with width := w }).showMap p).emit (.sideband p "MAP_ANNOUNCE" w)

/-- R349, R350: port `p` starts a full training, which finds failed wires anew, or a verifying start. -/
def Chip.startLink (k : Chip) (p : Nat) (verify : Bool) : Chip :=
  if !k.on (BL_CTRL.ENABLE p) then k else
  let k := k.setBport p fun x => { x with
    failed := if verify then x.failed else [], lost := if verify then x.lost else []
    swapDue := false, switchDue := false, timer := false, tries := 0, setFail := [], index := none, retrainDue := false }
  ((k.wr (BL_STATUS.STATE p) (if verify then 2 else 1)).wr (BL_STATUS.STEP p) 1).emit (.sideband p "LINK_START" (ofBool verify))

/-! ### Home-agent pairs (R436) -/

/-- Home-agent pair `n`. -/
abbrev Chip.pair (k : Chip) (n : Nat) : Pair := Tbl.get {} k.coh.pairs n

/-- Home-agent pair `n` changed by `f`. -/
def Chip.setPair (k : Chip) (n : Nat) (f : Pair → Pair) : Chip :=
  { k with coh := { k.coh with pairs := Tbl.mod {} k.coh.pairs n f } }

/-- Whether pair `n` is in service: one of the 32, or a spare that stands for one; and it has not failed. -/
def Chip.pairServes (k : Chip) (n : Nat) : Bool :=
  let q := k.pair n
  !q.failed && !q.inTest && ((n < 32 && !q.idle) || q.spareFor.isSome)

/-- How many free spare pairs no failed pair waits for (R436). -/
def Chip.sparesLeft (k : Chip) : Nat := k.freeSpares.length - k.flt.pairsDue.length

/-- R436: pair `n` stops; the spare takes over at the next boundary. A spare that is not in service is fenced alone. With
no spare free the failure is Package-fatal (R421). (DEDUCED, log 76) -/
def Chip.pairFails (k : Chip) (n : Nat) : Chip :=
  let q := k.pair n
  if q.failed || q.failing then k
  else if !k.pairServes n then
    (k.setPair n fun q => { q with failed := true }).log
      { cls := 2, unitType := 4, unit := n, action := 9, status := secondStatus k.recovering }
  else if k.sparesLeft == 0 then (k.setPair n fun q => { q with failed := true }).secondFault 4 n 0xFF
  else
    let m := k.due n 0
    let k := k.setPair n fun q => { q with failing := true }
    { k with flt := { k.flt with pairsDue := k.flt.pairsDue ++ [m] } }

/-- R436: the rehome of the pair of `m` at a boundary; a spare that has failed since is missing (R421). -/
def Chip.rehome (k : Chip) (m : Due) : Chip :=
  let n := m.unit
  let q := k.pair n
  let stands := q.spareFor.getD n
  match k.freeSpares with
  | [] => (k.setPair n fun q => { q with failed := true, failing := false }).secondFault 4 n 0xFF
  | p :: _ =>
    let k := k.setPair n fun _ => { failed := true, idle := q.idle }
    ((k.setPair p fun q => { q with spareFor := some stands }).bump HA_STATUS.REHOMED 1).log
      { cls := 2, unitType := 4, unit := n, action := 6, status := secondStatus m.second, info0 := p
        seen := some (m.beat, m.time) }

end Sys2Proof.Machine
end

