-- ==== Sys2Proof/Machine/Bilum.lean ====
section
/-!
DEFINITION. The commands of the Bilum links (14): discovery, maps and training over the sideband, link retransmission and
credits, and the repair and failure of wires, blocks and ports.
-/

namespace Sys2Proof.Machine

/-! ### Discovery, maps and training (R346 to R352) -/

/-- Whether port `p` is in a link start. -/
def Chip.linkStarting (k : Chip) (p : Nat) : Bool := k.rd (BL_STATUS.STATE p) == 1 || k.rd (BL_STATUS.STATE p) == 2

/-- R348: the generation of a link from the peer's IDENT (the H-die's GEN_MAX and GEN_MIN are 1, the C-die's 2 and 1);
none below a GEN_MIN. -/
def linkGeneration (m : SbIdent) : Option Nat :=
  let g := min (if m.fromDie then 1 else 2) m.genMax
  if g < 1 || g < m.genMin then none else some g

/-- R347, R348: an IDENT message arrives, at the H-die from a C-die or the other way. (DEDUCED, log 69) -/
def Chip.sbIdent (k : Chip) (p : Nat) (m : SbIdent) : Chip :=
  if !k.linkStarting p then k else
  match linkGeneration m with
  | none => (k.wr (BL_STATUS.STATE p) 0).blErr (BL_ERR.GEN_MISMATCH p) p 0 9 m.genMax
  | some g =>
    if m.fromDie then
      let k := (k.setBport p fun x => { x with tries := 0 }).wr (BL_STATUS.GEN p) g
      (k.wr (BL_HASH.DIE p) (if m.retained then m.hash else 0)).wr (BL_STATUS.STEP p) 3
    else
      let k := k.setBport p fun x => { x with index := some m.index }
      let other := (k.bport (otherPort p)).index
      if other.any (· != m.index) then
        (k.wr (BL_STATUS.STATE p) 0).blErr (BL_ERR.INDEX_CONFLICT p) p 0 9 m.index
      else if m.port != 2 * m.index + p % 2 then k.wr (BL_STATUS.STATE p) 0
      else k

/-- R351, R352: MAP_ANNOUNCE reaches the C-die, which adopts the map; in a full training the H-die has decided it (step 7
of R349). -/
def Chip.mapAnnounce (k : Chip) (p width : Nat) (map : List Nat) (when_ : Nat) : Chip :=
  let k := if when_ == 0 && k.rd (BL_STATUS.STATE p) == 1 then k.decideMap p else k
  if k.rd (BL_STATUS.STATE p) == 4 then k else
  let k := k.setBport p fun x => { x with retained := some (width, map) }
  let k := if k.linkStarting p then k.wr (BL_STATUS.STEP p) 8 else k
  k.emit (.sideband p "MAP_ADOPT" (mapHash map))

/-- R352: MAP_ADOPT reaches the H-die. -/
def Chip.mapAdopt (k : Chip) (p hash : Nat) : Chip :=
  let k := k.setBport p fun x => { x with tries := 0 }
  let hub := k.rd (BL_HASH.HUB p)
  if hash % 2 ^ 32 != hub || (k.linkStarting p && k.rd (BL_HASH.DIE p) != hub) then
    k.blErr (BL_ERR.MAP_MISMATCH p) p 0 0 hash
  else k

/-- R352: MAP_REJECT reaches the H-die: both sides of the port train fully. -/
def Chip.mapReject (k : Chip) (p : Nat) (wires : List Nat) : Chip :=
  (k.blErr (BL_ERR.MAP_REJECT p) p 0 0 wires.length).startLink p false

/-- R355: a wire of port `p` is to be repaired, from the next boundary on. -/
def Chip.wireFailed (k : Chip) (p dir wire : Nat) : Chip :=
  k.setBport p fun x => { x with
    failed := if x.failed.contains (dir, wire) then x.failed else x.failed ++ [(dir, wire)]
    swapDue := true }

/-- R349, R355: the C-die reports pattern errors on a wire: in the lane test any error fails the wire; in service the limit
starts a repair. -/
def Chip.wireReport (k : Chip) (p dir wire errs : Nat) : Chip :=
  let k := (k.bump (BL_CNT.PATTERN_ERRS p) errs).setBport p fun x => { x with tries := 0 }
  if k.rd (BL_STATUS.STATE p) == 1 && 0 < errs then
    k.setBport p fun x => { x with failed := if x.failed.contains (dir, wire) then x.failed else x.failed ++ [(dir, wire)] }
  else if k.portUp p && orDefault (k.rd (BL_CTRL.SWAP_LIMIT p)) 4 ≤ errs then k.wireFailed p dir wire
  else k

/-- R349, R350: the result of the confirmation: a verifying start that fails trains fully, a full training that fails fails
the port. -/
def Chip.testDone (k : Chip) (p : Nat) (ok : Bool) : Chip :=
  let k := k.setBport p fun x => { x with tries := 0 }
  if ok then (if k.linkStarting p then k.wr (BL_STATUS.STEP p) 9 else k)
  else if k.rd (BL_STATUS.STATE p) == 2 then k.startLink p false
  else if k.rd (BL_STATUS.STATE p) == 1 then k.portFail p
  else k

/-- The lane groups and credits of port `p` at the start of its streams (R338, R342). -/
def Chip.resetStreams (k : Chip) (p : Nat) : Chip :=
  { k with bl := { k.bl with
      groups := k.bl.groups.filter fun e => e.1 / 8 != p
      credits := k.bl.credits.filter fun e => e.1 / 32 != p
      badCredit := k.bl.badCredit.filter fun e => e.1 / 2 != p } }

/-- R349, step 9: the streams start, the port is UP, and the first full token follows (R32). -/
def Chip.creditInit (k : Chip) (p : Nat) : Chip :=
  if !k.linkStarting p then k else
  let w := (k.bport p).width
  let k := (((k.resetStreams p).wr (BL_STATUS.STATE p) 3).wr (BL_STATUS.STEP p) 9).wr (BL_STATUS.WIDTH p) w
  let k := if w == 0 then k else k.blErr (BL_ERR.HALF p) p 2 9 w
  { k with beat := { k.beat with dies := Tbl.mod {} k.beat.dies (p / 2) fun d => { d with fullDue := true } } }

/-- R346: no reply within 5 µs: the message goes out again, and after 8 times the port fails. -/
def Chip.sbTimeout (k : Chip) (p : Nat) : Chip :=
  if 8 ≤ (k.bport p).tries then k.portFail p
  else (k.setBport p fun x => { x with tries := x.tries + 1 }).emit (.sideband p "RESEND" ((k.bport p).tries + 1))

/-! ### Link retransmission and credits (R339 to R342) -/

/-- The key of a lane group: the port, the direction (0 to the C-die) and the network of R341. -/
def groupKey (p dir net : Nat) : Nat := 8 * p + 4 * (dir % 2) + net % 4

/-- The lane group changed by `f`. -/
def Chip.setGroup (k : Chip) (g : Nat) (f : BGroup → BGroup) : Chip :=
  { k with bl := { k.bl with groups := Tbl.mod {} k.bl.groups g f } }

/-- R340: a flit of traffic class `cls` arrives on a group; REQ and DAT flits are counted (R407, R543). -/
def Chip.bilumFlit (k : Chip) (p dir net : Nat) (crcOk idle : Bool) (cls : Nat) : Chip :=
  let k := if crcOk && !idle && (net == 0 || net == 3) then
      k.count 3 p (16 * (dir % 2) + 8 * ofBool (net == 3) + cls % 8) 1 else k
  k.setGroup (groupKey p dir net) fun g =>
    if !crcOk then { g with discarding := true, sent := if idle then g.sent else (g.sent + 1) % 256 }
    else if idle then g
    else { g with
      sent := (g.sent + 1) % 256
      received := if g.discarding then g.received else (g.received + 1) % 256 }

/-- R340: the sender of a group resends from the first unacknowledged flit; after 8 resends without progress the port
fails. (DEDUCED, log 69) -/
def Chip.resendGroup (k : Chip) (p dir net : Nat) : Chip :=
  let key := groupKey p dir net
  let g := Tbl.get {} k.bl.groups key
  let n := wrapSub g.sent g.acked 8
  if n == 0 then k
  else if 8 ≤ g.resends then k.portFail p
  else
    let k := k.setGroup key fun g => { g with sent := g.acked, received := g.acked, resends := g.resends + 1, discarding := false }
    ((k.bump (BL_CNT.REPLAYS p) n).blErr (BL_ERR.REPLAY p) p 0 1 net).emit (.sideband p "FLIT_RESEND" key)

/-- R341: the CRC-6 of 26 bits, the most significant first, from 0. (DEDUCED, log 69) -/
def crc6 (w : Nat) : Nat :=
  (List.range 26).foldl (fun c i =>
    let top := (c / 32 + w / 2 ^ (25 - i)) % 2
    (c * 2 % 64) ^^^ (if top == 1 then 3 else 0)) 0

/-- R341, R342: a credit frame arrives from direction `dir`; it speaks of the groups of the other direction. -/
def Chip.creditFrame (k : Chip) (p dir word : Nat) : Chip :=
  let bad := 2 * p + dir % 2
  if crc6 (bits word 0 26) != bits word 26 6 then
    let n := Tbl.get 0 k.bl.badCredit bad + 1
    let k := { k with bl := { k.bl with badCredit := Tbl.set 0 k.bl.badCredit bad n } }
    if 16 ≤ n then k.portFail p else k
  else
    let net := bits word 0 2
    let key := groupKey p (1 - dir % 2) net
    let put := fun (t : Tbl Nat) vc => Tbl.set 0 t (4 * key + vc) (bits word (2 + 5 * vc) 5)
    let k := { k with bl := { k.bl with
      badCredit := Tbl.set 0 k.bl.badCredit bad 0
      credits := put (put (put k.bl.credits 0) 1) 2 } }
    let acked := (bits word 17 8 + 1) % 256
    let k := k.setGroup key fun g => { g with acked := acked, resends := if acked == g.acked then g.resends else 0 }
    if bit word 25 then k.resendGroup p (1 - dir % 2) net else k

/-! ### Repair and failure (R353 to R359) -/

/-- R355, step 2: the H-die decides the new map of port `p` at a boundary and commits it. -/
def Chip.commitSwap (k : Chip) (p : Nat) : Chip :=
  if !(k.bport p).swapDue || !k.portUp p then k else
  let k := k.setBport p fun x => { x with swapDue := false }
  let k := (k.blErr (BL_ERR.SWAP p) p 2 9 0).decideMap p
  if k.portUp p then k.setBport p fun x => { x with switchDue := true } else k

/-- R355, step 4: both ends of port `p` use the latest committed map. -/
def Chip.switchMap (k : Chip) (p : Nat) : Chip :=
  let w := (k.bport p).width
  let was := k.rd (BL_STATUS.WIDTH p)
  let k := (k.setBport p fun x => { x with switchDue := false }).wr (BL_STATUS.WIDTH p) w
  let k := k.emit (.sideband p "SWITCH" w)
  if w != 0 && was == 0 then k.blErr (BL_ERR.HALF p) p 2 9 w else k

/-- What a beat boundary does to port `p`: the commit of a repair, the switch of an earlier one, and a retraining. -/
def Chip.portBoundary (k : Chip) (p : Nat) : Chip :=
  let due := (k.bport p).switchDue
  let k := k.commitSwap p
  let k := if due && k.portUp p then k.switchMap p else k
  if (k.bport p).retrainDue then k.startLink p false else k

/-- R356: a block's clock is lost: the port is to move to half width. -/
def Chip.blockLost (k : Chip) (p dir b : Nat) : Chip :=
  k.setBport p fun x => { x with
    lost := if x.lost.contains (dir, b) then x.lost else x.lost ++ [(dir, b)]
    swapDue := true }

/-- R357: ten milliseconds after its failure a port trains fully again. -/
def Chip.retrainTimer (k : Chip) (p : Nat) : Chip :=
  if (k.bport p).timer && k.rd (BL_STATUS.STATE p) == 4 then k.startLink p false else k

/-- R359: a write of 1 to RETRAIN. -/
def Chip.retrainWrite (k : Chip) (p : Nat) : Chip :=
  if k.portUp (otherPort p) then k.setBport p fun x => { x with retrainDue := true } else k

/-- R358: the clocks of both ports of C-die `d` fall silent. -/
def Chip.clkSilent (k : Chip) (d : Nat) : Chip :=
  ((k.blErr (BL_ERR.CLK_SILENT (2 * d)) (2 * d) 2 9 0).blErr (BL_ERR.CLK_SILENT (2 * d + 1)) (2 * d + 1) 2 9 0).dieLost d 1 k.recovering

/-- R343, R357: a sideband set fails, and the receiver uses the other; without one the port fails. -/
def Chip.setFails (k : Chip) (p set : Nat) : Chip :=
  let k := k.setBport p fun x => { x with setFail := if x.setFail.contains set then x.setFail else set :: x.setFail }
  let k := (k.wr (BL_STATUS.SB_SET p) (1 - set % 2)).blErr (BL_ERR.SB_SET p) p 0 1 set
  if 2 ≤ (k.bport p).setFail.length then k.portFail p else k

/-! ### The commands -/

/-- SB_IDENT (R347, R348). -/
def execSbIdent (port : Nat) (msg : SbIdent) (s : State) : Host.Outcome State Fault Refusal :=
  s.commit (s.chip.sbIdent port msg)

/-- MAP_ANNOUNCE (R351, R352). -/
def execMapAnnounce (port width : Nat) (map : List Nat) (wh : Nat) (s : State) : Host.Outcome State Fault Refusal :=
  s.commit (s.chip.mapAnnounce port width map wh)

/-- MAP_ADOPT (R352). -/
def execMapAdopt (port hash : Nat) (s : State) : Host.Outcome State Fault Refusal := s.commit (s.chip.mapAdopt port hash)

/-- MAP_REJECT (R352). -/
def execMapReject (port : Nat) (wires : List Nat) (s : State) : Host.Outcome State Fault Refusal :=
  s.commit (s.chip.mapReject port wires)

/-- WIRE_REPORT (R349, R355). -/
def execWireReport (port dir wire errs : Nat) (s : State) : Host.Outcome State Fault Refusal :=
  s.commit (s.chip.wireReport port dir wire errs)

/-- TEST_DONE (R349, R350). -/
def execTestDone (port : Nat) (ok : Bool) (s : State) : Host.Outcome State Fault Refusal := s.commit (s.chip.testDone port ok)

/-- CREDIT_INIT (R342, R349). -/
def execCreditInit (port : Nat) (s : State) : Host.Outcome State Fault Refusal := s.commit (s.chip.creditInit port)

/-- SB_MSG_TIMEOUT (R346). -/
def execSbMsgTimeout (port : Nat) (s : State) : Host.Outcome State Fault Refusal := s.commit (s.chip.sbTimeout port)

/-- BILUM_FLIT_RECEIVED (R339, R340). -/
def execBilumFlitReceived (port dir grp : Nat) (crcOk idle : Bool) (cls : Nat) (s : State) :
    Host.Outcome State Fault Refusal :=
  s.commit (s.chip.bilumFlit port dir grp crcOk idle cls)

/-- BILUM_REPLAY_TIMEOUT (R340). -/
def execBilumReplayTimeout (port dir grp : Nat) (s : State) : Host.Outcome State Fault Refusal :=
  s.commit (s.chip.resendGroup port dir grp)

/-- CREDIT_FRAME (R341, R342). -/
def execCreditFrame (port dir word : Nat) (s : State) : Host.Outcome State Fault Refusal :=
  s.commit (s.chip.creditFrame port dir word)

/-- BILUM_RECAL_SLOT (R345, R354). -/
def execBilumRecalSlot (port delay : Nat) (s : State) : Host.Outcome State Fault Refusal :=
  s.commit (if s.chip.portUp port then s.chip.wr (BL_TOKEN.DELAY port) delay else s.chip)

/-- SWAP_LIMIT_REACHED (R355). -/
def execSwapLimitReached (port dir wire : Nat) (s : State) : Host.Outcome State Fault Refusal :=
  s.commit (s.chip.wireFailed port dir wire)

/-- BLOCK_LOST (R356). -/
def execBlockLost (port dir block : Nat) (s : State) : Host.Outcome State Fault Refusal :=
  s.commit (s.chip.blockLost port dir block)

/-- BILUM_PORT_FAIL (R357). -/
def execBilumPortFail (port : Nat) (s : State) : Host.Outcome State Fault Refusal := s.commit (s.chip.portFail port)

/-- BILUM_RETRAIN_TIMER (R357). -/
def execBilumRetrainTimer (port : Nat) (s : State) : Host.Outcome State Fault Refusal := s.commit (s.chip.retrainTimer port)

/-- RETRAIN (R359). -/
def execRetrain (port : Nat) (s : State) : Host.Outcome State Fault Refusal := s.commit (s.chip.retrainWrite port)

/-- CLK_SILENT (R358, R432). -/
def execClkSilent (die : Nat) (s : State) : Host.Outcome State Fault Refusal := s.commit (s.chip.clkSilent die)

/-- SB_SET_FAIL (R343). -/
def execSbSetFail (port set : Nat) (s : State) : Host.Outcome State Fault Refusal := s.commit (s.chip.setFails port set)

end Sys2Proof.Machine
end

