-- ==== Sys2Proof/Machine/Blake3.lean ====
section
/-!
DEFINITION. BLAKE3 in unkeyed hash mode with a 32-byte output (R105).
-/

namespace Sys2Proof.Machine

/-- The initial chaining words, those of SHA-256. -/
def blake3IV : List Nat :=
  [0x6a09e667, 0xbb67ae85, 0x3c6ef372, 0xa54ff53a, 0x510e527f, 0x9b05688c, 0x1f83d9ab, 0x5be0cd19]

/-- The permutation of message words between rounds. -/
def blake3Perm : List Nat := [2, 6, 3, 10, 7, 0, 4, 13, 1, 11, 12, 5, 9, 14, 15, 8]

/-- Rotation right of a 32-bit word. -/
def rotr32 (x n : Nat) : Nat := x / 2 ^ n + x % 2 ^ n * 2 ^ (32 - n)

/-- One quarter round on words a, b, c, d of the state with message words x and y. -/
def blake3G (st : List Nat) (a b c d x y : Nat) : List Nat :=
  let m := 2 ^ 32
  let va := (st.getD a 0 + st.getD b 0 + x) % m
  let vd := rotr32 (st.getD d 0 ^^^ va) 16
  let vc := (st.getD c 0 + vd) % m
  let vb := rotr32 (st.getD b 0 ^^^ vc) 12
  let va := (va + vb + y) % m
  let vd := rotr32 (vd ^^^ va) 8
  let vc := (vc + vd) % m
  let vb := rotr32 (vb ^^^ vc) 7
  (((st.set a va).set b vb).set c vc).set d vd

/-- One round over the sixteen message words. -/
def blake3Round (st ms : List Nat) : List Nat :=
  let g := fun st (q : Nat × Nat × Nat × Nat × Nat) =>
    blake3G st q.1 q.2.1 q.2.2.1 q.2.2.2.1 (ms.getD (2 * q.2.2.2.2) 0) (ms.getD (2 * q.2.2.2.2 + 1) 0)
  [(0, 4, 8, 12, 0), (1, 5, 9, 13, 1), (2, 6, 10, 14, 2), (3, 7, 11, 15, 3),
   (0, 5, 10, 15, 4), (1, 6, 11, 12, 5), (2, 7, 8, 13, 6), (3, 4, 9, 14, 7)].foldl g st

/-- `n` rounds with the message permuted between them. -/
def blake3Rounds : Nat → List Nat → List Nat → List Nat
  | 0, st, _ => st
  | n + 1, st, ms => blake3Rounds n (blake3Round st ms) (blake3Perm.map fun i => ms.getD i 0)

/-- The compression function: the next chaining value. -/
def blake3Compress (cv : List Nat) (block : Bytes) (counter len flags : Nat) : List Nat :=
  let ms := (pieces 4 (padTo block 64)).map ofLe
  let st := cv ++ blake3IV.take 4 ++ [counter % 2 ^ 32, counter / 2 ^ 32 % 2 ^ 32, len, flags]
  let r := blake3Rounds 7 st ms
  List.zipWith (fun x y => x ^^^ y) (r.take 8) (r.drop 8)

/-- What a subtree ends in: the last compression, held back so that the root flag can be added. -/
structure Blake3Node where
  cv : List Nat
  block : Bytes
  counter : Nat
  len : Nat
  flags : Nat

/-- The chaining value of a node, `extra` being the root flag or 0. -/
def Blake3Node.out (n : Blake3Node) (extra : Nat) : List Nat :=
  blake3Compress n.cv n.block n.counter n.len (n.flags + extra)

/-- The blocks of one chunk in turn. -/
def blake3Blocks (counter : Nat) : List Bytes → List Nat → Nat → Blake3Node
  | [], cv, start => { cv := cv, block := [], counter := counter, len := 0, flags := start + 2 }
  | [b], cv, start => { cv := cv, block := b, counter := counter, len := b.length, flags := start + 2 }
  | b :: bs, cv, start => blake3Blocks counter bs (blake3Compress cv b counter b.length start) 0

/-- The node of one chunk of at most 1,024 bytes. -/
def blake3Chunk (counter : Nat) (c : Bytes) : Blake3Node := blake3Blocks counter (pieces 64 c) blake3IV 1

/-- The parent of two chaining values. -/
def blake3Parent (l r : List Nat) : Blake3Node :=
  { cv := blake3IV, block := (l ++ r).flatMap fun w => leBytes w 4, counter := 0, len := 64, flags := 4 }

/-- The largest power of two below `n`, by doubling. -/
def blake3Split : Nat → Nat → Nat → Nat
  | 0, p, _ => p
  | fuel + 1, p, n => if p * 2 < n then blake3Split fuel (p * 2) n else p

/-- The tree over the chunks from number `base`; the left subtree is the largest complete one. -/
def blake3Tree : Nat → Nat → List Bytes → Blake3Node
  | 0, base, cs => blake3Chunk base (cs.headD [])
  | fuel + 1, base, cs =>
    match cs with
    | [] => blake3Chunk base []
    | [c] => blake3Chunk base c
    | _ =>
      let k := blake3Split 64 1 cs.length
      blake3Parent ((blake3Tree fuel base (cs.take k)).out 0) ((blake3Tree fuel (base + k) (cs.drop k)).out 0)

/-- BLAKE3, unkeyed, 32 bytes. -/
def blake3 (m : Bytes) : Bytes :=
  ((blake3Tree 64 0 (pieces 1024 m)).out 8).flatMap fun w => leBytes w 4

end Sys2Proof.Machine
end

