-- ==== Sys2Proof/Machine/Aes.lean ====
section
/-!
DEFINITION. AES-256 (FIPS 197), its GCM mode with a 128-bit IV (NIST SP 800-38D, R113) and its XTS mode over data units
of whole blocks (IEEE 1619, R115), and the derived tag key of R121.
-/

namespace Sys2Proof.Machine

/-- The product in the field of AES, modulo x^8 + x^4 + x^3 + x + 1. -/
def aesMul (a b : Nat) : Nat := polyMulMod 0x11B 8 8 a b 0

/-- The squarings and products of an inversion. -/
def aesPow : Nat → Nat → Nat → Nat
  | 0, _, acc => acc
  | n + 1, sq, acc =>
    let s := aesMul sq sq
    aesPow n s (aesMul acc s)

/-- The substitution of one byte: the inverse and the affine map of FIPS 197. -/
def aesSub (x : Nat) : Nat :=
  let i := if x == 0 then 0 else aesPow 7 x 1
  let r := fun n => (i * 2 ^ n) % 256 + i / 2 ^ (8 - n)
  i ^^^ r 1 ^^^ r 2 ^^^ r 3 ^^^ r 4 ^^^ 0x63

/-- The substitution box. -/
def aesBox : Array Nat := ((List.range 256).map aesSub).toArray

/-- The inverse substitution box. -/
def aesInvBox : Array Nat := ((List.range 256).map fun y => aesBox.toList.findIdx (· == y)).toArray

/-- The round constants of the key schedule. -/
def aesRcon : List Nat := [1, 2, 4, 8, 16, 32, 64]

/-- The key schedule of AES-256: 60 words of 4 bytes, newest first. -/
def aesExpand : Nat → Nat → List (List Nat) → List (List Nat)
  | 0, _, ws => ws
  | fuel + 1, i, ws =>
    let t := ws.headD []
    let sub := t.map fun b => aesBox.getD b 0
    let t' :=
      if i % 8 == 0 then
        let r := sub.drop 1 ++ sub.take 1
        (r.headD 0 ^^^ aesRcon.getD (i / 8 - 1) 0) :: r.drop 1
      else if i % 8 == 4 then sub else t
    aesExpand fuel (i + 1) (List.zipWith (fun x y => x ^^^ y) (ws.getD 7 []) t' :: ws)

/-- The round keys of AES-256, each 16 bytes. -/
def aesKeys (key : Bytes) : List (List Nat) :=
  let w0 := (pieces 4 (padTo key 32)).map fun w => w.map BitVec.toNat
  let ws := (aesExpand 52 8 w0.reverse).reverse
  (List.range 15).map fun r => (ws.drop (4 * r)).take 4 |>.flatten

/-- Exclusive or of two rows of numbers. -/
def xorNats (a b : List Nat) : List Nat := List.zipWith (fun x y => x ^^^ y) a b

/-- The row shift, the state being in column order. -/
def aesShift (s : List Nat) : List Nat := (List.range 16).map fun i => s.getD ((i + 4 * (i % 4)) % 16) 0

/-- The inverse row shift. -/
def aesUnshift (s : List Nat) : List Nat := (List.range 16).map fun i => s.getD ((i + 12 * (i % 4)) % 16) 0

/-- The column mix with the four coefficients of its first row. -/
def aesMix (co : List Nat) (s : List Nat) : List Nat :=
  (List.range 16).map fun i =>
    let col := (s.drop (i / 4 * 4)).take 4
    let r := i % 4
    (List.range 4).foldl (fun a j => a ^^^ aesMul (co.getD ((j + 4 - r) % 4) 0) (col.getD j 0)) 0

/-- AES-256 encryption of one block under expanded keys. -/
def aesEncK (ks : List (List Nat)) (blk : Bytes) : Bytes :=
  let s0 := xorNats (blk.map BitVec.toNat) (ks.headD [])
  let mid := ((ks.drop 1).take 13).foldl
    (fun s k => xorNats (aesMix [2, 3, 1, 1] (aesShift (s.map fun b => aesBox.getD b 0))) k) s0
  (xorNats (aesShift (mid.map fun b => aesBox.getD b 0)) (ks.getD 14 [])).map (BitVec.ofNat 8)

/-- AES-256 decryption of one block under expanded keys. -/
def aesDecK (ks : List (List Nat)) (blk : Bytes) : Bytes :=
  let s0 := (aesUnshift (xorNats (blk.map BitVec.toNat) (ks.getD 14 []))).map fun b => aesInvBox.getD b 0
  let mid := (((ks.drop 1).take 13).reverse).foldl
    (fun s k => (aesUnshift (aesMix [14, 11, 13, 9] (xorNats s k))).map fun b => aesInvBox.getD b 0) s0
  (xorNats mid (ks.headD [])).map (BitVec.ofNat 8)

/-- AES-256 encryption of one block. -/
def aesEnc (key blk : Bytes) : Bytes := aesEncK (aesKeys key) blk

/-- The product in the field of GCM: blocks as big-endian numbers whose most significant bit is the coefficient of 1. -/
def ghashMul : Nat → Nat → Nat → Nat → Nat
  | 0, _, _, z => z
  | n + 1, x, v, z =>
    let z' := if x / 2 ^ n % 2 == 1 then z ^^^ v else z
    let v' := if v % 2 == 1 then v / 2 ^^^ (0xE1 * 2 ^ 120) else v / 2
    ghashMul n x v' z'

/-- GHASH of a string of whole blocks under the hash key. -/
def ghash (h : Nat) (bs : Bytes) : Nat :=
  (pieces 16 bs).foldl (fun y b => ghashMul 128 (y ^^^ ofBe b) h 0) 0

/-- The first counter block for a 128-bit IV (SP 800-38D, R113). -/
def gcmJ0 (h : Nat) (iv : Bytes) : Nat :=
  ghash h (padMul iv 16 ++ zeros 8 ++ beBytes (iv.length * 8) 8)

/-- The block counter advanced by `n`: only its low 32 bits count. -/
def gcmInc (j n : Nat) : Nat := j / 2 ^ 32 * 2 ^ 32 + (j + n) % 2 ^ 32

/-- The key stream of GCM over `m`, the first block using counter J0 + 1. -/
def gcmCrypt (ks : List (List Nat)) (j0 : Nat) (m : Bytes) : Bytes :=
  let bl := pieces 16 m
  (bl.zipIdx.map fun (b, i) => (xorBytes b ((aesEncK ks (beBytes (gcmInc j0 (i + 1)) 16)).take b.length))).flatten

/-- The tag over the additional data and the ciphertext. -/
def gcmTag (ks : List (List Nat)) (h j0 : Nat) (aad c : Bytes) : Bytes :=
  let s := ghash h (padMul aad 16 ++ padMul c 16 ++ beBytes (aad.length * 8) 8 ++ beBytes (c.length * 8) 8)
  xorBytes (beBytes s 16) (aesEncK ks (beBytes j0 16))

/-- AES-256-GCM with a 128-bit IV: the ciphertext and the 16-byte tag (R113). -/
def gcmSeal (key iv aad m : Bytes) : Bytes × Bytes :=
  let ks := aesKeys key
  let h := ofBe (aesEncK ks (zeros 16))
  let j0 := gcmJ0 h iv
  let c := gcmCrypt ks j0 m
  (c, gcmTag ks h j0 aad c)

/-- The opposite direction: the plaintext, and the tag that the ciphertext should carry. -/
def gcmOpen (key iv aad c : Bytes) : Bytes × Bytes :=
  let ks := aesKeys key
  let h := ofBe (aesEncK ks (zeros 16))
  let j0 := gcmJ0 h iv
  (gcmCrypt ks j0 c, gcmTag ks h j0 aad c)

/-- The tweak multiplied by x in the field of XTS, the tweak as a little-endian number. -/
def xtsNext (t : Nat) : Nat :=
  let d := t * 2
  if d / 2 ^ 128 % 2 == 1 then (d % 2 ^ 128) ^^^ 0x87 else d

/-- The blocks of one data unit in turn. -/
def xtsBlocks (f : Bytes → Bytes) : List Bytes → Nat → Bytes
  | [], _ => []
  | b :: bs, t =>
    let tw := leBytes t 16
    xorBytes (f (xorBytes b tw)) tw ++ xtsBlocks f bs (xtsNext t)

/-- AES-256-XTS of one data unit of whole blocks: the 64-byte key, the 16-byte tweak value (R115). -/
def xtsEnc (key tweak unit : Bytes) : Bytes :=
  let t := ofLe (aesEnc (key.drop 32) tweak)
  xtsBlocks (aesEncK (aesKeys (key.take 32))) (pieces 16 unit) t

/-- The inverse of `xtsEnc`. -/
def xtsDec (key tweak unit : Bytes) : Bytes :=
  let t := ofLe (aesEnc (key.drop 32) tweak)
  xtsBlocks (aesDecK (aesKeys (key.take 32))) (pieces 16 unit) t

/-- The tag key of R121, from the first 256 bits of the slot's key. -/
def tagKey (key : Bytes) : Bytes :=
  let c := [0x51, 0x46, 0x2D, 0x53, 0x45, 0x41, 0x4C, 0x2D, 0x54, 0x41, 0x47, 0, 0, 0, 0]
  aesEnc (key.take 32) (c ++ [1]) ++ aesEnc (key.take 32) (c ++ [2])

end Sys2Proof.Machine
end

