-- ==== Sys2Proof/Machine/Sha.lean ====
section
/-!
DEFINITION. SHA-256 and SHA-384 (FIPS 180-4) and HMAC over them, as R105, R121 and R123 use them.
-/

namespace Sys2Proof.Machine

/-- The 64 round constants of SHA-512 that FIPS 180-4 gives, the first 64; SHA-256 uses their upper halves. -/
def shaK : List Nat := [
  0x428a2f98d728ae22, 0x7137449123ef65cd, 0xb5c0fbcfec4d3b2f, 0xe9b5dba58189dbbc,
  0x3956c25bf348b538, 0x59f111f1b605d019, 0x923f82a4af194f9b, 0xab1c5ed5da6d8118,
  0xd807aa98a3030242, 0x12835b0145706fbe, 0x243185be4ee4b28c, 0x550c7dc3d5ffb4e2,
  0x72be5d74f27b896f, 0x80deb1fe3b1696b1, 0x9bdc06a725c71235, 0xc19bf174cf692694,
  0xe49b69c19ef14ad2, 0xefbe4786384f25e3, 0x0fc19dc68b8cd5b5, 0x240ca1cc77ac9c65,
  0x2de92c6f592b0275, 0x4a7484aa6ea6e483, 0x5cb0a9dcbd41fbd4, 0x76f988da831153b5,
  0x983e5152ee66dfab, 0xa831c66d2db43210, 0xb00327c898fb213f, 0xbf597fc7beef0ee4,
  0xc6e00bf33da88fc2, 0xd5a79147930aa725, 0x06ca6351e003826f, 0x142929670a0e6e70,
  0x27b70a8546d22ffc, 0x2e1b21385c26c926, 0x4d2c6dfc5ac42aed, 0x53380d139d95b3df,
  0x650a73548baf63de, 0x766a0abb3c77b2a8, 0x81c2c92e47edaee6, 0x92722c851482353b] ++ [
  0xa2bfe8a14cf10364, 0xa81a664bbc423001, 0xc24b8b70d0f89791, 0xc76c51a30654be30,
  0xd192e819d6ef5218, 0xd69906245565a910, 0xf40e35855771202a, 0x106aa07032bbd1b8,
  0x19a4c116b8d2d0c8, 0x1e376c085141ab53, 0x2748774cdf8eeb99, 0x34b0bcb5e19b48a8,
  0x391c0cb3c5c95a63, 0x4ed8aa4ae3418acb, 0x5b9cca4f7763e373, 0x682e6ff3d6b2b8a3,
  0x748f82ee5defb2fc, 0x78a5636f43172f60, 0x84c87814a1f0ab72, 0x8cc702081a6439ec,
  0x90befffa23631e28, 0xa4506cebde82bde9, 0xbef9a3f7b2c67915, 0xc67178f2e372532b,
  0xca273eceea26619c, 0xd186b8c721c0c207, 0xeada7dd6cde0eb1e, 0xf57d4f7fee6ed178,
  0x06f067aa72176fba, 0x0a637dc5a2c898a6, 0x113f9804bef90dae, 0x1b710b35131c471b,
  0x28db77f523047d84, 0x32caab7b40c72493, 0x3c9ebe0a15c9bebc, 0x431d67c49c100d4c,
  0x4cc5d4becb3e42b6, 0x597f299cfc657e2a, 0x5fcb6fab3ad6faec, 0x6c44198c4a475817]

/-- The parameters in which the two SHA-2 word sizes differ. -/
structure Sha2 where
  w : Nat
  rounds : Nat
  s0 : Nat × Nat × Nat
  s1 : Nat × Nat × Nat
  e0 : Nat × Nat × Nat
  e1 : Nat × Nat × Nat
  init : List Nat
  out : Nat

/-- SHA-256. -/
def sha256Spec : Sha2 where
  w := 32
  rounds := 64
  s0 := (7, 18, 3)
  s1 := (17, 19, 10)
  e0 := (2, 13, 22)
  e1 := (6, 11, 25)
  init := [0x6a09e667, 0xbb67ae85, 0x3c6ef372, 0xa54ff53a, 0x510e527f, 0x9b05688c, 0x1f83d9ab, 0x5be0cd19]
  out := 32

/-- SHA-384. -/
def sha384Spec : Sha2 where
  w := 64
  rounds := 80
  s0 := (1, 8, 7)
  s1 := (19, 61, 6)
  e0 := (28, 34, 39)
  e1 := (14, 18, 41)
  init := [0xcbbb9d5dc1059ed8, 0x629a292a367cd507, 0x9159015a3070dd17, 0x152fecd8f70e5939,
    0x67332667ffc00b31, 0x8eb44a8768581511, 0xdb0c2e0d64f98fa7, 0x47b5481dbefa4fa4]
  out := 48

/-- Rotation right of a `w`-bit word. -/
def rotr (w x n : Nat) : Nat := x / 2 ^ n + x % 2 ^ n * 2 ^ (w - n)

/-- The round constants of the word size. -/
def Sha2.consts (a : Sha2) : List Nat := if a.w == 32 then shaK.take 64 |>.map (· / 2 ^ 32) else shaK

/-- The message schedule, newest word first; `fuel` words are still to be made. -/
def Sha2.extend (a : Sha2) : Nat → List Nat → List Nat
  | 0, ws => ws
  | fuel + 1, ws =>
    let x := ws.getD 14 0
    let y := ws.getD 1 0
    let g0 := rotr a.w x a.s0.1 ^^^ rotr a.w x a.s0.2.1 ^^^ x / 2 ^ a.s0.2.2
    let g1 := rotr a.w y a.s1.1 ^^^ rotr a.w y a.s1.2.1 ^^^ y / 2 ^ a.s1.2.2
    Sha2.extend a fuel (((g1 + ws.getD 6 0 + g0 + ws.getD 15 0) % 2 ^ a.w) :: ws)

/-- The working variables of the compression function. -/
structure ShaVars where
  a : Nat
  b : Nat
  c : Nat
  d : Nat
  e : Nat
  f : Nat
  g : Nat
  h : Nat

/-- One round. -/
def Sha2.round (p : Sha2) (v : ShaVars) (kw : Nat × Nat) : ShaVars :=
  let m := 2 ^ p.w
  let e1 := rotr p.w v.e p.e1.1 ^^^ rotr p.w v.e p.e1.2.1 ^^^ rotr p.w v.e p.e1.2.2
  let ch := (v.e &&& v.f) ^^^ ((m - 1 - v.e) &&& v.g)
  let t1 := v.h + e1 + ch + kw.1 + kw.2
  let e0 := rotr p.w v.a p.e0.1 ^^^ rotr p.w v.a p.e0.2.1 ^^^ rotr p.w v.a p.e0.2.2
  let maj := (v.a &&& v.b) ^^^ (v.a &&& v.c) ^^^ (v.b &&& v.c)
  ⟨(t1 + e0 + maj) % m, v.a, v.b, v.c, (v.d + t1) % m, v.e, v.f, v.g⟩

/-- One block: the chaining value and 16 words give the next chaining value. -/
def Sha2.block (p : Sha2) (hv : List Nat) (ws : List Nat) : List Nat :=
  let sched := (p.extend (p.rounds - 16) ws.reverse).reverse
  let v0 : ShaVars := ⟨hv.getD 0 0, hv.getD 1 0, hv.getD 2 0, hv.getD 3 0,
    hv.getD 4 0, hv.getD 5 0, hv.getD 6 0, hv.getD 7 0⟩
  let v := (p.consts.zip sched).foldl p.round v0
  List.zipWith (fun x y => (x + y) % 2 ^ p.w) hv [v.a, v.b, v.c, v.d, v.e, v.f, v.g, v.h]

/-- The message padded to whole blocks. -/
def Sha2.pad (p : Sha2) (m : Bytes) : Bytes :=
  let blk := p.w * 2
  let lenb := p.w / 4
  let z := (2 * blk - 1 - lenb - m.length % blk) % blk
  m ++ [0x80] ++ zeros z ++ beBytes (m.length * 8) lenb

/-- The digest. -/
def Sha2.hash (p : Sha2) (m : Bytes) : Bytes :=
  let step := fun hv blk => p.block hv ((pieces (p.w / 8) blk).map ofBe)
  let hv := (pieces (p.w * 2) (p.pad m)).foldl step p.init
  (hv.flatMap fun x => beBytes x (p.w / 8)).take p.out

/-- SHA-256 (FIPS 180-4). -/
def sha256 (m : Bytes) : Bytes := sha256Spec.hash m

/-- SHA-384 (FIPS 180-4). -/
def sha384 (m : Bytes) : Bytes := sha384Spec.hash m

/-- HMAC over one of the two hashes. -/
def Sha2.hmac (p : Sha2) (key m : Bytes) : Bytes :=
  let blk := p.w * 2
  let k := padTo (if key.length > blk then p.hash key else key) blk
  let ix := k.map (· ^^^ 0x36)
  let ox := k.map (· ^^^ 0x5c)
  p.hash (ox ++ p.hash (ix ++ m))

/-- HMAC-SHA-256 (R121). -/
def hmacSha256 (key m : Bytes) : Bytes := sha256Spec.hmac key m

/-- HMAC-SHA-384, for the deterministic signature nonce (R458). -/
def hmacSha384 (key m : Bytes) : Bytes := sha384Spec.hmac key m

end Sys2Proof.Machine
end

