-- ==== Sys2Proof/Machine/Ecdsa.lean ====
section
/-!
DEFINITION. ECDSA on P-384 with SHA-384 (FIPS 186-5, R123) with the deterministic nonce of RFC 6979 (R458), as the
signing service and Flacon use it.
-/

namespace Sys2Proof.Machine

/-- The field prime of P-384. -/
def p384P : Nat := 2 ^ 384 - 2 ^ 128 - 2 ^ 96 + 2 ^ 32 - 1

/-- The group order of P-384. -/
def p384N : Nat :=
  0xffffffffffffffffffffffffffffffffffffffffffffffffc7634d81f4372ddf581a0db248b0a77aecec196accc52973

/-- The generator of P-384. -/
def p384G : Nat × Nat :=
  (0xaa87ca22be8b05378eb1c71ef320ad746e1d3b628ba79b9859f741e082542a385502f25dbf55296c3a545e3872760ab7,
   0x3617de4a96262c6f5d9e98bf9292dc29f8f41dbd289a147ce9da3113b5f0b8c00a60b1ce1d7e819d7a431d7c90ea0e5f)

/-- `b ^ e mod m` over the `n` low bits of `e`. -/
def powModBits : Nat → Nat → Nat → Nat → Nat → Nat
  | 0, _, _, _, acc => acc
  | n + 1, b, e, m, acc => powModBits n (b * b % m) (e / 2) m (if e % 2 == 1 then acc * b % m else acc)

/-- The inverse modulo an odd prime of 384 bits. -/
def invMod (a m : Nat) : Nat := powModBits 384 (a % m) (m - 2) m 1

/-- A point in Jacobian coordinates; z = 0 is the point at infinity. -/
structure JPoint where
  x : Nat
  y : Nat
  z : Nat

/-- Subtraction modulo the field prime. -/
def subP (a b : Nat) : Nat := (a + p384P - b % p384P) % p384P

/-- Twice a point. -/
def JPoint.dbl (a : JPoint) : JPoint :=
  let p := p384P
  let yy := a.y * a.y % p
  let s := 4 * a.x * yy % p
  let zz := a.z * a.z % p
  let m := 3 * (subP a.x zz) * ((a.x + zz) % p) % p
  let x := subP (m * m) (2 * s)
  ⟨x, subP (m * subP s x) (8 * yy * yy), 2 * a.y * a.z % p⟩

/-- The sum of a point and an affine point. -/
def JPoint.add (a : JPoint) (q : Nat × Nat) : JPoint :=
  if a.z == 0 then ⟨q.1, q.2, 1⟩ else
  let p := p384P
  let zz := a.z * a.z % p
  let u := q.1 * zz % p
  let s := q.2 * zz * a.z % p
  let h := subP u a.x
  let r := subP s a.y
  if h == 0 then (if r == 0 then a.dbl else ⟨1, 1, 0⟩) else
  let hh := h * h % p
  let hhh := h * hh % p
  let v := a.x * hh % p
  let x := subP (subP (r * r) hhh) (2 * v)
  ⟨x, subP (r * subP v x) (a.y * hhh), a.z * h % p⟩

/-- `k` times an affine point, from the top one of `n` bits. -/
def p384MulBits : Nat → Nat → Nat × Nat → JPoint → JPoint
  | 0, _, _, acc => acc
  | n + 1, k, q, acc =>
    let d := acc.dbl
    p384MulBits n k q (if k / 2 ^ n % 2 == 1 then d.add q else d)

/-- The affine coordinates of `k` times the generator. -/
def p384Mul (k : Nat) : Nat × Nat :=
  let j := p384MulBits 384 k p384G ⟨1, 1, 0⟩
  let zi := invMod j.z p384P
  (j.x * zi * zi % p384P, j.y * zi * zi * zi % p384P)

/-- The public key of a scalar in SEC1 uncompressed form: 0x04, X, Y. -/
def p384Pub (d : Nat) : Bytes :=
  let q := p384Mul d
  4 :: (beBytes q.1 48 ++ beBytes q.2 48)

/-- The nonce candidates of RFC 6979, section 3.2: the first in 1 to n − 1. -/
def rfc6979Loop : Nat → Bytes → Bytes → Nat
  | 0, _, v => ofBe v
  | fuel + 1, k, v =>
    let v1 := hmacSha384 k v
    let c := ofBe v1
    if 1 ≤ c ∧ c < p384N then c
    else
      let k1 := hmacSha384 k (v1 ++ [0])
      rfc6979Loop fuel k1 (hmacSha384 k1 v1)

/-- The deterministic nonce for a scalar and a digest (RFC 6979). -/
def rfc6979 (d : Nat) (digest : Bytes) : Nat :=
  let x := beBytes d 48 ++ beBytes (ofBe digest % p384N) 48
  let k0 := zeros 48
  let v0 : Bytes := List.replicate 48 1
  let k1 := hmacSha384 k0 (v0 ++ [0] ++ x)
  let v1 := hmacSha384 k1 v0
  let k2 := hmacSha384 k1 (v1 ++ [1] ++ x)
  rfc6979Loop 16 k2 (hmacSha384 k2 v1)

/-- The signature over a message with nonce `k`: r then s, 48 bytes each, big-endian (R123, R530). -/
def p384SignWith (d k : Nat) (msg : Bytes) : Bytes :=
  let h := sha384 msg
  let r := (p384Mul k).1 % p384N
  let s := invMod k p384N * ((ofBe h + r * d) % p384N) % p384N
  beBytes r 48 ++ beBytes s 48

/-- The deterministic signature over a message (R123, R125). -/
def p384Sign (d : Nat) (msg : Bytes) : Bytes := p384SignWith d (rfc6979 d (sha384 msg)) msg

end Sys2Proof.Machine
end

