-- ==== Sys2Proof/Machine/Parity.lean ====
section
/-!
DEFINITION. The erasure codes (05): coefficients, folding, encoding, and the choice and solution of the equations of a
rebuild (R130 to R135, R148, R150).
-/

namespace Sys2Proof.Machine

/-! ### Coefficients (R133, R134) -/

/-- R133: c(i, j). -/
def globalCoef (field m i j : Nat) : Nat := gfInv field (i ^^^ (m + j))

/-- R134: the coefficient of local parity i at position t of its group: 1 in the XOR row, d(i, t) below it. -/
def localCoef (field i t : Nat) : Nat := if i == 0 then 1 else gfInv field (i ^^^ (4 + t))

/-- The coefficient of data fragment `j` in parity row `r` of a stripe: rows 0 to m − 1 are the global parities, then
the L local parities of each group (R119). -/
def Code.coef (c : Code) (field r j : Nat) : Nat :=
  if r < c.m then globalCoef field c.m r j
  else
    let g := (r - c.m) / max 1 c.l
    if j / max 1 c.group == g then localCoef field ((r - c.m) % max 1 c.l) (j % max 1 c.group) else 0

/-! ### Symbols (R131, R132) -/

/-- Every symbol of `bs` times `a`. -/
def mulBytes (field a : Nat) : Bytes → Bytes
  | [] => []
  | x :: xs =>
    if field == 0 then BitVec.ofNat 8 (gfMul 0 a x.toNat) :: mulBytes field a xs
    else match xs with
      | [] => leBytes (gfMul 1 a x.toNat) 1
      | y :: ys =>
        let p := gfMul 1 a (x.toNat + 256 * y.toNat)
        BitVec.ofNat 8 p :: BitVec.ofNat 8 (p / 256) :: mulBytes field a ys

/-- `row` with `a` times the bytes `bs` at offset `off` added (R140): bytes outside add nothing. -/
def addAt (field a : Nat) (row : Bytes) (off : Nat) (bs : Bytes) : Bytes :=
  if a == 0 then row else
  let o := off / 2 * 2
  let seg := zeros (off - o) ++ bs
  let seg := seg ++ zeros (seg.length % 2)
  row.take o ++ ((xorBytes (mulBytes field a seg) (slice row o seg.length)) ++ row.drop (o + seg.length))

/-- R140: the accumulators with data bytes `bs` of column `j` at payload offset `off` folded in. -/
def Code.fold (c : Code) (field : Nat) (acc : List Bytes) (j off : Nat) (bs : Bytes) : List Bytes :=
  acc.zipIdx.map fun r => addAt field (c.coef field r.2 j) r.1 off bs

/-- R133 to R135: the parity payloads of a stripe with the data payloads `ds`. -/
def Code.encode (c : Code) (field : Nat) (ds : List Bytes) : List Bytes :=
  ds.zipIdx.foldl (fun acc d => c.fold field acc d.2 0 d.1) (List.replicate (c.parities ds.length) (zeros c.f))

/-! ### Choosing the equations (R148) -/

/-- A row of coefficients reduced by the pivot rows kept so far: each a pivot column and a row that is 1 there. -/
def reduceRow (field : Nat) (pivots : List (Nat × List Nat)) (row : List Nat) : List Nat :=
  pivots.foldl (fun r p =>
    let a := r.getD p.1 0
    if a == 0 then r else List.zipWith (fun x y => x ^^^ gfMul field a y) r p.2) row

/-- A row that raises the rank, made 1 at its first non-zero column. -/
def newPivot (field : Nat) (pivots : List (Nat × List Nat)) (row : List Nat) : Option (Nat × List Nat) :=
  let r := reduceRow field pivots row
  match r.findIdx? (· != 0) with
  | none => none
  | some i => some (i, r.map fun x => gfMul field (gfInv field (r.getD i 0)) x)

/-- R148: the rows kept, in order: a row only when it raises the rank over the erased columns `ed`. -/
def Code.keepRows (c : Code) (field : Nat) (ed rows : List Nat) : List Nat :=
  (rows.foldl (fun (s : List Nat × List (Nat × List Nat)) r =>
    if s.1.length == ed.length then s else
    match newPivot field s.2 (ed.map (c.coef field r)) with
    | some p => (s.1 ++ [r], s.2 ++ [p])
    | none => s) ([], [])).1

/-- One solved system of a plan: its rows and its unknown data fragments (R148). -/
structure System where
  rows : List Nat
  unknowns : List Nat
  deriving DecidableEq, Repr

/-- The parity rows of local group `g`. -/
def Code.localRows (c : Code) (g : Nat) : List Nat := (List.range c.l).map fun i => c.m + g * c.l + i

/-- R148: the plan for the erased fragments `erased` of a stripe with `kk` data fragments; none is UNRECOVERABLE. -/
def Code.plan (c : Code) (field kk : Nat) (erased : List Nat) : Option (List System) :=
  let ed := (List.range kk).filter erased.contains
  let usable := fun rows : List Nat => rows.filter fun r => !erased.contains (kk + r)
  let pass1 := (List.range (c.groups kk)).filterMap fun g =>
    let eg := ed.filter fun j => j / max 1 c.group == g
    let rows := c.keepRows field eg (usable (c.localRows g))
    if eg.isEmpty || rows.length != eg.length then none else some { rows := rows, unknowns := eg : System }
  let left := ed.filter fun j => !(pass1.any fun s => s.unknowns.contains j)
  if left.isEmpty then some pass1
  else if 64 < left.length then none
  else
    let groups := (List.range (c.groups kk)).filter fun g => left.any fun j => j / max 1 c.group == g
    let rows := c.keepRows field left (usable (List.range c.m ++ groups.flatMap c.localRows))
    if rows.length == left.length then some (pass1 ++ [{ rows := rows, unknowns := left }]) else none

/-- The data fragments that parity row `r` covers in a stripe with `kk` data fragments (R148). -/
def Code.support (c : Code) (kk r : Nat) : List Nat :=
  if r < c.m then List.range kk
  else (List.range kk).filter fun j => j / max 1 c.group == (r - c.m) / max 1 c.l

/-- The fragments that a system reads: the data its rows cover that it does not solve for, and its parities. -/
def System.reads (c : Code) (kk : Nat) (s : System) : List Nat :=
  ((List.range kk).filter fun j => !s.unknowns.contains j && s.rows.any fun r => (c.support kk r).contains j) ++
  s.rows.map (kk + ·)

/-! ### Solving (R148, R149) -/

/-- One step of Gauss–Jordan elimination on rows of coefficients with their right-hand sides. -/
def eliminate (field i : Nat) (rows : List (List Nat × Bytes)) : List (List Nat × Bytes) :=
  match rows.zipIdx.find? fun r => i ≤ r.2 && r.1.1.getD i 0 != 0 with
  | none => rows
  | some p =>
    let inv := gfInv field (p.1.1.getD i 0)
    let piv : List Nat × Bytes := (p.1.1.map (gfMul field inv), mulBytes field inv p.1.2)
    let rows := (rows.set p.2 (rows.getD i ([], []))).set i piv
    rows.zipIdx.map fun r =>
      let a := r.1.1.getD i 0
      if r.2 == i || a == 0 then r.1
      else (List.zipWith (fun x y => x ^^^ gfMul field a y) r.1.1 piv.1, xorBytes r.1.2 (mulBytes field a piv.2))

/-- R148: the unknowns of a system from the bytes of the fragments it reads, at the same payload offset. -/
def System.solve (c : Code) (field kk : Nat) (s : System) (get : Nat → Bytes) : List Bytes :=
  let rows := s.rows.map fun r =>
    let rhs := ((c.support kk r).filter fun j => !s.unknowns.contains j).foldl
      (fun b j => xorBytes b (mulBytes field (c.coef field r j) (get j))) (get (kk + r))
    (s.unknowns.map (c.coef field r), rhs)
  ((List.range s.unknowns.length).foldl (fun rs i => eliminate field i rs) rows).map (·.2)

/-- R148: the system of a plan that solves data fragment `x`. -/
def solverOf (plan : List System) (x : Nat) : Option System := plan.find? fun z => z.unknowns.contains x

/-- R148: the stored fragments from which a system of `plan` is solved: a group that pass 1 has solved stands for what that
pass reads. -/
def System.sources (c : Code) (kk : Nat) (plan : List System) (s : System) : List Nat :=
  ((s.reads c kk).flatMap fun x => match solverOf plan x with
    | some z => z.reads c kk
    | none => [x]).eraseDups

/-- R148: the unknowns of a system of `plan` from the bytes of its sources. -/
def System.solveIn (c : Code) (field kk : Nat) (plan : List System) (s : System) (get : Nat → Bytes) : List Bytes :=
  s.solve c field kk fun x => match solverOf plan x with
    | some z => (z.solve c field kk get).getD (z.unknowns.findIdx (· == x)) []
    | none => get x

end Sys2Proof.Machine
end

