-- ==== Sys2Proof/Machine/EngineOps.lean ====
section
/-!
DEFINITION. What the engine's stages share (04 to 06): the run of a segment, its reads and writes with the job status
each failure gives (R83, R101, R160, R575), fragment headers (R120, R121), and the layer that lays a sealed stream into
fragments (R115, R118, R119, R122, R140, R141).
-/

namespace Sys2Proof.Machine

/-- What stays the same while an engine runs a segment: the job, the segment's number and size, the answers of host
memory in hand, the device under which the job acts, and the key it is bound to. -/
structure Ctx where
  job : Nat
  d : Desc
  p : Bytes
  number : Nat
  size : Nat
  rs : List HostRead
  dev : Nat
  key : KeySlot
  deriving DecidableEq, Repr

/-- A segment as it runs: the block, the checkpoint it works towards, the accumulate items it sends, its job status if
it met one, the data bytes read and written so far (R157), the fragments whose header it wrote, and the decoder's tables
and the number of blocks decoded in this segment (R112), the placement list, and the plans made (R149). -/
structure Run where
  k : Chip
  ck : Ck
  items : List OutItem := []
  st : Option (Nat × Nat) := none
  read : Nat := 0
  wrote : Nat := 0
  frags : List (Nat × Nat × Nat) := []
  tables : ZTables := {}
  blocks : Nat := 0
  places : Bytes := []
  plans : Nat := 0
  deriving DecidableEq, Repr

/-- The run stopped with a job status; the first one met stands (R82). -/
def Run.stop (r : Run) (status detail : Nat) : Run := match r.st with
  | none => { r with st := some (status, detail) }
  | some _ => r

/-- Whether the run has met a job status. -/
def Run.done (r : Run) : Bool := r.st.isSome

/-- A read by the segment in memory area `area` (R575): the bytes, or the run stopped with the status of R83, R160 or
R217. -/
def Run.fetch (r : Run) (c : Ctx) (iova n area : Nat) : Run × Bytes :=
  if r.done then (r, []) else
  match r.k.dmaRead c.rs c.dev iova n with
  | .bytes b => (r, b)
  | .fault cause => ({ r with k := r.k.iommuFault cause c.dev iova }.stop 6 area, [])
  | .poison => (r.stop 8 (c.number % 65536), [])
  | .timeout => (r.stop 7 (c.number % 65536), [])

/-- A write by the segment in memory area `area`: IOMMU_FAULT where it faults, or where a remote write has no route
(R191, R575). -/
def Run.put (r : Run) (c : Ctx) (iova : Nat) (bs : Bytes) (area : Nat) : Run :=
  if r.done || bs.isEmpty then r else
  let (k, ok) := r.k.dmaWrite c.dev iova bs false (some c.job)
  let r := { r with k := k }
  if ok then r else r.stop 6 area

/-- R101: a write of `n` bytes at offset `off` of an area of `limit` bytes stops the job where it would pass the end. -/
def Run.within (r : Run) (c : Ctx) (off n limit : Nat) : Run :=
  if off + n ≤ limit then r else r.stop 9 (c.number % 65536)

/-- A write of output at offset `off` of DST, counted in OUT_LEN (R82, R101). -/
def Run.output (r : Run) (c : Ctx) (off : Nat) (bs : Bytes) : Run :=
  let r := r.within c off bs.length c.d.dstLimit
  if r.done then r else
  let r := r.put c (c.d.dst + off) bs 1
  if r.done then r else { r with ck := { r.ck with outLen := r.ck.outLen + bs.length } }

/-! ### Fragment headers (R120, R121) -/

/-- The fields of a fragment header that are not computed from the payload. -/
structure Header where
  flags : Nat
  index : Nat
  objectId : Nat
  stripe : Nat
  kk : Nat
  code : Code
  payloadLen : Nat
  keyGen : Nat
  deriving DecidableEq, Repr

/-- R120: the first 40 bytes of a header. -/
def Header.head (h : Header) : Bytes :=
  [0x51, 0x46, 0x46, 0x47] ++ leBytes 1 1 ++ leBytes h.flags 1 ++ leBytes h.index 2 ++ leBytes h.objectId 8 ++
  leBytes h.stripe 4 ++ leBytes h.kk 2 ++ leBytes h.code.m 1 ++ leBytes h.code.l 1 ++ leBytes h.code.group 1 ++
  zeros 3 ++ leBytes h.payloadLen 4 ++ leBytes h.code.f 4 ++ leBytes h.keyGen 4

/-- R121: the SEAL_TAG over header bytes 0 to 55, under the slot's key when ENCRYPT is set. -/
def sealTag (encrypt : Bool) (key : Bytes) (h56 : Bytes) : Bytes :=
  (if encrypt then hmacSha256 (tagKey (key.take 32)) h56 else sha256 h56).take 8

/-- R120, R121: a header completed with the hash of its payload and its tag. -/
def finishHeader (encrypt : Bool) (key : Bytes) (head hash : Bytes) : Bytes :=
  let h56 := head.take 40 ++ hash.take 16
  h56 ++ sealTag encrypt key h56

/-- R120: FRAG_HASH of a payload. -/
def fragHash (payload : Bytes) : Bytes := (sha256 payload).take 16

/-! ### Laying the stream into fragments (R118 to R122) -/

/-- How a job lays its stream into fragments: its code, where stripes are numbered from, and what headers carry. -/
structure Layout where
  code : Code
  field : Nat
  base : Nat
  ec : Bool
  compressed : Bool
  keyGen : Nat
  deriving DecidableEq, Repr

/-- R119: the offset in DST of fragment `x` of the `s`-th stripe of the job. -/
def Layout.at_ (l : Layout) (s x : Nat) : Nat := (s * (l.code.k + if l.ec then l.code.parities l.code.k else 0) + x) * (64 + l.code.f)

/-- R120: FLAGS of a header. -/
def headerFlags (c : Ctx) (field : Nat) (compressed last isLocal : Bool) : Nat :=
  field + 2 * ofBool (c.d.encrypt && c.d.xts) + 4 * ofBool compressed + 8 * ofBool c.d.encrypt + 16 * ofBool last +
  32 * ofBool isLocal

/-- R115: the tweak of a data unit. -/
def xtsTweak (c : Ctx) (keyGen unit : Nat) : Bytes := leBytes unit 4 ++ leBytes keyGen 4 ++ leBytes c.d.objectId 8

/-- R115: the payload bytes as stored, from the plain bytes that fill the payload so far: whole cipher blocks only
under XTS. `first` is the number of the payload's first data unit. -/
def storedPrefix (c : Ctx) (keyGen first : Nat) (plain : Bytes) : Bytes :=
  if !(c.d.encrypt && c.d.xts) then plain else
  (pieces 4096 plain).zipIdx.flatMap fun u =>
    xtsEnc c.key.key (xtsTweak c keyGen (first + u.2)) (u.1.take (u.1.length / 16 * 16))

/-- The parts of a payload range that stay within one 64-byte line: position, offset in the line, bytes (R140). -/
def lineParts (off : Nat) (bs : Bytes) : List (Nat × Nat × Bytes) :=
  (linesOf off bs.length).map fun p =>
    let a := max off (64 * p)
    let b := min (off + bs.length) (64 * p + 64)
    (p, a - 64 * p, (bs.drop (a - off)).take (b - a))

/-- R122, R140: payload bytes of data fragment `j` of the `s`-th stripe written at payload offset `off`: as accumulate
writes with EC, as plain writes without. -/
def Run.payload (r : Run) (c : Ctx) (l : Layout) (s j off : Nat) (bs : Bytes) : Run :=
  if bs.isEmpty then r else
  let o := l.at_ s j + 64 + off
  if !l.ec then r.output c o bs else
  let r := r.within c o bs.length c.d.dstLimit
  if r.done then r else
  if !r.k.dmaWritable c.dev (c.d.dst + o) bs.length then r.stop 6 1 else
  { r with
    items := r.items ++ (lineParts off bs).map fun p =>
      .fold (some (c.d.dst + l.at_ s j + 64 + 64 * p.1 + p.2.1)) p.2.2 p.2.1 (l.base + s) j p.1
    ck := { r.ck with outLen := r.ck.outLen + bs.length } }

/-- R119, R120, R141: the close of the `s`-th stripe with `kk` data fragments: the data headers, whose place in the
stripe is known by now, and with EC the parity fragments. -/
def Run.closeStripe (r : Run) (c : Ctx) (l : Layout) (s kk : Nat) (last : Bool) (lastLen : Nat) : Run :=
  let code := l.code
  let head := fun x len => Header.head
    { flags := headerFlags c l.field l.compressed last (kk + code.m ≤ x), index := x, objectId := c.d.objectId
      stripe := l.base + s, kk := kk, code := code, payloadLen := len, keyGen := l.keyGen }
  let r := (List.range kk).foldl (fun r j =>
    r.output c (l.at_ s j) (finishHeader c.d.encrypt c.key.key (head j (if last && j + 1 == kk then lastLen else code.f))
      (r.ck.hashes.getD j []))) r
  let frags := fun n => (List.range n).map fun x => (l.base + s, x, c.d.dst + l.at_ s x)
  let clear := fun (r : Run) n => { r with
    ck := { r.ck with hashes := [], closedStripes := r.ck.closedStripes + 1 }
    frags := r.frags ++ frags n }
  if !l.ec then clear r kk else
  let n := code.parities kk
  let r := r.within c (l.at_ s kk) (n * (64 + code.f)) c.d.dstLimit
  if r.done then r else
  if !r.k.dmaWritable c.dev (c.d.dst + l.at_ s kk) (n * (64 + code.f)) then r.stop 6 1 else
  let ps := (List.range n).map fun i => (i, some (c.d.dst + l.at_ s (kk + i)), head (kk + i) code.f)
  let r := { r with
    items := r.items ++ [.close (l.base + s) kk ps]
    ck := { r.ck with outLen := r.ck.outLen + n * (64 + code.f) } }
  clear r (kk + n)

/-- R118, R122: stream bytes appended, at most up to the end of the fragment being filled; a full stripe closes before
the first byte beyond it. The fuel is the number of fragments that the bytes can touch. -/
def Run.lay (c : Ctx) (l : Layout) : Nat → Run → Bytes → Run
  | 0, r, _ => r
  | fuel + 1, r, bs =>
    if bs.isEmpty || r.done then r else
    let f := l.code.f
    let g := r.ck.streamLen / f
    let s := g / l.code.k
    let j := g % l.code.k
    let r := if s == r.ck.closedStripes then r else r.closeStripe c l (s - 1) l.code.k false f
    let fill := r.ck.streamLen % f
    let now := bs.take (f - fill)
    let plain := r.ck.fragFill ++ now
    let first := g * (f / 4096)
    let before := storedPrefix c l.keyGen first r.ck.fragFill
    let stored := storedPrefix c l.keyGen first plain
    let r := r.payload c l s j before.length (stored.drop before.length)
    let full := plain.length == f
    let r := { r with ck := { r.ck with
      streamLen := r.ck.streamLen + now.length
      fragFill := if full then [] else plain
      hashes := if full then r.ck.hashes ++ [fragHash stored] else r.ck.hashes } }
    Run.lay c l fuel r (bs.drop (f - fill))

/-- Stream bytes appended to the fragments (R118). -/
def Run.append (r : Run) (c : Ctx) (l : Layout) (bs : Bytes) : Run := Run.lay c l (bs.length / l.code.f + 2) r bs

/-- R118, R122, R125: the end of the stream: the last fragment padded with zeros, the last stripe closed. -/
def Run.endStream (r : Run) (c : Ctx) (l : Layout) : Run :=
  if r.ck.streamLen == 0 || r.done then r else
  let f := l.code.f
  let len := r.ck.streamLen
  let g := (len - 1) / f
  let s := g / l.code.k
  let r := if len % f == 0 then r else
    let first := g * (f / 4096)
    let before := storedPrefix c l.keyGen first r.ck.fragFill
    let stored := storedPrefix c l.keyGen first (padTo r.ck.fragFill f)
    let r := r.payload c l s (g % l.code.k) before.length (stored.drop before.length)
    { r with ck := { r.ck with fragFill := [], hashes := r.ck.hashes ++ [fragHash stored] } }
  r.closeStripe c l s (g % l.code.k + 1) true (if len % f == 0 then f else len % f)

end Sys2Proof.Machine
end

