-- ==== Sys2Proof/Machine/Seal.lean ====
section
/-!
DEFINITION. The stages of a SEAL job (04) and the COPY job (R58), each segment as one run: chunking, fingerprints, index
probe, compression, encryption, the sealed stream, the chunk table, the manifest.
-/

namespace Sys2Proof.Machine

/-! ### Chunks (R102 to R104) -/

/-- R103: one output of SplitMix64 from its state. -/
def splitMix (s : Nat) : Nat :=
  let z := s
  let z := (z ^^^ z / 2 ^ 30) * 0xBF58476D1CE4E5B9 % 2 ^ 64
  let z := (z ^^^ z / 2 ^ 27) * 0x94D049BB133111EB % 2 ^ 64
  z ^^^ z / 2 ^ 31

/-- R103: the default Gear table. -/
def gearDefault : List Nat :=
  (List.range 256).map fun i => splitMix ((0x5146288000000001 + (i + 1) * 0x9E3779B97F4A7C15) % 2 ^ 64)

/-- Where the chunker stands: the hash, the chunk's length, the chunk's bytes of this segment newest first, and the
parts ended, newest first. -/
structure Cutter where
  h : Nat
  c : Nat
  cur : Bytes
  parts : List Bytes
  deriving DecidableEq, Repr

/-- R102, R104: one input byte; `mask` is none for fixed chunks. -/
def Cutter.step (gear : Array Nat) (mask : Option Nat) (s : Cutter) (b : Byte) : Cutter :=
  let h := match mask with
    | some _ => (2 * s.h + gear.getD b.toNat 0) % 2 ^ 64
    | none => 0
  let c := s.c + 1
  let cut := c == 1048576 || (match mask with
    | some m => decide (4096 ≤ c) && (h &&& m) == 0
    | none => false)
  if cut then { h := 0, c := 0, cur := [], parts := (b :: s.cur).reverse :: s.parts }
  else { s with h := h, c := c, cur := b :: s.cur }

/-- R102: MASK of an average size exponent. -/
def gearMask (n : Nat) : Nat := (2 ^ n - 1) * 2 ^ (64 - n)

/-! ### Fingerprints and the Merkle root (R105, R124) -/

/-- R105: the primary fingerprint algorithm of a job. -/
def Desc.primary (d : Desc) (m : Bytes) : Bytes :=
  if d.sha then sha256 m else if d.blake then blake3 m else zeros 32

/-- R124: one level of the tree. -/
def merkleLevel (h : Bytes → Bytes) : List Bytes → List Bytes
  | a :: b :: t => h (1 :: (a ++ b)) :: merkleLevel h t
  | l => l

/-- R124: the root over the levels; the fuel is the number of leaves. -/
def merkleUp (h : Bytes → Bytes) : Nat → List Bytes → Bytes
  | 0, l => l.headD []
  | n + 1, l => match l with
    | [x] => x
    | _ => merkleUp h n (merkleLevel h l)

/-- R124: the Merkle root of the chunks' fingerprints. -/
def merkleRoot (h : Bytes → Bytes) (fps : List Bytes) : Bytes :=
  merkleUp h fps.length (fps.map fun fp => h (0 :: fp))

/-! ### Index probe (R107) -/

/-- R107: the two buckets of a fingerprint in a table of 2^t buckets. -/
def probeBuckets (fp : Bytes) (t : Nat) : Nat × Nat :=
  let n := 2 ^ t
  let b1 := leAt fp 0 8 % n
  let d := leAt fp 8 8 % n
  (b1, if d == 0 then b1 ^^^ 1 else b1 ^^^ d)

/-- R107: the locators of the valid entries of a bucket whose tag equals the fingerprint's. -/
def bucketMatches (fp bucket : Bytes) : List Nat :=
  ((List.range 7).filter fun e => bit (leAt bucket 0 1) e && bucket.getD (1 + e) 0 == fp.getD 31 0).map fun e =>
    leAt bucket (8 + 8 * e) 8

/-- R107: the probe of a fingerprint: 1 MISS, 2 HIT with its locator, 3 AMBIGUOUS. -/
def Run.probe (r : Run) (c : Ctx) (fp : Bytes) : Run × Nat × Nat :=
  let table := leAt c.p 24 8
  let (b1, b2) := probeBuckets fp (leAt c.p 12 1)
  let (r, x) := r.fetch c (table + 64 * b1) 64 7
  let (r, y) := r.fetch c (table + 64 * b2) 64 7
  match bucketMatches fp x ++ bucketMatches fp y with
  | [] => (r, 1, 0)
  | [l] => (r, 2, l)
  | _ => (r, 3, 0)

/-! ### Compression (R110, R111) -/

/-- R110: the 6 bytes that open a frame. -/
def zstdHead : Bytes := leBytes 0xFD2FB528 4 ++ [0x00, 0x30]

/-- R110, R111: one block of a frame: the engine's compressed form, or RLE, or Raw where compression gains nothing. -/
def zstdBlock (c : Ctx) (history content : Bytes) (last : Bool) : Bytes :=
  let z := Config.zstdBlock c.d.level c.size history content
  let head := fun type size => leBytes (ofBool last + 2 * type + 8 * size) 3
  if z.length == 1 && content.all (· == content.headD 0) then head 1 content.length ++ content.take 1
  else if z.length < content.length && 2 ≤ z.length then head 2 z.length ++ z
  else head 0 content.length ++ content

/-- R110: the blocks of a part of a chunk; `before` is the chunk's content up to it, `ended` marks the chunk's end. -/
def zstdBlocks (c : Ctx) (before part : Bytes) (ended : Bool) : Bytes :=
  let ps := pieces 65536 part
  ps.zipIdx.flatMap fun b =>
    let seen := before ++ part.take (65536 * b.2)
    zstdBlock c (seen.drop (seen.length - 65536)) b.1 (ended && b.2 + 1 == ps.length)

/-! ### Encryption (R113) -/

/-- R113: the IV of a chunk. -/
def gcmIv (c : Ctx) (chunk gen : Nat) : Bytes := leBytes c.d.objectId 8 ++ leBytes chunk 4 ++ leBytes gen 4

/-- R113: the AAD of a chunk. -/
def gcmAad (c : Ctx) (chunk plainLen : Nat) : Bytes := leBytes c.d.objectId 8 ++ leBytes chunk 4 ++ leBytes plainLen 4

/-! ### The stream, the chunk table and the manifest (R101, R106, R117, R123) -/

/-- How a SEAL job lays its stream. -/
def Ctx.sealLayout (c : Ctx) : Layout :=
  { code := Code.ofBytes c.p 0, field := c.d.field, base := leAt c.p 56 4, ec := c.d.ec, compressed := c.d.compress
    keyGen := if c.d.encrypt then c.key.generation else 0 }

/-- R117, R118: sealed bytes appended to the stream. -/
def Run.stream (r : Run) (c : Ctx) (bs : Bytes) : Run :=
  if c.d.fragment then r.append c c.sealLayout bs
  else
    let r := r.output c r.ck.streamLen bs
    { r with ck := { r.ck with streamLen := r.ck.streamLen + bs.length } }

/-- R106: the record of the chunk that ends, and its BLAKE3 fingerprint where both are computed (R101). -/
def Run.chunkRecord (r : Run) (c : Ctx) (plain fp : Bytes) (probe locator : Nat) (elided : Bool) : Run :=
  let flags := probe + 4 * ofBool c.d.compress + 8 * ofBool elided + 16 * ofBool (c.d.blake && !c.d.sha)
  let i := r.ck.chunk
  let b := fp ++ leBytes r.ck.chunkStart 8 ++ leBytes plain.length 4 ++ leBytes r.ck.sealed 4 ++ leBytes locator 8 ++
    leBytes i 4 ++ leBytes flags 2 ++ zeros 2
  let r := r.within c (64 * i) 64 (leAt c.p 40 8)
  let r := if r.done then r else r.put c (leAt c.p 32 8 + 64 * i) b 4
  let r := if c.d.sha && c.d.blake then r.put c (leAt c.p 48 8 + 32 * i) (blake3 plain) 5 else r
  if r.done then r else { r with ck := { r.ck with
    chunk := i + 1
    chunkPlain := []
    frame := []
    sealed := 0
    leaves := if c.d.manifest then r.ck.leaves ++ [fp] else r.ck.leaves
    hits := r.ck.hits + ofBool (probe == 2) } }

/-- R98, R105 to R113: the next part of the current chunk; `ended` says that the chunk ends with it. -/
def Run.chunkPart (r : Run) (c : Ctx) (part : Bytes) (ended : Bool) : Run :=
  if r.done then r else
  let r := if r.ck.chunkPlain.isEmpty then { r with ck := { r.ck with chunkStart := r.ck.streamLen } } else r
  let whole := r.ck.chunkPlain.isEmpty && ended
  let plain := r.ck.chunkPlain ++ part
  let fp := if ended then c.d.primary plain else []
  let elide := c.d.probe && leAt c.p 9 1 == 1 && whole
  let (r, early, eloc) := if elide then r.probe c fp else (r, 0, 0)
  if r.done then r else
  if early == 2 then r.chunkRecord c plain fp 2 eloc true else
  let frame := if c.d.compress then
      (if r.ck.frame.isEmpty then zstdHead else r.ck.frame) ++ zstdBlocks c r.ck.chunkPlain part ended
    else plain
  let bytes := if c.d.encrypt && !c.d.xts then
      let (ct, tag) := gcmSeal c.key.key (gcmIv c r.ck.chunk c.key.generation) (gcmAad c r.ck.chunk plain.length) frame
      ct ++ if ended then tag else []
    else frame
  let new := bytes.drop r.ck.sealed
  let r := r.stream c new
  let r := { r with ck := { r.ck with
    chunkPlain := plain
    frame := if c.d.compress then frame else []
    sealed := r.ck.sealed + new.length } }
  if !ended || r.done then r else
  let (r, pr, loc) := if c.d.probe && !elide then r.probe c fp else (r, early, 0)
  if r.done then r else r.chunkRecord c plain fp pr loc false

/-- R123: bytes 0 to 159 of the manifest. -/
def manifestHead (c : Ctx) (ck : Ck) (signer : Option Bytes) : Bytes :=
  let l := c.sealLayout
  let frag := fun n => if c.d.fragment then n else 0
  let total := ck.streamLen + 256
  let flags := ofBool signer.isSome + 2 * ofBool (c.d.blake && !c.d.sha) + 4 * ofBool c.d.compress +
    8 * ofBool c.d.encrypt + 16 * ofBool (c.d.encrypt && c.d.xts) + 32 * ofBool c.d.fragment
  [0x51, 0x46, 0x4D, 0x4E] ++ leBytes 1 1 ++ leBytes flags 1 ++ zeros 2 ++ leBytes c.d.objectId 8 ++
  leBytes c.d.length 8 ++ leBytes ck.streamLen 8 ++ leBytes ck.chunk 4 ++
  leBytes (if c.d.encrypt then c.d.keySlot else 0) 2 ++ leBytes c.d.avgExp 1 ++
  leBytes (if c.d.compress then c.d.level else 0) 1 ++ leBytes l.keyGen 4 ++ leBytes (frag l.code.k) 2 ++
  leBytes (frag l.code.m) 1 ++ leBytes (frag l.code.l) 1 ++ leBytes (frag l.code.group) 1 ++ zeros 3 ++
  leBytes (frag l.code.f) 4 ++ leBytes (frag (ceilDiv total (max 1 (l.code.k * l.code.f)))) 4 ++ leBytes l.base 4 ++
  padTo (merkleRoot c.d.primary ck.leaves) 32 ++ (signer.getD (zeros 16)) ++ zeros 48

/-- R125: the rest of the closing segment, once the manifest is whole. -/
def Run.closeSeal (r : Run) (c : Ctx) (manifest : Bytes) : Run :=
  let r := r.stream c manifest
  let r := if c.d.fragment then r.endStream c c.sealLayout else r
  { r with ck := { r.ck with closing := true } }

/-- R457: SIGNER_ID of the sealing key. -/
def signerId (key : Nat) : Bytes := (sha256 (p384Pub key)).take 16

/-- R125: the closing segment: the manifest, or the request for its signature. -/
def Run.closing (r : Run) (c : Ctx) : Run :=
  if c.d.sign then
    { r with items := [.sign (manifestHead c r.ck (some ((r.k.ws.signKey.map signerId).getD (zeros 16))))] }
  else r.closeSeal c (manifestHead c r.ck none ++ zeros 96)

/-- R103, R160: the Gear table of the segment: the default one, or the custom one read at the segment's start. -/
def Run.gear (r : Run) (c : Ctx) : Run × Array Nat :=
  let at_ := leAt c.p 16 8
  if !c.d.chunk then (r, #[])
  else if at_ == 0 then (r, gearDefault.toArray)
  else
    let (r, b) := r.fetch c at_ 2048 6
    (r, ((List.range 256).map fun i => leAt b (8 * i) 8).toArray)

/-- R98 to R125: one segment of a SEAL job. (DEDUCED, log 41) -/
def Run.sealSegment (r : Run) (c : Ctx) : Run :=
  let left := c.d.length - r.ck.pos
  if left == 0 then r.closing c else
  let n := min c.size left
  let (r, gear) := r.gear c
  let (r, input) := r.fetch c (c.d.src + r.ck.pos) n 0
  if r.done then r else
  let start : Cutter := { h := r.ck.gear, c := r.ck.chunkPlain.length, cur := [], parts := [] }
  let mask := if c.d.chunk then some (gearMask c.d.avgExp) else none
  let cut := input.foldl (Cutter.step gear mask) start
  let r := cut.parts.reverse.foldl (fun r p => r.chunkPart c p true) r
  let r := if cut.cur.isEmpty then r else r.chunkPart c cut.cur.reverse (n == left)
  if r.done then r else
  let r := { r with ck := { r.ck with pos := r.ck.pos + n, gear := cut.h } }
  if n == left && !c.d.manifest && c.d.fragment then r.endStream c c.sealLayout else r

/-- R58: one segment of a COPY job. -/
def Run.copySegment (r : Run) (c : Ctx) : Run :=
  let n := min c.size (c.d.length - r.ck.pos)
  let (r, input) := r.fetch c (c.d.src + r.ck.pos) n 0
  let r := r.output c r.ck.pos input
  if r.done then r else { r with ck := { r.ck with pos := r.ck.pos + n } }

/-- Whether the checkpoint of a SEAL or COPY job is past its last segment (R125). -/
def Desc.sealDone (d : Desc) (ck : Ck) : Bool :=
  ck.pos == d.length && (d.opcode == 6 || !d.manifest || ck.closing)

end Sys2Proof.Machine
end

