-- ==== Sys2Proof/Machine/Recall.lean ====
section
/-!
DEFINITION. The recall-direction jobs (06), each segment as a run of whole work units (R157): fragment verification,
erasures and their report, rebuild on demand, the stream, decoding of chunks, the manifest check, REPAIR, VERIFY and
REENCODE.
-/

namespace Sys2Proof.Machine

/-! ### Places in the object (R118, R154, R155) -/

/-- The parameters of a recall-direction job. -/
abbrev Ctx.rc (c : Ctx) : Recall := Recall.ofBytes c.p

/-- The field of the code that is read: SRC_FIELD for REENCODE (R153, R155). -/
def Ctx.srcField (c : Ctx) : Nat := if c.d.opcode == 5 then ofBool c.rc.srcField else c.d.field

/-- The stripe, data fragment and payload offset of a stream offset (R118). -/
def Recall.place (r : Recall) (o : Nat) : Nat × Nat × Nat :=
  let f := max 1 r.code.f
  let g := o / f
  (r.base + g / max 1 r.code.k, g % max 1 r.code.k, o % f)

/-- The stream bytes from the start of stripe `s` on. -/
def Recall.left (r : Recall) (s : Nat) : Nat := r.total - (s - r.base) * r.code.k * r.code.f

/-- The data-fragment count of stripe `s` (R155); a stripe past the stream counts as a full one. -/
def Recall.kk (r : Recall) (s : Nat) : Nat :=
  if r.left s == 0 then r.code.k else min r.code.k (ceilDiv (r.left s) (max 1 r.code.f))

/-- Whether stripe `s` holds the stream's last byte. -/
def Recall.isLast (r : Recall) (s : Nat) : Bool := r.left s != 0 && decide (r.left s ≤ r.code.k * r.code.f)

/-- The fragments of stripe `s`. -/
def Recall.frags (r : Recall) (s : Nat) : Nat := r.kk s + r.code.parities (r.kk s)

/-- The payload bytes of data fragment `j` of stripe `s` that hold stream bytes. -/
def Recall.payloadLen (r : Recall) (s j : Nat) : Nat := min r.code.f (r.left s - j * r.code.f)

/-- R154: the fragment map's entry for fragment `x` of stripe `s`: the fragment's IOVA and REGEN. -/
def Run.mapEntry (r : Run) (c : Ctx) (s x : Nat) : Run × Nat × Bool :=
  let (r, b) := r.fetch c (c.d.src + 8 * ((s - c.rc.first) * c.rc.code.n + x)) 8 0
  let e := leAt b 0 8
  (r, e / 64 * 64, bit e 0)

/-- A read in which poison is no stop: none for a poisoned line (R160). -/
def Run.peek (r : Run) (c : Ctx) (iova n area : Nat) : Run × Option Bytes :=
  if r.done then (r, none) else
  match r.k.dmaRead c.rs c.dev iova n with
  | .bytes b => (r, some b)
  | .poison => (r, none)
  | .fault cause => ({ r with k := r.k.iommuFault cause c.dev iova }.stop 6 area, none)
  | .timeout => (r.stop 7 (c.number % 65536), none)

/-! ### The report and the erasures (R161, R162, R165, R167, R169) -/

/-- R169, R157: LINE of a report record for a whole fragment. -/
def wholeFragment : Nat := 0xFFFFFFFF

/-- R169: the 16 bytes of a report record. -/
def reportRecord (s x reason : Nat) (rebuilt : Bool) (line : Nat) : Bytes :=
  leBytes s 4 ++ leBytes x 2 ++ leBytes reason 1 ++ leBytes (ofBool rebuilt) 1 ++ leBytes line 4 ++ zeros 4

/-- R165, R168, R169: a record: to DST for VERIFY, to REPORT for RECALL and REPAIR, dropped where it would pass the
end. -/
def Run.report (r : Run) (c : Ctx) (s x reason : Nat) (rebuilt : Bool) (line : Nat) : Run :=
  let b := reportRecord s x reason rebuilt line
  let n := r.ck.reports
  let count := fun (r : Run) => if r.done then r else { r with ck := { r.ck with reports := n + 1 } }
  if c.d.opcode == 4 then count (r.output c (16 * n) b)
  else if c.d.opcode == 5 || c.rc.report == 0 || c.rc.reportLimit < 16 * (n + 1) then r
  else count (r.put c (c.rc.report + 16 * n) b 9)

/-- The parity fragments of stripe `s` with REGEN set (R167). -/
def Run.regenOf (r : Run) (c : Ctx) (s : Nat) : Run × List Nat :=
  (List.range (c.rc.frags s)).foldl (fun (p : Run × List Nat) x =>
    let (r, e) := p.1.mapEntry c s x
    (r, if e.2 then p.2 ++ [x] else p.2)) (r, [])

/-- The data fragments among the erasures, in the order met (R162). -/
def Ck.erasedData (ck : Ck) (kk : Nat) : List Nat := ck.erased.filter (· < kk)

/-- R148: the plan for the erasures of stripe `s` met so far. -/
def Run.plan (r : Run) (c : Ctx) (s : Nat) : Option (List System) :=
  c.rc.code.plan c.srcField (c.rc.kk s) r.ck.erased

/-- R148, R161: the job stopped where the erasures are too many or no plan exists. VERIFY rebuilds nothing and needs no
plan. -/
def Run.checkPlan (r : Run) (c : Ctx) (s : Nat) : Run :=
  let n := r.ck.erased.length
  if 128 < n || (c.d.opcode != 4 && (r.plan c s).isNone) then r.stop 13 n
  else if c.d.opcode == 4 then r else { r with plans := r.plans + 1 }

/-- R161, R162: fragment `x` of stripe `s` joins the erasures. -/
def Run.erase (r : Run) (c : Ctx) (s x reason line : Nat) : Run :=
  if r.done || r.ck.erased.contains x then r else
  let kk := c.rc.kk s
  let data := decide (x < kk)
  let (r, used) :=
    if c.d.opcode == 2 then (r, data)
    else if c.d.opcode == 3 && data then
      let (r, g) := r.regenOf c s
      (r, g.any (kk ≤ ·))
    else (r, false)
  let r := r.report c s x reason used line
  let r := { r with ck := { r.ck with
    erased := r.ck.erased ++ [x]
    verified := r.ck.verified.filter (· != x) } }
  let slots := (r.ck.erasedData kk).length
  let n := r.ck.erased.length
  if 128 < n then r.stop 13 n
  else if (c.d.opcode == 2 || c.d.opcode == 5) && data && c.rc.scratchLimit < slots * c.rc.code.f then
    r.stop 9 (c.number % 65536)
  else r.checkPlan c s

/-- R158: a fragment that fails a check: an erasure with EC, a stop without. -/
def Run.bad (r : Run) (c : Ctx) (s x reason line : Nat) : Run :=
  if c.d.ec then r.erase c s x reason line
  else if reason == 3 then r.stop 11 x
  else if reason == 5 then r.stop 8 (c.number % 65536)
  else r.stop 12 x

/-! ### Verification (R158, R159) -/

/-- R158, check 2: whether a header has the fields expected of fragment `x` of stripe `s`. -/
def Ctx.headerGood (c : Ctx) (s x : Nat) (h : Bytes) : Bool :=
  let r := c.rc
  let flags := leAt h 5 1
  h.take 4 == [0x51, 0x46, 0x46, 0x47] && leAt h 4 1 == 1 && leAt h 6 2 == x && leAt h 8 8 == c.d.objectId &&
  leAt h 16 4 == s && leAt h 20 2 == r.kk s && leAt h 22 1 == r.code.m && leAt h 23 1 == r.code.l &&
  leAt h 24 1 == r.code.group && leAt h 32 4 == r.code.f && leAt h 36 4 == r.keyGen &&
  bits flags 0 1 == c.srcField && bit flags 3 == c.d.encrypt && bit flags 1 == (c.d.encrypt && c.d.xts)

/-- R158, check 3: whether the seal tag of a header verifies (R121). -/
def Ctx.tagGood (c : Ctx) (h : Bytes) : Bool := slice h 56 8 == sealTag c.d.encrypt c.key.key (h.take 56)

/-- The first poisoned line of a payload of `n` lines at `a`. -/
def Run.poisonLine (r : Run) (c : Ctx) (a n : Nat) : Nat :=
  ((List.range n).find? fun p => (r.peek c (a + 64 * p) 64 0).2.isNone).getD 0

/-- R158, checks 1 to 3 and the header's poison: the header of fragment `x`, or none after a failed check. -/
def Run.header (r : Run) (c : Ctx) (s x : Nat) : Run × Option (Nat × Bytes) :=
  let (r, iova, _) := r.mapEntry c s x
  if r.done then (r, none)
  else if iova == 0 then (r.bad c s x 1 wholeFragment, none)
  else
    let (r, h) := r.peek c iova 64 0
    if r.done then (r, none) else
    match h with
    | none => (r.bad c s x 5 wholeFragment, none)
    | some h =>
      if !c.headerGood s x h then (r.bad c s x 2 wholeFragment, none)
      else if !c.tagGood h then (r.bad c s x 3 wholeFragment, none)
      else (r, some (iova, h))

/-- Fragment `x` counted as verified; FLAGS.COMPRESSED is remembered from the lowest index of the stripe, or for REENCODE
of the job's first source stripe (R167, R170). -/
def Run.markVerified (r : Run) (c : Ctx) (s x : Nat) (h : Bytes) : Run :=
  let lower := match r.ck.compressed with
    | none => true
    | some p => x < p.1
  let keep := c.d.opcode == 5 && s != c.rc.first
  { r with ck := { r.ck with
    verified := r.ck.verified ++ [x]
    compressed := if lower && !keep then some (x, bit (leAt h 5 1) 2) else r.ck.compressed } }

/-- R157, R158: the unit that verifies a whole fragment. -/
def Run.verify (r : Run) (c : Ctx) (s x : Nat) : Run :=
  let f := c.rc.code.f
  let r := { r with read := r.read + 64 + f }
  let (r, got) := r.header c s x
  match got with
  | none => r
  | some (iova, h) =>
    let (r, p) := r.peek c (iova + 64) f 0
    if r.done then r else
    match p with
    | none => r.bad c s x 5 (r.poisonLine c (iova + 64) (f / 64))
    | some p => if fragHash p == slice h 40 16 then r.markVerified c s x h else r.bad c s x 4 wholeFragment

/-- The stripe at work is `s`; entering another one starts its erasures, slots and progress afresh (R162). -/
def Run.enter (r : Run) (c : Ctx) (s : Nat) : Run :=
  if r.ck.stripe == some s then r else
  { r with ck := { r.ck with
    stripe := some s, verified := [], erased := [], rebuilt := [], heads := [], folds := 0, closed := false
    compressed := if c.d.opcode == 5 then r.ck.compressed else none } }

/-! ### Rebuilding (R148, R149, R159, R160, R162) -/

/-- The stored fragments that the systems `ys` of `plan` are solved from. -/
def planReads (c : Ctx) (s : Nat) (plan ys : List System) : List Nat :=
  ys.flatMap fun y => y.sources c.rc.code (c.rc.kk s) plan

/-- R160: line `p` of a verified fragment; a poisoned line makes it an erasure. -/
def Run.fragLine (r : Run) (c : Ctx) (s x p : Nat) : Run × Option Bytes :=
  let (r, iova, _) := r.mapEntry c s x
  let (r, b) := r.peek c (iova + 64 + 64 * p) 64 0
  if r.done then (r, none) else
  match b with
  | some b => (r, some b)
  | none => (r.bad c s x 5 p, none)

/-- The lines `p` of the fragments `xs`, or none where one of them is poisoned. -/
def Run.fragLines (r : Run) (c : Ctx) (s p : Nat) : List Nat → Run × Option (List (Nat × Bytes))
  | [] => (r, some [])
  | x :: xs =>
    let (r, b) := r.fragLine c s x p
    match b with
    | none => (r, none)
    | some b =>
      let (r, t) := r.fragLines c s p xs
      (r, t.map fun t => (x, b) :: t)

/-- R148: line `p` of every unknown of a system of the stripe's plan. -/
def Run.solveLine (r : Run) (c : Ctx) (s p : Nat) (y : System) : Run × Option (List (Nat × Bytes)) :=
  let kk := c.rc.kk s
  let plan := (r.plan c s).getD []
  let (r, ls) := r.fragLines c s p (y.sources c.rc.code kk plan)
  match ls with
  | none => (r, none)
  | some ls =>
    let get := fun x => ((ls.find? fun l => l.1 == x).map (·.2)).getD (zeros 64)
    (r, some (y.unknowns.zip (y.solveIn c.rc.code c.srcField kk plan get)))

/-- R162: the address of line `p` of erased data fragment `x` in SCRATCH. -/
def Run.slotLine (r : Run) (c : Ctx) (s x p : Nat) : Nat :=
  c.rc.scratch + (r.ck.erasedData (c.rc.kk s)).findIdx (· == x) * c.rc.code.f + 64 * p

/-- The lowest fragment of `xs` that is neither verified nor erased. -/
def Ck.unverified (ck : Ck) (xs : List Nat) : Option Nat :=
  xs.foldl (fun o x =>
    if ck.verified.contains x || ck.erased.contains x then o
    else match o with
      | none => some x
      | some y => some (min x y)) none

/-- R157, R162: the unit that rebuilds line `p` of the system of erased fragment `x` into SCRATCH, after the fragments
that the plan reads have verified. -/
def Run.rebuildLine (r : Run) (c : Ctx) (s x p : Nat) : Run :=
  match r.plan c s with
  | none => r.checkPlan c s
  | some plan =>
    match r.ck.unverified (planReads c s plan plan) with
    | some v => r.verify c s v
    | none => match solverOf plan x with
      | none => r.checkPlan c s
      | some y =>
        let todo := y.unknowns.filter fun u => !r.ck.rebuilt.contains (u, p)
        let r := { r with
          read := r.read + 64 * (y.reads c.rc.code (c.rc.kk s)).length
          wrote := r.wrote + 64 * todo.length }
        let (r, ls) := r.solveLine c s p y
        match ls with
        | none => r
        | some ls =>
          let r := (ls.filter fun l => todo.contains l.1).foldl (fun r l =>
            r.put c (r.slotLine c s l.1 p) l.2 8) r
          { r with ck := { r.ck with rebuilt := r.ck.rebuilt ++ todo.map (·, p) } }

/-! ### The stream (R118, R153, R159, R160) -/

/-- R115, R170: a line of the stream as it was before enciphering; the data unit is the stream offset over 4,096. -/
def Ctx.decipher (c : Ctx) (line : Nat) (b : Bytes) : Bytes :=
  if !(c.d.encrypt && c.d.xts) then b else
  let o := 64 * line
  (xtsDec c.key.key (xtsTweak c c.rc.keyGen (o / 4096)) (zeros (o % 4096) ++ b)).drop (o % 4096)

/-- The stream bytes from the consume point to the end of line `line` taken. -/
def Run.take (r : Run) (c : Ctx) (line : Nat) (b : Bytes) : Run :=
  { r with ck := { r.ck with
    buf := r.ck.buf ++ (c.decipher line b).drop (r.ck.pos - 64 * line)
    pos := 64 * (line + 1) } }

/-- R158, R159: with EC clear, the hash of fragment `j` once its last stream line has been taken. -/
def Run.endOfFragment (r : Run) (c : Ctx) (s j p : Nat) : Run :=
  if r.done || 64 * (p + 1) < c.rc.payloadLen s j then r else
  let (r, iova, _) := r.mapEntry c s j
  let (r, h) := r.fetch c iova 64 0
  let (r, b) := r.fetch c (iova + 64) c.rc.code.f 0
  if r.done || fragHash b == slice h 40 16 then r else r.bad c s j 4 wholeFragment

/-- One step towards the line of the stream at the consume point: the line is taken, or what must come first is done. -/
def Run.takeLine (r : Run) (c : Ctx) : Run :=
  let line := r.ck.pos / 64
  let o := 64 * line
  if !c.d.fragment then
    let n := if o < c.rc.total then min 64 (c.rc.total - o) else 64
    let (r, b) := r.fetch c (c.d.src + o) n 0
    if r.done then r else r.take c line (padTo b 64)
  else
    let (s, j, off) := c.rc.place o
    if s < c.rc.first then r.stop 2 28 else
    let r := r.enter c s
    let p := off / 64
    if !c.d.ec then
      if r.ck.verified.contains j then
        let (r, b) := r.fragLine c s j p
        match b with
        | none => r
        | some b => (r.take c line b).endOfFragment c s j p
      else
        let (r, h) := r.header c s j
        match h with
        | none => r
        | some h => r.markVerified c s j h.2
    else if r.ck.erased.contains j then
      if r.ck.rebuilt.contains (j, p) then
        let (r, b) := r.peek c (r.slotLine c s j p) 64 8
        if r.done then r else
        match b with
        | some b =>
          let r := r.take c line b
          { r with ck := { r.ck with degraded := true } }
        | none =>
          { r with
            ck := { r.ck with rebuilt := r.ck.rebuilt.filter (· != (j, p)) }
            k := r.k.log { cls := 0, unitType := 1, unit := 0, info0 := r.slotLine c s j p } }
      else r.rebuildLine c s j p
    else if r.ck.verified.contains j then
      let (r, b) := r.fragLine c s j p
      match b with
      | none => r
      | some b => r.take c line b
    else
      let plan := (r.plan c s).getD []
      let reads := planReads c s plan plan
      r.verify c s ((r.ck.unverified (j :: reads.filter (· < j))).getD j)

/-- The stream offset of the first byte of the buffer. -/
def Ck.bufAt (ck : Ck) : Nat := ck.pos - ck.buf.length

/-- The consume point moved to stream offset `o`, what is in the buffer from there on kept. -/
def Run.seek (r : Run) (o : Nat) : Run :=
  if r.ck.bufAt ≤ o && o ≤ r.ck.pos then
    { r with ck := { r.ck with buf := r.ck.buf.drop (o - r.ck.bufAt) } }
  else { r with ck := { r.ck with buf := [], pos := o } }

/-- R157: the bytes of the stream lines that `n` bytes at stream offset `o` touch. -/
def lineBytes (o n : Nat) : Nat := 64 * (linesOf o n).length

/-! ### Chunks (R112, R151, R156, R163) -/

/-- R106: the record of a chunk: FP, STREAM_OFS, PLAIN_LEN, SEALED_LEN and whether it is elided. -/
structure ChunkRec where
  fp : Bytes
  ofs : Nat
  plainLen : Nat
  sealedLen : Nat
  elided : Bool
  deriving DecidableEq, Repr

/-- R106: the record that 64 bytes hold. -/
def ChunkRec.ofBytes (b : Bytes) : ChunkRec :=
  { fp := b.take 32, ofs := leAt b 32 8, plainLen := leAt b 40 4, sealedLen := leAt b 44 4, elided := bit (leAt b 60 2) 3 }

/-- The record of the `i`-th chunk of the range. -/
def Run.chunkAt (r : Run) (c : Ctx) (i : Nat) : Run × ChunkRec :=
  let (r, b) := r.fetch c (c.rc.chunkTab + 64 * (c.rc.firstChunk + i)) 64 4
  (r, ChunkRec.ofBytes b)

/-- R156: the checks of the range in the job's first segment. -/
def Run.begin (r : Run) (c : Ctx) : Run :=
  let (r, b) := r.fetch c (c.rc.chunkTab + 64 * c.rc.firstChunk) (64 * c.rc.chunks) 4
  if r.done then r else
  let recs := (pieces 64 b).map ChunkRec.ofBytes
  if (recs.map (·.plainLen)).sum != c.d.length then r.stop 2 44
  else if c.d.fragment && (c.rc.place ((recs.head?.map (·.ofs)).getD 0)).1 != c.rc.first then r.stop 2 28
  else { r with ck := { r.ck with begun := true, leaves := if c.d.manifest then recs.map (·.fp) else [] } }

/-- What the next unit of a chunk needs: that many more bytes in hand, a stop, or a unit: the sealed bytes it takes, its
kind and the bytes before its content. -/
inductive ChunkUnit where
  | need (n : Nat)
  | bad (status detail : Nat)
  | plain (n : Nat)
  | skip (n : Nat)
  | block (head type size total : Nat) (last : Bool) (frame : ZFrame)
  deriving DecidableEq, Repr

/-- The status of a decoder's refusal (R112). -/
def ZBad.status (c : Ctx) (plainLen : Nat) (f : ZFrame) : ZBad → Nat × Nat
  | .error => (16, c.number % 65536)
  | .limit n => (17, if n == 4 && plainLen < f.content.getD 0 then 3 else n)

/-- R112: the block whose header stands at offset `hl` of the bytes in hand. -/
def Ctx.blockUnit (c : Ctx) (ck : Ck) (rec_ : ChunkRec) (left hl : Nat) (f : ZFrame) (b : Bytes) : ChunkUnit :=
  let err := ChunkUnit.bad 16 (c.number % 65536)
  if left < hl + 3 then err
  else if b.length < hl + 3 then .need (hl + 3)
  else
    let h := leAt b hl 3
    let type := bits h 1 2
    let size := h / 8
    let last := bit h 0
    let total := hl + 3 + (if type == 1 then 1 else size) + (if last && f.checksum then 4 else 0)
    let seen := ck.chunkPlain.length + size
    let tooLong := match f.content with
      | none => false
      | some n => type != 2 && (n < seen || (last && seen != n))
    if type == 3 || left < total || min f.window 131072 < size || tooLong then err
    else if type != 2 && rec_.plainLen < seen then .bad 17 3
    else .block hl type size total last f

/-- R157: the next unit of the current chunk, from the deciphered bytes in hand; `left` sealed bytes remain before the
tag. -/
def Ctx.chunkUnit (c : Ctx) (ck : Ck) (rec_ : ChunkRec) (left : Nat) (b : Bytes) : ChunkUnit :=
  let err := ChunkUnit.bad 16 (c.number % 65536)
  if !c.d.compress then .plain (min 4096 left)
  else if ck.decode == 1 then c.blockUnit ck rec_ left 0 ck.zstd b
  else if left < 5 then err
  else if b.length < 5 then .need 5
  else if zSkippable (leAt b 0 4) then
    if left < 8 || left < 8 + leAt b 4 4 && 8 ≤ b.length then err
    else if b.length < 8 then .need 8
    else .skip (8 + leAt b 4 4)
  else if ck.decode == 2 then if leAt b 0 4 == 0xFD2FB528 then .bad 17 5 else err
  else
    let hl := zHeaderLen (leAt b 4 1)
    if left < hl then err
    else if b.length < hl then .need hl
    else match zHeader b with
      | .error e => let s := e.status c rec_.plainLen {}; .bad s.1 s.2
      | .ok f => c.blockUnit ck rec_ left hl f b

/-- The bytes of a GCM tag at the end of each chunk of a job. -/
def Ctx.tagLen (c : Ctx) : Nat := if c.d.encrypt && !c.d.xts then 16 else 0

/-- R113: the sealed bytes `all` of a chunk deciphered from offset `from_` on. -/
def Ctx.opened (c : Ctx) (chunk : Nat) (all : Bytes) (from_ : Nat) : Bytes :=
  if c.tagLen == 0 then all.drop from_
  else ((gcmOpen c.key.key (gcmIv c chunk c.rc.keyGen) [] all).1).drop from_

/-- R163: the end of a chunk that verified or is elided. -/
def Run.chunkDone (r : Run) (plainLen : Nat) (elided : Bool) : Run :=
  { r with ck := { r.ck with
    chunk := r.ck.chunk + 1
    chunkOpen := false
    chunkPlain := []
    frame := []
    decode := 0
    dstOff := r.ck.dstOff + plainLen
    outLen := r.ck.dstOff + plainLen
    hits := r.ck.hits + ofBool elided } }

/-- R163: the checks of a chunk whose sealed bytes are all decoded; `tag` is the tag that stands after them. -/
def Run.chunkEnd (r : Run) (c : Ctx) (rec_ : ChunkRec) (tag : Bytes) : Run :=
  if r.done then r else
  let i := c.rc.firstChunk + r.ck.chunk
  let want := if c.tagLen == 0 then tag else
    (gcmOpen c.key.key (gcmIv c i c.rc.keyGen) (gcmAad c i rec_.plainLen) r.ck.frame).2
  let plain := r.ck.chunkPlain
  if c.d.compress && r.ck.decode != 2 then r.stop 16 (c.number % 65536)
  else if want != tag then
    r.stop 11 (if c.d.fragment then (c.rc.place (rec_.ofs + rec_.sealedLen - 16)).2.1 else 0xFFFF)
  else if plain.length != rec_.plainLen || ((c.d.sha || c.d.blake) && c.d.primary plain != rec_.fp) then
    r.stop 14 (i % 65536)
  else r.chunkDone rec_.plainLen false

/-- The decoded content of a unit written to DST and the unit's bytes counted (R157, R163); `n` sealed bytes are done. -/
def Run.decoded (r : Run) (c : Ctx) (rec_ : ChunkRec) (n : Nat) (content : Bytes) (decode : Nat) (z : ZFrame) : Run :=
  let ck := r.ck
  let fin := ck.frame.length + n + c.tagLen ≥ rec_.sealedLen
  let tl := if fin then c.tagLen else 0
  let at_ := ck.dstOff + ck.chunkPlain.length
  let r := { r with
    read := r.read + lineBytes ck.bufAt (n + tl)
    wrote := r.wrote + lineBytes at_ content.length }
  let r := (r.within c at_ content.length c.d.dstLimit).put c (c.d.dst + at_) content 1
  if r.done then r else
  let tag := (ck.buf.drop n).take tl
  let r := { r with ck := { r.ck with
    buf := ck.buf.drop (n + tl)
    frame := ck.frame ++ ck.buf.take n
    chunkPlain := ck.chunkPlain ++ content
    decode := decode
    zstd := z } }
  if fin then r.chunkEnd c rec_ tag else r

/-- R112: a decoded block, checked against the limits that only its content shows. -/
def Run.blockDone (r : Run) (c : Ctx) (rec_ : ChunkRec) (total : Nat) (last : Bool) (f : ZFrame) (sum content : Bytes) : Run :=
  let all := r.ck.chunkPlain ++ content
  let short := match f.content with
    | none => false
    | some n => n < all.length || (last && all.length != n)
  if min f.window 131072 < content.length || short then r.stop 16 (c.number % 65536)
  else if rec_.plainLen < all.length then r.stop 17 3
  else if last && f.checksum && leAt sum 0 4 != xxh64 all % 2 ^ 32 then r.stop 16 (c.number % 65536)
  else ({ r with blocks := r.blocks + 1 }).decoded c rec_ total content (if last then 2 else 1) f

/-- R112, R157: the unit that decodes one block; `b` holds the unit's deciphered bytes. -/
def Run.blockUnit (r : Run) (c : Ctx) (rec_ : ChunkRec) (head type size total : Nat) (last : Bool) (f : ZFrame)
    (b : Bytes) : Run :=
  let body := (b.drop (head + 3)).take (if type == 1 then 1 else size)
  let sum := (b.take total).drop (total - 4)
  if type == 0 then r.blockDone c rec_ total last f sum body
  else if type == 1 then r.blockDone c rec_ total last f sum (List.replicate size (body.headD 0))
  else
    let reps := if head == 0 then r.ck.reps else [1, 4, 8]
    let tables := if head == 0 then r.tables else {}
    match zBlock tables reps f.window r.ck.chunkPlain body with
    | .error e => let s := e.status c rec_.plainLen f; r.stop s.1 s.2
    | .ok (content, t, reps) =>
      ({ r with tables := t, ck := { r.ck with reps := reps } }).blockDone c rec_ total last f sum content

/-- R151, R163: one step in the current chunk. -/
def Run.chunkStep (r : Run) (c : Ctx) (rec_ : ChunkRec) : Run :=
  let ck := r.ck
  let left := rec_.sealedLen - c.tagLen - ck.frame.length
  let i := c.rc.firstChunk + ck.chunk
  let b := c.opened i (ck.frame ++ ck.buf.take left) ck.frame.length
  let tl := fun n => if n == left then c.tagLen else 0
  match c.chunkUnit ck rec_ left b with
  | .bad st d => r.stop st d
  | .need n => if ck.buf.length < n then r.takeLine c else r.stop 16 (c.number % 65536)
  | .plain n =>
    if ck.buf.length < n + tl n then r.takeLine c else r.decoded c rec_ n (b.take n) 0 {}
  | .skip n =>
    if left < n then r.stop 16 (c.number % 65536)
    else if ck.buf.length < n + tl n then r.takeLine c else r.decoded c rec_ n [] ck.decode ck.zstd
  | .block head type size total last f =>
    if ck.buf.length < total + tl total then r.takeLine c else r.blockUnit c rec_ head type size total last f b

/-! ### The manifest (R164) -/

/-- R164: whether the manifest agrees with the job. -/
def Ctx.manifestGood (c : Ctx) (leaves : List Bytes) (m : Bytes) : Bool :=
  m.take 4 == [0x51, 0x46, 0x4D, 0x4E] && leAt m 4 1 == 1 && leAt m 8 8 == c.d.objectId && leAt m 16 8 == c.d.length &&
  leAt m 24 8 == c.rc.streamLen && leAt m 32 4 == c.rc.chunks && leAt m 40 4 == c.rc.keyGen &&
  slice m 64 32 == padTo (merkleRoot c.d.primary leaves) 32

/-- R157, R164: one step of the manifest check. -/
def Run.manifestStep (r : Run) (c : Ctx) : Run :=
  let r := r.seek c.rc.streamLen
  if r.ck.buf.length < 256 then r.takeLine c else
  let r := { r with read := r.read + 256 }
  if c.manifestGood r.ck.leaves (r.ck.buf.take 256) then { r with ck := { r.ck with closing := true } }
  else r.stop 15 0

/-- R151: one step of a RECALL job; none when it is done. -/
def Run.recallStep (r : Run) (c : Ctx) : Option Run :=
  if !r.ck.begun then some (r.begin c)
  else if r.ck.chunk < c.rc.chunks then
    let (r, x) := r.chunkAt c r.ck.chunk
    if r.done then some r
    else if x.elided then some (r.chunkDone x.plainLen true)
    else if r.ck.chunkOpen then some (r.chunkStep c x)
    else
      let r := r.seek x.ofs
      some { r with ck := { r.ck with chunkOpen := true, reps := [1, 4, 8] } }
  else if c.d.manifest && !r.ck.closing then some (r.manifestStep c)
  else none

/-! ### REPAIR (R167) -/

/-- The header of fragment `x` of stripe `s`, without its hash and its tag (R120, R167). -/
def Run.regenHead (r : Run) (c : Ctx) (s x : Nat) : Bytes :=
  let kk := c.rc.kk s
  Header.head
    { flags := headerFlags c c.d.field ((r.ck.compressed.map (·.2)).getD false) (c.rc.isLast s)
        (kk + c.rc.code.m ≤ x)
      index := x, objectId := c.d.objectId, stripe := s, kk := kk, code := c.rc.code
      payloadLen := if x < kk then c.rc.payloadLen s x else c.rc.code.f, keyGen := c.rc.keyGen }

/-- The offset in DST of regenerated fragment `x` of the stripe whose REGEN fragments are `g` (R167). -/
def Run.regenAt (r : Run) (c : Ctx) (g : List Nat) (x : Nat) : Nat :=
  (r.ck.regen + g.findIdx (· == x)) * (64 + c.rc.code.f)

/-- R157, R167: the unit that rebuilds line `p` of a system, its REGEN fragments going to DST. -/
def Run.repairLine (r : Run) (c : Ctx) (s p : Nat) (g : List Nat) (y : System) : Run :=
  let todo := y.unknowns.filter fun u => !r.ck.rebuilt.contains (u, p)
  let outs := todo.filter g.contains
  let r := { r with
    read := r.read + 64 * (y.reads c.rc.code (c.rc.kk s)).length
    wrote := r.wrote + 64 * outs.length }
  let (r, ls) := r.solveLine c s p y
  match ls with
  | none => r
  | some ls =>
    let r := (ls.filter fun l => outs.contains l.1).foldl (fun r l => r.output c (r.regenAt c g l.1 + 64 + 64 * p) l.2) r
    if r.done then r else
    { r with ck := { r.ck with
      rebuilt := r.ck.rebuilt ++ todo.map (·, p)
      degraded := r.ck.degraded || !outs.isEmpty } }

/-- The whole payload of data fragment `j`: as it stands, or solved again from what stands. -/
def Run.dataLine (r : Run) (c : Ctx) (s j p : Nat) : Run × Option Bytes :=
  if !r.ck.erased.contains j then r.fragLine c s j p else
  match solverOf ((r.plan c s).getD []) j with
  | none => (r, none)
  | some y =>
    let (r, ls) := r.solveLine c s p y
    (r, ls.bind fun ls => (ls.find? fun l => l.1 == j).map (·.2))

/-- R167: the header of a regenerated data fragment, its hash over the payload as rebuilt. -/
def Run.regenHeader (r : Run) (c : Ctx) (s x : Nat) (g : List Nat) : Run :=
  let (r, pl) := (List.range (c.rc.code.f / 64)).foldl (fun (q : Run × Bytes) p =>
    let (r, b) := q.1.dataLine c s x p
    (r, q.2 ++ b.getD [])) (r, [])
  if r.done || pl.length != c.rc.code.f then r else
  let h := finishHeader c.d.encrypt c.key.key (r.regenHead c s x) (fragHash pl)
  let r := ({ r with read := r.read + 64, wrote := r.wrote + 64 }).output c (r.regenAt c g x) h
  if r.done then r else { r with ck := { r.ck with heads := r.ck.heads ++ [x] } }

/-- R157, R167, R168: the unit that folds one data line, which no DST line takes. -/
def Run.foldStep (r : Run) (c : Ctx) (s j p : Nat) : Run :=
  let r := { r with read := r.read + 64 }
  let (r, b) := r.dataLine c s j p
  match b with
  | none => r
  | some b => { r with
    items := r.items ++ [.fold none b 0 s j p]
    ck := { r.ck with folds := r.ck.folds + 1, degraded := r.ck.degraded || (c.d.opcode == 3 && r.ck.erased.contains j) } }

/-- The next stripe of a REPAIR or VERIFY job. -/
def Run.nextStripe (r : Run) (regen : Nat) : Run :=
  { r with ck := { r.ck with stripesDone := r.ck.stripesDone + 1, stripe := none, regen := r.ck.regen + regen } }

/-- R167: one step of a REPAIR job in stripe `s`, whose REGEN fragments are `g`. -/
def Run.repairStripe (r : Run) (c : Ctx) (s : Nat) (g : List Nat) : Run :=
  let kk := c.rc.kk s
  let lines := c.rc.code.f / 64
  let par := g.filter (kk ≤ ·)
  let plan := (r.plan c s).getD []
  let need := plan.filter fun y => !par.isEmpty || y.unknowns.any g.contains
  let want := planReads c s plan need ++ (if par.isEmpty then [] else List.range kk)
  match r.ck.unverified want with
  | some v => r.verify c s v
  | none =>
  match need.findSome? fun y => ((List.range lines).find? fun p => y.unknowns.any fun u => !r.ck.rebuilt.contains (u, p)).map
      fun p => (y, p) with
  | some (y, p) => r.repairLine c s p g y
  | none =>
  match (g.filter (· < kk)).find? fun x => !r.ck.heads.contains x with
  | some x => r.regenHeader c s x g
  | none =>
    if par.isEmpty then r.nextStripe g.length
    else if r.ck.folds < kk * lines then r.foldStep c s (r.ck.folds / lines) (r.ck.folds % lines)
    else if !r.ck.closed then
      let n := c.rc.code.parities kk
      let ps := (List.range n).map fun i =>
        (i, if par.contains (kk + i) then some (c.d.dst + r.regenAt c g (kk + i)) else none, r.regenHead c s (kk + i))
      let last := par.getLast?.getD 0
      let r := r.within c (r.regenAt c g last) (64 + c.rc.code.f) c.d.dstLimit
      if r.done then r
      else if !par.all fun x => r.k.dmaWritable c.dev (c.d.dst + r.regenAt c g x) (64 + c.rc.code.f) then r.stop 6 1
      else { r with
        items := r.items ++ [.close s kk ps]
        ck := { r.ck with closed := true, outLen := r.ck.outLen + par.length * c.rc.code.f } }
    else match par.find? fun x => !r.ck.heads.contains x with
      | some x => { r with
        read := r.read + 64
        wrote := r.wrote + 64
        ck := { r.ck with heads := r.ck.heads ++ [x], outLen := r.ck.outLen + 64 } }
      | none => r.nextStripe g.length

/-- R167: one step of a REPAIR job; none when it is done. -/
def Run.repairStep (r : Run) (c : Ctx) : Option Run :=
  if c.d.length ≤ r.ck.stripesDone then none else
  let s := c.rc.first + r.ck.stripesDone
  let (r, g) := r.regenOf c s
  if r.done then some r
  else if r.ck.stripe == some s then some (r.repairStripe c s g)
  else
    let r := r.enter c s
    let r := { r with ck := { r.ck with erased := g } }
    some (if g.isEmpty then r else r.checkPlan c s)

/-! ### VERIFY (R168) -/

/-- R168: the stored parities that differ from the data, each with its first line that differs; a row that covers an
erased data fragment is not compared. -/
def Run.compareParity (r : Run) (c : Ctx) (s : Nat) : Run :=
  let kk := c.rc.kk s
  let code := c.rc.code
  let rows := (List.range (code.parities kk)).filter fun i =>
    !r.ck.erased.contains (kk + i) && !((code.support kk i).any r.ck.erased.contains)
  rows.foldl (fun r i =>
    let bad := (List.range (code.f / 64)).find? fun p =>
      let want := (code.support kk i).foldl (fun b j =>
        xorBytes b (mulBytes c.srcField (code.coef c.srcField i j) (((r.fragLine c s j p).2).getD []))) (zeros 64)
      (r.fragLine c s (kk + i) p).2 != some want
    match bad with
    | some p => r.report c s (kk + i) 6 false p
    | none => r) r

/-- R168: one step of a VERIFY job; none when it is done. -/
def Run.verifyStep (r : Run) (c : Ctx) : Option Run :=
  if c.d.length ≤ r.ck.stripesDone then none else
  let s := c.rc.first + r.ck.stripesDone
  let r := r.enter c s
  let kk := c.rc.kk s
  let lines := c.rc.code.f / 64
  match r.ck.unverified (List.range (c.rc.frags s)) with
  | some x => some (r.verify c s x)
  | none =>
    if !c.d.ec then some (r.nextStripe 0) else
    let live := (List.range kk).filter fun j => !r.ck.erased.contains j
    if r.ck.folds < live.length * lines then
      some (r.foldStep c s (live.getD (r.ck.folds / lines) 0) (r.ck.folds % lines))
    else if !r.ck.closed then
      let r := r.compareParity c s
      let ps := (List.range (c.rc.code.parities kk)).map fun i => (i, none, [])
      some { r with items := r.items ++ [.close s kk ps], ck := { r.ck with closed := true } }
    else some (r.nextStripe 0)

/-! ### REENCODE (R170) -/

/-- R170: how a REENCODE job lays its stream. -/
def Run.newLayout (r : Run) (c : Ctx) : Layout :=
  { code := c.rc.newCode, field := c.d.field, base := c.rc.newBase, ec := true
    compressed := (r.ck.compressed.map (·.2)).getD false, keyGen := c.rc.keyGen }

/-- R157, R170: the fragment headers that a stretch of the run wrote, in bytes read and written. -/
def Run.countHeads (r : Run) (before : Nat) : Run :=
  let n := r.frags.length - before
  { r with read := r.read + 64 * n, wrote := r.wrote + 64 * n }

/-- R157, R170: one step of a REENCODE job; none when it is done. -/
def Run.reencodeStep (r : Run) (c : Ctx) : Option Run :=
  let start := (c.rc.first - c.rc.base) * c.rc.code.k * c.rc.code.f
  if !r.ck.begun then
    let r := r.seek start
    some { r with ck := { r.ck with begun := true } }
  else
    let left := c.rc.total - r.ck.bufAt
    let n := min 4096 left
    let heads := r.frags.length
    if 0 < n then
      if r.ck.buf.length < n then some (r.takeLine c) else
      let b := r.ck.buf.take n
      let r := { r with
        read := r.read + 4096
        wrote := r.wrote + 4096
        ck := { r.ck with buf := r.ck.buf.drop n } }
      some ((r.append c (r.newLayout c) b).countHeads heads)
    else if r.ck.closing then none
    else
      let r := (r.endStream c (r.newLayout c)).countHeads heads
      some { r with ck := { r.ck with closing := true } }

/-! ### Segments (R157) -/

/-- One step of a recall-direction job; none when the job has no more work. -/
def Run.step (r : Run) (c : Ctx) : Option Run :=
  if c.d.opcode == 2 then r.recallStep c
  else if c.d.opcode == 3 then r.repairStep c
  else if c.d.opcode == 4 then r.verifyStep c
  else r.reencodeStep c

/-- R157: whole units in job order up to the first that would pass the segment size, and at least one; `any` says that a
unit has run. -/
def Run.steps (c : Ctx) : Nat → Bool → Run → Run
  | 0, _, r => r
  | fuel + 1, any, r =>
    if r.done then r else
    match r.step c with
    | none => r
    | some r' =>
      if any && (c.size < r'.read || c.size < r'.wrote) then r
      else Run.steps c fuel (any || r'.read != r.read || r'.wrote != r.wrote) r'

/-- R157: one segment of a recall-direction job; the fuel bounds the steps between two units. (DEDUCED, log 43) -/
def Run.recallSegment (r : Run) (c : Ctx) : Run := r.steps c (16 * c.size) false

/-- Whether a recall-direction job has no work after its checkpoint. -/
def Ctx.recallDone (c : Ctx) (ck : Ck) : Bool :=
  if c.d.opcode == 2 then ck.begun && decide (c.rc.chunks ≤ ck.chunk) && (!c.d.manifest || ck.closing)
  else if c.d.opcode == 5 then ck.closing
  else decide (c.d.length ≤ ck.stripesDone)

end Sys2Proof.Machine
end

