-- ==== Sys2Proof/Machine/Engines.lean ====
section
/-!
DEFINITION. The commands of a running segment: the engine's work on its data (04 to 06), the accumulate units (R137 to
R147), the signing service (R125, R458), and the segment's end (R43).
-/

namespace Sys2Proof.Machine

/-! ### The run of a segment (R98, R151, R423) -/

/-- What an engine runs its segment with. -/
def Chip.segCtx (k : Chip) (s : Seg) (inp : List HostRead) : Ctx :=
  let j := k.job s.job
  { job := s.job, d := j.desc, p := j.params, number := s.number, size := k.segmentSize
    rs := inp ++ s.ahead
    dev := k.devOfRing j.ring j.internal, key := s.key }

/-- R192, R575: the placement list, read by a segment that writes fragment headers or is about to. -/
def Run.placeList (r : Run) (c : Ctx) : Run :=
  if !c.d.place || (r.frags.isEmpty && r.items.isEmpty) then r else
  let (r, b) := r.fetch c (leAt c.p 64 8) (32 * leAt c.p 72 4) 10
  { r with places := b }

/-- The run of one segment from a checkpoint. -/
def Run.segment (r : Run) (c : Ctx) : Run :=
  if c.d.opcode == 1 then (r.sealSegment c).placeList c
  else if c.d.opcode == 6 then r.copySegment c
  else r.recallSegment c

/-- Whether a job has no segment after checkpoint `ck`. -/
def Ctx.lastAfter (c : Ctx) (ck : Ck) : Bool :=
  if c.d.opcode == 1 || c.d.opcode == 6 then c.d.sealDone ck else c.recallDone ck

/-- R98, R423: the data of the running segment of engine `e` has arrived, and its stages run on it. A job that stops
keeps what R165 lets its record show of the stopping segment. (DEDUCED, log 40) -/
def Chip.engineData (k : Chip) (e : Nat) (inp : List HostRead) : Chip :=
  match (k.engine e).seg with
  | none => k
  | some s =>
    if s.ran then k else
    let c := k.segCtx s inp
    let start := (k.job s.job).ck
    let r := Run.segment { k := k, ck := start } c
    let k := r.k.setJob s.job fun j =>
      if r.st.isSome then { j with degraded := j.degraded || r.ck.degraded, hit := j.hit || r.ck.hits != 0 } else j
    k.setEngine e fun g => { g with seg := some { s with
      ran := true
      items := if r.st.isSome then [] else r.items
      after := r.ck
      status := r.st
      last := c.lastAfter r.ck
      fragments := r.frags
      places := r.places
      read := r.read + (r.ck.pos - start.pos)
      plans := r.plans } }

/-- R544: the bin of a segment that finishes now, in sixty-fourths of the beat since its dispatch; the first phase holds more
than one bin, and which of them is a free value. -/
def Chip.segmentBin (k : Chip) (s : Seg) : Nat × Chip :=
  let p := 8 * (k.now - s.dispatched) + k.beat.phase
  if p == 0 then
    let (v, k) := k.fresh
    (v % 4, k)
  else (histBin (8 * p) 1, k)

/-- R43: the segment of engine `e` is finished once it has run, every accumulate item is taken, no signature is awaited
and its remote writes count as written (R24). -/
def Chip.segmentFinish (k : Chip) (e : Nat) : Chip :=
  match (k.engine e).seg with
  | none => k
  | some s =>
    if s.ran && s.items.isEmpty && !s.signWait && k.writesDone s.job then
      let (bin, k) := k.segmentBin s
      k.setEngine e fun g => { g with seg := some { s with finished := true, bin := bin } }
    else k

/-! ### The accumulate units (R140 to R147) -/

/-- The region of job `c` changed by `f`. -/
def Chip.setRegion (k : Chip) (c : Nat) (f : Region → Region) : Chip :=
  match (k.job c).region with
  | some h => match k.acc.find h with
    | some g => { k with acc := k.acc.insert h (f g) }
    | none => k
  | none => k

/-- The region of job `c`. -/
def Chip.region (k : Chip) (c : Nat) : Option Region := (k.job c).region.bind k.acc.find

/-- Whether the accumulate units hold the folds of job `c` back: its region is being restored (R145). -/
def Chip.foldsHeld (k : Chip) (c : Nat) : Bool := ((k.region c).map (·.restoring)).getD false

/-- The segment of engine `e` with its first accumulate item taken. -/
def Chip.popItem (k : Chip) (e : Nat) : Chip :=
  k.setEngine e fun g => { g with seg := g.seg.map fun s => { s with items := s.items.drop 1 } }

/-- R140, R144: the next accumulate write of engine `e` at its home bank and its accumulate unit. -/
def Chip.accWr (k : Chip) (e : Nat) : Chip :=
  match (k.engine e).seg with
  | none => k
  | some s => match s.items with
    | .fold addr data off stripe col pos :: _ =>
      if k.foldsHeld s.job then k else
      let j := k.job s.job
      let k := match addr with
        | some a => (k.dmaWrite (k.devOfRing j.ring j.internal) a data false (some s.job)).1
        | none => k
      let k := k.setRegion s.job fun g => { g with
        acc := j.regionCode.fold j.desc.field g.acc col (64 * pos + off) data
        log := g.log ++ [.fold addr data off stripe col pos] }
      k.popItem e
    | _ => k

/-- R141: the parity fragments of a close written to DST with their headers. -/
def Chip.writeParity (k : Chip) (j : Job) (key : Bytes) (acc : List Bytes) (ps : List (Nat × Option Nat × Bytes))
    (job : Nat) : Chip :=
  ps.foldl (fun k p => match p.2.1 with
    | none => k
    | some a =>
      let payload := acc.getD p.1 []
      let dev := k.devOfRing j.ring j.internal
      let k := (k.dmaWrite dev (a + 64) payload false (some job)).1
      (k.dmaWrite dev a (finishHeader j.desc.encrypt key p.2.2 (fragHash payload)) false (some job)).1) k

/-- R141 to R146: the next CLOSE of engine `e`: the region's lines copied to DST and zeroed, the hashes returned, the
parity headers written. -/
def Chip.close (k : Chip) (e : Nat) : Chip :=
  match (k.engine e).seg with
  | none => k
  | some s => match s.items with
    | .close stripe cols ps :: _ =>
      if k.foldsHeld s.job then k else
      let j := k.job s.job
      let acc := ((k.region s.job).map (·.acc)).getD []
      let k := k.writeParity j s.key.key acc ps s.job
      let k := k.setRegion s.job fun g => { g with
        copy := if j.closeCopy && g.copy.isNone then some g.acc else g.copy
        acc := g.acc.map fun a => zeros a.length
        log := g.log ++ [.close stripe cols ps] }
      (k.popItem e).setEngine e fun g => { g with seg := g.seg.map fun s => { s with closes := s.closes + 1 } }
    | _ => k

/-- R145: the stripe that was open at a job's checkpoint. -/
def Job.openStripe (j : Job) : Nat :=
  if j.desc.opcode == 1 then leAt j.params 56 4 + j.ck.closedStripes
  else
    let r := Recall.ofBytes j.params
    if j.desc.opcode == 5 then r.newBase + j.ck.closedStripes
    else r.first + j.ck.stripesDone + ofBool j.ck.closed

/-- R145, step 1: the accumulators of the stripe whose close marker is `ps`: the close copy, or the parity payloads. -/
def Chip.reloadRows (k : Chip) (j : Job) (g : Region) (ps : List (Nat × Option Nat × Bytes)) : List Bytes :=
  if j.closeCopy then g.copy.getD g.acc
  else g.acc.zipIdx.map fun a => match ps.find? fun p => p.1 == a.2 with
    | some (_, some addr, _) =>
      match k.readBack (k.devOfRing j.ring j.internal) (addr + 64) j.regionCode.f with
      | .bytes b => b
      | _ => zeros a.1.length
    | _ => zeros a.1.length

/-- R145: the region of job `c` restored to its state at the checkpoint, and the held folds released. -/
def Chip.restoreRegion (k : Chip) (c : Nat) : Chip :=
  let j := k.job c
  k.setRegion c fun g =>
    if !g.restoring then g else
    let s0 := j.openStripe
    let marker := g.log.findSome? fun i => match i with
      | .close s _ ps => if s == s0 then some ps else none
      | _ => none
    let rows := match marker with
      | some ps => k.reloadRows j g ps
      | none => g.acc
    let rows := g.log.foldl (fun rows i => match i with
      | .fold addr data off s col pos =>
        if s != s0 then rows else
        let bytes := match addr with
          | some a => match k.readBack (k.devOfRing j.ring j.internal) a data.length with
            | .bytes b => b
            | _ => data
          | none => data
        j.regionCode.fold j.desc.field rows col (64 * pos + off) bytes
      | _ => rows) rows
    { g with acc := rows, copy := none, log := [], restoring := false }

/-- R147: the payload bytes of the open stripe that committed segments folded: for each, its column, its offset in the
payload and the bytes. -/
def Chip.committedFolds (k : Chip) (c : Nat) : List (Nat × Nat × Bytes) :=
  let j := k.job c
  let ctx : Ctx :=
    { job := c, d := j.desc, p := j.params, number := j.segments, size := 0, rs := []
      dev := k.devOfRing j.ring j.internal, key := Tbl.get {} k.ws.keys j.desc.keySlot }
  let r : Run := { k := k, ck := j.ck }
  if j.closeCopy then
    if j.ck.closed then [] else
    let s := ctx.rc.first + j.ck.stripesDone
    let lines := max 1 (ctx.rc.code.f / 64)
    let live := (List.range (ctx.rc.kk s)).filter fun x => j.desc.opcode == 3 || !j.ck.erased.contains x
    (List.range j.ck.folds).filterMap fun i =>
      let x := live.getD (i / lines) 0
      (r.dataLine ctx s x (i % lines)).2.map fun b => (x, 64 * (i % lines), b)
  else
    let l := if j.desc.opcode == 5 then r.newLayout ctx else ctx.sealLayout
    let f := max 1 l.code.f
    let s := j.ck.closedStripes
    let from_ := s * l.code.k * f
    let full := (j.ck.streamLen - from_) / f
    let part := (storedPrefix ctx l.keyGen (j.ck.streamLen / f * (f / 4096)) j.ck.fragFill).length
    ((List.range full).map (fun x => (x, f)) ++ [(full, part)]).filterMap fun p =>
      if p.2 == 0 then none else
      match k.readBack ctx.dev (j.desc.dst + l.at_ s p.1 + 64) p.2 with
      | .bytes b => some (p.1, 0, b)
      | _ => none

/-- R147: the region of job `c` built again from what committed segments folded. -/
def Chip.rebuildRegion (k : Chip) (c : Nat) : Chip :=
  let j := k.job c
  let fs := k.committedFolds c
  (k.setRegion c fun g => { g with
    acc := fs.foldl (fun rows p => j.regionCode.fold j.desc.field rows p.1 p.2.1 p.2.2) (g.acc.map fun a => zeros a.length)
    copy := none
    log := []
    restoring := false }).setJob c fun j => { j with rebuild := false }

/-- R147, R421: an accumulator line of job `c` is lost: the region is to be rebuilt at the next boundary and the segment
replayed. (DEDUCED, log 42) -/
def Chip.accLost (k : Chip) (c : Nat) : Chip :=
  if (k.region c).isNone then k else
  let runs := (k.job c).state == .running
  (k.log { cls := 2, unitType := 5, unit := 0, action := if runs then 4 else 0, status := secondStatus k.recovering
           fn := k.jobFunction c }).setJob c fun j => { j with rebuild := true }

/-! ### The signing service (R125, R458) -/

/-- R458: whether the signing service serves requests. -/
def Chip.signs (k : Chip) : Bool := !k.on WS_STATUS.RESTARTING && k.ws.signKey.isSome && !k.ws.signPending

/-- R125: the segment of engine `e` is refused a signature. -/
def Chip.signRefused (k : Chip) (e : Nat) (s : Seg) : Chip :=
  k.setEngine e fun g => { g with seg := some { s with items := [], signWait := false, status := some (19, 0) } }

/-- R458, R489: the closing segment of engine `e` asks for a signature, which wakes a gated signing service. -/
def Chip.signRequest (k : Chip) (e : Nat) : Chip :=
  let k := { k with pwr := { k.pwr with gatedSign := false } }
  match (k.engine e).seg with
  | none => k
  | some s => match s.items with
    | .sign _ :: _ =>
      if k.signs then k.setEngine e fun g => { g with seg := some { s with signWait := true } }
      else k.signRefused e s
    | _ => k

/-- R125, R458: the signature reaches the closing segment of engine `e`, which lays the manifest into the stream and
closes the last stripe. -/
def Chip.signatureReturn (k : Chip) (e : Nat) : Chip :=
  match (k.engine e).seg with
  | none => k
  | some s => match s.items with
    | .sign m :: _ =>
      if !s.signWait then k
      else if !k.signs then k.signRefused e s
      else
        let c := k.segCtx s []
        let r := Run.closeSeal { k := k, ck := s.after } c (m ++ p384Sign (k.ws.signKey.getD 0) m)
        r.k.setEngine e fun g => { g with seg := some { s with
          items := if r.st.isSome then [] else r.items
          after := r.ck
          status := r.st
          last := c.lastAfter r.ck
          signWait := false
          fragments := s.fragments ++ r.frags } }
    | _ => k

/-! ### The commands -/

/-- ENGINE_READ_DATA (R98). -/
def execEngineReadData (engine : Nat) (inp : List HostRead) (s : State) : Host.Outcome State Fault Refusal :=
  s.commit (s.chip.engineData engine inp)

/-- ACC_WR (R140). -/
def execAccWr (engine : Nat) (s : State) : Host.Outcome State Fault Refusal := s.commit (s.chip.accWr engine)

/-- CLOSE (R141). -/
def execClose (engine : Nat) (s : State) : Host.Outcome State Fault Refusal := s.commit (s.chip.close engine)

/-- SIGN_REQUEST (R458). -/
def execSignRequest (engine : Nat) (s : State) : Host.Outcome State Fault Refusal := s.commit (s.chip.signRequest engine)

/-- SIGNATURE_RETURN (R125). -/
def execSignatureReturn (engine : Nat) (s : State) : Host.Outcome State Fault Refusal :=
  s.commit (s.chip.signatureReturn engine)

/-- ACCUM_REGION_ALLOCATE (R138). -/
def execAccumRegionAllocate (s : State) : Host.Outcome State Fault Refusal := s.commit s.chip.allocRegions

/-- ACCUM_RESTORE_DONE (R145). -/
def execAccumRestoreDone (job : Nat) (s : State) : Host.Outcome State Fault Refusal := s.commit (s.chip.restoreRegion job)

/-- ACCUM_LINE_UNCORRECTABLE (R147). -/
def execAccumLineUncorrectable (job : Nat) (s : State) : Host.Outcome State Fault Refusal := s.commit (s.chip.accLost job)

/-- SEGMENT_FINISH (R43). -/
def execSegmentFinish (engine : Nat) (s : State) : Host.Outcome State Fault Refusal := s.commit (s.chip.segmentFinish engine)

end Sys2Proof.Machine
end

