-- ==== Sys2Proof/Machine/Noc.lean ====
section
/-!
DEFINITION. The commands of the on-die networks (13): routing, delivery in order, and the recovery from a failed link or
router.  A stop of C-die `d` is 5 y + x; a stop of the H-die is 36 q + 6 y + x in quadrant q, and 144 + q is its ring
station.  Routers, and the source and destination of a flit, are numbered 256 × die + stop.
-/

namespace Sys2Proof.Machine

/-! ### Routing (R320, R322, R326, R333) -/

/-- One step from `a` towards `b`. -/
def toward (a b : Nat) : Nat := if a < b then a + 1 else a - 1

/-- R326: the next stop on a mesh of `w` columns, and the number of the link within the mesh; `express` allows the express
links of columns 1 and 3 of a C-die. -/
def meshNext (w : Nat) (express : Bool) (at_ dst : Nat) : Nat × Nat :=
  let (x, y, dx, dy) := (at_ % w, at_ / w, dst % w, dst / w)
  let xl := fun y x => (w - 1) * y + x
  let yl := fun y x => (w - 1) * (if w == 5 then 7 else w) + w * y + x
  if x != dx then (w * y + toward x dx, xl y (min x (toward x dx)))
  else if express && (x == 1 || x == 3) && (y == 1 && 5 ≤ dy || y == 5 && dy ≤ 1) then
    (w * (if y == 1 then 5 else 1) + x, if x == 1 then 58 else 59)
  else (w * toward y dy + x, yl (min y (toward y dy)) x)

/-- R322: the station that follows on the way from quadrant `p` to quadrant `q`, and the first of the four ring links to
it. -/
def ringNext (p q : Nat) : Nat × Nat :=
  let n := if p == 0 then (if q == 3 then 3 else 1) else if p == 1 then (if q == 0 then 0 else 2)
    else if p == 2 then (if q == 3 then 3 else 1) else (if q == 0 then 0 else 2)
  (n, 240 + 4 * (if n == (p + 1) % 4 then p else n))

/-- The stop of a C-die where one of its Bilum ports lies (R319). -/
def dieportStop (second : Bool) : Nat := if second then 19 else 15

/-- R326, R357: the Bilum port that a flit from C-die `d` takes: what the table names, and the other where it is not up. -/
def Chip.diePort (k : Chip) (d src dst : Nat) : Bool :=
  let s := Config.secondPort src dst
  if k.portUp (2 * d + s.toNat) then s else !s

/-- R326: the next router of a flit at `at_`, and the link it takes; none where the flit is at its destination. A flit that
leaves its die goes to its Bilum port stop, and from there to the stop of that port on the other side.
(DEDUCED, log 68; DESIGN CHOICE, log 13) -/
def Chip.nextHop (k : Chip) (at_ src dst : Nat) : Option (Nat × Option Nat) :=
  let (d, stop) := (at_ / 256, at_ % 256)
  let (dd, ds) := (dst / 256, dst % 256)
  if at_ == dst then none
  else if d < 12 then
    let s := k.diePort d src dst
    let goal := if d == dd then ds else dieportStop s
    if stop == goal then some (256 * 12 + Config.hubPortStop (2 * d + s.toNat) % 144, none)
    else
      let (n, l) := meshNext 5 (k.on (NOC_CTRL.EXPRESS_EN d)) stop goal
      some (256 * d + n, some l)
  else
    let s := k.diePort dd src dst
    let goal := if dd == 12 then ds else Config.hubPortStop (2 * dd + s.toNat) % 144
    if 144 ≤ stop then
      let q := stop - 144
      if goal / 36 == q then some (256 * 12 + 36 * q + Config.hubGateway q q dst % 36, none)
      else
        let (n, l) := ringNext q (goal / 36)
        some (256 * 12 + 144 + n, some (l + dst % 4))
    else if stop == goal then some (256 * dd + dieportStop s, none)
    else if stop / 36 == goal / 36 then
      let q := stop / 36
      let (n, l) := meshNext 6 false (stop % 36) (goal % 36)
      some (256 * 12 + 36 * q + n, some (60 * q + l))
    else
      let q := stop / 36
      let g := Config.hubGateway q (goal / 36) dst % 36
      if stop % 36 == g then some (256 * 12 + 144 + q, none)
      else
        let (n, l) := meshNext 6 false (stop % 36) g
        some (256 * 12 + 36 * q + n, some (60 * q + l))

/-- The networks of die `d`. -/
abbrev Chip.nocDie (k : Chip) (d : Nat) : NocDie := Tbl.get {} k.noc.dies d

/-- The networks of die `d` changed by `f`. -/
def Chip.setNocDie (k : Chip) (d : Nat) (f : NocDie → NocDie) : Chip :=
  { k with noc := { k.noc with dies := Tbl.mod {} k.noc.dies d f } }

/-- Router `r` changed by `f`. -/
def Chip.setRouter (k : Chip) (r : Nat) (f : Router → Router) : Chip :=
  { k with noc := { k.noc with routers := Tbl.mod {} k.noc.routers r f } }

/-- Whether two flits are the same one (R318). -/
def sameFlit (a b : Flit) : Bool := a.net == b.net && a.src == b.src && a.dst == b.dst && a.seq == b.seq

/-- R324: the flit has left the next router, so its copies in other replay buffers are free. -/
def Chip.ackFlit (k : Chip) (r : Nat) (f : Flit) : Chip :=
  { k with noc := { k.noc with routers := Tbl.mapVals {} k.noc.routers fun q x =>
      if q == r then x else { x with replay := x.replay.filter fun g => !sameFlit g f } } }

/-- A flit sent from router `r` to router `n`, kept in the replay buffer, 8 flits deep, until it is acknowledged. -/
def Chip.sendFlit (k : Chip) (r n : Nat) (f : Flit) : Chip :=
  (k.setRouter r fun x => { x with replay := (x.replay.filter fun g => !sameFlit g f) ++ [f] }).emit
    (.flit (n / 256) (n % 256) f.net f.vc f)

/-- R328, R329: a flit whose output is fenced goes on along the detour-table route, on the fall-back channel; where the table
holds none it is discarded. A single fenced link or router of a mesh always leaves a route (R327). -/
def Chip.detour (k : Chip) (r n : Nat) (f : Flit) : Chip :=
  let d := r / 256
  let x := k.nocDie d
  let k := k.count 4 d 6 1
  let route := (Config.detour r n f.dst (x.links ++ x.routers.map (· + 1000))).take 16
  match route with
  | [] => if x.links.length + x.routers.length ≤ 1 then k.sendFlit r f.dst { f with vc := 2 } else k.noRoute d (r % 256)
  | m :: rest => k.sendFlit r m { f with vc := 2, route := rest }

/-- A flit forwarded by router `r` (R326, R327). -/
def Chip.forward (k : Chip) (r : Nat) (f : Flit) : Chip :=
  match f.route with
  | m :: rest => k.sendFlit r m { f with route := rest }
  | [] => match k.nextHop r f.src f.dst with
    | none => k
    | some (n, link) =>
      let x := k.nocDie (r / 256)
      let fenced := link.any x.links.contains || (n / 256 == r / 256 && x.routers.contains (n % 256))
      if fenced then k.detour r n f else k.sendFlit r n f

/-! ### Delivery (R325) -/

/-- The key of the ordering state of an interface for a network and a source. -/
def niKey (r net src : Nat) : Nat := (r * 4 + net % 4) * 4096 + src

/-- The flits that the interface of `r` holds for a network, over all sources. -/
def Chip.niHeld (k : Chip) (r net : Nat) : Nat :=
  (k.noc.nis.map fun e => if e.1 / 4096 == r * 4 + net % 4 then e.2.holding.length else 0).sum

/-- R543: a flit of a network counted on the die of its destination; its class is not in the flit, so whether it counts as HP
is a free value. -/
def Chip.countFlit (k : Chip) (d net : Nat) : Chip :=
  let (v, k) := k.fresh
  (k.count 4 d (net % 4) 1).count 4 d 7 (v % 2)

/-- A flit at its destination: a duplicate is discarded and counted, an early one held, or left in its queue while the
buffer of 16 is full. -/
def Chip.niAccept (k : Chip) (r : Nat) (f : Flit) : Chip :=
  let key := niKey r f.net f.src
  let x := Tbl.get {} k.noc.nis key
  let ahead := wrapSub f.seq x.expect 10
  let k := if 512 ≤ ahead then k.count 4 (r / 256) 5 1 else k.countFlit (r / 256) f.net
  if 512 ≤ ahead then (k.bump (NOC_CNT.DUPLICATES (r / 256)) 1).nocErr (NOC_ERR.DUPLICATE (r / 256)) (r / 256) 0 1 (r % 256) 0
  else if ahead == 0 || k.niHeld r f.net < 16 then
    { k with noc := { k.noc with
        nis := Tbl.set {} k.noc.nis key { x with holding := Tbl.set none x.holding (f.seq % 1024) (some f) } } }
  else k.setRouter r fun x => { x with queue := x.queue ++ [f] }

/-- R325: the flits of a source delivered in SEQ order as far as they have come; the fuel is the number held. -/
def Chip.niDeliver (k : Chip) (r key : Nat) : Nat → Chip
  | 0 => k
  | n + 1 =>
    let x := Tbl.get {} k.noc.nis key
    match Tbl.get none x.holding x.expect with
    | none => k
    | some f =>
      let x : Ni := { expect := (x.expect + 1) % 1024, holding := Tbl.set none x.holding x.expect none }
      let k := { k with noc := { k.noc with nis := Tbl.set {} k.noc.nis key x } }
      (k.emit (.noc "DELIVER" (r / 256) (r % 256) f.data)).niDeliver r key n

/-- R324: a flit arrives at a router; a bad CRC makes the upstream router resend. -/
def Chip.flitReceived (k : Chip) (d stop : Nat) (f : Flit) (crcOk : Bool) : Chip :=
  let r := 256 * d + stop
  let key := (r * 4 + f.net % 4) * 4 + f.vc % 4
  let n := Tbl.get 0 k.noc.resends key
  if !crcOk then
    let k := { k with noc := { k.noc with resends := Tbl.set 0 k.noc.resends key (n + 1) } }
    ((k.count 4 d 4 1).bump (NOC_CNT.REPLAYS d) 1).nocErr (NOC_ERR.LINK_REPLAY d) d 0 1 stop 0
  else
    let k := { k with noc := { k.noc with resends := Tbl.set 0 k.noc.resends key 0 } }
    let k := k.ackFlit r f
    if r == f.dst then k.niAccept r f else k.forward r f

/-- FLIT_DELIVER (R325): what an interface can deliver of a source; then the early flits that waited in queues come in. -/
def Chip.flitDeliver (k : Chip) (d stop net src : Nat) : Chip :=
  let r := 256 * d + stop
  let key := niKey r net src
  let k := k.niDeliver r key (Tbl.get {} k.noc.nis key).holding.length
  let q := (Tbl.get {} k.noc.routers r).queue
  q.foldl (fun k f => k.niAccept r f) (k.setRouter r fun x => { x with queue := [] })

/-! ### A link or router fails (R328, R329, R333) -/

/-- The links of a stop of die `d`, with the stop at the other end. -/
def stopLinks (d stop : Nat) : List (Nat × Nat) :=
  if d < 12 then
    let (x, y) := (stop % 5, stop / 5)
    (if x < 4 then [(4 * y + x, stop + 1)] else []) ++ (if 0 < x then [(4 * y + x - 1, stop - 1)] else []) ++
    (if y < 6 then [(28 + 5 * y + x, stop + 5)] else []) ++ (if 0 < y then [(28 + 5 * (y - 1) + x, stop - 5)] else []) ++
    (if stop == 6 then [(58, 26)] else if stop == 26 then [(58, 6)] else if stop == 8 then [(59, 28)]
      else if stop == 28 then [(59, 8)] else [])
  else if stop < 144 then
    let q := stop / 36
    let (x, y) := (stop % 6, stop % 36 / 6)
    (if x < 5 then [(60 * q + 5 * y + x, stop + 1)] else []) ++ (if 0 < x then [(60 * q + 5 * y + x - 1, stop - 1)] else []) ++
    (if y < 5 then [(60 * q + 30 + 6 * y + x, stop + 6)] else []) ++
    (if 0 < y then [(60 * q + 30 + 6 * (y - 1) + x, stop - 6)] else [])
  else
    let p := stop - 144
    (List.range 4).flatMap fun i => [(240 + 4 * p + i, 144 + (p + 1) % 4), (240 + 4 * ((p + 3) % 4) + i, 144 + (p + 3) % 4)]

/-- The stops at the two ends of a link of die `d`. -/
def linkEnds (d link : Nat) : List Nat :=
  (List.range (if d < 12 then 35 else 148)).filter fun s => (stopLinks d s).any fun e => e.1 == link

/-- R328, step 2: a router sends the flits of its replay buffer that a fence cuts off along their detours. -/
def Chip.resendFrom (k : Chip) (r : Nat) : Chip :=
  let fs := (Tbl.get {} k.noc.routers r).replay
  let x := k.nocDie (r / 256)
  fs.foldl (fun k f => match k.nextHop r f.src f.dst with
    | some (n, link) =>
      if link.any x.links.contains || (n / 256 == r / 256 && x.routers.contains (n % 256)) then
        (k.bump (NOC_CNT.REPLAYS (r / 256)) 1).detour r n f
      else k
    | none => k) k

/-- R328: a link of die `d` is fenced at both ends; it is reported at the next boundary. -/
def Chip.linkFail (k : Chip) (d link : Nat) : Chip :=
  if (k.nocDie d).links.contains link then k else
  let k := k.setNocDie d fun x => { x with links := x.links ++ [link], newLinks := x.newLinks ++ [k.due link 0] }
  (linkEnds d link).foldl (fun k s => k.resendFrom (256 * d + s)) k

/-- R328: a router of die `d` is fenced, with every link to it. (DEDUCED, log 68) -/
def Chip.routerFail (k : Chip) (d stop : Nat) : Chip :=
  if (k.nocDie d).routers.contains stop then k else
  let ls := stopLinks d stop
  let k := k.setNocDie d fun x => { x with
    routers := x.routers ++ [stop], newRouters := x.newRouters ++ [k.due stop 0]
    links := x.links ++ (ls.map (·.1)).filter fun l => !x.links.contains l
    newLinks := x.newLinks ++ ((ls.map (·.1)).filter fun l => !x.links.contains l).map (k.due · 0) }
  ls.foldl (fun k e => k.resendFrom (256 * d + e.2)) k

/-- R328, step 3: the fences of die `d` reported at a beat boundary. -/
def Chip.reportFences (k : Chip) (d : Nat) : Chip :=
  let x := k.nocDie d
  if x.newLinks.isEmpty && x.newRouters.isEmpty then k else
  let ev := fun (cause : Nat) (m : Due) =>
    ({ cls := 2, unitType := 7, unit := d, cause := cause, action := 9, status := secondStatus m.second, info0 := m.unit
       seen := some (m.beat, m.time) } : Ev)
  let k := x.newRouters.foldl (fun k m => (k.raise (NOC_ERR.ROUTER_FENCED d)).log (ev 2 m)) k
  let k := (x.newLinks.map Due.unit).foldl (fun k l =>
    (k.raise (NOC_ERR.LINK_FENCED d)).wr (NOC_FENCE.LINK d (l / 64)) (setBit (k.rd (NOC_FENCE.LINK d (l / 64))) (l % 64))) k
  let k := if x.newRouters.isEmpty then x.newLinks.foldl (fun k m => k.log (ev 1 m)) k else k
  let k := (k.wr (NOC_STATUS.LINKS_FENCED d) x.links.length).wr (NOC_STATUS.ROUTERS_FENCED d) x.routers.length
  k.setNocDie d fun x => { x with newLinks := [], newRouters := [], compiling := true, tableReady := false }

/-- R328, step 4: Gunel has compiled new tables for die `d`. -/
def Chip.compileDone (k : Chip) (d : Nat) : Chip :=
  k.setNocDie d fun x => { x with tableReady := x.compiling }

/-- R328, step 5: at a boundary the interfaces of die `d` hold the flits whose routes change. -/
def Chip.holdRoutes (k : Chip) (d : Nat) : Chip :=
  if (k.nocDie d).tableReady then k.setNocDie d fun x => { x with holding := true } else k

/-- R328, step 6: the interfaces of die `d` take the new tables. -/
def Chip.installRoutes (k : Chip) (d : Nat) : Chip :=
  if !(k.nocDie d).holding then k else
  let k := k.wr (NOC_STATUS.ROUTE_GEN d) (k.rd (NOC_STATUS.ROUTE_GEN d) + 1)
  (k.setNocDie d fun x => { x with compiling := false, tableReady := false, holding := false }).emit (.noc "TABLES" d 0 0)

/-- R334: a parity error in an asynchronous bridge of die `d`. -/
def Chip.bridgeError (k : Chip) (d : Nat) (b : BridgeOf) : Chip :=
  let k := k.nocErr (NOC_ERR.BRIDGE d) d 2 9 0 0
  match b with
  | .port p => k.portFail p
  | .tile t => match (k.tile t).hart with
    | some h => k.hartFails h
    | none => k.setTile t fun x => { x with failed := true }
  | .other => k

/-! ### The commands -/

/-- FLIT_RECEIVED (R324 to R326). -/
def execFlitReceived (die stop net vc : Nat) (flit : Flit) (crcOk : Bool) (s : State) : Host.Outcome State Fault Refusal :=
  s.commit (s.chip.flitReceived die stop { flit with net := net, vc := vc } crcOk)

/-- FLIT_DELIVER (R325). -/
def execFlitDeliver (die stop net src : Nat) (s : State) : Host.Outcome State Fault Refusal :=
  s.commit (s.chip.flitDeliver die stop net src)

/-- NOC_LINK_FAIL (R328). -/
def execNocLinkFail (die link : Nat) (s : State) : Host.Outcome State Fault Refusal := s.commit (s.chip.linkFail die link)

/-- ROUTER_FENCED (R328). -/
def execRouterFenced (die stop : Nat) (s : State) : Host.Outcome State Fault Refusal := s.commit (s.chip.routerFail die stop)

/-- ROUTE_COMPILE_DONE (R328). -/
def execRouteCompileDone (die : Nat) (s : State) : Host.Outcome State Fault Refusal := s.commit (s.chip.compileDone die)

/-- ROUTE_TABLE_INSTALL (R328). -/
def execRouteTableInstall (die : Nat) (s : State) : Host.Outcome State Fault Refusal := s.commit (s.chip.installRoutes die)

/-- BRIDGE_PARITY_ERROR (R334). -/
def execBridgeParityError (die : Nat) (bridge : BridgeOf) (s : State) : Host.Outcome State Fault Refusal :=
  s.commit (s.chip.bridgeError die bridge)

end Sys2Proof.Machine
end

