-- ==== Sys2Proof/Machine/Perf.lean ====
section
/-!
DEFINITION. Performance counters (23): the shape of the counter sets, the dumps, the user's reads and the registers with a
rule of their own.
-/

namespace Sys2Proof.Machine

/-! ### The counter sets (R543, R544) -/

/-- R543, R544: the instances of a set and the counters of an instance. -/
def setShape (set : Nat) : Nat × Nat :=
  [(24, 8), (257, 4), (16, 28), (24, 32), (13, 8), (34, 8), (256, 4), (32, 4), (4, 6), (366, 3),
    (16, 16), (24, 16), (257, 16), (256, 16), (32, 16)].getD set (0, 0)

/-- Whether no command carries what counter `j` of a set counts: codewords on a Conos link, and injections held or lost
(log 92). -/
def unseen (set j : Nat) : Bool := set == 9 || set == 8 && decide (4 ≤ j)

/-- The value of counter `j` of instance `i` of a set; 0 where none has that name (R549). One that no command carries reads
as a free value. (DEDUCED, log 92) -/
def Chip.counter (k : Chip) (set i j : Nat) : Nat :=
  let (n, m) := setShape set
  if i < n ∧ j < m then
    if unseen set j then Config.unseenCount k.time k.pm.dumpSeq k.out.length (counterKey set i j) % 2 ^ 64
    else Tbl.get 0 k.pm.counters (counterKey set i j)
  else 0

/-- Whether the unit of instance `i` of a set is fenced, failed or powered off (R548). -/
def Chip.unitOff (k : Chip) (set i : Nat) : Bool :=
  let engine := fun e => (k.engine e).failed || !k.dieUp (e / 2)
  let tile := fun t => (k.tile t).failed || (k.tile t).gated || !k.dieUp (t / 28)
  if set == 0 || set == 11 then engine i
  else if set == 2 || set == 10 then k.chFenced i || k.pwr.gatedChannels.contains i
  else if set == 3 then k.rd (BL_STATUS.STATE i) == 4 || !k.dieUp (i / 2)
  else if set == 4 then i < 12 && !k.dieUp i
  else if set == 5 then (k.pair i).failed
  else if set == 6 || set == 13 then k.pwr.gatedEndpoint
  else if set == 8 then k.rd (CN_PORT_STATUS.STATE i) == 4
  else if set == 9 then if i < 336 then tile i else i < 360 && engine (i - 336)
  else false

/-- R548: OFF of a set. -/
def Chip.offBits (k : Chip) (set : Nat) : Nat :=
  let off := (List.range (setShape set).1).filter (k.unitOff set)
  (List.range 32).foldl (fun n b => if off.any fun i => min 31 (i / 32) == b then n + 2 ^ b else n) 0

/-! ### Dumps (R545 to R548) -/

/-- A bit of PM_ERR set, with its event when it newly sets (R549). -/
def Chip.pmErr (k : Chip) (f : Fld) : Chip :=
  let was := k.on f
  let k := k.raise f
  if was then k else k.log { cls := 0, unitType := 17, unit := 0, cause := f.lo }

/-- R548: the bytes of a set's record. -/
def recordLen (set : Nat) : Nat := 64 + 8 * ((setShape set).1 * (setShape set).2)

/-- R548: the record of a set at this instant. -/
def Chip.dumpRecord (k : Chip) (set : Nat) : Bytes :=
  let (n, m) := setShape set
  [0x51, 0x46, 0x50, 0x44] ++ leBytes 1 1 ++ leBytes set 1 ++ leBytes m 1 ++ zeros 1 ++ leBytes n 2 ++ zeros 2 ++
  leBytes (recordLen set) 4 ++ leBytes k.now 8 ++ leBytes k.time 8 ++ leBytes k.pm.dumpSeq 4 ++
  leBytes (k.rd PM_STATUS.DROPPED) 4 ++ leBytes (k.offBits set) 4 ++ zeros 20 ++
  (List.range n).flatMap fun i => (List.range m).flatMap fun j => leBytes (k.counter set i j) 8

/-- The entry size of the dump ring and its number of entries (R546, R549). -/
def Chip.dumpEntry (k : Chip) : Nat := 2 ^ clamp 12 16 (k.rd PM_DUMP_CTRL.ENTRY_LOG2)
@[inherit_doc Chip.dumpEntry] def Chip.dumpRing (k : Chip) : Nat := 2 ^ clamp 4 16 (k.rd PM_DUMP_CTRL.RING_LOG2)

/-- R545: whether a dump is due at the boundary that began this beat. -/
def Chip.dumpDue (k : Chip) : Bool :=
  k.on PM_DUMP_CTRL.ENABLE && k.now % (k.rd PM_DUMP_CTRL.EVERY + 1) == 0 && k.beat.phase == 0 && !k.beat.stopped

/-- R545, R546: the dump of this boundary: every selected set sampled at once, or the whole dump skipped. DUMP_SEQ counts a
skipped dump too, so that its gap shows which is missing. (DEDUCED, log 91) -/
def Chip.dump (k : Chip) : Chip :=
  if !k.dumpDue then k else
  let sets := setBits (k.rd PM_DUMP_CTRL.SETS) 15
  let k := if sets.any fun s => decide (k.dumpEntry < recordLen s) then k.pmErr PM_ERR.ENTRY_SMALL else k
  let sets := sets.filter fun s => decide (recordLen s ≤ k.dumpEntry)
  let free := k.dumpRing - wrapSub (k.rd PM_DUMP_PI.PI) (k.rd PM_DUMP_CI.CI) 32
  let seq := (k.pm.dumpSeq + 1) % 2 ^ 32
  if free < sets.length || !k.pm.dumpPending.isEmpty then
    let k := (k.bump PM_STATUS.DROPPED 1).pmErr PM_ERR.DROPPED
    { k with pm := { k.pm with dumpSeq := seq } }
  else
    { k with pm := { k.pm with dumpPending := sets.map k.dumpRecord, dumpSeq := seq } }

/-- R546, R547: the next entry of the dump written whole and its index advanced. The bytes beyond the record are unspecified.
An entry below the watermark is refused and stays as it was; one outside the DRAM is discarded (R566).
(DEDUCED, log 91) -/
def Chip.dumpWritten (k : Chip) : Chip :=
  match k.pm.dumpPending with
  | [] => k
  | r :: rs =>
    let pi := k.rd PM_DUMP_PI.PI
    let addr := k.rd PM_DUMP_BASE.BASE + k.dumpEntry * (pi % k.dumpRing)
    let (rest, k) := k.fresh
    let k := { k with pm := { k.pm with dumpPending := rs } }
    let k :=
      if addr < k.secureTop then (k.wsErr WS_ERR.VIOLATION addr 10).pmErr PM_ERR.REFUSED
      else if addr + k.dumpEntry ≤ k.dramSize then k.store addr (r ++ leBytes rest (k.dumpEntry - r.length))
      else k.log { cls := 0, unitType := 17, unit := 0, info0 := addr }
    k.wr PM_DUMP_PI.PI (pi + 1)

/-! ### User reads (R540, R541) -/

/-- R540: the exception that a read of counter `csr` in a mode raises: 2 (illegal instruction), 22 (virtual instruction) or
none. cycle, instret and hpmcounter3 to hpmcounter31 need USER_ENABLE below S-mode and in a guest; time does not. -/
def Chip.counterTrap (k : Chip) (h : Nat) (mode : Mode) (csr : Nat) : Option Nat :=
  let g := k.hart h
  let i := csr - 0xC00
  let m := bit g.mcounteren i
  let hv := bit g.hcounteren i
  let s := bit g.scounteren i
  let shut := csr != 0xC01 && !k.on PM_CTRL.USER_ENABLE
  if csr < 0xC00 ∨ 0xC1F < csr then some 2 else
  match mode with
  | .m => none
  | .s => if m then none else some 2
  | .u => if shut || !m || !s then some 2 else none
  | .vs => if shut then some 22 else if !m then some 2 else if !hv then some 22 else none
  | .vu => if shut then some 22 else if !m then some 2 else if !hv || !s then some 22 else none

/-- R540: a counter read of hart `h`. The counts of a hart's own pipeline are free values; time is the time CSR.
(DEDUCED, log 93) -/
def Chip.counterRead (k : Chip) (h : Nat) (mode : Mode) (csr : Nat) : Chip :=
  match k.counterTrap h mode csr with
  | some cause => k.instrTrap h cause
  | none =>
    if csr == 0xC01 then k.emit (.csrValue h (k.time % 2 ^ 64))
    else
      let (v, k) := k.fresh
      k.emit (.csrValue h (v % 2 ^ 64))

/-- R541: a write of PM_PART. -/
def Chip.partWrite (k : Chip) (value : Nat) : Chip :=
  let was := k.small
  let k := (List.range 12).foldl (fun k d =>
    (k.wr (PM_PART.PART d) (bits value (4 * d) 4)).wr (PM_PART.SHARED d) (bits value (48 + d) 1)) k
  if was && !k.small then k.hold PM_CTRL.USER_ENABLE 0 else k

/-- R541, R573: a write of USER_ENABLE. -/
def Chip.userEnableWrite (k : Chip) (value : Nat) : Chip :=
  if value % 2 == k.rd PM_CTRL.USER_ENABLE then k
  else if value % 2 == 1 && !k.small then k.pmErr PM_ERR.NOT_SMALL
  else k.wr PM_CTRL.USER_ENABLE value

/-- R549: a write of PM_DUMP_CI. -/
def Chip.dumpCiWrite (k : Chip) (value : Nat) : Chip :=
  let ci := k.rd PM_DUMP_CI.CI
  if wrapSub value ci 32 ≤ wrapSub (k.rd PM_DUMP_PI.PI) ci 32 then k.wr PM_DUMP_CI.CI value else k

/-! ### The commands -/

/-- PM_DUMP (R545). -/
def execPmDump (s : State) : Host.Outcome State Fault Refusal := s.commit s.chip.dump

/-- PM_DUMP_ENTRY_WRITTEN (R546). -/
def execPmDumpEntryWritten (s : State) : Host.Outcome State Fault Refusal := s.commit s.chip.dumpWritten

/-- USER_COUNTER_READ (R540). -/
def execUserCounterRead (hart : Nat) (mode : Mode) (csr : Nat) (s : State) : Host.Outcome State Fault Refusal :=
  s.commit (s.chip.counterRead hart mode csr)

/-- PM_PART_WRITE (R541). -/
def execPmPartWrite (value : Nat) (s : State) : Host.Outcome State Fault Refusal := s.commit (s.chip.partWrite value)

/-- USER_ENABLE_WRITE (R541). -/
def execUserEnableWrite (value : Nat) (s : State) : Host.Outcome State Fault Refusal :=
  s.commit (s.chip.userEnableWrite value)

/-- PM_DUMP_CI_WRITE (R549). -/
def execPmDumpCiWrite (value : Nat) (s : State) : Host.Outcome State Fault Refusal := s.commit (s.chip.dumpCiWrite value)

end Sys2Proof.Machine
end

