-- ==== Sys2Proof/Machine/Harts.lean ====
section
/-!
DEFINITION. The commands of the cores (10): the Kloesk CSRs, traps into M-mode and the return, failures, moves and MSIs.
-/

namespace Sys2Proof.Machine

/-! ### The Kloesk CSRs (R254 to R262) -/

/-- R254: whether the table allows an access in a mode. -/
def csrAllowed (csr : Nat) (mode : Mode) (isWrite : Bool) : Bool :=
  let high := mode == .m || mode == .s
  if csr == 0xCC0 || csr == 0xCC1 then !isWrite
  else if csr == 0x5C0 || csr == 0x5C1 then high
  else if csr == 0x7C0 || csr == 0x7C1 then mode == .m
  else if csr == 0xDC0 then high && !isWrite
  else false

/-- R254: the non-virtual mode that matches a virtual one. -/
def matchingMode : Mode → Mode
  | .vs => .s
  | .vu => .u
  | other => other

/-- R254: the cause of a disallowed access: 22 (virtual instruction) where the matching mode may make it, otherwise 2
(illegal instruction). (PRESUMED, log 59) -/
def csrCause (csr : Nat) (mode : Mode) (isWrite : Bool) : Nat :=
  if (mode == .vs || mode == .vu) && csrAllowed csr (matchingMode mode) isWrite then 22 else 2

/-- R49: qfphase; NS is the time since the phase began, which the commands do not carry, so it is a free value below the
phase's length. (PRESUMED, log 59) -/
def Chip.qfphase (k : Chip) (count : Nat) : Nat × Chip :=
  let (n, k) := k.fresh
  let len := k.rd BT_CTRL.LEN
  let ns := n % (if len == 1 then 500 else 1000)
  (k.beat.phase % 8 + 8 * len + 16 * ns + 2 ^ 32 * (count % 2 ^ 32), k)

/-- R255: qfworld. -/
def Hart.qfworld (h : Hart) : Nat := h.w + 2 * h.pw + 4 * ofBool h.npend

/-- R261, R476: qfopp; CAP shows the lower of the cap and the thermal ceiling `tcap`. -/
def Hart.qfopp (h : Hart) (tcap : Nat) : Nat := h.oppReq + 2 ^ 8 * h.oppCur + 2 ^ 16 * min h.oppCap tcap

/-- R269: qfremap of hart ID `h`. -/
def Chip.qfremap (k : Chip) (h : Nat) : Nat :=
  let g := k.hart h
  let t := g.ptile.getD 0
  t % 28 + 2 ^ 8 * (t / 28) + 2 ^ 12 * (h / 24) + 2 ^ 16 * ofBool g.moved + 2 ^ 17 * g.reason + 2 ^ 24 * g.moves +
    2 ^ 32 * k.spareCount

/-- The value that an allowed read of a Kloesk CSR returns. -/
def Chip.csrRead (k : Chip) (h csr : Nat) : Nat × Chip :=
  let g := k.hart h
  let count := (Tbl.get {} k.beat.dies (k.hartDie h)).count
  if csr == 0xCC0 then (count, k)
  else if csr == 0xCC1 then k.qfphase count
  else if csr == 0x5C0 then (g.sillage, k)
  else if csr == 0x5C1 then (g.qfopp (Tbl.get 15 k.pwr.tcap (k.hartDie h)), k)
  else if csr == 0x7C0 then (g.qfworld, k)
  else if csr == 0x7C1 then (g.tagLo + 256 * g.tagHi, k)
  else (k.qfremap h, k)

/-- R256: an M-mode write of qfworld. -/
def Chip.qfworldWrite (k : Chip) (h w pw : Nat) : Chip :=
  k.setHart h fun g => Hart.takeHalt { g with w := w % 2, pw := pw % 2 } (k.on WS_DEBUG.NID)

/-- R259: a write of qfsillage in M-mode, or in S-mode within qftaglim; outside it the S-mode write raises an
illegal-instruction exception. -/
def Chip.qfsillageWrite (k : Chip) (h : Nat) (mode : Mode) (value : Nat) : Chip :=
  let g := k.hart h
  let tag := value % 256
  if !csrAllowed 0x5C0 mode true then k.instrTrap h (csrCause 0x5C0 mode true)
  else if mode == .s && (tag < g.tagLo || g.tagHi < tag) then k.instrTrap h 2
  else k.setHart h fun g => { g with sillage := tag }

/-- R262: a write of qfopp.REQ, which waits for the beat boundary; of several the last takes effect. -/
def Chip.qfoppWrite (k : Chip) (h value : Nat) : Chip :=
  k.setHart h fun g => { g with oppHeld := some (value % 16) }

/-- R254: an access to a Kloesk CSR: the exception it raises, or, where the table allows it, its effect. -/
def Chip.csrAccess (k : Chip) (h csr : Nat) (mode : Mode) (isWrite : Bool) (value : Nat) : Chip :=
  if !csrAllowed csr mode isWrite then k.instrTrap h (csrCause csr mode isWrite)
  else if !isWrite then
    let (v, k) := k.csrRead h csr
    k.emit (.csrValue h v)
  else if csr == 0x5C0 then k.qfsillageWrite h mode value
  else if csr == 0x5C1 then k.qfoppWrite h value
  else if csr == 0x7C0 then k.qfworldWrite h value (value / 2)
  else k.setHart h fun g => { g with tagLo := bits value 0 8, tagHi := bits value 8 8 }

/-! ### Moves (R266, R267, R273) -/

/-- R267: `n` held MSIs of hart ID `h` discarded: counted in the record of its takeover. -/
def Chip.countHeld (k : Chip) (h n : Nat) : Chip :=
  match k.gn.log.findIdx? fun r => leAt r 5 1 == 0 && leAt r 6 2 == h && leAt r 25 1 == 7 with
  | some i =>
    let r := k.gn.log.getD i []
    let r := r.take 28 ++ leBytes (satAdd (leAt r 28 4) n 32) 4 ++ r.drop 32
    { k with gn := { k.gn with log := k.gn.log.set i r } }
  | none => k

/-- R266, R267, R273: the spare reaches the reset vector as hart ID `h`, its files empty, the hart ID stopped.
(DEDUCED, log 60) -/
def Chip.takeoverComplete (k : Chip) (h : Nat) : Chip :=
  let g := k.hart h
  match g.moving with
  | some (t, reason) =>
    if 2 < reason then k else
    (k.countHeld h g.heldMsis.length).setHart h fun g => g.afterReset t reason k.stubInForce
  | none => k

/-- R266, R267: hart ID `h` runs on the spare with its context, and the held MSIs reach its files. (DEDUCED, log 60) -/
def Chip.migrationComplete (k : Chip) (h : Nat) : Chip :=
  let g := k.hart h
  match g.moving with
  | some (t, reason) =>
    if reason ≤ 2 then k else
    k.setHart h fun g => g.heldMsis.foldl (fun g m => g.deliver m.1 m.2) { g with
      ptile := some t, moved := true, reason := reason, moves := min 255 (g.moves + 1), moving := none, heldMsis := [] }
  | none => k

/-! ### The commands -/

/-- QFWORLD_WRITE (R256). -/
def execQfworldWrite (hart w pw : Nat) (s : State) : Host.Outcome State Fault Refusal :=
  s.commit (s.chip.qfworldWrite hart w pw)

/-- QFSILLAGE_WRITE (R259). -/
def execQfsillageWrite (hart : Nat) (mode : Mode) (value : Nat) (s : State) : Host.Outcome State Fault Refusal :=
  s.commit (s.chip.qfsillageWrite hart mode value)

/-- QFOPP_WRITE (R262). -/
def execQfoppWrite (hart value : Nat) (s : State) : Host.Outcome State Fault Refusal :=
  s.commit (s.chip.qfoppWrite hart value)

/-- CUSTOM_CSR_ILLEGAL (R254). -/
def execCustomCsrIllegal (hart csr : Nat) (mode : Mode) (isWrite : Bool) (value : Nat) (s : State) :
    Host.Outcome State Fault Refusal :=
  s.commit (s.chip.csrAccess hart csr mode isWrite value)

/-- TRAP_TO_M_MODE (R256, R447); the command carries no mtval, so it is a free value. -/
def execTrapToMMode (hart cause mepc mpp : Nat) (mpv : Bool) (s : State) : Host.Outcome State Fault Refusal :=
  let (t, k) := s.chip.fresh
  s.commit (k.trapM hart cause mepc mpp mpv t)

/-- MRET (R256, R447, R449, R453). -/
def execMret (hart : Nat) (s : State) : Host.Outcome State Fault Refusal :=
  s.commit (s.chip.setHart hart fun g => g.mret (s.chip.on WS_DEBUG.NID))

/-- CORE_FAULT (R270, R273). -/
def execCoreFault (hart : Nat) (s : State) : Host.Outcome State Fault Refusal := s.commit (s.chip.hartFails hart)

/-- HART_HANG_TIMEOUT (R270). -/
def execHartHangTimeout (hart : Nat) (s : State) : Host.Outcome State Fault Refusal := s.commit (s.chip.hartFails hart)

/-- TAKEOVER_COMPLETE (R266, R267, R273). -/
def execTakeoverComplete (hart : Nat) (s : State) : Host.Outcome State Fault Refusal :=
  s.commit (s.chip.takeoverComplete hart)

/-- MIGRATION_COMPLETE (R266, R267). -/
def execMigrationComplete (hart : Nat) (s : State) : Host.Outcome State Fault Refusal :=
  s.commit (s.chip.migrationComplete hart)

/-- MSI_DELIVERY (R251, R267, R444). -/
def execMsiDelivery (addr data : Nat) (who : By) (width : Nat) (s : State) : Host.Outcome State Fault Refusal :=
  s.commit (s.chip.msiWrite addr data who.w width who.source)

end Sys2Proof.Machine
end

