-- ==== Sys2Proof/Machine/MediaOps.lean ====
section
/-!
DEFINITION. Shared operations of the media queue engine (09): events, NVMe commands, zones, and placements from their
creation at a commit (R193, R238) to their result records (R241), with the pushes that leave beside them.
-/

namespace Sys2Proof.Machine

/-- Target `t` of the media queue engine. -/
abbrev Chip.target (k : Chip) (t : Nat) : Target := Tbl.get {} k.mq.targets t

/-- Target `t` changed by `f`. -/
def Chip.setTarget (k : Chip) (t : Nat) (f : Target → Target) : Chip :=
  { k with mq := { k.mq with targets := Tbl.mod {} k.mq.targets t f } }

/-- Queue pair `p`. -/
abbrev Chip.qpair (k : Chip) (p : Nat) : QPair := Tbl.get {} k.mq.qps p

/-- Queue pair `p` changed by `f`. -/
def Chip.setQpair (k : Chip) (p : Nat) (f : QPair → QPair) : Chip :=
  { k with mq := { k.mq with qps := Tbl.mod {} k.mq.qps p f } }

/-- The key of zone `z` of target `t`'s pool. -/
def zoneKey (t z : Nat) : Nat := t * 2 ^ 32 + z

/-- Zone `z` of target `t`'s pool. -/
abbrev Chip.zone (k : Chip) (t z : Nat) : Zone := Tbl.get {} k.mq.zones (zoneKey t z)

/-- Zone `z` of target `t`'s pool changed by `f`. -/
def Chip.setZone (k : Chip) (t z : Nat) (f : Zone → Zone) : Chip :=
  { k with mq := { k.mq with zones := Tbl.mod {} k.mq.zones (zoneKey t z) f } }

/-- R231: ENABLE of a target. -/
def Target.enabled (t : Target) : Bool := bit t.flags 0

/-- R231: ZONED of a target. -/
def Target.zoned (t : Target) : Bool := bit t.flags 1

/-- R231: FUA of a target. -/
def Target.fua (t : Target) : Bool := bit t.flags 2

/-- R245: a bit of MQ_EVENT set with what MQ_EVENT_INFO then shows; the MSI goes out when the bit newly sets. -/
def Chip.mqEvent (k : Chip) (f : Fld) (target port nvme : Nat) : Chip :=
  let was := k.on f
  let k := ((((k.raise f).wr MQ_EVENT_INFO.TARGET target).wr MQ_EVENT_INFO.PORT port).wr MQ_EVENT_INFO.NVME_STATUS
    (nvme % 2048)).wr MQ_EVENT_INFO.EVENT f.lo
  if was then k else k.emit (.msi (k.rd MQ_MSI_ADDR.ADDR) (k.rd MQ_MSI_DATA.DATA))

/-! ### NVMe commands (R233 to R236) -/

/-- A submission queue entry: opcode, namespace, first data pointer, command dwords 10 to 15. (PRESUMED, log 54) -/
def nvmeEntry (op cid nsid prp : Nat) (dwords : List Nat) : Bytes :=
  padTo (leBytes op 1 ++ zeros 1 ++ leBytes cid 2 ++ leBytes nsid 4 ++ zeros 16 ++ leBytes prp 8 ++ zeros 8 ++
    dwords.flatMap fun d => leBytes d 4) 64

/-- A submission queue entry with another command identifier. -/
def withCid (sqe : Bytes) (cid : Nat) : Bytes := sqe.take 2 ++ leBytes cid 2 ++ sqe.drop 4

/-- The command `c` sent on its queue pair under a new identifier, its entry written in the SQ and the drive's doorbell
rung; it is kept under number `n` until it completes (R234, R243); after a Package-fatal condition no
command is issued (R419). -/
def Chip.sendNvme (k : Chip) (n : Nat) (c : MediaCmd) : Chip :=
  if k.flt.fatal then k else
  let q := k.qpair c.qp
  let sqe := withCid c.sqe q.nextCid
  let at_ := q.sqBase + 64 * (q.sqTail % 2 ^ q.qlog2)
  let k := if at_ + 64 ≤ k.dramSize then k.store at_ sqe else k
  let tail := (q.sqTail + 1) % 2 ^ q.qlog2
  let k := k.setQpair c.qp fun q => { q with sqTail := tail, nextCid := (q.nextCid + 1) % 65536 }
  let k := (k.emit (.driveCommand c.qp q.nextCid sqe)).emit (.driveDoorbell c.qp false tail)
  { k with mq := { k.mq with cmds := k.mq.cmds.insert n { c with cid := q.nextCid, sqe := sqe, aborted := false } } }

/-- A new command sent. -/
def Chip.newNvme (k : Chip) (c : MediaCmd) : Chip :=
  let n := k.mq.nextCmd
  { k with mq := { k.mq with nextCmd := n + 1 } }.sendNvme n c

/-- R231: the target whose queue pairs target `t` uses: the first enabled one on the same controller. -/
def Chip.pairOwner (k : Chip) (t : Nat) : Nat :=
  let g := k.target t
  match k.mq.targets.find? fun e => e.2.enabled && e.2.port == g.port && e.2.rid == g.rid with
  | some e => e.1
  | none => t

/-- The admin pair of target `t`. -/
def Chip.adminPair (k : Chip) (t : Nat) : Nat := (k.target (k.pairOwner t)).qpFirst

/-- The I/O pair that the next command for target `t` takes, in turn. -/
def Chip.ioPair (k : Chip) (t : Nat) : Nat :=
  let o := k.target (k.pairOwner t)
  o.qpFirst + 1 + k.mq.nextCmd % max 1 o.qpCount

/-- The dwords 10 and 11 of a 64-bit LBA. -/
def lbaDwords (lba : Nat) : List Nat := [lba % 2 ^ 32, lba / 2 ^ 32]

/-- The start LBA of zone `z` of a target's pool. -/
def Target.zoneStart (t : Target) (z : Nat) : Nat := t.zoneFirst + z * t.zoneSize

/-- Zone Management Send for zone `z`: action 2 finishes it, action 3 opens it. -/
def Chip.zoneSend (k : Chip) (t z action : Nat) : Chip :=
  let g := k.target t
  k.newNvme
    { target := t, qp := k.ioPair t, use := .zoneMgmt z action, zone := z
      sqe := nvmeEntry 0x79 0 g.nsid 0 (lbaDwords (g.zoneStart z) ++ [0, action, 0, 0]) }

/-! ### Zones (R239) -/

/-- The lowest Empty zone of target `t`'s pool: the least number that neither is open nor has been written. -/
def Chip.nextEmpty (k : Chip) (t : Nat) : Option Nat :=
  let g := k.target t
  (List.range (min g.zoneCount (k.mq.zones.length + g.openZones.length + 1))).find? fun z =>
    !g.openZones.contains z && !(k.zone t z).full && (k.zone t z).used == 0

/-- The next Empty zone of target `t` opened, where one is left. -/
def Chip.openNext (k : Chip) (t : Nat) : Chip :=
  match k.nextEmpty t with
  | none => k
  | some z => (k.zoneSend t z 3).setTarget t fun g => { g with openZones := g.openZones ++ [z] }

/-- Zone `z` of target `t` finished, and the next Empty zone opened in its place. -/
def Chip.finishZone (k : Chip) (t z : Nat) : Chip :=
  let k := (k.zoneSend t z 2).setZone t z fun r => { r with full := true }
  (k.setTarget t fun g => { g with openZones := g.openZones.filter (· != z) }).openNext t

/-- R239: the open zone that takes an extent of `x` LBAs, round robin; a zone without room is finished. -/
def Chip.pickZone : Nat → Chip → Nat → Nat → Chip × Option Nat
  | 0, k, _, _ => (k, none)
  | n + 1, k, t, x =>
    let g := k.target t
    match g.openZones[g.rr % max 1 g.openZones.length]? with
    | none => (k, none)
    | some z =>
      if (k.zone t z).used + x ≤ g.zoneCap then
        ((k.setZone t z fun r => { r with used := r.used + x }).setTarget t fun g => { g with rr := g.rr + 1 }, some z)
      else Chip.pickZone n (k.finishZone t z) t x

/-! ### The end of a placement (R194, R241, R242) -/

/-- R194: a result record. -/
def resultRecord (status fragment stripe locator : Nat) : Bytes :=
  leBytes status 2 ++ leBytes fragment 2 ++ leBytes stripe 4 ++ leBytes (if status == 0 then locator else 0) 8

/-- The result record of a fragment of job `c`, and the job's first failed entry (R194, R195, R242, R575). -/
def Chip.writeResult (k : Chip) (c entry at_ : Nat) (rec_ : Bytes) (failed : Bool) : Chip :=
  let j := k.job c
  let (k, ok) := if at_ == 0 then (k, true) else k.dmaWrite (k.devOfRing j.ring j.internal) at_ rec_
  k.setJob c fun j => { j with
    stop := if ok then j.stop else some (j.stop.getD (6, 10))
    placeFail := if failed then some (min entry (j.placeFail.getD entry)) else j.placeFail }

/-- R193, R241: the end of placement `p` with `status`; `lba` is the fragment's first LBA. -/
def Chip.endPlacement (k : Chip) (p status lba : Nat) : Chip :=
  match k.mq.places.find p with
  | none => k
  | some q =>
    let k := { k with mq := { k.mq with places := k.mq.places.erase p } }
    let loc := q.target % 4096 + lba * 65536
    let k := if status == 0 then k else
      let g := k.target q.target
      let k := k.mqEvent MQ_EVENT.MEDIA_ERROR q.target g.port 0
      if status == 4 then k.mqEvent MQ_EVENT.POOL_EMPTY q.target g.port 0 else k
    let k := match q.push with
      | some (peer, tag) =>
        let st := if status == 0 then 0 else 5
        let body := leBytes st 2 ++ zeros 6 ++ leBytes (if st == 0 then loc else 0) 8
        let k := k.sendFlow (k.newFrame 5 1 peer q.window tag true body)
        { k with cn := { k.cn with windows := Tbl.mod {} k.cn.windows q.window fun w =>
            { w with slots := w.slots.filter (· != q.slot) } } }
      | none => k
    match q.job with
    | some c => k.writeResult c q.entry q.resultAddr (resultRecord status q.fragment q.stripe loc) (status != 0)
    | none => k

/-- R241: every placement in `ps` is durable or has failed with `status`, each at the LBA it was written. -/
def Chip.endPlacements (k : Chip) (ps : List Nat) (status : Nat) : Chip :=
  ps.foldl (fun k p => k.endPlacement p status (Tbl.get {} k.mq.places p).lba) k

/-! ### Issue (R239, R240) -/

/-- R239: the LBAs of a fragment of `len` bytes. -/
def Target.extent (t : Target) (len : Nat) : Nat := ceilDiv len (2 ^ t.lbaLog2)

/-- R239: the command of placement `p` sent, in open zone `z` for an append. (DEDUCED, log 56) -/
def Chip.sendPlace (k : Chip) (p z : Nat) : MediaCmd :=
  let q := Tbl.get {} k.mq.places p
  let g := k.target q.target
  let x := g.extent q.len
  let control := x - 1 + if g.fua then 2 ^ 30 else 0
  { target := q.target, qp := k.ioPair q.target, use := .place p, zone := z
    sqe := if q.zoned then nvmeEntry 0x7D 0 g.nsid q.addr (lbaDwords (g.zoneStart z) ++ [control, 0, 0, 0])
      else nvmeEntry 0x01 0 g.nsid q.addr (lbaDwords q.lba ++ [control, 0, 0, 0]) }

/-- R238 to R240: placement `p` issued; a target that is not ready, or a pool without room, ends it. -/
def Chip.issuePlace (k : Chip) (p : Nat) : Chip :=
  let q := Tbl.get {} k.mq.places p
  let g := k.target q.target
  if g.state != 2 || !k.on MQ_CTRL.ENABLE then k.endPlacement p 2 0 else
  let k := { k with mq := { k.mq with places := k.mq.places.insert p { q with issued := true } } }
  if !q.zoned then k.newNvme (k.sendPlace p 0) else
  let x := g.extent q.len
  if g.zoneCap < x then k.endPlacement p 4 0 else
  match Chip.pickZone (g.openZones.length + 2) k q.target x with
  | (k, none) => k.endPlacement p 4 0
  | (k, some z) => k.newNvme (k.sendPlace p z)

/-- R240: at a beat boundary, the commands of the placements that wait. -/
def Chip.issuePlaces (k : Chip) : Chip :=
  (k.mq.places.filter fun e => !e.2.issued).foldl (fun k e => k.issuePlace e.1) k

/-- R240: at a beat boundary, one Flush to each target without FUA that has writes no Flush covers. -/
def Chip.flushTargets (k : Chip) : Chip :=
  (k.mq.targets.filter fun e => !e.2.uncovered.isEmpty && e.2.state == 2).foldl (fun k e =>
    (k.setTarget e.1 fun g => { g with uncovered := [] }).newNvme
      { target := e.1, qp := k.ioPair e.1, use := .flush e.2.uncovered
        sqe := nvmeEntry 0x00 0 e.2.nsid 0 [] }) k

/-- A placement added, to be issued at the next boundary. -/
def Chip.addPlace (k : Chip) (q : Placement) : Chip :=
  { k with mq := { k.mq with
    places := k.mq.places.insert k.mq.nextPlace q
    nextPlace := k.mq.nextPlace + 1 } }

/-! ### The fragments of a commit (R192 to R194, R238) -/

/-- R192: the entry that fragment `x` follows: the first in list order whose range holds its index. -/
def placeEntry (list : Bytes) (x : Nat) : Option (Nat × Bytes) :=
  ((List.range (list.length / 32)).map fun i => (i, slice list (32 * i) 32)).find? fun e =>
    decide (leAt e.2 6 2 ≤ x ∧ x ≤ leAt e.2 8 2)

/-- R177, R193: the PUSH frames of a fragment of `bytes`, its first FLOW_SEQ kept; a poisoned read is sent with POISON.
(DEDUCED, log 48) -/
def Chip.sendPush (k : Chip) (dst window tag : Nat) (bytes : Bytes) (poison : Bool) : Chip :=
  let ps := pieces 224 bytes
  ps.zipIdx.foldl (fun k p => k.sendFlow
    { k.newFrame 4 0 dst window (tag * 2 ^ 21 + 224 * p.2) (p.2 + 1 == ps.length) p.1 with poison := poison }) k

/-- The bytes of push `tag` read from DST and sent; a DST that cannot be read stops the job with IOMMU_FAULT. -/
def Chip.pushFragment (k : Chip) (tag : Nat) : Chip :=
  let u := Tbl.get {} k.cn.pushes tag
  let (dev, c) := match u.job with
    | some c => (k.devOfRing (k.job c).ring (k.job c).internal, c)
    | none => (0, 0)
  let first := (k.flow u.peer 0).txSeq
  let k := { k with cn := { k.cn with pushes := k.cn.pushes.insert tag { u with flowSeq := first, sentAt := k.time } } }
  match k.readBack dev u.addr u.len with
  | .bytes b => k.sendPush u.peer u.window tag b false
  | .fault _ =>
    { k with cn := { k.cn with pushes := k.cn.pushes.erase tag } }.setJob c fun j =>
      { j with stop := some (j.stop.getD (6, 1)) }
  | _ => k.sendPush u.peer u.window tag (zeros u.len) true

/-- The lowest PUSH_TAG not in use, at or after the next one (R177: 11 bits). -/
def Chip.newPushTag (k : Chip) : Option Nat :=
  ((List.range 2048).map fun i => (k.cn.nextPush + i) % 2048).find? fun t => (k.cn.pushes.find t).isNone

/-- A push sent under a new tag, or left waiting for one. -/
def Chip.startPush (k : Chip) (u : Push) : Chip :=
  match k.newPushTag with
  | none => { k with cn := { k.cn with pushQueue := k.cn.pushQueue ++ [u] } }
  | some tag =>
    Chip.pushFragment { k with cn := { k.cn with pushes := k.cn.pushes.insert tag u, nextPush := (tag + 1) % 2048 } } tag

/-- R195, R242: the end of push `tag`; one that waited for a tag follows. -/
def Chip.endPush (k : Chip) (tag status locator : Nat) : Chip :=
  match k.cn.pushes.find tag with
  | none => k
  | some u =>
    let k := { k with cn := { k.cn with pushes := k.cn.pushes.erase tag } }
    let k := match u.job with
      | some c => k.writeResult c u.entry u.resultAddr (resultRecord status u.fragment u.stripe locator) (status != 0)
      | none => k
    match k.cn.pushQueue with
    | [] => k
    | w :: t => { k with cn := { k.cn with pushQueue := t } }.startPush w

/-- R192 to R194, R238: one fragment of job `c` placed under the entry it follows, if any. -/
def Chip.placeFragment (k : Chip) (c : Nat) (list : Bytes) (f : Nat × Nat × Nat) : Chip :=
  match placeEntry list f.2.1 with
  | none => k
  | some (i, e) =>
    let j := k.job c
    let n := Tbl.get 0 j.placed i
    let len := 64 + j.regionCode.f
    let results := leAt e 16 8
    let at_ := if results == 0 then 0 else results + 16 * n
    let k := k.setJob c fun j => { j with placed := Tbl.set 0 j.placed i (n + 1) }
    if leAt e 0 1 == 0 then
      let t := leAt e 2 2 % 4096
      k.addPlace
        { job := some c, entry := i, object := j.desc.objectId, fragment := f.2.1, stripe := f.1, addr := f.2.2
          len := len, target := t, zoned := leAt e 1 1 == 0
          lba := leAt e 24 8 + n * (k.target t).extent len, resultAddr := at_ }
    else if leAt e 0 1 == 1 then
      let dst := leAt e 2 2 % 16384
      let u : Push :=
        { peer := dst, window := leAt e 4 2 % 1024, job := some c, entry := i, stripe := f.1, fragment := f.2.1
          addr := f.2.2, len := len, resultAddr := at_ }
      if k.reachable dst then k.startPush u else k.writeResult c i at_ (resultRecord 6 f.2.1 f.1 0) true
    else k

/-- Whether every placement and push of job `c` has its final outcome (R195, R242). -/
def Chip.placesDone (k : Chip) (c : Nat) : Bool :=
  !(k.mq.places.any fun e => e.2.job == some c) && !(k.cn.pushes.any fun e => e.2.job == some c) &&
  !(k.cn.pushQueue.any fun u => u.job == some c)

end Sys2Proof.Machine
end

