-- ==== Sys2Proof/Machine/Conos.lean ====
section
/-!
DEFINITION. The commands of Conos (07): training, the link and its retransmission, flows, the operations at their destination
and at their source, windows and routes, beat alignment and the wake pattern.
-/

namespace Sys2Proof.Machine

/-! ### Ports and training (R174, R175, R198 to R200) -/

/-- The state of Conos port `n`: 0 DOWN, 1 TRAINING, 2 UP, 3 RETRAINING, 4 FAILED. -/
def Chip.cnState (k : Chip) (n : Nat) : Nat := k.rd (CN_PORT_STATUS.STATE n)

/-- Whether port `n` trains. -/
def Chip.cnTraining (k : Chip) (n : Nat) : Bool := k.cnState n == 1 || k.cnState n == 3

/-- R174: port `n` begins to train at step 1. -/
def Chip.startTraining (k : Chip) (n : Nat) : Chip :=
  ((k.wr (CN_PORT_STATUS.STATE n) 1).wr (CN_PORT_STATUS.STEP n) 1).setPort n fun p => { p with
    failures := 0, timer := false, identHeld := false, identSeen := false }

/-- R174: 1 written to ENABLE: a port that is down or has failed trains. -/
def Chip.cnEnable (k : Chip) (n : Nat) : Chip :=
  let k := k.wr (CN_PORT_CTRL.ENABLE n) 1
  if k.cnState n == 0 || k.cnState n == 4 then k.startTraining n else k

/-- R174: 0 written to ENABLE: the port no longer runs. -/
def Chip.cnDisable (k : Chip) (n : Nat) : Chip :=
  ((k.wr (CN_PORT_CTRL.ENABLE n) 0).wr (CN_PORT_STATUS.STATE n) 0).setPort n fun p => { p with
    timer := false, replay := [], waiting := [], identHeld := false, identSeen := false }

/-- R174, R200, R442: port `n` has failed: the event of R174 and its record. (DEDUCED, log 45) -/
def Chip.cnPortFailed (k : Chip) (n state : Nat) : Chip :=
  let k := (k.wr (CN_PORT_STATUS.STATE n) state).setPort n fun p => { p with timer := false, replay := [], waiting := [] }
  let peer := k.rd (CN_PORT_STATUS.PEER_PKG n)
  (k.cnEvent CN_EVENT.PORT_FAILED peer n 0 0).log
    { cls := 2, unitType := 11, unit := n, cause := CN_EVENT.PORT_FAILED.lo, status := 3
      info0 := peer + n * 2 ^ 14 + CN_EVENT.PORT_FAILED.lo * 2 ^ 35 }

/-- R174: a step fails: the port waits 10 ms, or has failed once too often; the frames of a port that retrained in vain pass
to the end-to-end store (R178). -/
def Chip.trainFail (k : Chip) (n : Nat) : Chip :=
  let p := k.port n
  let f := if k.time < p.wakeRetry then p.failures else p.failures + 1
  if orDefault (k.rd (CN_PORT_CTRL.RETRIES n)) 3 ≤ f then (k.setPort n fun p => { p with failures := f }).cnPortFailed n 4
  else
    (k.wr (CN_PORT_STATUS.STATE n) 1).setPort n fun p => { p with
      failures := f, timer := true, replay := [], identHeld := false, identSeen := false }

/-- R175: the IDENT frame that port `n` sends at step 4: PKG_ID, the port, the serial, LEN and version 1. -/
def Chip.identFrame (k : Chip) (n : Nat) : Frame :=
  k.newFrame 11 2 0 0 0 true
    (leBytes (k.rd CN_ID.PKG_ID) 2 ++ leBytes n 1 ++ leBytes Config.packageSerial 8 ++ leBytes (k.rd BT_CTRL.LEN) 1 ++ [1])

/-- R178: the frames of port `n` that are not acknowledged sent once more. -/
def Chip.resendReplay (k : Chip) (n : Nat) : Chip := k.emitAll ((k.port n).replay.map fun f => .frame n f)

/-- R174: step 6 passed: the port is UP with fresh credits, and what waited goes out; LINK_SEQ begins anew unless the port
retrained. -/
def Chip.cnUp (k : Chip) (n : Nat) : Chip :=
  let again := k.cnState n == 3
  let k := (k.wr (CN_PORT_STATUS.STATE n) 2).setPort n fun p => { p with
    failures := 0, resends := 0, credits := [64, 64, 64], owed := [0, 0, 0]
    txSeq := if again then p.txSeq else 0
    rxSeq := if again then p.rxSeq else 0
    replay := if again then p.replay else [] }
  (k.resendReplay n).drainPort n

/-- R174: a training step ends. A port held by an ID conflict stays at step 4 (R175). (DEDUCED, log 45) -/
def Chip.trainingStep (k : Chip) (n : Nat) (ok : Bool) : Chip :=
  let s := k.rd (CN_PORT_STATUS.STEP n)
  if !k.cnTraining n || (k.port n).timer then k
  else if !ok then k.trainFail n
  else if s == 4 && (k.port n).identHeld then k
  else if 6 ≤ s then k.cnUp n
  else
    let k := k.wr (CN_PORT_STATUS.STEP n) (s + 1)
    if s == 3 then k.emit (.frame n (k.identFrame n)) else k

/-- R175: the peer's IDENT. (DEDUCED, log 45) -/
def Chip.identArrives (k : Chip) (n pkg peerPort version : Nat) : Chip :=
  if !k.cnTraining n || k.rd (CN_PORT_STATUS.STEP n) != 4 || (k.port n).timer then k
  else if pkg == k.rd CN_ID.PKG_ID then
    (k.setPort n fun p => { p with identHeld := true }).cnEvent CN_EVENT.ID_CONFLICT pkg n 0 0
  else if version != 1 then k.trainFail n
  else
    ((k.wr (CN_PORT_STATUS.PEER_PKG n) pkg).wr (CN_PORT_STATUS.PEER_PORT n) peerPort).setPort n fun p => { p with
      identHeld := false, identSeen := true, peerPkg := pkg }

/-- R198: the wake pattern goes out on the ports of a mask that are down or have failed. (DESIGN CHOICE, log 50) -/
def Chip.wakeSend (k : Chip) (mask : Nat) : Chip :=
  ((setBits mask 4).filter fun n => k.cnState n == 0 || k.cnState n == 4).foldl (fun k n =>
    ((k.wr CN_WAKE.SENDING (setBit (k.rd CN_WAKE.SENDING) n)).setPort n fun p => { p with
      pattern := true, wakeRetry := k.time + 100000000 }).emit (.wakePattern n)) k

/-- R198: the pattern ends, and the port trains. -/
def Chip.wakeEnd (k : Chip) (n : Nat) : Chip :=
  if !(k.port n).pattern then k else
  ((k.wr CN_WAKE.SENDING (clearBit (k.rd CN_WAKE.SENDING) n)).setPort n fun p => { p with pattern := false }).startTraining n

/-- R199: the detector of port `n` fires. -/
def Chip.wakeSeen (k : Chip) (n : Nat) : Chip :=
  let k := (k.wr CN_WAKE.SEEN (setBit (k.rd CN_WAKE.SEEN) n)).setPort n fun p => { p with wakeRetry := k.time + 100000000 }
  match k.pwr.pkg with
  | .standby | .drydown => if bit (k.rd PWR_WAKE.EN) 1 then k.emit (.power "WAKE" 1 n) else k
  | _ => k

/-! ### The link (R178, R179) -/

/-- Whether sequence number `a` is at or before `b` on a counter of `w` bits. -/
def serialLe (a b w : Nat) : Bool := decide (wrapSub b a w < 2 ^ (w - 1))

/-- R178: the frames that LINK_ACK covers leave the replay buffer. -/
def Chip.linkAcked (k : Chip) (n ack : Nat) : Chip :=
  k.setPort n fun p =>
    let left := p.replay.filter fun f => !serialLe f.linkSeq ack 16
    { p with replay := left, resends := if left.length < p.replay.length then 0 else p.resends }

/-- R178: port `n` resends from its oldest unacknowledged frame; after 8 resends without progress it retrains. -/
def Chip.linkResend (k : Chip) (n : Nat) : Chip :=
  let p := k.port n
  if p.replay.isEmpty || k.cnState n != 2 then k
  else if 8 ≤ p.resends then
    ((k.wr (CN_PORT_STATUS.STATE n) 3).wr (CN_PORT_STATUS.STEP n) 1).setPort n fun p => { p with
      resends := 0, failures := 0, timer := false, identHeld := false }
  else
    let k := (k.setPort n fun p => { p with resends := p.resends + 1 }).bump (CN_PORT_CNT.RESENDS n) 1
    (k.count 8 n 2 1).resendReplay n

/-- R178: the LINK_NAK that port `n` sends: LINK_ACK is the last frame it accepted. (DEDUCED, log 46) -/
def Chip.sendNak (k : Chip) (n : Nat) : Chip :=
  k.emit (.frame n { k.newFrame 0 2 0 0 0 true [] with
    kind := 0, nak := true, linkAck := wrapSub (k.port n).rxSeq 1 16 })

/-- R178, R179, R182: a frame arrives on port `n`. One for this package is an operation, which its own command carries on; a
frame in transit goes on. (DEDUCED, log 46) -/
def Chip.frameArrives (k : Chip) (n : Nat) (f : Frame) (crcOk : Bool) : Chip :=
  if k.cnState n != 2 then k
  else if !crcOk then k.sendNak n
  else
    let k := k.linkAcked n f.linkAck
    let k := (k.setPort n fun p => { p with
      credits := p.credits.set f.creditVc (min 64 (p.credits.getD f.creditVc 64 + f.credit)) }).drainPort n
    let k := if f.nak then k.linkResend n else k
    let p := k.port n
    if f.kind == 0 then k
    else if f.linkSeq != p.rxSeq then if serialLe f.linkSeq p.rxSeq 16 then k else k.sendNak n
    else
      let k := (k.setPort n fun p => { p with
        rxSeq := (p.rxSeq + 1) % 65536
        owed := p.owed.set f.vc (p.owed.getD f.vc 0 + 1) }).count 8 n 1 1
      if f.kind == 3 || f.op == 11 || f.dst == k.rd CN_ID.PKG_ID then k
      else if f.ttl == 0 then k.cnEvent CN_EVENT.TTL_EXPIRED f.src n f.window 0
      else k.sendFrame { f with ttl := f.ttl - 1 }

/-! ### Flows (R180, R181) -/

/-- R181: the number of frames of a flow that may be on their way. -/
def flowLimit : Nat := 1024

/-- R180, R181: a FLOW_ACK: the frames it covers leave the store, and frames that waited for room go out. -/
def Chip.flowAcked (k : Chip) (peer vc seq : Nat) : Chip :=
  let l := k.flow peer vc
  let left := l.unacked.filter fun f => !serialLe f.flowSeq seq 32
  let gone := l.unacked.length - left.length
  if gone == 0 then k else
  let sent := min flowLimit l.unacked.length - gone
  let k := k.setFlow peer vc fun l => { l with unacked := left, resends := 0 }
  (((left.take flowLimit).drop sent).foldl Chip.sendFrame k)

/-- R191: remote read `tag` fails: every line comes with the poison mark. -/
def Chip.failRead (k : Chip) (tag status : Nat) : Chip :=
  match k.cn.reads.find tag with
  | none => k
  | some r =>
    let k := { k with cn := { k.cn with reads := k.cn.reads.erase tag } }
    let k := k.cnEvent CN_EVENT.READ_FAILED r.peer 0 r.window status
    match r.hart with
    | some h => (k.emit (.loadValue h 0 true)).machineCheck h 24 (2 ^ 51 + r.peer * 2 ^ 36 + r.window * 2 ^ 26 + r.off)
    | none => k

/-- R191: a remote write is refused: the event, and a job that wrote stops. -/
def Chip.writeRefused (k : Chip) (peer window seq status : Nat) : Chip :=
  let k := k.cnEvent CN_EVENT.REFUSED peer 0 window status
  match k.cn.writers.find? fun w => w.1 == peer && w.2.1 == seq with
  | some w => k.setJob w.2.2 fun j => { j with stop := some (j.stop.getD (6, 1)) }
  | none => k

/-- R181: a flow fails: its outstanding operations fail with FLOW_FAILED, and its next frame carries SYNC.
(DEDUCED, log 47) -/
def Chip.flowFail (k : Chip) (peer vc : Nat) : Chip :=
  let lost := (k.flow peer vc).unacked
  let k := k.setFlow peer vc fun l => { l with unacked := [], resends := 0, syncDue := true, failed := true }
  let k := k.cnEvent CN_EVENT.FLOW_FAILED peer 0 0 7
  if vc != 0 then k else
  let k := (k.cn.writers.filter fun w => w.1 == peer && lost.any fun f => f.flowSeq == w.2.1).foldl (fun k w =>
    k.setJob w.2.2 fun j => { j with stop := some (j.stop.getD (6, 1)) }) k
  let k := (k.cn.reads.filter fun e => e.2.peer == peer).foldl (fun k e => k.failRead e.1 7) k
  (k.cn.pushes.filter fun e => e.2.peer == peer).foldl (fun k e => k.endPush e.1 7 0) k

/-- R181: the source resends from the oldest unacknowledged frame; after 8 resends without progress the flow fails. -/
def Chip.flowResend (k : Chip) (peer vc : Nat) : Chip :=
  let l := k.flow peer vc
  if l.unacked.isEmpty || k.flt.fatal then k
  else if 8 ≤ l.resends then k.flowFail peer vc
  else
    let k := k.setFlow peer vc fun l => { l with resends := l.resends + 1 }
    let k := match k.route peer with
      | some n => k.count 8 n 3 1
      | none => k
    (l.unacked.take flowLimit).foldl Chip.sendFrame k

/-- R181: a FLOW_NAK: the frames before the expected one have arrived, and the rest go out again. -/
def Chip.flowNaked (k : Chip) (peer vc seq : Nat) : Chip := (k.flowAcked peer vc (wrapSub seq 1 32)).flowResend peer vc

/-- R180, R181: frame `f` reaches this package in its flow: whether it is accepted. Conos must be on (R201), and flows have
not stopped (R419). -/
def Chip.flowArrives (k : Chip) (f : Frame) : Chip × Bool :=
  if !k.on CN_CTRL.ENABLE || k.flt.fatal then (k, false) else
  let reply := fun (k : Chip) (op seq : Nat) => k.sendFrame (k.newFrame op 2 f.src 0 seq true [BitVec.ofNat 8 f.vc])
  let k := if f.sync then k.setFlow f.src f.vc fun l => { l with rxSeq := f.flowSeq, op := none, refused := false } else k
  let want := (k.flow f.src f.vc).rxSeq
  if f.flowSeq == want then (k.setFlow f.src f.vc fun l => { l with rxSeq := (want + 1) % 2 ^ 32 }, true)
  else if serialLe f.flowSeq want 32 then (reply k 7 (wrapSub want 1 32), false)
  else (reply k 8 want, false)

/-- R180: the FLOW_ACK of an accepted frame. -/
def Chip.ackFlow (k : Chip) (f : Frame) : Chip :=
  k.sendFrame (k.newFrame 7 2 f.src 0 f.flowSeq true [BitVec.ofNat 8 f.vc])

/-! ### Windows (R184 to R188) -/

/-- Window `w`. -/
abbrev Chip.window (k : Chip) (w : Nat) : Window := Tbl.get {} k.cn.windows w

/-- Window `w` changed by `f`. -/
def Chip.setWindow (k : Chip) (w : Nat) (f : Window → Window) : Chip :=
  { k with cn := { k.cn with windows := Tbl.mod {} k.cn.windows w f } }

/-- R187: the mapping of a generation: the entry in effect, or an old one. -/
def Window.mapping (w : Window) (gen : Nat) : Option WinEntry :=
  if gen == w.gen then some w.entry else (w.old.find? fun o => o.1 == gen).map (·.2.1)

/-- R185: the checks of an operation up to its range: the status of the first that fails. `kind` is 1 with the bit of KIND
that must be set for MEMORY, or 2 for PUSH. -/
def WinEntry.denies (e : WinEntry) (src kind right off len : Nat) : Bool :=
  e.kind % 4 == 0 || !(e.peerLo ≤ src && src ≤ e.peerHi) || e.kind % 4 != kind || (kind == 1 && !bit e.kind right) ||
  (if kind == 2 then 2 ^ e.slotLog2 < len else 2 ^ e.sizeLog2 < off + len)

/-- R185, R186: an arriving operation is refused: OP_NAK names the FLOW_SEQ of its first frame. -/
def Chip.refuseOp (k : Chip) (f : Frame) (first status : Nat) : Chip :=
  k.sendFlow (k.newFrame 6 1 f.src f.window first true (leBytes status 2 ++
    leBytes (if status == 1 then ofBool (bit (k.window f.window).entry.kind 4) else 0) 1))

/-- R187: the operation that frame `f` belongs to, stamped when its first frame arrives. -/
def Chip.stampOp (k : Chip) (f : Frame) : Nat × Nat × Nat :=
  (k.flow f.src f.vc).op.getD (f.window, (k.window f.window).gen, f.flowSeq)

/-- The operation of a flow after frame `f` of it: none after its last frame. -/
def Chip.keepOp (k : Chip) (f : Frame) (op : Nat × Nat × Nat) (refused : Bool) : Chip :=
  k.setFlow f.src f.vc fun l => { l with
    op := if f.last then none else some op
    refused := !f.last && refused }

/-- R188: whether an operation stamped with an older generation of window `w` remains. -/
def Chip.olderInFlight (k : Chip) (w : Nat) : Bool :=
  let gen := (k.window w).gen
  (k.cn.flows.any fun e => e.2.op.any fun o => o.1 == w && o.2.1 != gen) ||
  (k.cn.landings.any fun e => e.2.window == w && e.2.gen != gen)

/-- R187: at a beat boundary the shadows become the entries, and old generations lose one boundary of grace; a mapping that
an access has begun under stays. -/
def Chip.commitWindows (k : Chip) : Chip :=
  let used := fun (w gen : Nat) =>
    (k.cn.flows.any fun e => e.2.op.any fun o => o.1 == w && o.2.1 == gen) ||
    (k.cn.landings.any fun e => e.2.window == w && e.2.gen == gen)
  { k with cn := { k.cn with windows := Tbl.mapVals {} k.cn.windows fun n w =>
      let old := (w.old.map fun o => (o.1, o.2.1, o.2.2 - 1)).filter fun o => o.2.2 != 0 || used n o.1
      match w.shadow with
      | some e => { w with
          entry := e, gen := (w.gen + 1) % 65536, shadow := none, old := old ++ [(w.gen, w.entry, 2)], draining := true }
      | none => { w with old := old } } }

/-- R188: no operation stamped with an older generation remains. -/
def Chip.winDrained (k : Chip) (w : Nat) : Chip :=
  if !(k.window w).draining || k.olderInFlight w then k else
  (k.setWindow w fun x => { x with draining := false, drained := true, old := [] }).cnEvent CN_EVENT.DRAINED 0 0 w 0

/-! ### Operations at the destination (R185, R190 to R193) -/

/-- R190: the lines of a write stashed towards the L3 of the window's die. -/
def Chip.stashWrite (k : Chip) (e : WinEntry) (iova n : Nat) : Chip :=
  if !bit e.kind 5 || !k.on HA_CTRL.STASH_EN then k else
  match k.translate e.deviceId iova n true with
  | .ok pa => (linesOf pa n).foldl (fun k l => k.emit (.coherence "SNP_STASH" e.stashDie l 0)) k
  | .error _ => k

/-- WRITE (R185, R187, R190). -/
def Chip.opWrite (k : Chip) (f : Frame) : Chip :=
  match k.flowArrives f with
  | (k, false) => k
  | (k, true) =>
    let op := k.stampOp f
    let off := f.arg % 2 ^ 26
    let done := fun (k : Chip) (refused : Bool) => (k.keepOp f op refused).ackFlow f
    if (k.flow f.src f.vc).refused then done k true else
    match (k.window op.1).mapping op.2.1 with
    | none => done (k.refuseOp f op.2.2 1) true
    | some e =>
      if e.denies f.src 1 3 off f.body.length then done (k.refuseOp f op.2.2 2) true
      else match k.dmaWrite e.deviceId (e.base + off) f.body f.poison with
        | (k, true) => done (k.stashWrite e (e.base + off) f.body.length) false
        | (k, false) => done (k.refuseOp f op.2.2 4) true

/-- READ_REQ (R185, R191): READ_RSP frames of at most 224 bytes; poison or a fault refuses the read.
(DEDUCED, log 47) -/
def Chip.opRead (k : Chip) (f : Frame) : Chip :=
  match k.flowArrives f with
  | (k, false) => k
  | (k, true) =>
    let len := leAt f.body 0 4
    let off := leAt f.body 4 4
    let e := (k.window f.window).entry
    let k := k.ackFlow f
    if len == 0 || 4096 < len || e.denies f.src 1 2 off len then k.refuseOp f f.flowSeq 2
    else match k.dmaRead [] e.deviceId (e.base + off) len with
      | .bytes b =>
        let ps := pieces 224 b
        ps.zipIdx.foldl (fun k p =>
          k.sendFlow (k.newFrame 3 1 f.src f.window (f.arg % 65536 + 65536 * p.2) (p.2 + 1 == ps.length) p.1)) k
      | .fault c => (k.iommuFault c e.deviceId (e.base + off)).refuseOp f f.flowSeq 4
      | _ => k.refuseOp f f.flowSeq 4

/-- R193: the lowest free landing slot of a window. -/
def Window.freeSlot (w : Window) (e : WinEntry) : Option Nat :=
  (List.range (min (2 ^ (e.sizeLog2 - e.slotLog2)) (w.slots.length + 1))).find? fun s => !w.slots.contains s

/-- An unfinished landing given up, its slot free. -/
def Chip.dropLanding (k : Chip) (key : Nat) : Chip :=
  match k.cn.landings.find key with
  | some x =>
    let k := k.setWindow x.window fun w => { w with slots := w.slots.filter (· != x.slot) }
    { k with cn := { k.cn with landings := k.cn.landings.erase key } }
  | none => k

/-- R193: the fragment of a landing is handed to the media queue engine. -/
def Chip.landed (k : Chip) (f : Frame) (x : Landing) (e : WinEntry) : Chip :=
  k.addPlace
    { push := some (f.src, f.arg / 2 ^ 21), window := x.window, slot := x.slot, object := leAt x.head 8 8
      fragment := leAt x.head 6 2, stripe := leAt x.head 16 4, addr := e.base + x.slot * 2 ^ e.slotLog2
      len := 64 + leAt x.head 32 4, target := e.mediaTarget % 4096, zoned := true }

/-- PUSH (R185, R187, R193): the first frame takes a slot; each lands its bytes; after the last the fragment is placed.
(DEDUCED, log 48) -/
def Chip.opPush (k : Chip) (f : Frame) : Chip :=
  match k.flowArrives f with
  | (k, false) => k
  | (k, true) =>
    let op := k.stampOp f
    let key := 2048 * f.src + f.arg / 2 ^ 21 % 2048
    let off := f.arg % 2 ^ 21
    let done := fun (k : Chip) (refused : Bool) => (k.keepOp f op refused).ackFlow f
    let forget := fun (k : Chip) => k.dropLanding key
    if (k.flow f.src f.vc).refused then done k true else
    let k := if off == 0 then forget k else k
    match (k.window op.1).mapping op.2.1 with
    | none => done ((forget k).refuseOp f op.2.2 1) true
    | some e =>
      let len := if off == 0 then 64 + leAt f.body 32 4 else off + f.body.length
      if e.denies f.src 2 0 0 len then done ((forget k).refuseOp f op.2.2 2) true
      else
        let x : Option Landing := match k.cn.landings.find key with
          | some x => some x
          | none => ((k.window op.1).freeSlot e).map fun s => { window := op.1, gen := op.2.1, slot := s }
        match x with
        | none => done (k.refuseOp f op.2.2 3) true
        | some x =>
          match k.dmaWrite e.deviceId (e.base + x.slot * 2 ^ e.slotLog2 + off) f.body f.poison with
          | (k, false) => done ((forget k).refuseOp f op.2.2 4) true
          | (k, true) =>
            let x := if off == 0 then { x with head := f.body.take 64 } else x
            let k := k.setWindow x.window fun w => { w with
              slots := if w.slots.contains x.slot then w.slots else x.slot :: w.slots }
            let k := { k with cn := { k.cn with
              landings := if f.last then k.cn.landings.erase key else k.cn.landings.insert key x } }
            done (if f.last then k.landed f x e else k) false

/-! ### Answers at the source (R191, R194, R195) -/

/-- READ_RSP (R191). -/
def Chip.opReadRsp (k : Chip) (f : Frame) : Chip :=
  match k.flowArrives f with
  | (k, false) => k
  | (k, true) =>
    let k := k.ackFlow f
    let tag := f.arg % 65536
    match k.cn.reads.find tag with
    | none => k
    | some r =>
      if r.peer != f.src then k else
      let n := f.arg / 65536
      let r := { r with
        got := if r.got.any (fun g => g.1 == n) then r.got else r.got ++ [(n, f.body)]
        poisoned := r.poisoned || f.poison }
      if r.got.length < ceilDiv r.len 224 then { k with cn := { k.cn with reads := k.cn.reads.insert tag r } }
      else if r.poisoned then k.failRead tag 4
      else
        let bytes := (List.range r.got.length).flatMap fun i => ((r.got.find? fun g => g.1 == i).map (·.2)).getD []
        let k := { k with cn := { k.cn with reads := k.cn.reads.erase tag } }
        match r.hart with
        | some h => k.emit (.loadValue h (ofLe bytes) false)
        | none => k.emit (.readData (ofLe bytes))

/-- PUSH_ACK (R194). -/
def Chip.opPushAck (k : Chip) (f : Frame) : Chip :=
  match k.flowArrives f with
  | (k, false) => k
  | (k, true) =>
    let k := k.ackFlow f
    let tag := f.arg % 2048
    match k.cn.pushes.find tag with
    | some u => if u.peer == f.src then k.endPush tag (leAt f.body 0 2) (leAt f.body 8 8) else k
    | none => k

/-- R195: a push is refused. -/
def Chip.pushRefused (k : Chip) (tag : Nat) (u : Push) (status : Nat) (reissue : Bool) : Chip :=
  let put := fun (u : Push) => { k with cn := { k.cn with pushes := k.cn.pushes.insert tag u } }
  if status == 3 then put { u with fullSince := some (u.fullSince.getD k.now) }
  else if status == 1 && reissue && !u.reissued then (put { u with reissued := true }).pushFragment tag
  else k.endPush tag status 0

/-- R187, R191: the frames of a refused write that are still in the store sent once more as a new operation. -/
def Chip.reissueWrite (k : Chip) (peer first : Nat) : Chip :=
  let l := k.flow peer 0
  let fs := l.unacked.filter fun f => f.op == 1 && serialLe first f.flowSeq 32
  let mine := fs.take (((fs.findIdx? (·.last)).map (· + 1)).getD fs.length)
  let k := k.setFlow peer 0 fun l => { l with reissued := l.txSeq :: l.reissued.take 63 }
  let k := { k with cn := { k.cn with writers := k.cn.writers.map fun w =>
    if w.1 == peer && w.2.1 == first then (peer, l.txSeq, w.2.2) else w } }
  mine.foldl Chip.sendFlow k

/-- OP_NAK (R187, R191, R195). (DEDUCED, log 47) -/
def Chip.opNak (k : Chip) (f : Frame) : Chip :=
  match k.flowArrives f with
  | (k, false) => k
  | (k, true) =>
    let k := k.ackFlow f
    let status := leAt f.body 0 2
    let reissue := bit (leAt f.body 2 1) 0
    match k.cn.pushes.find? (fun e => e.2.peer == f.src && e.2.flowSeq == f.arg),
        k.cn.reads.find? (fun e => e.2.peer == f.src && e.2.flowSeq == f.arg) with
    | some (tag, u), _ => k.pushRefused tag u status reissue
    | none, some (tag, r) =>
      if status == 1 && reissue && !r.reissued then
        let again := { r with reissued := true, flowSeq := (k.flow f.src 0).txSeq }
        let k := { k with cn := { k.cn with reads := k.cn.reads.insert tag again } }
        k.sendFlow (k.newFrame 2 0 f.src r.window tag true (leBytes r.len 4 ++ leBytes r.off 4))
      else k.failRead tag status
    | none, none =>
      let l := k.flow f.src 0
      if status == 1 && reissue && !l.reissued.contains f.arg && l.unacked.any (fun x => x.flowSeq == f.arg) then
        k.reissueWrite f.src f.arg
      else k.writeRefused f.src f.window f.arg status

/-- R195: the pushes that a full window refused go out again at a beat boundary. -/
def Chip.retryPushes (k : Chip) : Chip :=
  (k.cn.pushes.filter fun e => e.2.fullSince.isSome).foldl (fun k e => k.pushFragment e.1) k

/-- R189, R191: a read of the aperture by `who`; without a route it returns poison at once. -/
def Chip.apertureReadBy (k : Chip) (addr len : Nat) (who : By) : Chip :=
  if !inAperture addr then k else
  let hart := if who.source == 0 then some who.id else none
  match k.apertureRead addr len hart none with
  | (k, some _) => k
  | (k, none) =>
    let (dst, w, _) := apertureParts addr
    let k := k.cnEvent CN_EVENT.READ_FAILED dst 0 w 6
    match hart with
    | some h => (k.emit (.loadValue h 0 true)).machineCheck h 24 addr
    | none => k

/-! ### Alignment (R196, R197) -/

/-- A difference of ns positions modulo the beat length `l`, in [−l/2, l/2). (DEDUCED, log 49) -/
def beatDiff (a b : Nat) (l : Nat) : Int :=
  let d := ((a % 8192 : Nat) - (b % 8192 : Nat) : Int) % (l : Int)
  if 2 * d < l then d else d - l

/-- The beat length in ns. -/
def Chip.beatNs (k : Chip) : Nat := 10 * k.beatTicks

/-- A bit of BT_ERR set, with its event when it newly sets (R55): of the active beat-master instance.
(DEDUCED, log 32) -/
def Chip.btErr (k : Chip) (f : Fld) : Chip :=
  let was := k.on f
  let k := k.raise f
  if was then k else k.log { cls := 0, unitType := 3, unit := k.rd BT_STATUS.ACTIVE, cause := f.lo }

/-- R48, R197: alignment that was in effect stops. -/
def Chip.alignStop (k : Chip) : Chip :=
  if !k.beat.alignInEffect then k else
  { k with beat := { k.beat with alignInEffect := false, alignMissed := 0 } }.btErr BT_ERR.ALIGN_LOST

/-- R196: the answer to ALIGN_REQ, on the port it came by. -/
def Chip.alignReq (k : Chip) (n src t1 t2 t3 : Nat) : Chip :=
  if k.cnState n != 2 then k else
  k.sendLink n (k.newFrame 10 2 src 0 0 true
    (leBytes t1 4 ++ leBytes t2 4 ++ leBytes t3 4 ++ leBytes (k.rd BT_CTRL.LEN) 1))

/-- R196, R197: ALIGN_RSP: half of an odd number of ns is rounded either way, which the rule leaves open.
(DEDUCED, log 49) -/
def Chip.alignRsp (k : Chip) (t1 t2 t3 t4 len : Nat) : Chip :=
  if len != k.rd BT_CTRL.LEN then k.cnEvent CN_EVENT.ALIGN_LEN 0 (k.rd CN_ALIGN.PARENT_PORT) 0 0
  else if k.on CN_ALIGN.ROOT || !k.on BT_CTRL.ALIGN_EN then k
  else
    let x := beatDiff t2 t1 k.beatNs - beatDiff t4 t3 k.beatNs
    let (v, k) := if x % 2 == 0 then (0, k) else k.fresh
    let ofs := (x + (v % 2 : Nat)) / 2
    { k.wr BT_ALIGN_OFS.OFS (ofSigned ofs 32) with beat := { k.beat with alignInEffect := true, alignMissed := 0 } }

/-- R196, R197: the interval to the next request ends. -/
def Chip.alignInterval (k : Chip) (now : Nat) : Chip :=
  if k.on CN_ALIGN.ROOT || !k.on BT_CTRL.ALIGN_EN then k else
  let n := k.rd CN_ALIGN.PARENT_PORT
  if k.cnState n != 2 then k.alignStop
  else
    let k := if 8 ≤ k.beat.alignMissed then k.alignStop else k
    let k := { k with beat := { k.beat with alignMissed := k.beat.alignMissed + 1 } }
    k.sendLink n (k.newFrame 9 2 (k.rd (CN_PORT_STATUS.PEER_PKG n)) 0 0 true (leBytes now 4))

/-! ### Indirect access (R187, R202) -/

/-- R184, R202: whether every field of a window entry is in range. -/
def WinEntry.valid (e : WinEntry) : Bool :=
  e.base % 4096 == 0 && decide (12 ≤ e.sizeLog2 ∧ e.sizeLog2 ≤ 26) && e.kind % 4 != 3 && e.kind < 64 &&
  e.peerLo < 16384 && e.peerHi < 16384 && e.deviceId < 2 ^ 24 && e.stashDie < 12 &&
  (e.kind % 4 != 2 || decide (13 ≤ e.slotLog2 ∧ e.slotLog2 ≤ 21 ∧ e.slotLog2 ≤ e.sizeLog2))

/-- The end of CN_IND_CMD with its operands. -/
def Chip.cnInd (k : Chip) (target index op status : Nat) : Chip :=
  (((k.wr CN_IND_CMD.INDEX index).wr CN_IND_CMD.TARGET target).wr CN_IND_CMD.OP op).indDone
    CN_IND_CMD.STATUS CN_IND_CMD.GO status

/-- R187, R202: a window write goes to the shadow entry. -/
def Chip.windowWrite (k : Chip) (index : Nat) : Chip :=
  if 1024 ≤ index then k.cnInd 0 index 1 1 else
  let e := WinEntry.ofBytes (k.indBytes CN_IND_DATA.DATA 4)
  if !e.valid then k.cnInd 0 index 1 3
  else (k.setWindow index fun w => { w with shadow := some e, drained := false }).cnInd 0 index 1 0

/-- R183, R202: a next-hop entry written. -/
def Chip.routeWrite (k : Chip) (index : Nat) : Chip :=
  if 16384 ≤ index then k.cnInd 1 index 1 1 else
  let v := leAt (k.indBytes CN_IND_DATA.DATA 1) 0 2 % 64
  { k with cn := { k.cn with routes := Tbl.set 0 k.cn.routes index v } }.cnInd 1 index 1 0

/-- R202: a window or a next-hop entry read. -/
def Chip.cnIndRead (k : Chip) (target index : Nat) : Chip :=
  if (if target == 0 then 1024 else 16384) ≤ index then k.cnInd target index 0 1
  else
    let b := if target == 0 then (k.window index).bytes else padTo (leBytes (Tbl.get 0 k.cn.routes index) 2) 32
    (k.setInd CN_IND_DATA.DATA 4 b).cnInd target index 0 0

/-! ### The commands -/

/-- CN_PORT_ENABLE (R174). -/
def execCnPortEnable (port : Nat) (s : State) : Host.Outcome State Fault Refusal := s.commit (s.chip.cnEnable (port % 4))

/-- CONOS_TRAINING_STEP_DONE (R174). -/
def execConosTrainingStepDone (port : Nat) (ok : Bool) (s : State) : Host.Outcome State Fault Refusal :=
  s.commit (s.chip.trainingStep (port % 4) ok)

/-- CONOS_TRAINING_RETRY_TIMER (R174). -/
def execConosTrainingRetryTimer (port : Nat) (s : State) : Host.Outcome State Fault Refusal :=
  s.commit (if (s.chip.port (port % 4)).timer then
    (s.chip.wr (CN_PORT_STATUS.STEP (port % 4)) 1).setPort (port % 4) fun p => { p with timer := false }
  else s.chip)

/-- IDENT (R175). -/
def execIdent (port pkg peerPort version _len : Nat) (s : State) : Host.Outcome State Fault Refusal :=
  s.commit (s.chip.identArrives (port % 4) pkg peerPort version)

/-- CONOS_FRAME_RECEIVED (R178, R179, R182). -/
def execConosFrameReceived (port : Nat) (frame : Frame) (crcOk : Bool) (s : State) : Host.Outcome State Fault Refusal :=
  s.commit (s.chip.frameArrives (port % 4) frame crcOk)

/-- LINK_NAK (R178). -/
def execLinkNak (port ack : Nat) (s : State) : Host.Outcome State Fault Refusal :=
  s.commit ((s.chip.linkAcked (port % 4) ack).linkResend (port % 4))

/-- LINK_ACK_TIMEOUT (R178). -/
def execLinkAckTimeout (port : Nat) (s : State) : Host.Outcome State Fault Refusal := s.commit (s.chip.linkResend (port % 4))

/-- WRITE (R190). -/
def execWrite (op : Frame) (s : State) : Host.Outcome State Fault Refusal := s.commit (s.chip.opWrite op)

/-- READ_REQ (R191). -/
def execReadReq (op : Frame) (s : State) : Host.Outcome State Fault Refusal := s.commit (s.chip.opRead op)

/-- READ_RSP (R191). -/
def execReadRsp (op : Frame) (s : State) : Host.Outcome State Fault Refusal := s.commit (s.chip.opReadRsp op)

/-- PUSH (R193). -/
def execPush (op : Frame) (s : State) : Host.Outcome State Fault Refusal := s.commit (s.chip.opPush op)

/-- PUSH_ACK (R194). -/
def execPushAck (op : Frame) (s : State) : Host.Outcome State Fault Refusal := s.commit (s.chip.opPushAck op)

/-- OP_NAK (R195). -/
def execOpNak (op : Frame) (s : State) : Host.Outcome State Fault Refusal := s.commit (s.chip.opNak op)

/-- FLOW_ACK (R181). -/
def execFlowAck (peer vc seq : Nat) (s : State) : Host.Outcome State Fault Refusal := s.commit (s.chip.flowAcked peer vc seq)

/-- FLOW_NAK (R181). -/
def execFlowNak (peer vc seq : Nat) (s : State) : Host.Outcome State Fault Refusal := s.commit (s.chip.flowNaked peer vc seq)

/-- FLOW_ACK_TIMEOUT (R181). -/
def execFlowAckTimeout (peer vc : Nat) (s : State) : Host.Outcome State Fault Refusal := s.commit (s.chip.flowResend peer vc)

/-- ALIGN_REQ (R196). -/
def execAlignReq (port src t1 t2 t3 : Nat) (s : State) : Host.Outcome State Fault Refusal :=
  s.commit (s.chip.alignReq (port % 4) src t1 t2 t3)

/-- ALIGN_RSP (R196, R197). -/
def execAlignRsp (t1 t2 t3 t4 len : Nat) (s : State) : Host.Outcome State Fault Refusal :=
  s.commit (s.chip.alignRsp t1 t2 t3 t4 len)

/-- ALIGN_INTERVAL_EXPIRY (R196, R197). -/
def execAlignIntervalExpiry (now : Nat) (s : State) : Host.Outcome State Fault Refusal := s.commit (s.chip.alignInterval now)

/-- CONOS_APERTURE_WRITE (R189, R190). -/
def execConosApertureWrite (addr : Nat) (data : Bytes) (_who : By) (s : State) : Host.Outcome State Fault Refusal :=
  s.commit (if inAperture addr then (s.chip.apertureWrite addr data false none).1 else s.chip)

/-- CONOS_APERTURE_READ (R189, R191). -/
def execConosApertureRead (addr len : Nat) (who : By) (s : State) : Host.Outcome State Fault Refusal :=
  s.commit (s.chip.apertureReadBy addr len who)

/-- READ_FAILED (R191). -/
def execReadFailed (tag : Nat) (s : State) : Host.Outcome State Fault Refusal := s.commit (s.chip.failRead tag 7)

/-- CN_WINDOW_WRITE (R187, R202). -/
def execCnWindowWrite (index : Nat) (s : State) : Host.Outcome State Fault Refusal := s.commit (s.chip.windowWrite index)

/-- CN_ROUTE_WRITE (R183, R202). -/
def execCnRouteWrite (index : Nat) (s : State) : Host.Outcome State Fault Refusal := s.commit (s.chip.routeWrite index)

/-- CN_IND_READ (R202). -/
def execCnIndRead (target index : Nat) (s : State) : Host.Outcome State Fault Refusal :=
  s.commit (s.chip.cnIndRead (target % 2) index)

/-- WIN_DRAINED (R188). -/
def execWinDrained (window : Nat) (s : State) : Host.Outcome State Fault Refusal := s.commit (s.chip.winDrained window)

/-- PUSH_FULL_WAIT_EXPIRY (R195). -/
def execPushFullWaitExpiry (tag : Nat) (s : State) : Host.Outcome State Fault Refusal :=
  s.commit (if (Tbl.get {} s.chip.cn.pushes tag).fullSince.isSome then s.chip.endPush tag 3 0 else s.chip)

/-- PUSH_ACK_TIMEOUT (R195). -/
def execPushAckTimeout (tag : Nat) (s : State) : Host.Outcome State Fault Refusal := s.commit (s.chip.endPush tag 7 0)

/-- CN_WAKE_SEND (R198). -/
def execCnWakeSend (mask : Nat) (s : State) : Host.Outcome State Fault Refusal := s.commit (s.chip.wakeSend mask)

/-- WAKE_PATTERN_END (R198). -/
def execWakePatternEnd (port : Nat) (s : State) : Host.Outcome State Fault Refusal := s.commit (s.chip.wakeEnd (port % 4))

/-- WAKE_PATTERN_DETECTED (R199). -/
def execWakePatternDetected (port : Nat) (s : State) : Host.Outcome State Fault Refusal :=
  s.commit (s.chip.wakeSeen (port % 4))

/-- CONOS_LANE_LOSS (R200): the port goes down. -/
def execConosLaneLoss (port : Nat) (s : State) : Host.Outcome State Fault Refusal :=
  s.commit (s.chip.cnPortFailed (port % 4) 0)

end Sys2Proof.Machine
end

