-- ==== Sys2Proof/Machine/DramC.lean ====
section
/-!
DEFINITION. The memory controllers (15): the channel-local addresses, the device-symbol code, reads, writes and merges,
refresh, the scrubber, rate changes and fences.  A command names a line by its channel-local number.
-/

namespace Sys2Proof.Machine

/-! ### Addresses (R364, R365) -/

/-- R364, R365: the number of the line that lies at channel-local line `n` of channel `c`. -/
def Chip.lineAt (k : Chip) (c n : Nat) : Nat :=
  let mirror := k.on (MC_CTRL.MIRROR 0)
  let hi := if mirror then n / 8 else n / 4
  let c := if mirror then c / 2 * 2 + bits n 2 1 else c
  let low := (List.range 10).foldl (fun x i => x ^^^ bits hi (4 * i) 4) c
  hi * 64 + low * 4 + n % 4

/-- The channel-local line of line `l`, on its channel and on that channel's partner (R364, R365). -/
def Chip.localLine (k : Chip) (l : Nat) : Nat :=
  if k.on (MC_CTRL.MIRROR 0) then l / 64 * 8 + channelOf (64 * l) % 2 * 4 + l % 4 else l / 64 * 4 + l % 4

/-! ### Events (R387, R416) -/

/-- What a controller says of an event beside its bit; `known` where the event is of a line. -/
structure McAt where
  known : Bool := false
  line : Nat := 0
  rank : Nat := 0
  sub : Nat := 0
  device : Nat := 15
  deriving DecidableEq, Repr

/-- A bit of MC_ERR set, MC_ERR_INFO with it, and its record. (DEDUCED, log 32) -/
def Chip.mcErr (k : Chip) (f : Nat → Fld) (c : Nat) (x : McAt) (cls action status : Nat) : Chip :=
  let k := k.raise (f c)
  let k := (((k.wr (MC_ERR_INFO.LINE c) x.line).wr (MC_ERR_INFO.RANK c) x.rank).wr (MC_ERR_INFO.SUBCH c) x.sub)
  let k := (k.wr (MC_ERR_INFO.DEVICE c) x.device).wr (MC_ERR_INFO.EVENT c) (f c).lo
  k.log
    { cls := cls, unitType := 10, unit := c, cause := (f c).lo, action := action, status := status
      info0 := if x.known then 64 * k.lineAt c x.line else 0
      info1 := x.line + x.rank * 2 ^ 34 + x.sub * 2 ^ 36 + x.device * 2 ^ 37 + (f c).lo * 2 ^ 41 }

/-- A bit of QT_ERR set, and its event when it newly sets (R411). (DEDUCED, log 32) -/
def Chip.qtErr (k : Chip) (f : Fld) : Chip :=
  let was := k.on f
  let k := k.raise f
  if was then k else k.log { cls := 0, unitType := 17, unit := 0, cause := f.lo }

/-! ### Capacity (R394) -/

/-- Whether channel `c` is in service: trained and not fenced. -/
def Chip.chServes (k : Chip) (c : Nat) : Bool :=
  let s := k.rd (MC_STATUS.STATE c)
  s == 2 || s == 3 || s == 4

/-- R362, R385: the rate of a channel in MT/s. -/
def Chip.mts (k : Chip) (c : Nat) : Nat :=
  match k.rd (MC_STATUS.RATE c) with
  | 1 => 4800
  | 2 => 3200
  | _ => if k.rd (MC_STATUS.DIMMS c) == 2 then 5600 else 6400

/-- R379, R394: the peak over the channels in service in MB/s, channel `c` weighted with `a c` 64ths, times 64. -/
def Chip.peak (k : Chip) (a : Nat → Nat) : Nat :=
  (((List.range 16).filter k.chServes).map fun c => k.mts c * 8 * a c).sum / if k.on (MC_CTRL.MIRROR 0) then 2 else 1

/-- R394: Gunel sets the guaranteeable capacity. -/
def Chip.setCap (k : Chip) : Chip := k.wr QT_CAP.CAP (7 * k.peak (fun _ => 64) / 64000)

/-! ### Fences (R380) -/

/-- R380: channel `c` is fenced until PCR. (DEDUCED, log 73) -/
def Chip.fenceChannel (k : Chip) (c : Nat) : Chip :=
  if k.chFenced c then k else
  let k := k.wr (MC_STATUS.STATE c) 5
  let k := { k with mc := { k.mc with ch := Tbl.mod {} k.mc.ch c fun x => { x with writes := [], retries := 0 } } }
  let k :=
    if k.on (MC_CTRL.MIRROR 0) then
      if k.chFenced (c ^^^ 1) then k.mcErr MC_ERR.FENCED c {} 2 9 4
      else (k.wr (MC_STATUS.ALONE (c ^^^ 1)) 1).mcErr MC_ERR.FENCED c {} 2 9 0
    else k.mcErr MC_ERR.FENCED c {} 2 9 3
  k.setCap

/-! ### The device-symbol code (R375 to R378) -/

/-- Channel `c` changed by `f`. -/
def Chip.setCh (k : Chip) (c : Nat) (f : Channel → Channel) : Chip :=
  { k with mc := { k.mc with ch := Tbl.mod {} k.mc.ch c f } }

/-- R386: the marked device of a rank and subchannel. -/
def Chip.markedDevice (k : Chip) (c rank sub : Nat) : Option Nat :=
  let e := 2 * rank + sub
  if k.on (MC_MARK.VALID c e) then some (k.rd (MC_MARK.DEVICE c e)) else none

/-- What the decoder finds in a line. -/
inductive Decoded where
  | good | corrected | uncorrectable | poison
  /-- Three or more devices in error, of which the decoder says corrected: the data are not guaranteed. -/
  | doubtful
  deriving DecidableEq, Repr

/-- R375, R378: the outcome of a read of a line, stored poisoned or not, whose errors are `errs`. (DEDUCED, log 70) -/
def Chip.decodeErrs (k : Chip) (c : Nat) (errs : List DevErr) (stored : Bool) : Decoded :=
  let devs := (errs.map (·.device)).eraseDups
  let at_ := errs.headD { line := 0, rank := 0, sub := 0, device := 0, corrected := true }
  let mark := k.markedDevice c at_.rank at_.sub
  let others := devs.filter fun d => some d != mark
  if stored then
    if devs.length ≤ (if mark.isSome then 2 else 1) then .poison else .uncorrectable
  else if devs.isEmpty then .good
  else if others.length ≤ (if mark.isSome then 0 else 1) then .corrected
  else if others.length ≤ (if mark.isSome then 1 else 2) then .uncorrectable
  else if errs.all (·.corrected) then .doubtful
  else .uncorrectable

/-- R376: a corrected error of a device position is counted, and at the limit the device is marked. -/
def Chip.countDevice (k : Chip) (c : Nat) (e : DevErr) : Chip :=
  let key := (2 * e.rank + e.sub) * 16 + e.device
  let n := Tbl.get 0 (Tbl.get {} k.mc.ch c).corr key + 1
  let k := k.setCh c fun x => { x with corr := Tbl.set 0 x.corr key n }
  let limit := k.rd (MC_ECC.MARK_LIMIT c)
  if limit == 0 || n != limit then k else
  let b := 2 * e.rank + e.sub
  let at_ : McAt := { line := e.line, rank := e.rank, sub := e.sub, device := e.device }
  match k.markedDevice c e.rank e.sub with
  | some d => if d == e.device then k else k.mcErr MC_ERR.SECOND_DEVICE c at_ 0 0 0
  | none =>
    let k := ((k.wr (MC_MARK.DEVICE c b) e.device).wr (MC_MARK.VALID c b) 1).mcErr MC_ERR.MARKED c at_ 0 0 0
    { k with gn := { k.gn with life := { k.gn.life with
        marks := Tbl.set 0 k.gn.life.marks (8 * c + b) (e.device + 128) } } }.lifeWrite

/-- The place of the first of some errors, or of a line without one. -/
def placeOf (errs : List DevErr) (line : Nat) : McAt :=
  match errs with
  | e :: _ => { known := true, line := line, rank := e.rank, sub := e.sub, device := e.device }
  | [] => { known := true, line := line }

/-- R376, R377: a read that corrected its errors. -/
def Chip.readCorrected (k : Chip) (c line : Nat) (errs : List DevErr) : Chip :=
  let k := (k.bump (MC_CNT.CORRECTED c) 1).mcErr MC_ERR.CORRECTED c (placeOf errs line) 0 1 0
  errs.eraseDups.foldl (fun k e => k.countDevice c e) k

/-- R377: an uncorrectable read: the line is poisoned in DRAM, counted and reported. -/
def Chip.readUncorrectable (k : Chip) (c line : Nat) (errs : List DevErr) : Chip :=
  let l := k.lineAt c line
  let at_ := placeOf errs line
  let status := if (k.markedDevice c at_.rank at_.sub).isSome then 4 else 3
  let k := if Tbl.get 0 k.coh.sc l == 0 then k.mark l else k
  (k.bump (MC_CNT.UNCORRECTED c) 1).mcErr MC_ERR.UNCORRECTED c { at_ with device := 15 } 1 2 status

/-- R375: a line whose errors passed the decoder although it cannot guarantee them: its bytes are free values. -/
def Chip.readDoubtful (k : Chip) (l : Nat) : Chip :=
  let (v, k) := k.fresh
  { k with mem := memPut k.mem (64 * l) (leBytes v 64) }

/-- R375 to R379: one line read from channel `c`, with the errors of its copy and of the partner's. -/
def Chip.readLine (k : Chip) (c line : Nat) (errs partner : List DevErr) : Chip :=
  let l := k.lineAt c line
  let stored := Tbl.get false k.poison l && Tbl.get 0 k.coh.sc l == 0
  match k.decodeErrs c errs stored with
  | .good => k
  | .corrected => k.readCorrected c line errs
  | .doubtful => (k.readCorrected c line errs).readDoubtful l
  | .poison => k.mcErr MC_ERR.POISON_READ c (placeOf errs line) 1 2 0
  | .uncorrectable =>
    let p := c ^^^ 1
    if stored || !k.on (MC_CTRL.MIRROR 0) || k.chFenced p then k.readUncorrectable c line errs
    else match k.decodeErrs p partner false with
      | .good => k.mcErr MC_ERR.MIRROR_REPAIR c (placeOf errs line) 0 1 0
      | .corrected => (k.readCorrected p line partner).mcErr MC_ERR.MIRROR_REPAIR c (placeOf errs line) 0 1 0
      | .doubtful =>
        ((k.readCorrected p line partner).readDoubtful l).mcErr MC_ERR.MIRROR_REPAIR c (placeOf errs line) 0 1 0
      | _ => k.readUncorrectable c line errs

/-! ### Accesses (R366, R380, R383, R384, R392) -/

/-- R391: the current beat and phase as a deadline. -/
def Chip.nowDeadline (k : Chip) : Nat := k.now % 1024 * 8 + k.beat.phase

/-- R391: whether deadline `d` has passed. -/
def Chip.late (k : Chip) (d : Nat) : Bool := decide (4096 ≤ wrapSub d k.nowDeadline 13)

/-- R489: the first access to a gated channel wakes it. -/
def Chip.wakeChannel (k : Chip) (c : Nat) : Chip :=
  if !k.pwr.gatedChannels.contains c then k else
  { k.wr (MC_STATUS.STATE c) 2 with pwr := { k.pwr with gatedChannels := k.pwr.gatedChannels.filter (· != c) } }

/-- R377, R378, R380, R392: a demand read; the class of a request without a deadline is not in the command. -/
def Chip.demandRead (k : Chip) (c line : Nat) (errs partner : List DevErr) (deadline : Option Nat) : Chip :=
  if k.chFenced c then
    if k.on (MC_CTRL.MIRROR 0) && !k.chFenced (c ^^^ 1) then k
    else k.emit (.dram c "READ_POISON" line)
  else
    let k := k.wakeChannel c
    let (v, k) := k.fresh
    let k := k.count 2 c (if deadline.isSome then 1 else if v % 8 == 1 then 2 else v % 8) 1
    let k := (k.count 2 c 26 (v / 8 % 2)).histFree 10 c
    let k := match deadline with
      | some d => if k.late d then (k.count 2 c 16 1).qtErr QT_ERR.DL_LATE else k
      | none => k
    let k := (k.setCh c fun x => { x with retries := 0 }).readLine c line errs partner
    k.emit (.dram c (if k.linePoison (k.lineAt c line) then "READ_POISON" else "READ_DATA") line)

/-- R366: the writes of channel `c` issued until the queue holds `keep` lines. -/
def Chip.drainWrites (k : Chip) (c keep : Nat) : Chip :=
  let q := (Tbl.get {} k.mc.ch c).writes
  let n := q.length - keep
  (k.setCh c fun x => { x with writes := q.drop n }).emitAll ((q.take n).map fun l => .dram c "WRITE" l)

/-- R366: a whole line joins the write queue; no read is queued between commands, so a batch runs down to 16 lines.
(DEDUCED, log 71) -/
def Chip.queueWrite (k : Chip) (c line : Nat) : Chip :=
  let (v, k) := k.fresh
  let k := ((k.wakeChannel c).count 2 c (8 + v % 8) 1).setCh c fun x => { x with writes := x.writes ++ [line], retries := 0 }
  k.drainWrites c 16

/-- R366, R378, R380, R382: a write of a whole line. -/
def Chip.dramWrite (k : Chip) (c line : Nat) (data : Bytes) (poison : Bool) : Chip :=
  let l := k.lineAt c line
  if k.chFenced c && (!k.on (MC_CTRL.MIRROR 0) || k.chFenced (c ^^^ 1)) then k
  else
    let k := { k with
      mem := memPut k.mem (64 * l) (padTo data 64)
      poison := Tbl.set false k.poison l poison
      coh := { k.coh with sc := if Tbl.get 0 k.coh.sc l == 2 then Tbl.set 0 k.coh.sc l 1 else k.coh.sc } }
    if k.chFenced c then k else k.queueWrite c line

/-- R383, R384: a partial write through the merge buffer. -/
def Chip.mergeWrite (k : Chip) (c line : Nat) (data : Bytes) (mask : Nat) : Chip :=
  let l := k.lineAt c line
  let all := mask % 2 ^ 64 == 2 ^ 64 - 1
  k.dramWrite c line (maskLine (memBytes k.mem (64 * l) 64) data mask) (!all && k.linePoison l)

/-- R362, R380: ALERT_N: the write under way is replayed up to three times, then the channel is fenced. -/
def Chip.alert (k : Chip) (c : Nat) : Chip :=
  if k.chFenced c then k else
  let n := (Tbl.get {} k.mc.ch c).retries
  let k := k.mcErr MC_ERR.LINK_RETRY c {} 0 1 0
  if 3 ≤ n then k.fenceChannel c
  else (k.setCh c fun x => { x with retries := n + 1 }).emit (.dram c "REPLAY" (n + 1))

/-! ### Refresh and recalibration (R367 to R372) -/

/-- The ranks of channel `c`. -/
def Chip.ranksOf (k : Chip) (c : Nat) : Nat := max 1 (k.rd (MC_STATUS.DIMMS c) * k.rd (MC_STATUS.RANKS c))

/-- R367: the most refreshes that the mode of channel `c` lets a rank postpone. -/
def Chip.postponeLimit (k : Chip) (c : Nat) : Nat := if k.on (MC_REFRESH.FGR c) then 8 else 4

/-- R367: POSTPONE_MAX as it acts. -/
def Chip.postponeMax (k : Chip) (c : Nat) : Nat := min (k.rd (MC_REFRESH.POSTPONE_MAX c)) (k.postponeLimit c)

/-- R367: a POSTPONE_MAX above the mode's maximum is reported when it takes effect. -/
def Chip.checkPostpone (k : Chip) (c : Nat) : Chip :=
  if k.postponeLimit c < k.rd (MC_REFRESH.POSTPONE_MAX c) then k.mcErr MC_ERR.CFG c {} 0 0 0 else k

/-- Rank `r` of channel `c` changed by `f`; MC_STATUS.POSTPONED shows the largest count. -/
def Chip.setRank (k : Chip) (c r : Nat) (f : Rank → Rank) : Chip :=
  let k := k.setCh c fun x => { x with ranks := Tbl.mod {} x.ranks r f }
  k.wr (MC_STATUS.POSTPONED c) (((Tbl.get {} k.mc.ch c).ranks.map fun e => e.2.postponed).foldl max 0)

/-- R367, R369: a refresh falls due. (DEDUCED, log 71) -/
def Chip.refreshDue (k : Chip) (c r : Nat) (busy : Bool) : Chip :=
  let s := k.rd (MC_STATUS.STATE c)
  if s != 2 && s != 4 then k else
  let x := Tbl.get {} (Tbl.get {} k.mc.ch c).ranks r
  if busy && x.postponed < k.postponeMax c then k.setRank c r fun x => { x with postponed := x.postponed + 1 }
  else k.emit (.dram c "REFRESH" r)

/-- R368: the refreshes of rank `r` issued, at most `room` of them; what is left of the room. -/
def Chip.makeUpRank (k : Chip) (c room r : Nat) : Nat × Chip :=
  let n := min room (Tbl.get {} (Tbl.get {} k.mc.ch c).ranks r).postponed
  (room - n, ((k.setRank c r fun x => { x with postponed := x.postponed - n }).count 2 c 27 n).emitAll
    (List.replicate n (.dram c "REFRESH" r)))

/-- R368: the make-up burst of channel `c`. At an 8 µs beat every postponed refresh fits. At a 4 µs beat 15 of tRFC2 fit,
and how many more a shorter refresh of the fitted devices allows is a free value. -/
def Chip.makeUp (k : Chip) (c : Nat) (margin : Bool) : Chip :=
  let due := ((Tbl.get {} k.mc.ch c).ranks.map fun e => e.2.postponed).sum
  let (room, k) :=
    if !margin || !k.on BT_CTRL.LEN || due == 0 then (due, k)
    else
      let (v, k) := k.fresh
      ((if k.on (MC_REFRESH.FGR c) then 15 else 0) + v, k)
  ((List.range (k.ranksOf c)).foldl (fun (s : Nat × Chip) r => s.2.makeUpRank c s.1 r) (room, k)).2

/-- R372: a recalibration slot. -/
def Chip.recalSlot (k : Chip) (c : Nat) : Chip :=
  if k.rd (MC_STATUS.STATE c) != 2 then k else
  let r := (Tbl.get {} k.mc.ch c).nextRank % k.ranksOf c
  let n := (Tbl.get {} (Tbl.get {} k.mc.ch c).ranks r).slots + 1
  let k := (k.setRank c r fun x => { x with slots := n % 128 }).setCh c fun x => { x with
    nextRank := (r + 1) % k.ranksOf c }
  let k := k.emit (.dram c "RECALIBRATE" r)
  if n == 128 then k.emit (.dram c "ZQ" r) else k

/-! ### Changing the rate (R373, R374) -/

/-- R374: whether the last cold start trained a rate. -/
def Chip.trained (k : Chip) (rate : Nat) : Bool := !k.mc.untrained.contains rate

/-- R374: a write of MC_CTRL.RATE. (DEDUCED, log 72) -/
def Chip.writeRate (k : Chip) (c value : Nat) : Chip :=
  let v := value % 4
  if c != 0 || v == k.rd (MC_CTRL.RATE 0) then k else
  let rate := if v == 3 then 0 else v
  let busy := k.mc.change.any (·.running)
  if !k.trained rate || (!busy && rate == k.rd (MC_STATUS.RATE 0)) then k.mcErr MC_ERR.CFG 0 {} 0 0 0
  else if busy then { k with mc := { k.mc with next := some rate } }
  else { k with mc := { k.mc with change := some { target := rate, previous := k.rd (MC_STATUS.RATE 0) } } }

/-- R373: the waiting change starts, at a boundary: queues drain, every postponed refresh is made up, the channels leave
service. -/
def Chip.startChange (k : Chip) (x : RateChange) : Chip :=
  let k := (List.range 16).foldl (fun k c =>
    if k.rd (MC_STATUS.STATE c) == 2 || k.rd (MC_STATUS.STATE c) == 4 then
      ((k.drainWrites c 0).makeUp c false).wr (MC_STATUS.STATE c) 4
    else k) k
  { k.wr (MC_CTRL.RATE 0) x.target with mc := { k.mc with change := some { x with running := true } } }

/-- R373, R374: at a beat boundary a change that waits starts; a write that waited for the last change starts the next.
(DEDUCED, log 72) -/
def Chip.rateBoundary (k : Chip) : Chip :=
  match k.mc.change, k.mc.next with
  | some x, _ => if x.running then k else k.startChange x
  | none, some rate =>
    let k := { k with mc := { k.mc with next := none } }
    if rate == k.rd (MC_STATUS.RATE 0) then k.mcErr MC_ERR.CFG 0 {} 0 0 0
    else k.startChange { target := rate, previous := k.rd (MC_STATUS.RATE 0) }
  | none, none => k

/-- The channels in the change return to service at `rate`; `flips` says whether the active shadow set is the other one. -/
def Chip.endChange (k : Chip) (rate : Nat) (flips : Bool) : Chip :=
  let k := (List.range 16).foldl (fun k c =>
    if k.rd (MC_STATUS.STATE c) == 4 then
      ((k.wr (MC_STATUS.STATE c) 2).wr (MC_STATUS.RATE c) rate).wr (MC_STATUS.SET c)
        (if flips then 1 - k.rd (MC_STATUS.SET c) else k.rd (MC_STATUS.SET c))
    else k) k
  let k := { k with
    mc := { k.mc with change := none }
    pwr := { k.pwr with pkg := match k.pwr.pkg with
      | .enterQuiet => .quiet
      | .leaveQuiet => .run
      | p => p } }
  k.setCap

/-- R373, R374: verification ends on every channel; `failed` are the channels on which it failed. -/
def Chip.changeDone (k : Chip) (failed : List Nat) : Chip :=
  match k.mc.change with
  | none => k
  | some x =>
    let bad := (List.range 16).filter fun c => failed.contains c && k.rd (MC_STATUS.STATE c) == 4
    if !x.running then k
    else if bad.isEmpty then k.endChange x.target (!x.second)
    else
      let k := bad.foldl (fun k c => k.mcErr MC_ERR.TRAIN_FAIL c {} 0 0 0) k
      if x.second then (bad.foldl Chip.fenceChannel k).endChange x.target false
      else { k.wr (MC_CTRL.RATE 0) x.previous with mc := { k.mc with
          change := some { target := x.previous, previous := x.target, second := true } } }

/-! ### The scrubber (R381, R382) -/

/-- R381: the lines of the DRAM installed on channel `c`. -/
def Chip.chLines (k : Chip) (c : Nat) : Nat := k.rd (MC_STATUS.SIZE c) * 2 ^ 24

/-- R381: the pass time in hours as it acts. -/
def Chip.passHours (k : Chip) (c : Nat) : Nat :=
  max (orDefault (k.rd (MC_SCRUB.PASS_HOURS c)) 24)
    (ceilDiv (ceilDiv (k.chLines c) 8 * k.beatTicks) 360000000000)

/-- R381: the credit of a beat in 2⁻³² lines. -/
def Chip.scrubCredit (k : Chip) (c : Nat) : Nat :=
  k.chLines c * 2 ^ 32 * k.beatTicks / (k.passHours c * 360000000000)

/-- R381: the credit of one beat added on every channel in service. -/
def Chip.addScrubCredit (k : Chip) : Chip :=
  (List.range 16).foldl (fun k c =>
    if k.chServes c && k.chLines c != 0 then k.setCh c fun x => { x with scrubCredit := x.scrubCredit + k.scrubCredit c }
    else k) k

/-- R381: the scrubber moves on by one line. -/
def Chip.scrubNext (k : Chip) (c : Nat) : Chip :=
  let p := k.rd (MC_SCRUB_POS.LINE c) + 1
  if p < k.chLines c then k.wr (MC_SCRUB_POS.LINE c) p
  else
    ((k.wr (MC_SCRUB_POS.LINE c) 0).wr (MC_SCRUB.PASSES c) (k.rd (MC_SCRUB.PASSES c) + 1)).setCh c fun x => { x with corr := [] }

/-- R381, R382: a burst of 8 lines. -/
def Chip.scrub (k : Chip) (c : Nat) (errs : List DevErr) : Chip :=
  if k.rd (MC_STATUS.STATE c) != 2 || !k.pwr.pkg.up || k.chLines c == 0 ||
    (Tbl.get {} k.mc.ch c).scrubCredit < 8 * 2 ^ 32 then k
  else
    let k := k.setCh c fun x => { x with scrubCredit := x.scrubCredit - 8 * 2 ^ 32 }
    (List.range 8).foldl (fun k _ =>
      let line := k.rd (MC_SCRUB_POS.LINE c)
      (k.readLine c line (errs.filter fun e => e.line == line) []).scrubNext c) k

/-! ### The commands -/

/-- REFRESH_DUE (R367, R369). -/
def execRefreshDue (ch rank : Nat) (busy : Bool) (s : State) : Host.Outcome State Fault Refusal :=
  s.commit (s.chip.refreshDue (ch % 16) rank busy)

/-- MR4_READ (R369): what the indication asks for, until a later reading. -/
def execMr4Read (ch rank : Nat) (twice : Bool) (s : State) : Host.Outcome State Fault Refusal :=
  s.commit (s.chip.setRank (ch % 16) rank fun x => { x with doubled := twice })

/-- DRAM_RECAL_SLOT (R372). -/
def execDramRecalSlot (ch : Nat) (s : State) : Host.Outcome State Fault Refusal := s.commit (s.chip.recalSlot (ch % 16))

/-- MC_RATE_WRITE (R373, R374). -/
def execMcRateWrite (ch value : Nat) (s : State) : Host.Outcome State Fault Refusal := s.commit (s.chip.writeRate ch value)

/-- RATE_CHANGE_COMPLETE (R373, R374). -/
def execRateChangeComplete (failed : List Nat) (s : State) : Host.Outcome State Fault Refusal :=
  s.commit (s.chip.changeDone failed)

/-- DRAM_READ (R375 to R379, R392). -/
def execDramRead (ch line : Nat) (errs partner : List DevErr) (deadline : Option Nat) (s : State) :
    Host.Outcome State Fault Refusal :=
  s.commit (s.chip.demandRead (ch % 16) line errs partner deadline)

/-- DRAM_WRITE (R366, R378, R380). -/
def execDramWrite (ch line : Nat) (data : Bytes) (poison : Bool) (s : State) : Host.Outcome State Fault Refusal :=
  s.commit (s.chip.dramWrite (ch % 16) line data poison)

/-- MERGE_BUFFER_WRITE (R383, R384). -/
def execMergeBufferWrite (ch line : Nat) (data : Bytes) (mask : Nat) (s : State) : Host.Outcome State Fault Refusal :=
  s.commit (s.chip.mergeWrite (ch % 16) line data mask)

/-- CHANNEL_FENCE (R380). -/
def execChannelFence (ch : Nat) (s : State) : Host.Outcome State Fault Refusal := s.commit (s.chip.fenceChannel (ch % 16))

/-- SCRUB_BURST (R381, R382). -/
def execScrubBurst (ch : Nat) (errs : List DevErr) (s : State) : Host.Outcome State Fault Refusal :=
  s.commit (s.chip.scrub (ch % 16) errs)

/-- ALERT_N (R362, R380). -/
def execAlertN (ch : Nat) (s : State) : Host.Outcome State Fault Refusal := s.commit (s.chip.alert (ch % 16))

end Sys2Proof.Machine
end

