-- ==== Sys2Proof/Machine/Traffic.lean ====
section
/-!
DEFINITION. Traffic regulation (16): admission, the capacity of a beat, the budgets and throttle levels of a phase, STOP, the
arbiter and the arbitration entries.
-/

namespace Sys2Proof.Machine

/-! ### Admission (R395) -/

/-- R395, R409: a write of QT_RESERVE, checked as one value. -/
def Chip.writeReserve (k : Chip) (value : Nat) : Chip :=
  let fs := [(QT_RESERVE.HP, bits value 0 16), (QT_RESERVE.DL_ENG, bits value 16 16), (QT_RESERVE.DL_HUB, bits value 32 16)]
  if fs.all fun p => k.rd p.1 == p.2 then k
  else if k.rd QT_CAP.CAP < (fs.map (·.2)).sum then k.wr QT_STATUS.CFG 1
  else fs.foldl (fun k p => k.hold p.1 p.2) (k.wr QT_STATUS.CFG 0)

/-! ### The capacity of a beat (R396, R397) -/

/-- R396: whether every rank of channel `c` can be held at once in the coming beat: it has one rank, and a refresh to make up
or a recalibration slot. -/
def Chip.channelHeld (k : Chip) (c : Nat) : Bool :=
  k.ranksOf c == 1 &&
    ((Tbl.get {} k.mc.ch c).ranks.any (fun e => e.2.postponed != 0) ||
      (k.now + c) % orDefault (k.rd (MC_CTRL.CAL_BEATS 0)) 125 == 0)

/-- R396: the shares a_c of the coming beat; that of a channel held for a time is a free value. (DEDUCED, log 74) -/
def Chip.shares (k : Chip) : Tbl Nat × Chip :=
  ((List.range 16).filter k.channelHeld).foldl (fun (s : Tbl Nat × Chip) c =>
    let (v, k) := s.2.fresh
    (s.1.insert c (v % 65), k)) ([], k)

/-- R396, R397: the regulation unit at a beat boundary. A beat during a rate change is not evaluated.
(DEDUCED, log 74) -/
def Chip.regulate (k : Chip) : Chip :=
  if k.mc.change.any (·.running) then k else
  let (a, k) := k.shares
  let unit := 640000
  let sustain := 85 * k.peak (fun c => Tbl.get 64 a c)
  let hp := k.rd QT_RESERVE.HP
  let dl := k.rd QT_RESERVE.DL_ENG + k.rd QT_RESERVE.DL_HUB
  let enough := decide ((hp + dl) * unit ≤ sustain)
  let pool := if enough then sustain - (hp + dl) * unit else 0
  let scale := if enough || dl == 0 then 16 else 16 * (sustain - hp * unit) / (dl * unit)
  let k := ((k.wr QT_CAP.SUSTAIN (sustain / unit)).wr QT_CAP.BE_POOL (pool / unit)).wr QT_CAP.DL_SCALE scale
  let k := if scale < 16 && 256 ≤ k.qt.unscaled then k.qtErr QT_ERR.DL_SCALED else k
  let k := if sustain < hp * unit then k.qtErr QT_ERR.HP_UNCOVERED else k
  { k with qt := { k.qt with pool := pool, unscaled := if scale < 16 then 0 else min 256 (k.qt.unscaled + 1) } }

/-! ### Budgets and levels (R398 to R401) -/

/-- Whether a tile carries BE traffic: it runs a hart ID and is in service (R398). -/
def Chip.tileServes (k : Chip) (t : Nat) : Bool :=
  let x := k.tile t
  x.hart.isSome && !x.failed && !x.gated && !x.inTest

/-- R399: four times the multiplier M of a throttle level; level 0 is not held. -/
def beMultiplier (level : Nat) : Nat := [0, 32, 16, 8, 4, 3, 2, 1].getD level 0

/-- R398: a bucket after a refill: at most twice the refill. -/
def refill (old n : Nat) : Nat := min (old + n) (2 * n)

/-- R398: the refills of a phase by bucket. -/
def Chip.refills (k : Chip) : List (Nat × Nat) :=
  let ticks := k.beatTicks / 8
  let scale := k.rd QT_CAP.DL_SCALE
  let engines := (List.range 24).filter fun e => (k.engine e).inService && !(k.engine e).failed
  let tiles := (List.range 336).filter k.tileServes
  let regs := tiles ++ (List.range 6).map (360 + ·)
  let w := fun c => orDefault (k.rd (QT_BE_WEIGHT.W c)) 1
  let sumW := ((List.range 6).map w).sum
  (engines.map fun e => (336 + e, k.rd QT_RESERVE.DL_ENG * ticks * scale / (64 * max 1 k.re.e))) ++
  [(366, k.rd QT_RESERVE.DL_HUB * ticks * scale / 64)] ++
  (if k.qt.level == 0 then [] else (List.range 6).flatMap fun c => regs.map fun r =>
    (512 * (1 + c) + r, k.qt.pool * ticks * w c * beMultiplier k.qt.level / (640000 * 16 * sumW * regs.length)))

/-- R396, R398: the buckets refill at a phase boundary, but for the beats of a rate change. (DEDUCED, log 74) -/
def Chip.refillAll (k : Chip) : Chip :=
  if k.mc.change.any (·.running) then k else
  { k with qt := { k.qt with buckets := k.refills.foldl (fun b p => Tbl.mod 0 b p.1 fun v => refill v p.2) k.qt.buckets } }

/-- R399: the level of a channel whose queues peaked at `r` reads and `w` writes. -/
def throttleLevel (r w : Nat) : Nat :=
  let q := max r (w - 16)
  if 64 ≤ r || 64 ≤ w || 63 ≤ q then 7
  else if q < 16 then 0 else if q < 24 then 1 else if q < 32 then 2 else if q < 40 then 3 else if q < 48 then 4
  else if q < 56 then 5 else 6

/-- R400: the throttle word. -/
def Chip.throttleWord (k : Chip) : Nat :=
  k.qt.level + 8 * ofBool k.qt.stop + 16 * ofBool (k.rd QT_CAP.BE_POOL == 0) + 32 * k.rd QT_CAP.DL_SCALE

/-- R399, R400: the levels of the phase that has just ended, and the word. -/
def Chip.setLevels (k : Chip) (queues : List (Nat × Nat)) : Chip :=
  let ls : List (Nat × Nat) := ((List.range 16).filter k.chServes).map fun c =>
    let q := queues.getD c (0, 0)
    (c, throttleLevel q.1 q.2)
  let k := ls.foldl (fun (k : Chip) p => k.count 2 p.1 (17 + p.2) 1) k
  let top := ls.foldl (fun (m : Nat) p => max m p.2) 0
  let k := { k with qt := { k.qt with level := top } }
  { k with qt := { k.qt with word := k.throttleWord } }

/-- R400, R401: STOP set or cleared; the cycles it stood are not in the commands, so each channel counts a free value. -/
def Chip.setStop (k : Chip) (on : Bool) : Chip :=
  let k := if k.qt.stop && !on then
      let (v, k) := k.fresh
      ((List.range 16).filter k.chServes).foldl (fun k c => k.count 2 c 25 v) k
    else k
  let k := { k with qt := { k.qt with stop := on } }
  { k with qt := { k.qt with word := k.throttleWord } }

/-! ### The arbiter (R402 to R405) -/

/-- R412: the place of an arbitration entry: a function's, or a queue pair's. -/
def entryKey (target index : Nat) : Nat := if target == 0 then index else 256 + index

/-- R412: an arbitration entry: ARB_CLASS in [1:0], HOLD_FLAG in [2]. -/
def Chip.arbEntry (k : Chip) (key : Nat) : Nat := Tbl.get 1 k.qt.entries key

/-- R402, R405: the effective class of requester `r` at an instance. -/
def Chip.arbClass (k : Chip) (inst r : Nat) : Nat :=
  match inst with
  | 0 => k.rd (QT_ARB_CLASS.DDR r)
  | 1 => k.rd (QT_ARB_CLASS.SC r)
  | _ =>
    let e := k.arbEntry (entryKey (inst - 2) r)
    if bit e 2 then 0 else e % 4

/-- The first requester scanning upward from `from_` and wrapping. -/
def scanFrom (rs : List Nat) (from_ : Nat) : Nat :=
  let above := rs.filter fun r => from_ ≤ r
  (if above.isEmpty then rs else above).foldl min ((if above.isEmpty then rs else above).headD 0)

/-- R403: the decision of a cycle: among `e`, none of them the holder of a multi-cycle grant. (DEDUCED, log 75) -/
def Arb.decide (a : Arb) (cls : Nat → Nat) (limit : Nat) (e : List Nat) : Arb :=
  let a := { a with waits := (e.filter fun r => a.grant != some r).foldl (fun w r => Tbl.mod 0 w r (· + 1)) a.waits }
  let forced := e.filter fun r => limit ≤ Tbl.get 0 a.waits r
  let best := fun (rs : List Nat) => (rs.map cls).foldl max 0
  if !forced.isEmpty then
    let c := best forced
    let w := scanFrom (forced.filter fun r => cls r == c) a.fptr
    { a with fptr := w + 1, grant := some w, heldFor := 0 }
  else if !e.isEmpty then
    let c := best e
    let w := scanFrom (e.filter fun r => cls r == c) (a.ptr.getD c 0)
    { a with ptr := a.ptr.set c (w + 1), grant := some w, heldFor := 0 }
  else { a with grant := none, heldFor := 0 }

/-- R405: requester `r` is cut off. -/
def Chip.cutOff (k : Chip) (inst port r : Nat) : Chip :=
  let k := if inst < 2 then k else
    { k with qt := { k.qt with entries := Tbl.mod 1 k.qt.entries (entryKey (inst - 2) r) fun e => setBit e 2 } }
  let k := ((k.wr QT_HOLD_INFO.INSTANCE inst).wr QT_HOLD_INFO.PORT (if inst == 3 then port else 0)).wr
    QT_HOLD_INFO.REQUESTER r
  k.qtErr QT_ERR.HOLD_CUT

/-- R403 to R405: one cycle: the grant decided for it is used, or is a bubble, or ends; then the next is decided. `still`
says that the holder of the grant still has its request, `unitEnd` that a transfer unit ends in the cycle, `last` that it is
the grant's last. (DEDUCED, log 75) -/
def Chip.arbCycle (k : Chip) (inst port : Nat) (reqs : List Nat) (still unitEnd last : Bool) : Chip :=
  let key := 256 * inst + port
  let a : Arb := Tbl.get {} k.qt.arbs key
  let limit := orDefault (k.rd (QT_ARB_CTRL.WAIT_LIMIT inst)) 32
  let hold := orDefault (k.rd (QT_ARB_CTRL.HOLD_LIMIT inst)) 64
  let cls := k.arbClass inst
  let put := fun (k : Chip) (a : Arb) => { k with qt := { k.qt with arbs := Tbl.set {} k.qt.arbs key a } }
  let next := fun (a : Arb) (e : List Nat) => a.decide cls limit e
  match a.grant with
  | none => put k (next a reqs)
  | some w =>
    let a := { a with waits := Tbl.set 0 a.waits w 0 }
    if a.heldFor == 0 && !still then put k (next a reqs)
    else
      let n := a.heldFor + 1
      let others := if n == 1 && unitEnd && last then reqs else reqs.filter (· != w)
      if unitEnd && last then put k (next a others)
      else if unitEnd && hold < n then put (k.cutOff inst port w) (next a others)
      else
        let waits := others.foldl (fun t r => Tbl.mod 0 t r (· + 1)) a.waits
        put k { a with waits := waits, heldFor := n }

/-! ### The arbitration entries (R412) -/

/-- QT_IND_CMD with its operands in place and the result of the command. -/
def Chip.qtInd (k : Chip) (target index op status : Nat) : Chip :=
  ((((k.wr QT_IND_CMD.INDEX index).wr QT_IND_CMD.TARGET target).wr QT_IND_CMD.OP op).indDone
    QT_IND_CMD.STATUS QT_IND_CMD.GO status)

/-- R412: whether an index names no entry. -/
def entryInvalid (target index : Nat) : Bool := target == 0 && 256 ≤ index || 8192 ≤ index

/-- R412: a read of an entry; DEMOTED shows HOLD_FLAG. -/
def Chip.qtIndRead (k : Chip) (target index : Nat) : Chip :=
  if entryInvalid target index then k.qtInd target index 0 1 else
  let e := k.arbEntry (entryKey target index)
  (k.wr QT_IND_DATA0.DATA (e % 8 + 8 * ofBool (bit e 2))).qtInd target index 0 0

/-- R412: a write of an entry: ARB_CLASS at the next boundary, HOLD_FLAG cleared by a 1 at once. -/
def Chip.qtIndWrite (k : Chip) (target index : Nat) : Chip :=
  if entryInvalid target index then k.qtInd target index 1 1 else
  let key := entryKey target index
  let d := k.rd QT_IND_DATA0.DATA
  let k := { k with qt := { k.qt with
    entries := if bit d 2 then Tbl.mod 1 k.qt.entries key fun e => clearBit e 2 else k.qt.entries
    entriesHeld := k.qt.entriesHeld.insert key (d % 4) } }
  k.qtInd target index 1 0

/-- R412: the classes written take effect at a boundary. -/
def Chip.arbBoundary (k : Chip) : Chip :=
  { k with qt := { k.qt with
      entries := k.qt.entriesHeld.foldl (fun t p => Tbl.mod 1 t p.1 fun e => e / 4 * 4 + p.2) k.qt.entries
      entriesHeld := [] } }

/-! ### The commands -/

/-- QT_RESERVE_WRITE (R395). -/
def execQtReserveWrite (value : Nat) (s : State) : Host.Outcome State Fault Refusal := s.commit (s.chip.writeReserve value)

/-- STOP_SET (R401). -/
def execStopSet (s : State) : Host.Outcome State Fault Refusal := s.commit (s.chip.setStop true)

/-- STOP_CLEAR (R401). -/
def execStopClear (s : State) : Host.Outcome State Fault Refusal := s.commit (s.chip.setStop false)

/-- ARBITER_CYCLE (R403 to R405). -/
def execArbiterCycle (inst port : Nat) (reqs : List Nat) (still unitEnd last : Bool) (s : State) :
    Host.Outcome State Fault Refusal :=
  s.commit (s.chip.arbCycle (inst % 4) port reqs still unitEnd last)

/-- QT_IND_READ (R412). -/
def execQtIndRead (target index : Nat) (s : State) : Host.Outcome State Fault Refusal :=
  s.commit (s.chip.qtIndRead target index)

/-- QT_IND_WRITE (R412). -/
def execQtIndWrite (target index : Nat) (s : State) : Host.Outcome State Fault Refusal :=
  s.commit (s.chip.qtIndWrite target index)

end Sys2Proof.Machine
end

