-- ==== Sys2Proof/Machine/Faults.lean ====
section
/-!
DEFINITION. The commands of failover (17): home-agent pairs, ring-engine instances, engine errors, and the self-tests that
Gunel queues, starts at a boundary and ends (R435 to R439).
-/

namespace Sys2Proof.Machine

/-! ### Ring-engine instances (R437) -/

/-- The number of the active ring-engine instance. -/
def Chip.activeInst (k : Chip) : Nat := ofBool k.re.instanceB

/-- R420, R437: the record of instance `i` of unit type `ty`, which a fault has fenced, and its recovery, which starts. -/
def Chip.logTwin (k : Chip) (ty i cause : Nat) : Chip :=
  let k := k.log { cls := 2, unitType := ty, unit := i, cause := cause, action := 5, status := secondStatus k.recovering }
  { k with flt := { k.flt with recovering := k.flt.recovering ++ [(ty, i)] } }

/-- R437: instance `i` is fenced; the loss of both is Package-fatal (R421). -/
def Chip.fenceInst (k : Chip) (i : Nat) : Chip :=
  let k := k.raise RE_ERR.INSTANCE
  if k.re.fencedOther then
    if i == k.activeInst then k.secondFault 2 i RE_ERR.INSTANCE.lo else k
  else
    let k := if i == k.activeInst then { k with re := { k.re with instanceB := !k.re.instanceB } } else k
    ({ k with re := { k.re with fencedOther := true } }).logTwin 2 i RE_ERR.INSTANCE.lo

/-- R437: a self-check error fences its instance; a disagreement without one fences the instance that is not active. -/
def Chip.instFailover (k : Chip) (i : Nat) (selfCheck : Bool) : Chip :=
  if selfCheck then k.fenceInst (i % 2) else if k.re.fencedOther then k else k.fenceInst (1 - k.activeInst)

/-! ### Engines (R430, R435) -/

/-- R430: an SRAM error that is not the second: the segment replays, and the moment is kept. -/
def Chip.sramReplay (k : Chip) (e cause : Nat) : Chip :=
  let k := if (k.engine e).seg.isSome then (k.logEngine e cause k.recovering).replaySeg e
    else k.log { cls := 0, unitType := 1, unit := e, cause := cause }
  k.setEngine e fun g => { g with sramError := some k.now }

/-- R430: an uncorrectable error in the SRAM of engine `e`: its segment replays; the second within 256 beats fails it.
(DEDUCED, log 44) -/
def Chip.engineSram (k : Chip) (e : Nat) : Chip :=
  let k := k.raise (AE_ERR.SRAM_UNCORRECTED e)
  let cause := (AE_ERR.SRAM_UNCORRECTED e).lo
  match (k.engine e).sramError with
  | some b =>
    if k.now < b + 256 then k.engineFail e cause k.recovering
    else k.sramReplay e cause
  | none => k.sramReplay e cause

/-! ### The self-test queue (R438, R439) -/

/-- CAUSE of the record of a failed test: an engine's SELFTEST_FAIL (R415, R571). -/
def Test.failCause (x : Test) : Nat := if x.unitType == 1 then (AE_ERR.SELFTEST_FAIL x.unit).lo else 0xFF

/-- A record of a test: NOTICE unless the test failed. -/
def Chip.logTest (k : Chip) (x : Test) (action status : Nat) : Chip :=
  k.log { cls := if status == 2 then 2 else 4, unitType := x.unitType, unit := x.unit,
          cause := if status == 2 then x.failCause else 0xFF, action := action, status := status,
          info0 := if x.unitType == 0 then x.tile else 0, hart := if x.unitType == 0 then x.unit else 0xFFFF }

/-- R438: whether a unit can be named in a test: the types of the table, each with its instances. -/
def testable (unitType unit : Nat) : Bool :=
  match unitType with
  | 0 => decide (unit < 288)
  | 1 => decide (unit < 24)
  | 2 | 3 => decide (unit < 2)
  | 4 => decide (unit < 34)
  | 8 => decide (unit < 24)
  | 10 => decide (unit < 16)
  | _ => false

/-- R438, R480: a test or a retirement is queued to Gunel, which writes the NOTICE. -/
def Chip.queueTest (k : Chip) (unitType unit : Nat) (retire : Bool) : Chip :=
  if k.gn.tests.any fun x => x.unitType == unitType && x.unit == unit then k else
  let x : Test := { unitType := unitType, unit := unit, retire := retire, tile := ((k.hart unit).ptile).getD 0 }
  { k with gn := { k.gn with tests := k.gn.tests ++ [x] } }.logTest x 10 0

/-- R46, R438: whether the internal reserve of the window holds a slot for one more engine under test. -/
def Chip.reserveSlot (k : Chip) : Bool :=
  decide (((List.range 24).filter fun e => (k.engine e).inTest).length < k.re.v)

/-- R438: whether the spare that test `x` needs is free. -/
def Chip.spareFor (k : Chip) (x : Test) : Bool :=
  match x.unitType with
  | 0 => (k.chooseSpare (k.hartDie x.unit)).isSome
  | 1 => k.reserveSlot
  | 2 => !(k.re.fencedOther && x.unit == k.activeInst)
  | 3 =>
    let other := if x.unit == 0 then BT_STATUS.FENCED_B else BT_STATUS.FENCED_A
    !k.on other
  | 4 => !k.pairServes x.unit || !k.freeSpares.isEmpty
  | 8 => k.portUp (otherPort x.unit)
  | _ => true

/-- Whether the unit of test `x` can leave its work now: a hart ID runs and does not move, an engine's segment has
committed, a unit has not failed. -/
def Chip.testReady (k : Chip) (x : Test) : Bool :=
  match x.unitType with
  | 0 => (k.hart x.unit).online && (k.hart x.unit).moving.isNone
  | 1 => (k.engine x.unit).seg.isNone && !(k.engine x.unit).failed && (k.engine x.unit).inService
  | 4 => !(k.pair x.unit).failed && !(k.pair x.unit).failing
  | 8 => k.dieUp (x.unit / 2)
  | 10 => !k.chFenced x.unit
  | _ => true

/-- R438: the work of the unit of test `x` moves to its spare. -/
def Chip.moveWork (k : Chip) (x : Test) : Chip :=
  match x.unitType with
  | 0 => k.decideMove (k.due x.unit (if x.retire then 4 else 3))
  | 1 => k.setEngine x.unit fun g => { g with inTest := true }
  | 2 =>
    let k := if x.unit == k.activeInst then { k with re := { k.re with instanceB := !k.re.instanceB } } else k
    { k with re := { k.re with fencedOther := true } }
  | 3 =>
    let k := k.wr (if x.unit == 0 then BT_STATUS.FENCED_A else BT_STATUS.FENCED_B) 1
    if k.rd BT_STATUS.ACTIVE == x.unit then k.wr BT_STATUS.ACTIVE (1 - x.unit) else k
  | 4 =>
    let q := k.pair x.unit
    match k.pairServes x.unit, k.freeSpares with
    | true, p :: _ =>
      (k.setPair p fun s => { s with spareFor := some (q.spareFor.getD x.unit) }).setPair x.unit fun s => { s with
        inTest := true, spareFor := none, idle := x.unit < 32 }
    | _, _ => k.setPair x.unit fun s => { s with inTest := true }
  | 8 => k.startLink x.unit false
  | _ => k

/-- R438, R439: test `x` starts at a boundary, or is deferred with one NOTICE while its spare is not free; a deferred test is
retried at window boundaries only. A retirement ends with its move. (DEDUCED, log 77) -/
def Chip.tryTest (k : Chip) (window : Bool) (x : Test) : Chip × Option Test :=
  if x.running || !k.testReady x || (x.deferred && !window) then (k, some x)
  else if !k.spareFor x then
    (if x.deferred then k else k.logTest x 0 1, some { x with deferred := true })
  else
    let x := { x with running := true, deferred := false, tile := ((k.hart x.unit).ptile).getD x.tile }
    (k.moveWork x, if x.retire then none else some x)

/-- R438, R439: the queue at a boundary, in its order; Gunel starts nothing while it restarts (R422). -/
def Chip.testBoundary (k : Chip) (window : Bool) : Chip :=
  if k.gn.restarting || !k.on GN_STATUS.RUNNING then k else
  let r := k.gn.tests.foldl (fun (s : Chip × List Test) x =>
    let (k, y) := s.1.tryTest window x
    (k, s.2 ++ y.toList)) (k, [])
  { r.1 with gn := { r.1.gn with tests := r.2 } }

/-- R438: the unit of test `x` returns. (DEDUCED, log 77) -/
def Chip.testPassed (k : Chip) (x : Test) : Chip :=
  let k := { k with flt := { k.flt with recovering := k.flt.recovering.filter (· != (x.unitType, x.unit)) } }
  let k := match x.unitType with
    | 0 => k.setTile x.tile fun t => { t with inTest := false }
    | 1 => k.setEngine x.unit fun g => { g with inTest := false, suspect := false }
    | 2 => { k with re := { k.re with fencedOther := false } }
    | 3 => k.wr (if x.unit == 0 then BT_STATUS.FENCED_A else BT_STATUS.FENCED_B) 0
    | 4 => k.setPair x.unit fun s => { s with inTest := false }
    | _ => k
  k.logTest x 11 0

/-- R435, R438: the unit of test `x` is withdrawn. -/
def Chip.testFailed (k : Chip) (x : Test) : Chip :=
  let k := match x.unitType with
    | 0 => k.setTile x.tile fun t => { t with inTest := false, failed := true }
    | 1 =>
      let k := k.raise (AE_ERR.SELFTEST_FAIL x.unit)
      k.setEngine x.unit fun g => { g with failed := true, inTest := false, suspect := false, inService := false }
    | 4 => k.setPair x.unit fun s => { s with inTest := false, failed := true }
    | 8 => k.portFail x.unit
    | 10 => k.fenceChannel x.unit
    | _ => k
  k.logTest x 0 2

/-- R438: a self-test ends. -/
def Chip.testDoneFor (k : Chip) (unitType unit : Nat) (pass : Bool) : Chip :=
  match k.gn.tests.find? fun x => x.running && x.unitType == unitType && x.unit == unit with
  | none => k
  | some x =>
    let k := { k with gn := { k.gn with tests := k.gn.tests.filter (· != x) } }
    if pass then k.testPassed x else k.testFailed x

/-- R439: a queued or deferred test is withdrawn; whether there was one. -/
def Chip.cancelTest (k : Chip) (unitType unit : Nat) : Bool × Chip :=
  let mine := fun (x : Test) => !x.running && x.unitType == unitType && x.unit == unit
  (k.gn.tests.any mine, { k with gn := { k.gn with tests := k.gn.tests.filter fun x => !mine x } })

/-! ### The commands -/

/-- HA_PAIR_MISMATCH (R436). -/
def execHaPairMismatch (pair : Nat) (s : State) : Host.Outcome State Fault Refusal := s.commit (s.chip.pairFails pair)

/-- TRACKER_UNCORRECTABLE (R430, R436). -/
def execTrackerUncorrectable (pair : Nat) (s : State) : Host.Outcome State Fault Refusal := s.commit (s.chip.pairFails pair)

/-- RE_INSTANCE_FAILOVER (R437). -/
def execReInstanceFailover (inst : Nat) (selfCheck : Bool) (s : State) : Host.Outcome State Fault Refusal :=
  s.commit (s.chip.instFailover inst selfCheck)

/-- ENGINE_SRAM_UNCORRECTABLE (R430). -/
def execEngineSramUncorrectable (engine : Nat) (s : State) : Host.Outcome State Fault Refusal :=
  s.commit (s.chip.engineSram engine)

/-- ENGINE_CONTROL_PARITY (R435). -/
def execEngineControlParity (engine : Nat) (s : State) : Host.Outcome State Fault Refusal :=
  s.commit (s.chip.engineFail engine 0xFF s.chip.recovering)

/-- CONTROL_STOP_ERROR (R432). -/
def execControlStopError (die : Nat) (s : State) : Host.Outcome State Fault Refusal :=
  s.commit (s.chip.dieLost die 5 s.chip.recovering)

/-- SELF_TEST_COMPLETE (R438). -/
def execSelfTestComplete (unitType unit : Nat) (pass : Bool) (s : State) : Host.Outcome State Fault Refusal :=
  s.commit (s.chip.testDoneFor unitType unit pass)

end Sys2Proof.Machine
end

