-- ==== Sys2Proof/Machine/Host.lean ====
section
/-!
DEFINITION. The commands of the host endpoint (08): functions and their service, reads and their completions, MSI-X,
link power, attestation.
-/

namespace Sys2Proof.Machine

/-! ### Functions (R205, R206, R223, R224) -/

/-- R223, step 4: a function-pool ring of a function that is reset. -/
def Ring.afterFlr (g : Ring) : Ring :=
  { g with
    wrPi := 0, wrCi := 0, crPi := 0, crCi := 0, sinceIrq := 0, oldest := 0, fetching := false, dead := false
    state := if bit g.flags 0 then 1 else 0 }

/-- R223, step 5: the configuration space of a function at its reset values, what the model keeps of its service aside. -/
def HostFn.afterReset (c : HostFn) : HostFn := { inFlr := c.inFlr, dropDue := c.dropDue }

/-- The configuration space of every VF at its reset values: the VFs cease to exist (R224). -/
def Chip.dropVfs (k : Chip) : Chip :=
  { k with hf := { k.hf with
    vfEnable := false
    fns := Tbl.mapVals {} k.hf.fns fun f c => if f == 0 then c else c.afterReset } }

/-- R223: an FLR of function `f` starts. (PRESUMED, log 7) -/
def Chip.flr (k : Chip) (f : Nat) : Chip :=
  let k := k.endService f
  let k := { k with re := { k.re with
    rings := Tbl.mapVals {} k.re.rings fun r g => if r / 32 == f && !bit g.flags 1 then g.afterFlr else g } }
  let k := (k.setFn f fun c => { c with deferred := 0 }).setHostFn f fun c => { c.afterReset with inFlr := true }
  if f != 0 then k else
    let k := k.changeService Chip.dropVfs
    { k with hf := { k.hf with numVfs := 0, aspm := 0 } }

/-- A change of a function's configuration space. -/
def Chip.applyChange (k : Chip) : FnChange → Chip
  | .vfEnable on => if on then { k with hf := { k.hf with vfEnable := true } } else k.dropVfs
  | .numVfs n => { k with hf := { k.hf with numVfs := n } }
  | .busMaster f on => k.setHostFn f fun c => { c with busMaster := on }
  | .powerState f d3 => k.setHostFn f fun c => { c with d3 := d3 }
  | .msixEnable f on => (k.setHostFn f fun c => { c with msixOn := on }).msixFlush f
  | .functionMask f on => (k.setHostFn f fun c => { c with mask := on }).msixFlush f
  | .vectorMask f v => k.setHostFn f fun c => { c with vectors := Tbl.mod {} c.vectors v fun e => { e with masked := true } }
  | .vectorEntry f v addr data => k.setHostFn f fun c => { c with
      vectors := Tbl.mod {} c.vectors v fun e => { e with addr := addr, data := data } }
  | .readRequestSize f code => k.setHostFn f fun c => { c with mrrs := code }
  | .tenBitTags f on => k.setHostFn f fun c => { c with tenBit := on }
  | .linkControl a => { k with hf := { k.hf with aspm := a } }

/-- R206, R224: a change of a function's configuration space, and the service it ends. -/
def Chip.fnChange (k : Chip) (change : FnChange) : Chip := k.changeService fun k => k.applyChange change

/-- R224: a hot reset, the link down or PERST_N: every function loses service, and every configuration space returns to
its reset values. (DEDUCED, log 51) -/
def Chip.endpointDown (k : Chip) : Chip :=
  let k := k.changeService fun k => { k.dropVfs with hf := { k.dropVfs.hf with
    fns := Tbl.mapVals {} k.dropVfs.hf.fns fun _ c => { c.afterReset with inFlr := false } } }
  let k := { k with hf := { k.hf with numVfs := 0, aspm := 0 } }
  ((((k.wr HF_STATUS.LINK_UP 0).wr HF_STATUS.SPEED 0).wr HF_STATUS.WIDTH 0).wr HF_STATUS.FLIT 0).wr HF_STATUS.LSTATE 5

/-- R225, R489, R516: the endpoint link is up; it trains only while LINK_EN is 1 and the endpoint has power, and at
TARGET_SPEED at most. -/
def Chip.linkUp (k : Chip) (speed width : Nat) (flit : Bool) : Chip :=
  if !k.on HF_CTRL.LINK_EN || k.pwr.gatedEndpoint || !k.pwr.pkg.powered then k else
  let t := k.rd HF_CTRL.TARGET_SPEED
  let top := if t == 0 || t == 7 then 6 else t
  let speed := min speed top
  ((((k.wr HF_STATUS.LINK_UP 1).wr HF_STATUS.SPEED speed).wr HF_STATUS.WIDTH width).wr HF_STATUS.FLIT
    (ofBool (flit || speed == 6))).wr HF_STATUS.LSTATE 0

/-! ### Reads of host memory (R214, R217, R218) -/

/-- R214: whether the pieces that have arrived hold every byte of a read. -/
def HostTag.whole (t : HostTag) : Bool :=
  (List.range t.len).all fun i => t.got.any fun p => decide (p.1 ≤ i ∧ i < p.1 + p.2.length)

/-- The bytes of a whole read. -/
def HostTag.bytes (t : HostTag) : Bytes :=
  t.got.foldl (fun b p => b.take p.1 ++ p.2 ++ b.drop (p.1 + p.2.length)) (zeros t.len)

/-- The answers of a use with one more, highest address first. -/
def insertAnswer (r : HostRead) : List HostRead → List HostRead
  | [] => [r]
  | a :: t => if r.iova < a.iova then a :: insertAnswer r t else r :: a :: t

/-- R217: a completion that matches no read. -/
def Chip.unexpected (k : Chip) (fn : Nat) : Chip := (k.hfErr HF_ERR.UNEXPECTED_CPL fn 0).aer fn 1

/-- R214, R217, R218: one piece of a completion for tag `tag` of function `fn`. (DEDUCED, log 52) -/
def Chip.readCompletion (k : Chip) (fn tag off : Nat) (data : Bytes) (poisoned : Bool) : Chip :=
  match k.hf.tags.find (tagKey' fn tag) with
  | none => k.unexpected fn
  | some t =>
    if t.len < off + data.length then k.unexpected fn else
    let t' := { t with got := t.got ++ [(off, data)], poisoned := t.poisoned || poisoned }
    let k := if poisoned && !t.quarantined then (k.hfErr HF_ERR.POISON_RX fn 0).aer fn 2 else k
    if !t'.whole then { k with hf := { k.hf with tags := k.hf.tags.insert (tagKey' fn tag) t' } }
    else
      let k := { k with hf := { k.hf with tags := k.hf.tags.erase (tagKey' fn tag) } }
      let r : HostRead :=
        { iova := t.iova, len := t.len, answer := if t'.poisoned then .poisoned else .data t'.bytes }
      let k := (k.count 6 fn 0 t.len).histFree 13 fn
      let k := if t.quarantined || t.use == .dropped then k else
        { k with hf := { k.hf with
          arrived := k.hf.arrived.insert t.use.key (insertAnswer r (k.answers t.use)) } }
      k.pump

/-- R217: the outcome of a read that timed out, by what it was for. -/
def Chip.readTimedOut (k : Chip) (use : TagUse) : Chip :=
  match use with
  | .descriptor r => (k.forget use).ringError r 7 (k.ring r).wrCi
  | .param c => if k.jobUsed c then (k.forget use).endJob c 7 0 else k
  | .readAhead c => (k.forget use).setJob c fun j =>
      { j with stop := some (7, (j.segments + ofBool (j.state == .running || j.state == .replaying)) % 65536) }
  | .dropped => k

/-- R217, R223: the timeout of tag `tag` of function `fn` fires. (DEDUCED, log 52) -/
def Chip.completionTimeout (k : Chip) (fn tag : Nat) : Chip :=
  match k.hf.tags.find (tagKey' fn tag) with
  | none => k
  | some t =>
    let k := { k with hf := { k.hf with tags := k.hf.tags.erase (tagKey' fn tag) } }
    if t.quarantined then k.pump
    else (((k.hfErr HF_ERR.CPL_TIMEOUT fn 0).aer fn 0).readTimedOut t.use).pump

/-- R216: the encodings that the table lists. -/
def timeoutCodes : List Nat := [0, 1, 2, 5, 6, 9, 10, 13, 14]

/-! ### BARs and MSI-X (R78, R207, R208) -/

/-- R207: whether an offset lies in the defined content of a function's BAR. -/
def barDefined (fn off : Nat) : Bool :=
  if fn == 0 then decide (off < 256) || decide (0x10000 ≤ off ∧ off < 0x18100)
  else decide (off < 256) || decide (0x1000 ≤ off ∧ off < 0x1400) || decide (0x2000 ≤ off ∧ off < 0x2008)

/-- R208: a host write that is discarded with a bit of HF_ERR. -/
def Chip.barOutside (k : Chip) (fn off : Nat) : Chip :=
  if !barDefined fn off then k.hfErr HF_ERR.DB_RESERVED fn 0
  else if off < 256 && (k.ring (32 * fn + off / 8)).internal then k.hfErr HF_ERR.DB_POOL fn (off / 8)
  else k

/-- R78: a vector is unmasked. -/
def Chip.unmask (k : Chip) (fn v : Nat) : Chip :=
  (k.setHostFn fn fun c => { c with vectors := Tbl.mod {} c.vectors v fun e => { e with masked := false } }).msixFlush fn

/-! ### Link power (R220, R221) -/

/-- Whether no job with SRC or DST behind the endpoint has a segment dispatched or awaiting commit (R220). -/
def Chip.noHostSegment (k : Chip) : Bool :=
  k.eng.all fun e => match e.2.seg with
    | none => true
    | some s =>
      let j := k.job s.job
      let dev := k.devOfRing j.ring j.internal
      !k.isHost dev j.desc.src 1 && !k.isHost dev j.desc.dst 1

/-- R220: L1_IDLE has passed: the endpoint asks for L1 and enters the substate that the controls enable. -/
def Chip.enterL1 (k : Chip) : Chip :=
  if k.rd HF_PM.L1_IDLE != 0 && k.on HF_STATUS.LINK_UP && bit k.hf.aspm 1 && k.hf.queue.isEmpty && k.hf.tags.isEmpty &&
    k.noHostSegment && decide (k.rd HF_STATUS.LSTATE < 2)
  then k.wr HF_STATUS.LSTATE (if bit k.hf.aspm 3 then 4 else if bit k.hf.aspm 2 then 3 else 2)
  else k

/-- R221: L0S_IDLE has passed: outside flit mode the transmitter enters L0s. -/
def Chip.enterL0s (k : Chip) : Chip :=
  if k.on HF_STATUS.LINK_UP && !k.on HF_STATUS.FLIT && bit k.hf.aspm 0 && k.hf.queue.isEmpty && k.rd HF_STATUS.LSTATE == 0
  then k.wr HF_STATUS.LSTATE 1
  else k

/-! ### Attestation (R222) -/

/-- R222: the answer to an SPDM request: Busy while the secure world restarts. (PRESUMED, log 53) -/
def Chip.spdm (k : Chip) (code : Nat) : Chip :=
  if k.on WS_STATUS.RESTARTING then k.emit (.spdm [0x12, 0x7F, 0x03, 0x00])
  else k.emit (.spdm (Config.spdmAnswer code
    [Tbl.get [] k.gn.slots k.gn.activeSlot, k.hf.block3, leBytes k.gn.config 8]))

/-! ### The commands -/

/-- MSIX_VECTOR_UNMASK (R78). -/
def execMsixVectorUnmask (fn vector : Nat) (s : State) : Host.Outcome State Fault Refusal :=
  s.commit (s.chip.unmask fn vector)

/-- FLR (R223). -/
def execFlr (fn : Nat) (s : State) : Host.Outcome State Fault Refusal := s.commit (s.chip.flr fn)

/-- FLR_COMPLETE (R223). -/
def execFlrComplete (fn : Nat) (s : State) : Host.Outcome State Fault Refusal :=
  s.commit (s.chip.setHostFn fn fun c => { c with inFlr := false })

/-- FUNCTION_ENABLE_CHANGE (R206). -/
def execFunctionEnableChange (change : FnChange) (s : State) : Host.Outcome State Fault Refusal :=
  s.commit (s.chip.fnChange change)

/-- ENDPOINT_RESET (R224). -/
def execEndpointReset (s : State) : Host.Outcome State Fault Refusal := s.commit s.chip.endpointDown

/-- LINK_UP (R516). -/
def execLinkUp (speed width : Nat) (flit : Bool) (s : State) : Host.Outcome State Fault Refusal :=
  s.commit (s.chip.linkUp speed width flit)

/-- HOST_READ_COMPLETION (R214). -/
def execHostReadCompletion (fn tag off : Nat) (data : Bytes) (poisoned : Bool) (s : State) :
    Host.Outcome State Fault Refusal :=
  s.commit (s.chip.readCompletion fn tag off data poisoned)

/-- COMPLETION_TIMEOUT (R217). -/
def execCompletionTimeout (fn tag : Nat) (s : State) : Host.Outcome State Fault Refusal :=
  s.commit (s.chip.completionTimeout fn tag)

/-- BAR_WRITE_OUTSIDE (R208). -/
def execBarWriteOutside (fn off : Nat) (s : State) : Host.Outcome State Fault Refusal := s.commit (s.chip.barOutside fn off)

/-- COMPLETION_TIMEOUT_VALUE_WRITE (R216). -/
def execCompletionTimeoutValueWrite (fn enc : Nat) (s : State) : Host.Outcome State Fault Refusal :=
  s.commit (if timeoutCodes.contains enc then s.chip.setHostFn fn fun c => { c with timeoutCode := enc } else s.chip)

/-- L1_IDLE_EXPIRY (R220). -/
def execL1IdleExpiry (s : State) : Host.Outcome State Fault Refusal := s.commit s.chip.enterL1

/-- L0S_IDLE_EXPIRY (R221). -/
def execL0sIdleExpiry (s : State) : Host.Outcome State Fault Refusal := s.commit s.chip.enterL0s

/-- SPDM_REQUEST (R222). -/
def execSpdmRequest (code : Nat) (s : State) : Host.Outcome State Fault Refusal := s.commit (s.chip.spdm code)

end Sys2Proof.Machine
end

