-- ==== Sys2Proof/Machine/Media.lean ====
section
/-!
DEFINITION. The commands of the media queue engine (09): set-up, initialisation of targets, completions and
reconciliation, pass-through queues, drives that come and go.
-/

namespace Sys2Proof.Machine

/-! ### Initialisation (R233) -/

/-- R233: STATE 3 and its event. -/
def Chip.targetFailed (k : Chip) (t nvme : Nat) : Chip :=
  (k.setTarget t fun g => { g with state := 3 }).mqEvent MQ_EVENT.MEDIA_ERROR t (k.target t).port nvme

/-- An initialisation command of target `t` on the admin pair. -/
def Chip.sendInit (k : Chip) (t step sub op prp : Nat) (dwords : List Nat) : Chip :=
  k.newNvme
    { target := t, qp := k.adminPair t, use := .init step sub
      sqe := nvmeEntry op 0 (if step == 2 || step == 6 then (k.target t).nsid else 0) prp dwords }

/-- Whether another target of the same controller has its queue pairs already (R231). -/
def Chip.pairsReady (k : Chip) (t : Nat) : Bool :=
  let g := k.target t
  k.mq.targets.any fun e => e.1 != t && e.2.state == 2 && e.2.port == g.port && e.2.rid == g.rid

/-- The last step has ended: the target is ready, its zones open (R239). -/
def Chip.targetReady (k : Chip) (t : Nat) : Chip :=
  let k := k.setTarget t fun g => { g with state := 2 }
  let g := k.target t
  if g.zoned then (List.range (g.zonesOpen - g.openZones.length)).foldl (fun k _ => k.openNext t) k else k

/-- R233, step 6, or ready where the target is not zoned. -/
def Chip.initZones (k : Chip) (t : Nat) : Chip :=
  let g := k.target t
  if g.zoned then k.sendInit t 6 0 0x7A 0 (lbaDwords g.zoneFirst ++ [1023, 0, 0, 0]) else k.targetReady t

/-- R233: Create I/O CQ (`sub` even) or Create I/O SQ (`sub` odd) of I/O pair `sub` / 2 + 1. -/
def Chip.initPair (k : Chip) (t sub : Nat) : Chip :=
  let id := sub / 2 + 1
  let p := k.adminPair t + id
  let q := k.qpair p
  let size := (2 ^ q.qlog2 - 1) * 65536
  if sub % 2 == 0 then
    (k.setQpair p fun q => { q with sqTail := 0, cqHead := 0, cqTail := 0 }).sendInit t 4 sub 0x05 q.cqBase [id + size, 3 + id * 65536, 0, 0, 0, 0]
  else k.sendInit t 4 sub 0x01 q.sqBase [id + size, 1 + id * 65536, 0, 0, 0, 0]

/-- R233: the initialisation of target `t` starts. (DEDUCED, log 55) -/
def Chip.startTarget (k : Chip) (t : Nat) : Chip :=
  let k := k.setTarget t fun g => { g with state := 1, openZones := [], rr := 0 }
  let k := if k.pairsReady t then k else
    k.setQpair (k.adminPair t) fun q => { q with sqTail := 0, cqHead := 0, cqTail := 0 }
  k.sendInit t 1 0 0x06 0 [1, 0, 0, 0, 0, 0]

/-- R233: every enabled target that is off is initialised, once the engine is on. -/
def Chip.startTargets (k : Chip) : Chip :=
  if !k.on MQ_CTRL.ENABLE then k else
  (k.mq.targets.filter fun e => e.2.enabled && e.2.state == 0).foldl (fun k e => k.startTarget e.1) k

/-- R233, step 6: the zones that the report shows written: bit z of the word from bit 64 on. -/
def Chip.noteZones (k : Chip) (t : Nat) (result : Nat) : Chip :=
  let written := result / 2 ^ 64
  let k := k.setTarget t fun g => { g with zoneSize := result % 2 ^ 32, zoneCap := result / 2 ^ 32 % 2 ^ 32 }
  (setBits written (min (k.target t).zoneCount (Nat.log2 written + 1))).foldl (fun k z =>
    k.setZone t z fun r => { r with full := true }) k

/-- R233: an initialisation step of target `t` has ended with success; `result` carries what its check looks at: the
VS register of the controller; LBA size as a power of two, metadata (bit 8), the Zoned Namespace command set (bit 9);
queue pairs granted, zero-based; zone size, zone capacity and the written zones. (PRESUMED, log 54) -/
def Chip.initDone (k : Chip) (t step sub result : Nat) : Chip :=
  let g := k.target t
  if g.state != 1 then k
  else if step == 1 then
    if result < 0x20000 then k.targetFailed t 0 else k.sendInit t 2 0 0x06 0 [0, 0, 0, 0, 0, 0]
  else if step == 2 then
    if result % 256 != g.lbaLog2 || bit result 8 || (g.zoned && !bit result 9) then k.targetFailed t 0
    else if k.pairsReady t then k.initZones t
    else k.sendInit t 3 0 0x09 0 [7, (g.qpCount - 1) * 65537, 0, 0, 0, 0]
  else if step == 3 then
    if result % 65536 + 1 < g.qpCount || result / 65536 % 65536 + 1 < g.qpCount then k.targetFailed t 0 else k.initPair t 0
  else if step == 4 then
    if sub + 1 < 2 * g.qpCount then k.initPair t (sub + 1)
    else
      let q := k.qpair (k.adminPair t)
      let k := (k.emit (.driveCommand (k.adminPair t) q.nextCid (nvmeEntry 0x0C q.nextCid 0 0 []))).setQpair (k.adminPair t)
        fun q => { q with nextCid := (q.nextCid + 1) % 65536, sqTail := (q.sqTail + 1) % 2 ^ q.qlog2 }
      k.initZones t
  else (k.noteZones t result).targetReady t

/-! ### Reissue and reconciliation (R243) -/

/-- The command numbered `n` no longer in flight. -/
def Chip.dropCmd (k : Chip) (n : Nat) : Chip := { k with mq := { k.mq with cmds := k.mq.cmds.erase n } }

/-- Command `n` changed by `f`, while it is in flight. -/
def Chip.setCmd (k : Chip) (n : Nat) (f : MediaCmd → MediaCmd) : Chip :=
  match k.mq.cmds.find n with
  | some c => { k with mq := { k.mq with cmds := k.mq.cmds.insert n (f c) } }
  | none => k

/-- R243: a placement written at LBA `lba`: durable, or waiting for a Flush (R240). -/
def Chip.placeWritten (k : Chip) (p lba : Nat) : Chip :=
  match k.mq.places.find p with
  | none => k
  | some q =>
    if (k.target q.target).fua then k.endPlacement p 0 lba
    else
      { k with mq := { k.mq with places := k.mq.places.insert p { q with lba := lba } } }.setTarget q.target
        fun g => { g with uncovered := g.uncovered ++ [p] }

/-- The recorded pointer of a zone after the extents that follow it without a gap (R243). -/
def Zone.advance (z : Zone) : Zone :=
  { z with wp := z.extents.foldl (fun w _ => ((z.extents.find? fun e => e.1 == w).map fun e => e.1 + e.2).getD w) z.wp }

/-- R243: an append of `x` LBAs at offset `off` of a zone recorded. -/
def Chip.noteAppend (k : Chip) (t z off x : Nat) : Chip :=
  k.setZone t z fun r => Zone.advance { r with extents := r.extents ++ [(off, x)] }

/-- The end of command `n` with a failure: `status` is the value of R241 for a placement. -/
def Chip.cmdFailed (k : Chip) (n status nvme : Nat) : Chip :=
  match k.mq.cmds.find n with
  | none => k
  | some c =>
    let k := k.dropCmd n
    match c.use with
    | .init _ _ => if (k.target c.target).state == 1 then k.targetFailed c.target nvme else k
    | .place p => k.endPlacement p status 0
    | .flush ps => k.endPlacements ps status
    | _ => k

/-- R243: command `n` sent again, an append in the zone whose turn it is. -/
def Chip.reissue (k : Chip) (n : Nat) (otherZone : Bool) : Chip :=
  match k.mq.cmds.find n with
  | none => k
  | some c => match c.use with
    | .place p =>
      let q := Tbl.get {} k.mq.places p
      let k := k.count 7 (k.target c.target).port 3 1
      if !otherZone then k.sendNvme n { c with retries := c.retries + 1 } else
      let x := (k.target q.target).extent q.len
      match Chip.pickZone ((k.target q.target).openZones.length + 2) k q.target x with
      | (k, none) => (k.dropCmd n).endPlacement p 4 0
      | (k, some z) => k.sendNvme n { k.sendPlace p z with retries := c.retries + 1 }
    | _ => (k.count 7 (k.target c.target).port 3 1).sendNvme n { c with retries := c.retries + 1 }

/-- R243, step 1: Report Zones for the zone of append `n`. (DEDUCED, log 56) -/
def Chip.reconcile (k : Chip) (n : Nat) : Chip :=
  match k.mq.cmds.find n with
  | none => k
  | some c =>
    let g := k.target c.target
    k.newNvme
      { target := c.target, qp := k.ioPair c.target, use := .reconcile n 1, zone := c.zone
        sqe := nvmeEntry 0x7A 0 g.nsid 0 (lbaDwords (g.zoneStart c.zone) ++ [15, 0, 0, 0]) }

/-- R243: the reconciliation of append `n` ends; an append not found is sent again. -/
def Chip.reconciled (k : Chip) (n t : Nat) (otherZone : Bool) : Chip :=
  (k.mqEvent MQ_EVENT.RECONCILED t (k.target t).port 0).reissue n otherZone

/-- R243, steps 2 to 4, at pointer `at_` of zone `z` with the drive's pointer at `wp`. -/
def Chip.reconcileAt (k : Chip) (n t z at_ wp : Nat) : Chip :=
  let r := k.zone t z
  let at_ := (Zone.advance { r with wp := at_ }).wp
  if at_ == wp then (k.setZone t z fun r => { r with wp := at_ }).reconciled n t false
  else if wp < at_ then (k.finishZone t z).reconciled n t true
  else
    let g := k.target t
    k.newNvme
      { target := t, qp := k.ioPair t, use := .reconcile n 2, zone := z, at_ := at_, until_ := wp
        sqe := nvmeEntry 0x02 0 g.nsid 0 (lbaDwords (g.zoneStart z + at_) ++ [0, 0, 0, 0]) }

/-- R243, step 2: the command in flight to zone `z` whose fragment header is `head`: OBJECT_ID in bits 63 to 0, STRIPE
in bits 95 to 64, FRAG_INDEX in bits 111 to 96. -/
def Chip.headOwner (k : Chip) (t z head : Nat) : Option (Nat × Nat) :=
  k.mq.cmds.findSome? fun e => match e.2.use with
    | .place p =>
      let q := Tbl.get {} k.mq.places p
      if e.2.target == t && e.2.zone == z && q.zoned && q.object == head % 2 ^ 64 &&
        q.stripe == head / 2 ^ 64 % 2 ^ 32 && q.fragment == head / 2 ^ 96 % 65536
      then some (e.1, p) else none
    | _ => none

/-- R243: a reconciliation command has ended with `result`: the drive's write pointer as an LBA of the zone, or the
header read. -/
def Chip.reconcileDone (k : Chip) (c : MediaCmd) (n step result : Nat) : Chip :=
  let t := c.target
  let z := c.zone
  let g := k.target t
  if step == 1 then k.reconcileAt n t z (k.zone t z).wp (result - g.zoneStart z)
  else match k.headOwner t z result with
    | some (m, p) =>
      let x := g.extent (Tbl.get {} k.mq.places p).len
      if c.at_ + x ≤ c.until_ then
        let k := ((k.dropCmd m).noteAppend t z c.at_ x).placeWritten p (g.zoneStart z + c.at_)
        k.reconcileAt n t z (c.at_ + x) c.until_
      else (k.finishZone t z).reconciled n t true
    | none => (k.finishZone t z).reconciled n t true

/-- R243: command `n` is to be issued again: a Zone Append only after its zone is reconciled. -/
def Chip.retry (k : Chip) (n : Nat) : Chip :=
  match k.mq.cmds.find n with
  | none => k
  | some c => match c.use with
    | .place p => if (Tbl.get {} k.mq.places p).zoned then k.reconcile n else k.reissue n false
    | _ => k.reissue n false

/-- R243: the statuses after which a command is issued again: Data Transfer Error, Command Aborted due to SQ Deletion,
Namespace Not Ready (NVM Express base specification, generic command status). -/
def retriable (status : Nat) : Bool := [0x04, 0x08, 0x82].contains (status % 2048)

/-! ### Completions (R234, R237, R241) -/

/-- A completion queue entry of pair `p` at its tail. -/
def Chip.completionEntry (k : Chip) (p cid status result : Nat) : Chip :=
  let q := k.qpair p
  let phase := 1 - q.cqTail / 2 ^ q.qlog2 % 2
  let e := leBytes result 4 ++ zeros 4 ++ leBytes q.sqTail 2 ++ leBytes p 2 ++ leBytes cid 2 ++
    leBytes (phase + 2 * (status % 32768)) 2
  let at_ := q.cqBase + 16 * (q.cqTail % 2 ^ q.qlog2)
  let k := if at_ + 16 ≤ k.dramSize then k.store at_ e else k
  (k.setQpair p fun q => { q with cqTail := (q.cqTail + 1) % 2 ^ (q.qlog2 + 1) }).emit (.msi q.msiAddr q.msiData)

/-- R233, R239 to R243: command `n` has completed with success. -/
def Chip.cmdDone (k : Chip) (n : Nat) (c : MediaCmd) (result : Nat) : Chip :=
  match c.use with
  | .init step sub => (k.dropCmd n).initDone c.target step sub result
  | .place p =>
    let q := Tbl.get {} k.mq.places p
    let g := k.target c.target
    let k := k.dropCmd n
    if q.zoned then
      (k.noteAppend c.target c.zone (result - g.zoneStart c.zone) (g.extent q.len)).placeWritten p result
    else k.placeWritten p q.lba
  | .flush ps => (k.dropCmd n).endPlacements ps 0
  | .zoneMgmt _ _ => k.dropCmd n
  | .pass cid => (k.dropCmd n).completionEntry c.qp cid 0 result
  | .abort m => match (k.mq.cmds.find m) with
    | some a => if a.aborted then (k.dropCmd n).retry m else k.dropCmd n
    | none => k.dropCmd n
  | .reconcile m step => (k.dropCmd n).reconcileDone c m step result

/-- R243: command `n` has completed with an error status. -/
def Chip.cmdError (k : Chip) (n : Nat) (c : MediaCmd) (status result : Nat) : Chip :=
  match c.use with
  | .pass cid => (k.dropCmd n).completionEntry c.qp cid status result
  | .abort _ => k.cmdDone n c 0
  | .reconcile m _ => (k.dropCmd n).cmdFailed m 1 status
  | _ =>
    if c.aborted && status % 2048 == 0x07 then k
    else if retriable status && c.retries < k.rd MQ_TIMEOUT.RETRIES then k.retry n
    else k.cmdFailed n 1 status

/-- R543, R544: a command completed on a root port; the bytes that the drive itself moved and the latency are not in the
command, so they count as free values. -/
def Chip.countMedia (k : Chip) (port : Nat) : Chip :=
  let (r, k) := k.fresh
  let (w, k) := k.fresh
  (((k.count 7 port 0 r).count 7 port 1 w).count 7 port 2 1).histFree 14 port

/-- R234: a completion of queue pair `p` reaches the capture page. -/
def Chip.capture (k : Chip) (p cid status result : Nat) : Chip :=
  let k := if bit (k.qpair p).flags 1 then k else
    let head := ((k.qpair p).cqHead + 1) % 2 ^ (k.qpair p).qlog2
    (k.setQpair p fun q => { q with cqHead := head }).emit (.driveDoorbell p true head)
  let k := k.countMedia (k.target (k.qpair p).target).port
  match k.mq.cmds.find? fun e => e.2.qp == p && e.2.cid == cid with
  | none => k
  | some (n, c) => if status % 2048 == 0 then k.cmdDone n c result else k.cmdError n c status result

/-- R243: command `n` has reached MQ_TIMEOUT.CMD. -/
def Chip.cmdTimeout (k : Chip) (n : Nat) : Chip :=
  match k.mq.cmds.find n with
  | none => k
  | some c => match c.use with
    | .abort m => (k.dropCmd n).retry m
    | .reconcile m _ => (k.mqEvent MQ_EVENT.TIMEOUT c.target (k.target c.target).port 0).dropCmd n |>.cmdFailed m 3 0
    | _ =>
      let k := k.mqEvent MQ_EVENT.TIMEOUT c.target (k.target c.target).port 0
      let sq := c.qp - k.adminPair c.target
      let k := k.newNvme
        { target := c.target, qp := k.adminPair c.target, use := .abort n
          sqe := nvmeEntry 0x08 0 0 0 [sq % 65536 + c.cid * 65536, 0, 0, 0, 0, 0] }
      if c.retries < k.rd MQ_TIMEOUT.RETRIES then k.setCmd n fun c => { c with aborted := true }
      else k.cmdFailed n 3 0

/-! ### Pass-through pairs (R235, R237) -/

/-- Whether `n` LBAs from `lba` of namespace `nsid` meet the zone pool of a target on the controller of target `t`
(R235). -/
def Chip.meetsPool (k : Chip) (t nsid lba n : Nat) : Bool :=
  let g := k.target t
  k.mq.targets.any fun e =>
    e.2.enabled && e.2.zoned && e.2.port == g.port && e.2.rid == g.rid && e.2.nsid == nsid &&
    decide (lba < e.2.zoneFirst + e.2.zoneCount * e.2.zoneSize ∧ e.2.zoneFirst < lba + n)

/-- Whether the command names a zone that the engine holds open: the zone at `lba`, or all of them (R235). -/
def Chip.namesOpenZone (k : Chip) (t nsid lba : Nat) (all : Bool) : Bool :=
  let g := k.target t
  k.mq.targets.any fun e =>
    e.2.port == g.port && e.2.rid == g.rid && e.2.nsid == nsid &&
    e.2.openZones.any fun z => all || decide (e.2.zoneStart z ≤ lba ∧ lba < e.2.zoneStart z + e.2.zoneSize)

/-- R235: whether every target of the controller of target `t` is off or offline. -/
def Chip.controllerOff (k : Chip) (t : Nat) : Bool :=
  let g := k.target t
  k.mq.targets.all fun e => e.2.port != g.port || e.2.rid != g.rid || e.2.state == 0 || e.2.state == 3

/-- The ranges of a Dataset Management command, none where they cannot be read. -/
def Chip.datasetRanges (k : Chip) (t : Nat) (e : Bytes) : Option (List (Nat × Nat)) :=
  let n := leAt e 40 1 + 1
  match k.dmaRead [] (k.rd WS_IOMMU.RP_BASE + (k.target t).rid) (leAt e 24 8) (16 * n) with
  | .bytes b => some ((List.range n).map fun i => (leAt b (16 * i + 8) 8, leAt b (16 * i + 4) 4))
  | _ => none

/-- R235: whether the engine accepts entry `e` of a pass-through pair. -/
def Chip.passAllowed (k : Chip) (q : QPair) (e : Bytes) : Bool :=
  let op := leAt e 0 1
  let nsid := leAt e 4 4
  let lba := leAt e 40 8
  let t := q.target
  if bit q.flags 2 then
    [0x02, 0x06, 0x0A, 0x10, 0x11, 0x14].contains op || (op == 0x09 && !([0x07, 0x08].contains (leAt e 40 1))) ||
    ([0x0D, 0x15, 0x80, 0x84].contains op && k.controllerOff t)
  else
    [0x00, 0x02, 0x7A].contains op ||
    ([0x01, 0x08].contains op && !k.meetsPool t nsid lba (leAt e 48 2 + 1)) ||
    (op == 0x7D && !k.meetsPool t nsid lba 1) ||
    (op == 0x09 && (match k.datasetRanges t e with
      | some rs => rs.all fun r => !k.meetsPool t nsid r.1 r.2
      | none => false)) ||
    (op == 0x79 && !k.namesOpenZone t nsid lba (bit (leAt e 52 4) 8))

/-- R237: one new entry of pass-through pair `p`. -/
def Chip.passEntry (k : Chip) (p : Nat) : Chip :=
  let q := k.qpair p
  let e := k.load (q.sqBase + 64 * (q.sqTail % 2 ^ q.qlog2)) 64
  let k := k.setQpair p fun q => { q with sqTail := (q.sqTail + 1) % 2 ^ q.qlog2 }
  let cid := leAt e 2 2
  if k.passAllowed q e then
    let n := k.mq.nextCmd
    { k.emit (.driveCommand p cid e) with mq := { k.mq with
      nextCmd := n + 1
      cmds := k.mq.cmds.insert n { target := q.target, qp := p, cid := cid, use := .pass cid, sqe := e } } }
  else (k.completionEntry p cid 0x01 0).mqEvent MQ_EVENT.PASS_REFUSED q.target (k.target q.target).port 0x01

/-- R237, R569: the SQ tail doorbell of pair `p`. -/
def Chip.passSq (k : Chip) (p tail : Nat) : Chip :=
  let q := k.qpair p
  if !bit q.flags 1 then k.mqEvent MQ_EVENT.PASS_REFUSED q.target (k.target q.target).port 0
  else if !bit q.flags 0 || !k.on MQ_CTRL.ENABLE then k
  else (List.range (wrapSub tail q.sqTail q.qlog2)).foldl (fun k _ => k.passEntry p) k

/-- R237, R569: the CQ head doorbell of pair `p`. -/
def Chip.passCq (k : Chip) (p head : Nat) : Chip :=
  let q := k.qpair p
  if !bit q.flags 1 then k.mqEvent MQ_EVENT.PASS_REFUSED q.target (k.target q.target).port 0
  else if !bit q.flags 0 || !k.on MQ_CTRL.ENABLE then k
  else (k.setQpair p fun q => { q with cqHead := head % 2 ^ q.qlog2 }).emit (.driveDoorbell p true (head % 2 ^ q.qlog2))

/-! ### Drives (R244) -/

/-- R244: the drive behind port `port` is gone: its targets offline, its commands and placements ended. -/
def Chip.driveGone (k : Chip) (port : Nat) : Chip :=
  let ts := (k.mq.targets.filter fun e => e.2.enabled && e.2.port == port).map (·.1)
  let k := ts.foldl (fun k t =>
    let un := (k.target t).uncovered
    (k.setTarget t fun g => { g with state := 3, uncovered := [] }).endPlacements un 2) k
  let cs := (k.mq.cmds.filter fun e => ts.contains e.2.target).map (·.1)
  let k := cs.foldl (fun k n => k.cmdFailed n 2 0) k
  { k with mq := { k.mq with present := k.mq.present.filter (· != port) } }

/-- DRIVE_REMOVED (R244) for one port. -/
def Chip.driveRemoved (k : Chip) (port : Nat) : Chip :=
  ((k.driveGone port).wr MQ_LINK.UP (clearBit (k.rd MQ_LINK.UP) port)).mqEvent MQ_EVENT.DRIVE_REMOVED 0 port 0

/-- DRIVE_ADDED (R244) for one port. (DEDUCED, log 57) -/
def Chip.driveAdded (k : Chip) (port : Nat) : Chip :=
  let k := { k with mq := { k.mq with present := port :: k.mq.present.filter (· != port) } }
  (k.wr MQ_LINK.UP (setBit (k.rd MQ_LINK.UP) port)).mqEvent MQ_EVENT.DRIVE_ADDED 0 port 0

/-! ### Indirect access (R246) -/

/-- R231: whether the values of a target entry lie in their ranges. -/
def targetValuesGood (b : Bytes) : Bool :=
  let flags := leAt b 1 1
  decide (leAt b 0 1 ≤ 31 ∧ flags < 8 ∧ 1 ≤ leAt b 12 1 ∧ leAt b 12 1 ≤ 8) &&
  (leAt b 8 1 == 9 || leAt b 8 1 == 12) && (!bit flags 1 || decide (1 ≤ leAt b 9 1 ∧ leAt b 9 1 ≤ 16)) &&
  decide (leAt b 10 2 + leAt b 12 1 ≤ 8191)

/-- R232: whether the values of a queue-pair entry lie in their ranges. -/
def qpairValuesGood (b : Bytes) : Bool :=
  leAt b 0 8 % 4096 == 0 && leAt b 8 8 % 4096 == 0 &&
  decide (4 ≤ leAt b 16 1 ∧ leAt b 16 1 ≤ 12 ∧ leAt b 17 1 < 8 ∧ leAt b 18 2 < 4096)

/-- Whether a target is initialising or ready. -/
def Target.active (t : Target) : Bool := t.state == 1 || t.state == 2

/-- R246: the target and index of a command, as MQ_IND_CMD shows them. -/
def Chip.mqInd (k : Chip) (target index op : Nat) : Chip :=
  ((k.wr MQ_IND_CMD.INDEX index).wr MQ_IND_CMD.TARGET target).wr MQ_IND_CMD.OP op

/-- R246: the end of a command. -/
def Chip.mqIndDone (k : Chip) (status : Nat) : Chip := (k.wr MQ_IND_CMD.STATUS status).wr MQ_IND_CMD.GO 0

/-- R231, R233, R246: a write of target entry `index`. (DEDUCED, log 55) -/
def Chip.mqTargetWrite (k : Chip) (index : Nat) : Chip :=
  let k := k.mqInd 0 index 1
  let b := k.indBytes MQ_IND_DATA.DATA 4
  let g := k.target index
  let g' := g.written b
  if 4096 ≤ index then k.mqIndDone 1
  else if g.active && { g' with flags := clearBit g'.flags 0 } != { g with flags := clearBit g.flags 0 } then k.mqIndDone 2
  else if !targetValuesGood b then k.mqIndDone 3
  else
    let k := (k.setTarget index fun _ => { g' with state := if g'.enabled then g'.state else 0 }).mqIndDone 0
    if g'.enabled && !g.enabled then k.startTargets else k

/-- R232, R246: a write of queue-pair entry `index`. (DEDUCED, log 57) -/
def Chip.mqQpWrite (k : Chip) (index : Nat) : Chip :=
  let k := k.mqInd 1 index 1
  let b := k.indBytes MQ_IND_DATA.DATA 4
  let q := k.qpair index
  let q' := q.written b
  if 8192 ≤ index then k.mqIndDone 1
  else if (k.target q.target).active &&
    { q' with flags := clearBit q'.flags 0 } != { q with flags := clearBit q.flags 0 } then k.mqIndDone 2
  else if !qpairValuesGood b then k.mqIndDone 3
  else
    let fresh := bit q'.flags 0 && !bit q.flags 0
    (k.setQpair index fun _ => if fresh then { q' with sqTail := 0, cqHead := 0, cqTail := 0 } else q').mqIndDone 0

/-- R246: a read of a target or queue-pair entry. -/
def Chip.mqIndRead (k : Chip) (target index : Nat) : Chip :=
  let k := k.mqInd target index 0
  if target == 0 && 4096 ≤ index || 8192 ≤ index then k.mqIndDone 1
  else (k.setInd MQ_IND_DATA.DATA 4 (if target == 0 then (k.target index).bytes else (k.qpair index).bytes)).mqIndDone 0

/-! ### The commands -/

/-- MQ_TARGET_WRITE (R246). -/
def execMqTargetWrite (index : Nat) (s : State) : Host.Outcome State Fault Refusal := s.commit (s.chip.mqTargetWrite index)

/-- MQ_QP_WRITE (R246). -/
def execMqQpWrite (index : Nat) (s : State) : Host.Outcome State Fault Refusal := s.commit (s.chip.mqQpWrite index)

/-- MQ_IND_READ (R246). -/
def execMqIndRead (target index : Nat) (s : State) : Host.Outcome State Fault Refusal :=
  s.commit (s.chip.mqIndRead target index)

/-- DRIVE_COMPLETION_CAPTURE (R234). -/
def execDriveCompletionCapture (qp cid status result : Nat) (s : State) : Host.Outcome State Fault Refusal :=
  s.commit (s.chip.capture qp cid status result)

/-- PASS_SQ_DOORBELL (R237). -/
def execPassSqDoorbell (qp tail : Nat) (s : State) : Host.Outcome State Fault Refusal := s.commit (s.chip.passSq qp tail)

/-- PASS_CQ_DOORBELL (R237). -/
def execPassCqDoorbell (qp head : Nat) (s : State) : Host.Outcome State Fault Refusal := s.commit (s.chip.passCq qp head)

/-- MEDIA_COMMAND_TIMEOUT (R243). -/
def execMediaCommandTimeout (cmd : Nat) (s : State) : Host.Outcome State Fault Refusal := s.commit (s.chip.cmdTimeout cmd)

/-- DRIVE_REMOVED (R244). -/
def execDriveRemoved (port : Nat) (s : State) : Host.Outcome State Fault Refusal := s.commit (s.chip.driveRemoved port)

/-- DRIVE_ADDED (R244). -/
def execDriveAdded (port : Nat) (s : State) : Host.Outcome State Fault Refusal := s.commit (s.chip.driveAdded port)

end Sys2Proof.Machine
end

