-- ==== Sys2Proof/Machine/PowerOps.lean ====
section
/-!
DEFINITION. Shared operations of clocks and power (19): the margin loop, the thermal ceiling and the power cap, the package
states with their entries, and the gates.
-/

namespace Sys2Proof.Machine

/-! ### Events (R492, R494) -/

/-- A bit of CLK_ERR set for `tile`, and its event when it newly sets (R492). (DEDUCED, log 32) -/
def Chip.clkErr (k : Chip) (f : Fld) (tile : Nat) : Chip :=
  let was := k.on f
  let k := k.raise f
  if was then k else k.log { cls := 0, unitType := 17, unit := 0, cause := f.lo, info0 := tile }

/-- A bit of PWR_ERR set, and its event when it newly sets (R494). (DEDUCED, log 32) -/
def Chip.pwrErr (k : Chip) (f : Fld) : Chip :=
  let was := k.on f
  let k := k.raise f
  if was then k else k.log { cls := 0, unitType := 17, unit := 0, cause := f.lo }

/-! ### The margin loop (R479 to R481) -/

/-- The trim of tile `t` in mV. -/
def Chip.trimOf (k : Chip) (t : Nat) : Int := toSigned (k.rd (CLK_TRIM.TRIM t)) 8

/-- R479, R492: the target slack as it acts. -/
def Chip.slackTarget (k : Chip) : Nat := clamp 10 100 (k.rd CLK_CTRL.TARGET)

/-- R479, R480: the trim of tile `t` moved by `d` mV; the aging estimate that the loop keeps is then a free value. At +45 mV
Gunel requests the core's retirement. (DEDUCED, log 81) -/
def Chip.moveTrim (k : Chip) (t : Nat) (d : Int) : Chip :=
  let old := k.trimOf t
  let new := clampInt (-50) 50 (old + d)
  if new == old then k else
  let (v, k) := k.fresh
  let k := (k.wr (CLK_TRIM.TRIM t) (ofSigned new 8)).wr (CLK_TRIM.AGE t) v
  match (k.tile t).hart with
  | some h =>
    if 45 ≤ new ∧ old < 45 ∧ k.on CLK_CTRL.RETIRE_EN then (k.clkErr CLK_ERR.RETIRE t).queueTest 0 h true else k
  | none => k

/-- R479: the smallest slack of tile `t` in the phase that has just ended. -/
def Chip.slackPhase (k : Chip) (t : Nat) (slack : Int) : Chip :=
  let k := k.wr (CLK_TRIM.MARGIN t) (clampInt 0 255 slack).toNat
  let target : Int := k.slackTarget
  let low := decide (slack < target)
  let above := if slack > target + 20 then (k.tile t).above + 1 else 0
  let k := k.setTile t fun x => { x with below := x.below + ofBool low, above := above % 8 }
  if !k.on CLK_CTRL.MARGIN_EN then k
  else if low then k.moveTrim t 5
  else if above == 8 then k.moveTrim t (-5)
  else k

/-- R479: the slacks of a phase, by tile. -/
def Chip.slacks (k : Chip) (ss : List Int) : Chip :=
  (List.range 336).foldl (fun k t => match ss[t]? with
    | some s => if k.tileServes t && !(k.tile t).retention then k.slackPhase t s else k
    | none => k) k

/-- R481: at a boundary, a core at the top of its trim with too little slack for a whole beat gives up one step of CAP. -/
def Chip.trimLimit (k : Chip) (t : Nat) : Chip :=
  let x := k.tile t
  let hold := if x.below == 0 then x.capHold - 1 else if x.capHold == 0 then 0 else 256
  let limit := decide (8 ≤ x.below) && k.trimOf t == 50
  let k := k.setTile t fun x => { x with below := 0, capHold := if limit then 256 else hold }
  match limit, x.hart with
  | true, some h => (k.setHart h fun g => { g with oppCap := g.oppCap - 1 }).clkErr CLK_ERR.TRIM_LIMIT t
  | _, _ => k

/-! ### The thermal ceiling (R478, R497) -/

/-- The thermal ceiling of C-die `d`. -/
abbrev Chip.tcapOf (k : Chip) (d : Nat) : Nat := Tbl.get 15 k.pwr.tcap d

/-- The die of thermal sensor `i` (R497): 12 for the H-die. -/
def sensorDie (i : Nat) : Nat := if i < 96 then i / 8 else 12

/-- What stands for no reading. -/
def noReading : Int := -32768

/-- R478: the thermal readings of a phase, by sensor ID. -/
def Chip.heat (k : Chip) (temps : List Nat) : Chip :=
  { k with pwr := { k.pwr with highs := (temps.take 112).zipIdx.foldl (fun h (p : Nat × Nat) =>
      Tbl.mod noReading h (sensorDie p.2) fun v => max v (toSigned p.1 16)) k.pwr.highs } }

/-- R478: the ceiling of each die at a boundary. -/
def Chip.thermal (k : Chip) : Chip :=
  let limit : Int := 10 * clamp 70 95 (k.rd PWR_THERM.TJ_MAX)
  (List.range 12).foldl (fun k d =>
    let high := Tbl.get noReading k.pwr.highs d
    let put := fun (k : Chip) (v : Nat) => { k with pwr := { k.pwr with tcap := Tbl.set 15 k.pwr.tcap d v } }
    if high == noReading then k
    else if high > limit then (put k (k.tcapOf d - 1)).pwrErr PWR_ERR.THERM_CAP
    else if high < limit - 30 then put k (min 15 (k.tcapOf d + 1))
    else k) k

/-! ### The power cap (R476, R477) -/

/-- R263: the power of an operating point in 0.01 W. -/
def oppPower (o : Nat) : Nat := [15, 19, 24, 29, 35, 41, 48, 57, 67, 79, 85, 91, 98, 106, 117, 128].getD o 0

/-- A core as R476 sees it; `free` says that its CAP may rise (R481). -/
structure Core where
  hart : Nat
  req : Nat
  cap : Nat
  tcap : Nat
  cur : Nat
  powered : Bool
  free : Bool
  deriving DecidableEq, Repr

/-- R476: the target operating point t(c). -/
def Core.target (c : Core) : Nat := min c.req (min c.cap c.tcap)

/-- The cores in service; in Quiet every CAP is 0 (R477). -/
def Chip.cores (k : Chip) (quiet : Bool) : List Core :=
  k.harts.filterMap fun e => match e.2.ptile with
    | none => none
    | some t => if !e.2.online then none else some
        { hart := e.1, req := e.2.oppReq, cap := if quiet then 0 else e.2.oppCap, tcap := k.tcapOf (t / 28)
          cur := e.2.oppCur, powered := !(k.tile t).retention, free := !quiet && (k.tile t).capHold == 0 }

/-- R476: predict(), in eighths of 0.01 W; `base` is P_meas. -/
def predict (base : Int) (dCur dNew : Nat) (cs : List Core) : Int :=
  base + (cs.map fun c =>
    if c.powered then ((oppPower c.target * dNew : Nat) : Int) - (oppPower c.cur * dCur : Nat) else 0).sum

/-- R476: the lowering loop; the fuel bounds its steps. -/
def lowerCaps (base limit : Int) (dCur : Nat) : Nat → Bool → Nat → List Core → Nat × List Core
  | 0, _, d, cs => (d, cs)
  | n + 1, force, d, cs =>
    if decide (limit < predict base dCur d cs) || force then
      let h := cs.foldl (fun m c => max m c.target) 0
      if 0 < h then lowerCaps base limit dCur n false d (cs.map fun c => if c.target == h then { c with cap := h - 1 } else c)
      else if 1 < d then lowerCaps base limit dCur n false (d - 1) cs
      else (d, cs)
    else (d, cs)

/-- The lowest CAP among the cores that ask for more than it and may have it (R476). -/
def lowestCap (cs : List Core) : Option Nat :=
  cs.foldl (fun m c =>
    if c.free && decide (c.cap < c.req ∧ c.cap < c.tcap) then some (min c.cap (m.getD c.cap)) else m) none

/-- R476: the raising loop. (DEDUCED, log 81) -/
def raiseCaps (base floor : Int) (dCur : Nat) : Nat → Nat → List Core → Nat × List Core
  | 0, d, cs => (d, cs)
  | n + 1, d, cs =>
    if predict base dCur d cs < floor then
      if d < 8 then
        if floor < predict base dCur (d + 1) cs then (d, cs) else raiseCaps base floor dCur n (d + 1) cs
      else match lowestCap cs with
        | none => (d, cs)
        | some l =>
          let up := cs.map fun c =>
            if c.free && c.cap == l && decide (l < c.req ∧ l < c.tcap) then { c with cap := l + 1 } else c
          if floor < predict base dCur d up then (d, cs) else raiseCaps base floor dCur n d up
    else (d, cs)

/-- R485: whether CAP is 0 for every core. -/
def PkgState.capped : PkgState → Bool
  | .quiet | .enterQuiet | .leaveQuiet => true
  | _ => false

/-- R474, R475: the operating point of a core whose tile is awake and that does not move. -/
def Chip.moveOpp (k : Chip) (c : Core) : Chip :=
  k.setHart c.hart fun g => { g with
    oppCap := c.cap
    oppCur := if c.powered && g.moving.isNone then c.target else g.oppCur }

/-- R476, R477: the power controller at a boundary. (DEDUCED, log 81) -/
def Chip.powerCap (k : Chip) : Chip :=
  let n := max 1 k.pwr.samples.length
  let sum := k.pwr.samples.sum
  let base : Int := 80 * sum / n
  let tdp := clamp 300 650 (k.rd PWR_CTRL.TDP)
  let limit : Int := 800 * tdp
  let floor : Int := limit - 800 * orDefault (k.rd PWR_CTRL.HYST) 10
  let d := k.rd PWR_STATUS.DUTY
  let cs := k.cores k.pwr.pkg.capped
  let low := lowerCaps base limit d 24 (decide (limit < base)) d cs
  let res := raiseCaps base floor d 24 low.1 low.2
  let k := res.2.foldl Chip.moveOpp k
  let k := (k.wr PWR_STATUS.DUTY res.1).wr PWR_MEAS.POWER (sum / n)
  if d == 8 && res.1 < 8 then k.pwrErr PWR_ERR.DUTY else k

/-- R493: TJ_HOT and TJ_DIE of the beat that has just ended. -/
def Chip.hottest (k : Chip) : Chip :=
  let top : Nat × Int := k.pwr.highs.foldl (fun m e => if m.2 < e.2 then e else m) (0, noReading)
  if top.2 == noReading then k else (k.wr PWR_MEAS.TJ_HOT (top.2 / 10).toNat).wr PWR_MEAS.TJ_DIE top.1

/-- R476 to R481 at a boundary: trims, ceilings, cap and operating points, from the beat that has just ended.
(DEDUCED, log 25) -/
def Chip.powerBoundary (k : Chip) : Chip :=
  let k := ((List.range 336).foldl Chip.trimLimit k).thermal.hottest.powerCap
  { k with pwr := { k.pwr with samples := [], highs := [] } }

/-- R475, R489: tile `t` wakes, and an operating point that fell due meanwhile is applied. -/
def Chip.wakeTile (k : Chip) (t : Nat) : Chip :=
  if !(k.tile t).retention then k else
  let k := k.setTile t fun x => { x with retention := false }
  match (k.tile t).hart with
  | some h => (k.cores k.pwr.pkg.capped).foldl (fun k c => if c.hart == h then k.moveOpp c else k) k
  | none => k

/-! ### Claims (R450, R451) -/

/-- Whether a power request comes from the secure world. -/
abbrev PwrReq.secure (r : PwrReq) : Bool := r.src == 1 || r.src == 4

/-- The claim bits in force: those of WS_CLAIM, and 64 + tile. -/
def Chip.claims (k : Chip) : List Nat :=
  (setBits (k.rd WS_CLAIM.CDIE) 12) ++ (setBits (k.rd WS_CLAIM.CHANNEL) 16).map (12 + ·) ++
  (if k.on WS_CLAIM.SIGN then [28] else []) ++ (if k.on WS_CLAIM.ENDPOINT then [29] else []) ++
  (List.range 6).flatMap fun i => (setBits (k.rd (WS_CLAIM_TILE.TILE i)) 64).map (64 + 64 * i + ·)

/-- R450: the claims that a gate of a unit would break: with a C-die its tiles. -/
def Chip.claimsOf (k : Chip) (target index : Nat) : List Nat :=
  k.claims.filter fun c =>
    match target with
    | 1 => c == 64 + index
    | 2 => c == index || (decide (64 ≤ c) && (c - 64) / 28 == index)
    | 3 => c == 12 + index
    | 4 => c == 28
    | _ => c == 29

/-! ### The statuses of a request (R485, R486, R490, R494) -/

/-- R485: a package transition or a start is in progress. -/
def PkgState.moving : PkgState → Bool
  | .off | .starting | .enterQuiet | .leaveQuiet | .enterStandby | .enterDrydown => true
  | _ => false

/-- R485: whether the transition is one of the table. -/
def PkgState.allows (p : PkgState) (r : PwrReq) : Bool :=
  match p, r.op with
  | .run, 1 | .quiet, 0 | .run, 2 | .quiet, 2 | .run, 3 | .quiet, 3 => true
  | .standby, 3 => r.src == 2
  | _, _ => false

/-- R494: the shape of a request: the package takes OP 0 to 3, a unit OP 4 and 5. -/
def PwrReq.shaped (r : PwrReq) : Bool :=
  match r.target with
  | 0 => decide (r.op ≤ 3)
  | 1 => (r.op == 4 || r.op == 5) && decide (r.index < 336)
  | 2 => (r.op == 4 || r.op == 5) && decide (r.index < 12)
  | 3 => (r.op == 4 || r.op == 5) && decide (r.index < 16)
  | 4 | 5 => r.op == 4 || r.op == 5
  | _ => false

/-- R472: whether Gunel is there to change the package state. -/
def Chip.gunelUp (k : Chip) : Bool := k.on GN_STATUS.RUNNING && k.on CLK_STATUS.GUNEL_HB

/-- R473, R485: the rate of PWR_CTRL.QUIET_RATE, as MC_STATUS.RATE codes it. -/
def Chip.quietRate (k : Chip) : Nat := if k.on PWR_CTRL.QUIET_RATE then 2 else 1

/-- R486: the three conditions of a request for Standby or Drydown. -/
def Chip.quiesced (k : Chip) : Bool :=
  k.re.jobs.isEmpty && !k.on RE_CTRL.RUN && k.mq.cmds.isEmpty && !k.on CN_CTRL.ENABLE

/-- R489: the condition of a gate of C-die `d`: its hart IDs offline, its engines disabled. -/
def Chip.dieQuiet (k : Chip) (d : Nat) : Bool :=
  !(k.harts.any fun e => e.2.online && e.2.ptile.any fun t => t / 28 == d) &&
  !k.on (AE_CTRL.ENABLE (2 * d)) && !k.on (AE_CTRL.ENABLE (2 * d + 1))

/-- R490: whether the hart ID of tile `t` runs. -/
def Chip.tileRuns (k : Chip) (t : Nat) : Bool :=
  match (k.tile t).hart with
  | some h => (k.hart h).online && !(k.hart h).stopped
  | none => false

/-- The status of a request for the package (R472, R485, R486), and the claim that refuses it. (DEDUCED, log 80) -/
def Chip.pkgStatus (k : Chip) (r : PwrReq) : Nat × Option Nat :=
  let p := k.pwr.pkg
  if p.moving || !k.gunelUp then (1, none)
  else if !p.allows r then (5, none)
  else if r.op == 1 && !k.trained k.quietRate then (4, none)
  else if r.op ≤ 1 then (if k.mc.change.isSome then 1 else 0, none)
  else if p != .standby && !k.quiesced then (2, none)
  else match r.secure, k.claims with
    | false, c :: _ => (3, some c)
    | _, _ => (0, none)

/-- The status of a request for a unit (R490), and the claim that refuses it. (DEDUCED, log 80) -/
def Chip.unitStatus (k : Chip) (r : PwrReq) : Nat × Option Nat :=
  if r.op == 5 then (0, none)
  else if (r.target == 1 && k.tileRuns r.index) || (r.target == 2 && !k.dieQuiet r.index) then (2, none)
  else match r.secure, k.claimsOf r.target r.index with
    | false, c :: _ => (3, some c)
    | _, _ => (0, none)

/-! ### What an accepted request does (R484 to R490) -/

/-- R485: a change of DRAM rate that a Quiet request starts; at the rate in force there is nothing to change. -/
def Chip.quietChange (k : Chip) (rate : Nat) (during after : PkgState) : Chip :=
  let now := k.rd (MC_STATUS.RATE 0)
  if rate == now then { k with pwr := { k.pwr with pkg := after } }
  else { k with pwr := { k.pwr with pkg := during } }.startChange { target := rate, previous := now }

/-- R486, steps 1 and 2: every hart stops, and every dirty line is written to DRAM. -/
def Chip.stopHarts (k : Chip) : Chip :=
  let k := k.dirtyCopies.foldl (fun k c => k.homePut c.1 (some c.2.1) c.2.2) k
  { k with
    harts := Tbl.mapVals {} k.harts fun _ g => { g with online := false, reservation := none }
    coh := { k.coh with
      die := [], evict := [], answers := [], grants := [], waits := [], heldSnoops := [], busy := [], wrData := []
      dir := [], sc := [] } }

/-- R522, step 2: C-die `d` writes back and invalidates every line, and its entries at the homes clear. -/
def Chip.emptyDie (k : Chip) (d : Nat) : Chip :=
  let mine := k.coh.die.filter fun e => e.1 % 16 == d
  let k : Chip := mine.foldl (fun (k : Chip) e =>
    let l := e.1 / 16
    match k.homeLine l with
    | .owned x => if x == d then (k.homePut l e.2.data e.2.poison).setHomeLine l .none else k
    | .ownedShared x => if x == d then (k.homePut l e.2.data e.2.poison).setHomeLine l .shared else k
    | _ => k) k
  let late := k.coh.evict.filter fun e => e.1 % 16 == d && !e.2.stale
  let k : Chip := late.foldl (fun (k : Chip) e => (k.homePut (e.1 / 16) e.2.data e.2.poison).setHomeLine (e.1 / 16) .none) k
  k.dropDie d

/-- R489, R490: C-die `d` is written back and powered off, and its two ports go down with it. -/
def Chip.gateDie (k : Chip) (d : Nat) : Chip :=
  let k := k.emptyDie d
  let k := ((k.fencePort (2 * d)).fencePort (2 * d + 1)).setDie d fun x => { x with inService := false }
  { k with pwr := { k.pwr with gatedDies := d :: k.pwr.gatedDies.filter (· != d) } }

/-- R489, R490: a gate. (DEDUCED, log 80) -/
def Chip.gateUnit (k : Chip) (target index : Nat) : Chip :=
  match target with
  | 1 =>
    let k := match (k.tile index).hart with
      | some h => k.setHart h fun g => { g with online := false }
      | none => k
    k.setTile index fun x => { x with gated := true, retention := false }
  | 2 => if k.pwr.gatedDies.contains index then k else k.gateDie index
  | 3 =>
    if k.rd (MC_STATUS.STATE index) != 2 then k else
    { k.wr (MC_STATUS.STATE index) 3 with
      pwr := { k.pwr with gatedChannels := index :: k.pwr.gatedChannels } }
  | 4 => { k with pwr := { k.pwr with gatedSign := true } }
  | _ => { k.endpointDown with pwr := { k.pwr with gatedEndpoint := true } }

/-- R489: tile `t` leaves its gate and its hart ID starts at the reset vector. -/
def Chip.ungateTile (k : Chip) (t : Nat) : Chip :=
  if !(k.tile t).gated then k else
  let k := k.setTile t fun x => { x with gated := false }
  match (k.tile t).hart with
  | some h => k.setHart h fun g =>
      { ptile := some t, online := true, moved := g.moved, reason := g.reason, moves := g.moves, inStub := k.stubInForce }
  | none => k

end Sys2Proof.Machine
end

