-- ==== Sys2Proof/Machine/Rings.lean ====
section
/-!
DEFINITION. The commands of the work rings (03): doorbells, fetch, the checks at fetch, the coalescing timer and the
indirect access to ring and function contexts.
-/

namespace Sys2Proof.Machine

/-! ### Doorbells (R64, R65, R67, R69, R208, R569) -/

/-- What every doorbell write meets before its own rule: the ring it reaches, or the block after it is discarded
(R64, R67, R69, R208, R223, R569). -/
def Chip.doorbell (k : Chip) (internal : Bool) (group off width : Nat) : Except Chip Nat :=
  let r := 32 * group + off / 8
  let g := k.ring r
  if 256 ≤ off || 256 ≤ group then
    .error (if internal then k.log { cls := 0, unitType := 17, unit := 0, info0 := 0xF_C000_0000_0000 + 4096 * group + off }
      else k.hfErr HF_ERR.DB_RESERVED group 0)
  else if width != 4 || off % 4 != 0 then .error (k.raise RE_ERR.DB_SIZE)
  else if internal && !g.internal then .error (k.log { cls := 0, unitType := 2, unit := ofBool k.re.instanceB, info0 := r })
  else if !internal && g.internal then .error (k.hfErr HF_ERR.DB_POOL group (r % 32))
  else if !internal && (k.hostFn group).inFlr then .error k
  else if !g.running then .error k
  else .ok r

/-- R67: how far a WORK_PI value may move the producer index. -/
def Ring.room (g : Ring) : Nat := 2 ^ g.wrLog2 - wrapSub g.wrPi g.wrCi 32

/-- R65, R67: a WORK_PI value for ring `r`. (DEDUCED, log 34) -/
def Chip.workPi (k : Chip) (internal : Bool) (group off width value : Nat) : Chip :=
  match k.doorbell internal group off width with
  | .error k => k
  | .ok r =>
    let k := if internal then k else k.wakeLink
    let g := k.ring r
    if wrapSub value g.wrPi 32 > g.room then k.ringError r 21 value
    else k.setRing r fun g => { g with wrPi := value % 2 ^ 32 }

/-- R69: a CPL_CI value for ring `r`. (DEDUCED, log 34) -/
def Chip.cplCi (k : Chip) (internal : Bool) (group off width value : Nat) : Chip :=
  match k.doorbell internal group off width with
  | .error k => k
  | .ok r =>
    let k := if internal then k else k.wakeLink
    let g := k.ring r
    if wrapSub value g.crCi 32 > wrapSub g.crPi g.crCi 32 then k.raise RE_ERR.DB_RANGE
    else k.setRing r fun g => { g with crCi := value % 2 ^ 32 }

/-! ### Fetch (R66, R68, R73, R79) -/

/-- R66: whether the ring engine may fetch a descriptor of ring `r` now. (DEDUCED, log 35) -/
def Chip.mayFetch (k : Chip) (r : Nat) : Bool :=
  let g := k.ring r
  let fn := r / 32
  let c := k.fnCtx fn
  k.on RE_CTRL.RUN && !k.flt.fatal && g.running && !g.fetching && g.wrPi != g.wrCi &&
  (g.internal || (k.fnEnabled fn && decide (c.fetched < orDefault c.fetchCap 16))) &&
  k.contextFree (if g.internal then 256 else fn) && decide (g.inProgress < g.maxJobs) &&
  decide (g.inProgress + 2 ≤ 2 ^ g.crLog2 - wrapSub g.crPi g.crCi 32)

/-- R66: the function-pool ring of a function whose turn it is: the first after the last one fetched that may be. -/
def Chip.nextRing (k : Chip) (fn : Nat) : Option Nat :=
  ((List.range 32).map fun i => 32 * fn + ((k.fnCtx fn).lastRing + 1 + i) % 32).find? fun r =>
    !(k.ring r).internal && k.mayFetch r

/-- The IOVA of the descriptor that ring `r` fetches next (R61). -/
def Ring.fetchAt (g : Ring) : Nat := g.wrBase + 64 * (g.wrCi % 2 ^ g.wrLog2)

/-- R66: a descriptor fetch for ring `r`. -/
def Chip.descriptorFetch (k : Chip) (r : Nat) : Chip :=
  let g := k.ring r
  if !(if g.internal then k.mayFetch r else k.nextRing (r / 32) == some r) then k else
  let k := k.setRing r fun g => { g with fetching := true }
  let k := if g.internal then k else
    k.setFn (r / 32) fun c => { c with fetched := c.fetched + 1, lastRing := r % 32 }
  let dev := k.ringDev r
  if k.isHost dev g.fetchAt 64 then k.askHost (dev - k.rd HF_DEVID.BASE) (.descriptor r) g.fetchAt 64 else k

/-- R72: the sillage tag of a job. -/
def Chip.jobTag (k : Chip) (j : Job) : Nat :=
  if j.desc.tagValid then j.desc.sillage else (k.fnCtx (j.ring / 32)).tagDefault

/-- R73, group 2. -/
def Chip.tagDenied (k : Chip) (r : Nat) (d : Desc) : Bool :=
  let c := k.fnCtx (r / 32)
  d.tagValid && !(k.ring r).internal && !decide (c.tagLo ≤ d.sillage ∧ d.sillage ≤ c.tagHi)

/-- R73, group 3 (R116, R456): the status of a job that may not use its key slot. -/
def Chip.keyRefused (k : Chip) (r : Nat) (d : Desc) : Option Nat :=
  if !d.encrypt then none else
  let s := Tbl.get {} k.ws.keys d.keySlot
  let bound := if (k.ring r).internal then s.internalOk else s.fnValid && s.fn == r / 32
  if !bound then some 5
  else if s.type == 0 then some 4
  else if s.type != (if d.xts then 2 else 1) then some 5
  else none

/-- R73: the status and DETAIL of a descriptor that fails its checks. -/
def Chip.descRefused (k : Chip) (r : Nat) (d : Desc) : Option (Nat × Nat) :=
  match d.invalid with
  | some o => some (1, o)
  | none =>
    if k.tagDenied r d then some (3, d.sillage)
    else (k.keyRefused r d).map fun st => (st, d.keySlot)

/-- R80: the first boundary at which a job fetched now can be ready. -/
def Chip.readyAt (k : Chip) : Nat := if k.beat.phase < 7 then k.now + 1 else k.now + 2

/-- R215: the read-ahead of the segment of job `c` whose input begins at offset `pos`, and of its custom Gear table, where
they lie behind the endpoint. -/
def Chip.readAhead (k : Chip) (c pos : Nat) : Chip :=
  let j := k.job c
  let d := j.desc
  let dev := k.devOfRing j.ring j.internal
  let fn := dev - k.rd HF_DEVID.BASE
  if d.opcode != 1 && d.opcode != 6 then k else
  let n := min k.segmentSize (d.length - pos)
  let k := k.forget (.readAhead c)
  let k := if n != 0 && k.isHost dev (d.src + pos) n then k.askHost fn (.readAhead c) (d.src + pos) n else k
  let gear := leAt j.params 16 8
  if d.opcode == 1 && d.chunk && gear != 0 && k.isHost dev gear 2048 then k.askHost fn (.readAhead c) gear 2048 else k

/-- R62, R73: the descriptor `b` taken into a job context and checked; the parameter block is asked for next. -/
def Chip.takeDescriptor (k : Chip) (r : Nat) (b : Bytes) : Chip :=
  let d := Desc.ofBytes b
  let g := k.ring r
  let c := k.newContext
  let job : Job :=
    { ring := r, seq := g.nextSeq, internal := g.internal, desc := d, readyAt := k.readyAt
      generation := (Tbl.get {} k.ws.keys d.keySlot).generation
      loads := (Tbl.get {} k.ws.keys d.keySlot).loads
      fetchedAt := 8 * k.now + k.beat.phase
      state := if d.opcode == 6 then .waiting else .paramRead }
  let k := (k.setRing r fun g => { g with
    wrCi := (g.wrCi + 1) % 2 ^ 32
    fetching := false
    inProgress := g.inProgress + 1
    nextSeq := g.nextSeq + 1 }).forget (.descriptor r)
  let k := { k with re := { k.re with jobs := k.re.jobs.insert c job } }
  match k.descRefused r d with
  | some (st, det) => k.endJob c st det
  | none =>
    if d.opcode == 6 then k.readAhead c 0 else
    let dev := k.ringDev r
    if k.isHost dev d.param 128 then k.askHost (dev - k.rd HF_DEVID.BASE) (.param c) d.param 128 else k

/-- R62, R68, R73: the descriptor that ring `r` fetched has been read. (DEDUCED, log 35) -/
def Chip.descriptorReadDone (k : Chip) (r : Nat) : Chip :=
  let g := k.ring r
  if !g.fetching || !k.arrivedAll (.descriptor r) then k else
  if !k.contextFree (if g.internal then 256 else r / 32) then k else
  match k.dmaRead (joinReads (k.answers (.descriptor r)).reverse) (k.ringDev r) g.fetchAt 64 with
  | .bytes b => k.takeDescriptor r b
  | .timeout => k.ringError r 7 g.wrCi
  | .fault cause => (k.iommuFault cause (k.ringDev r) g.fetchAt).ringError r 6 g.wrCi
  | .poison => k.ringError r 6 g.wrCi

/-- R73, group 4: the parameter block of job `c` has been read. (DEDUCED, log 35) -/
def Chip.paramReadDone (k : Chip) (c : Nat) : Chip :=
  if !k.jobUsed c || (k.job c).state != .paramRead || !k.arrivedAll (.param c) then k else
  let j := k.job c
  let dev := k.devOfRing j.ring j.internal
  let got := k.dmaRead (joinReads (k.answers (.param c)).reverse) dev j.desc.param 128
  let k := k.forget (.param c)
  match got with
  | .timeout => k.endJob c 7 0
  | .fault cause => (k.iommuFault cause dev j.desc.param).endJob c 6 2
  | .poison => k.endJob c 8 0
  | .bytes p =>
    match j.desc.paramInvalid p (k.on BT_CTRL.LEN) with
    | some o => k.endJob c 2 o
    | none =>
      if j.desc.opcode != 1 && j.desc.encrypt && leAt p 12 4 != j.generation then k.endJob c 4 j.desc.keySlot
      else
        let j' : Job := { j with params := p, state := .waiting, waitingRegion := j.accumulates }
        let k := k.setJob c fun _ => j'
        let k := if j'.accumulates && j'.footprint ≤ k.lockLimit then
            { k with re := { k.re with regionQueue := k.re.regionQueue ++ [c] } } else k
        k.readAhead c 0

/-! ### Interrupt coalescing (R77) -/

/-- R77: whether the coalescing timer of ring `r` has expired. -/
def Chip.coalDue (k : Chip) (r : Nat) : Bool :=
  let g := k.ring r
  g.coalBeats != 0 && g.sinceIrq != 0 && decide (g.oldest + g.coalBeats ≤ k.now)

/-- R77: the coalescing timer of ring `r` is looked at. -/
def Chip.coalExpiry (k : Chip) (r : Nat) : Chip := if k.coalDue r then k.signalRing r else k

/-! ### Indirect access (R94 to R96) -/

/-- R95: the offsets at which a ring context takes effect at the beat boundary: MSIX_VECTOR, COAL_COUNT, COAL_BEATS. -/
def Ring.beatFields (g : Ring) : List (Nat × Nat × Nat) := [(20, 2, g.vector), (22, 2, g.coalCount), (24, 1, g.coalBeats)]

/-- R12, R573: the writes that wait, after one more write of the fields given as offset, size and current value. -/
def holdWrites (held : List (Nat × Nat)) (fields : List (Nat × Nat × Nat)) (b : Bytes) : List (Nat × Nat) :=
  fields.foldl (fun h f =>
    let v := leAt b f.1 f.2.1
    if v == f.2.2 then h else (f.1, v) :: h.filter (·.1 != f.1)) held

/-- R95: whether the values of a ring context lie in their ranges. -/
def ringValuesGood (b : Bytes) : Bool :=
  leAt b 0 8 % 4096 == 0 && leAt b 8 8 % 4096 == 0 && decide (4 ≤ leAt b 16 1 ∧ leAt b 16 1 ≤ 16) &&
  decide (4 ≤ leAt b 17 1 ∧ leAt b 17 1 ≤ 16) && decide (leAt b 18 1 ≤ 64) && bits (leAt b 19 1) 2 6 == 0 &&
  decide (leAt b 20 2 ≤ 2047) && decide (leAt b 22 2 ≤ 1024)

/-- R95: whether a write changes what must not change while a job is in progress. -/
def Ring.activeChange (g : Ring) (b : Bytes) : Bool :=
  leAt b 0 8 != g.wrBase || leAt b 8 8 != g.crBase || leAt b 16 1 != g.wrLog2 || leAt b 17 1 != g.crLog2 ||
  leAt b 18 1 != g.depth || bit (leAt b 19 1) 1 != g.internal || (bit g.flags 0 && !bit (leAt b 19 1) 0)

/-- R95: ring context `g` after a write that passes its checks. -/
def Ring.written (g : Ring) (b : Bytes) : Ring :=
  let on := bit (leAt b 19 1) 0
  let was := bit g.flags 0
  let g' : Ring := { g with
    wrBase := leAt b 0 8, crBase := leAt b 8 8, wrLog2 := leAt b 16 1, crLog2 := leAt b 17 1, depth := leAt b 18 1
    flags := leAt b 19 1, msiAddr := leAt b 48 8, msiData := leAt b 56 4
    held := holdWrites g.held g.beatFields b }
  if on && !was then { g' with
    state := 1, wrPi := 0, wrCi := 0, crPi := 0, crCi := 0, sinceIrq := 0, oldest := 0, fetching := false, dead := false }
  else if !on then { g' with state := 0, fetching := false }
  else g'

/-- R94: a read command of the ring engine. -/
def Chip.reIndRead (k : Chip) (target index : Nat) : Chip :=
  let k := ((k.wr RE_IND_CMD.INDEX index).wr RE_IND_CMD.TARGET target).wr RE_IND_CMD.OP 0
  if target == 1 && 256 ≤ index || 8192 ≤ index then k.indDone RE_IND_CMD.STATUS RE_IND_CMD.GO 1
  else
    let b := if target == 1 then (k.fnCtx index).bytes (k.contexts index) else (k.ring index).bytes
    (k.setInd RE_IND_DATA.DATA 8 b).indDone RE_IND_CMD.STATUS RE_IND_CMD.GO 0

/-- R94, R95: a write command for ring `index`. -/
def Chip.reIndWriteRing (k : Chip) (index : Nat) : Chip :=
  let k := ((k.wr RE_IND_CMD.INDEX index).wr RE_IND_CMD.TARGET 0).wr RE_IND_CMD.OP 1
  let b := k.indBytes RE_IND_DATA.DATA 8
  let g := k.ring index
  if 8192 ≤ index then k.indDone RE_IND_CMD.STATUS RE_IND_CMD.GO 1
  else if !ringValuesGood b then k.indDone RE_IND_CMD.STATUS RE_IND_CMD.GO 3
  else if (g.inProgress != 0 || g.fetching) && g.activeChange b then k.indDone RE_IND_CMD.STATUS RE_IND_CMD.GO 2
  else (k.setRing index fun g => g.written b).indDone RE_IND_CMD.STATUS RE_IND_CMD.GO 0

/-- R94, R96: a write command for function `index`. -/
def Chip.reIndWriteFunction (k : Chip) (index : Nat) : Chip :=
  let k := ((k.wr RE_IND_CMD.INDEX index).wr RE_IND_CMD.TARGET 1).wr RE_IND_CMD.OP 1
  let b := k.indBytes RE_IND_DATA.DATA 8
  let lo := leAt b 2 1
  let hi := leAt b 3 1
  if 256 ≤ index then k.indDone RE_IND_CMD.STATUS RE_IND_CMD.GO 1
  else if hi < lo || leAt b 4 1 < lo || hi < leAt b 4 1 || 64 < leAt b 1 1 then
    k.indDone RE_IND_CMD.STATUS RE_IND_CMD.GO 3
  else
    (k.setFn index fun c => { c with
      tagLo := lo, tagHi := hi, tagDefault := leAt b 4 1, rate := leAt b 6 2
      held := holdWrites c.held [(0, 1, c.weight), (1, 1, c.fetchCap)] b }).indDone RE_IND_CMD.STATUS RE_IND_CMD.GO 0

/-! ### The commands -/

/-- WORK_PI (R65). -/
def execWorkPi (internal : Bool) (group off width value : Nat) (s : State) : Host.Outcome State Fault Refusal :=
  s.commit (s.chip.workPi internal group off width value)

/-- CPL_CI (R69). -/
def execCplCi (internal : Bool) (group off width value : Nat) (s : State) : Host.Outcome State Fault Refusal :=
  s.commit (s.chip.cplCi internal group off width value)

/-- DESCRIPTOR_FETCH (R66). -/
def execDescriptorFetch (ring : Nat) (s : State) : Host.Outcome State Fault Refusal :=
  s.commit (s.chip.descriptorFetch ring)

/-- DESCRIPTOR_READ_DONE (R73). -/
def execDescriptorReadDone (ring : Nat) (s : State) : Host.Outcome State Fault Refusal :=
  s.commit (s.chip.descriptorReadDone ring)

/-- PARAM_BLOCK_READ_DONE (R73). -/
def execParamBlockReadDone (job : Nat) (s : State) : Host.Outcome State Fault Refusal :=
  s.commit (s.chip.paramReadDone job)

/-- COAL_BEATS_EXPIRY (R77). -/
def execCoalBeatsExpiry (ring : Nat) (s : State) : Host.Outcome State Fault Refusal :=
  s.commit (s.chip.coalExpiry ring)

/-- RE_IND_READ (R94). -/
def execReIndRead (target index : Nat) (s : State) : Host.Outcome State Fault Refusal :=
  s.commit (s.chip.reIndRead target index)

/-- RE_IND_WRITE_RING (R95). -/
def execReIndWriteRing (index : Nat) (s : State) : Host.Outcome State Fault Refusal :=
  s.commit (s.chip.reIndWriteRing index)

/-- RE_IND_WRITE_FUNCTION (R96). -/
def execReIndWriteFunction (index : Nat) (s : State) : Host.Outcome State Fault Refusal :=
  s.commit (s.chip.reIndWriteFunction index)

end Sys2Proof.Machine
end

