-- ==== Sys2Proof/Machine/Shares.lean ====
section
/-!
DEFINITION. Sharing the engines (03): the figures and credits of a window (R84, R85), the dispatch plan of a beat (R80, R81,
R86), and what it charges.
-/

namespace Sys2Proof.Machine

/-! ### The window (R84, R85) -/

/-- R97: whether engine `e` counts in E. -/
def Chip.engineCounts (k : Chip) (e : Nat) : Bool :=
  (k.engine e).inService && !(k.engine e).failed && k.on (AE_CTRL.ENABLE e)

/-- R84: E. -/
def Chip.engineCount (k : Chip) : Nat := ((List.range 24).filter k.engineCounts).length

/-- R97: a disabled engine leaves service at the window boundary. -/
def Chip.withdrawEngines (k : Chip) : Chip :=
  (List.range 24).foldl (fun k e =>
    if k.on (AE_CTRL.ENABLE e) then k else k.setEngine e fun g => { g with inService := false }) k

/-- R84: the credit of enabled function number `i` of `n`, with `t` shared slots and the remainder taken from place `ptr` on.
(DEDUCED, log 37) -/
def windowCredit (t n ptr i : Nat) : Nat :=
  let r := t % n
  t / n + ofBool (decide ((i + n - ptr % n) % n < r))

/-- R84, R85, R520: a window begins. -/
def Chip.takeWindow (k : Chip) : Chip :=
  let k := k.withdrawEngines
  let e := k.engineCount
  let v := min (min 12 (k.rd RE_RESERVE.SLOTS)) (e / 2)
  let t := 256 * (e - v)
  let fns := k.enabledFns
  let n := fns.length
  let fresh := Tbl.mapVals {} k.re.fns fun _ (c : FnCtx) =>
    { c with usedLast := c.used, used := 0, cur := 0, credit := 0, rateNow := c.rate }
  let ctxs : Tbl FnCtx := fns.zipIdx.foldl (fun (x : Tbl FnCtx) (p : Nat × Nat) =>
    Tbl.mod {} x p.1 fun c => { c with credit := windowCredit t n k.re.rotPtr p.2 }) fresh
  { k with re := { k.re with
      e := e, v := v, n := n, poolUsed := 0, poolCur := 0, fns := ctxs
      rotPtr := if n == 0 then k.re.rotPtr else (k.re.rotPtr + t % n) % n } }

/-! ### The plan (R80, R81, R86) -/

/-- R80: whether job `c` offers a segment at this boundary. -/
def Chip.jobReady (k : Chip) (c : Nat) : Bool :=
  let j := k.job c
  j.state == .waiting && !j.waitingRegion && decide (j.readyAt ≤ k.now) && j.stop.isNone &&
  !(k.ring j.ring).dead && k.arrivedAll (.readAhead c) &&
  !(j.desc.fence && k.re.jobs.any fun e => e.2.ring == j.ring && decide (e.2.seq < j.seq))

/-- The engines that can take a segment in this beat (R44, R86). -/
def Chip.freeEngines (k : Chip) : List Nat :=
  (List.range 24).filter fun e =>
    let g := k.engine e
    g.inService && !g.failed && !g.inTest && g.seg.isNone && !(Tbl.get {} k.beat.dies (e / 2)).stopped

/-- The plan while it fills: the machine with its pointers, the engines left, the jobs left, the slots given.
(DEDUCED, log 37) -/
structure Plan where
  k : Chip
  engines : List Nat
  jobs : List Nat
  slots : List (Nat × Nat × Nat) := []

/-- The ready jobs of a requester: a function, or 256 for the internal pool. -/
def Plan.jobsOf (p : Plan) (r : Nat) : List Nat := p.jobs.filter fun c => (p.k.job c).holder == r

/-- R81: the job whose turn it is among a requester's: round robin over the rings, the oldest first within one. -/
def Plan.nextJob (p : Plan) (r : Nat) : Option Nat :=
  let last := if r == 256 then p.k.re.lastPool else 32 * r + (p.k.fnCtx r).turn
  let far := fun c => ((p.k.job c).ring + 8191 - last) % 8192
  (p.jobsOf r).foldl (fun (b : Option Nat) c => match b with
    | none => some c
    | some d =>
      if far c < far d ∨ (far c = far d ∧ (p.k.job c).seq < (p.k.job d).seq) then some c else some d) none

/-- R81: the engine for a segment of job `c`. -/
def Plan.engineFor (p : Plan) (c : Nat) : Option Nat :=
  let j := p.k.job c
  let near := if bit j.desc.affinity 7 then p.engines.find? fun e => e / 2 == j.desc.affinity % 16 else none
  (near.or (j.lastEngine.bind fun e => if p.engines.contains e then some e else none)).or p.engines.head?

/-- R86: requester `r` is given one slot, charged as `charge`. -/
def Plan.give (p : Plan) (r charge : Nat) : Plan :=
  match p.nextJob r with
  | none => p
  | some c => match p.engineFor c with
    | none => p
    | some e =>
      let ring := (p.k.job c).ring
      let k := if r == 256 then { p.k with re := { p.k.re with lastPool := ring } }
        else p.k.setFn r fun x => { x with turn := ring % 32 }
      { k := k, engines := p.engines.filter (· != e), jobs := p.jobs.filter (· != c), slots := p.slots ++ [(e, c, charge)] }

/-- R86, R87: whether a function is below its rate limit. -/
def FnCtx.belowRate (c : FnCtx) : Bool := c.rateNow == 0 || decide (c.used < c.rateNow)

/-- R86, step 1. -/
def Plan.reserve : Nat → Plan → Plan
  | 0, p => p
  | n + 1, p => Plan.reserve n (p.give 256 0)

/-- R86, step 2: the function after the share pointer that has credit, a ready segment and room under its rate. -/
def Plan.nextShare (p : Plan) : Option Nat :=
  ((List.range 256).map fun i => (p.k.re.sharePtr + 1 + i) % 256).find? fun f =>
    decide (0 < (p.k.fnCtx f).credit) && (p.k.fnCtx f).belowRate && !(p.jobsOf f).isEmpty

/-- R86, step 2. -/
def Plan.shares : Nat → Plan → Plan
  | 0, p => p
  | n + 1, p => if p.engines.isEmpty then p else match p.nextShare with
    | none => p
    | some f =>
      let p := p.give f 1
      let k := p.k.setFn f fun c => { c with credit := c.credit - 1, used := c.used + 1 }
      Plan.shares n { p with k := { k with re := { k.re with sharePtr := f } } }

/-- The surplus weight of a requester (R86, R93). -/
def Chip.weightOf (k : Chip) (r : Nat) : Nat := if r == 256 then k.rd RE_RESERVE.WEIGHT else (k.fnCtx r).weight

/-- The surplus accumulator of a requester. -/
def Chip.curOf (k : Chip) (r : Nat) : Int := if r == 256 then k.re.poolCur else (k.fnCtx r).cur

/-- The surplus accumulator of a requester raised by `d`. -/
def Chip.addCur (k : Chip) (r : Nat) (d : Int) : Chip :=
  if r == 256 then { k with re := { k.re with poolCur := k.re.poolCur + d } }
  else k.setFn r fun c => { c with cur := c.cur + d }

/-- R86, step 3: the requesters that compete for surplus, ascending. -/
def Plan.rivals (p : Plan) : List Nat :=
  (List.range 257).filter fun r =>
    !(p.jobsOf r).isEmpty && decide (0 < p.k.weightOf r) && (r == 256 || (p.k.fnCtx r).belowRate)

/-- R86, step 3. -/
def Plan.surplus : Nat → Plan → Plan
  | 0, p => p
  | n + 1, p =>
    if p.engines.isEmpty then p else match p.rivals with
    | [] => p
    | r :: rs =>
      let all := r :: rs
      let k := all.foldl (fun k c => k.addCur c (k.weightOf c)) p.k
      let best := rs.foldl (fun b c => if k.curOf b < k.curOf c then c else b) r
      let k := k.addCur best (-((all.map k.weightOf).sum : Nat))
      let k := if best == 256 then { k with re := { k.re with poolUsed := k.re.poolUsed + 1 } }
        else k.setFn best fun c => { c with used := c.used + 1 }
      Plan.surplus n (Plan.give { p with k := k } best 2)

/-- R86: the plan of the beat that begins. (DEDUCED, log 37) -/
def Chip.planBeat (k : Chip) : Chip :=
  let ready := (k.re.jobs.map (·.1)).filter k.jobReady
  let free := k.freeEngines
  let inTest := ((List.range 24).filter fun e => (k.engine e).inTest).length
  let p : Plan := { k := k, engines := free, jobs := ready }
  let p := Plan.reserve (min (k.re.v - inTest) free.length) p
  let p := Plan.shares (k.re.e - k.re.v) p
  let p := Plan.surplus 24 p
  { p.k with re := { p.k.re with plan := p.slots } }

/-- R90, R543: the ready segments of each requester that the plan leaves waiting, counted. -/
def Chip.countDeferred (k : Chip) (ready : List Nat) : Chip :=
  let left := ready.filter fun c => !(k.re.plan.any fun p => p.2.1 == c)
  left.foldl (fun k c =>
    let h := (k.job c).holder
    let k := if h == 256 then k else k.setFn h fun x => { x with deferred := satAdd x.deferred 1 32 }
    k.count 1 h 2 1) k

end Sys2Proof.Machine
end

