-- ==== Sys2Proof/Machine/StartOps.lean ====
section
/-!
DEFINITION. Shared operations of resets and starts (21, 24): the reset domains PCR and PWS (R14), the partial reset of a C-die
(R521 to R524), and the starts with their failures (R511 to R519).
-/

namespace Sys2Proof.Machine

/-! ### PCR and PWS (R14, R487, R515, R559) -/

/-- R515: a ring context keeps its fields and indices through PWS. -/
def Ring.afterPws (g : Ring) : Ring :=
  { g with inProgress := 0, sinceIrq := 0, oldest := 0, fetching := false, dead := false, held := [] }

/-- R515: a function context keeps its fields through PWS. -/
def FnCtx.afterPws (c : FnCtx) : FnCtx :=
  { weight := c.weight, fetchCap := c.fetchCap, tagLo := c.tagLo, tagHi := c.tagHi, tagDefault := c.tagDefault, rate := c.rate
    credit := c.credit, usedLast := c.usedLast, deferred := c.deferred, rateNow := c.rate }

/-- R515: a media target keeps its entry through PWS. -/
def Target.afterPws (t : Target) : Target :=
  { port := t.port, flags := t.flags, rid := t.rid, nsid := t.nsid, lbaLog2 := t.lbaLog2, zonesOpen := t.zonesOpen
    qpFirst := t.qpFirst, qpCount := t.qpCount, zoneFirst := t.zoneFirst, zoneCount := t.zoneCount }

/-- R515: a queue pair keeps its entry through PWS. -/
def QPair.afterPws (q : QPair) : QPair :=
  { sqBase := q.sqBase, cqBase := q.cqBase, qlog2 := q.qlog2, flags := q.flags, target := q.target, msiData := q.msiData
    msiAddr := q.msiAddr }

/-- A Bilum port's map as Gunel saves it for a verifying link start (R350); the C-die's copy is cleared (R352). -/
def BPort.afterPws (x : BPort) : BPort := { failed := x.failed, lost := x.lost, width := x.width }

/-- R14, R487, R515: PWS: every field of the PCR domain stays, and what R515 and the blocks' own rules name beside it: DRAM and
its marks, the contexts and entries, the assignment of home-agent pairs, Gunel, Flacon, withdrawn tiles and fenced channels.
(DEDUCED, log 83) -/
def Chip.warmReset (k : Chip) : Chip :=
  let fenced := (List.range 16).filter k.chFenced
  let k' : Chip :=
    { regs := k.regs.filter fun e => keyDom e.1 == 0
      mem := k.mem, poison := k.poison, out := k.out, free := k.free, time := k.time
      beat := { issued := k.beat.issued, stopped := k.beat.stopped }
      re := { rings := Tbl.mapVals {} k.re.rings fun _ g => g.afterPws, fns := Tbl.mapVals {} k.re.fns fun _ c => c.afterPws }
      hf := { ranges := k.hf.ranges }
      cn := { windows := Tbl.mapVals {} k.cn.windows fun _ w => { entry := w.entry, gen := w.gen }, routes := k.cn.routes }
      mq := { targets := Tbl.mapVals {} k.mq.targets fun _ t => t.afterPws, qps := Tbl.mapVals {} k.mq.qps fun _ q => q.afterPws
              present := k.mq.present }
      tiles := Tbl.mapVals {} k.tiles fun _ t => { failed := t.failed }
      coh := { pairs := Tbl.mapVals {} k.coh.pairs fun _ q => { q with failing := false, inTest := false } }
      bl := { ports := Tbl.mapVals {} k.bl.ports fun _ x => x.afterPws }
      mc := { untrained := k.mc.untrained, installed := k.mc.installed }
      qt := { entries := Tbl.mapVals 1 k.qt.entries fun _ v => v % 4 }
      flt := { fatal := k.flt.fatal, enables := k.flt.enables }
      pwr := { pkg := .starting, refLost := k.pwr.refLost }
      gn := { k.gn with tests := k.gn.tests.filter fun x => !x.running, droops := [] }
      start := k.start
      fl := k.fl }
  fenced.foldl (fun k c => k.wr (MC_STATUS.STATE c) 5) k'

/-- R14, R253, R498, R503, R526, R559: PCR: everything but what stands in NOR, in Flacon and on the board, and what the model
keeps for itself. (DESIGN CHOICE, log 3) -/
def Chip.coldReset (k : Chip) : Chip :=
  let k' : Chip :=
    { out := k.out, free := k.free
      hf := { ranges := k.hf.ranges }
      mq := { present := k.mq.present }
      mc := { installed := k.mc.installed }
      pwr := { refLost := k.pwr.refLost }
      gn := { nor := k.gn.nor, lifeCopies := k.gn.lifeCopies, activeSlot := k.gn.activeSlot, secureSlot := k.gn.secureSlot
              slots := k.gn.slots, verified := k.gn.verified, memcfg := k.gn.memcfg, saved := k.gn.saved }
      fl := k.fl }
  (((if k.gn.faultN then k'.emit (.pin "FAULT_N" 1) else k').emit (.pin "RAIL_EN_CD" 0)).emit (.pin "RAIL_EN_MAIN" 0))

/-! ### C-dies, tiles and links at a start -/

/-- R349, R350: port `p` in service after the link start of a package start or of a die reset. -/
def Chip.linkInService (k : Chip) (p : Nat) : Chip :=
  if !k.on (BL_CTRL.ENABLE p) then k else
  match (k.bport p).chooseWidth (k.on (BL_CTRL.ALLOW_HALF p)) with
  | none => k.wr (BL_STATUS.STATE p) 4
  | some w =>
    let k := (k.setBport p fun x => { x with width := w, timer := false, tries := 0, retrainDue := false }).showMap p
    let k := k.setBport p fun x => { x with retained := some (w, x.mapBytes) }
    (((k.wr (BL_STATUS.STATE p) 3).wr (BL_STATUS.STEP p) 9).wr (BL_STATUS.GEN p) 1).wr (BL_STATUS.WIDTH p) w

/-- Whether C-die `d` has a port that its software left enabled. -/
def Chip.dieLinked (k : Chip) (d : Nat) : Bool := k.on (BL_CTRL.ENABLE (2 * d)) || k.on (BL_CTRL.ENABLE (2 * d + 1))

/-- R519: the C-dies that the start takes into service: those that pass BIST, in a limp start the lowest alone. -/
def Chip.startDies (k : Chip) : List Nat :=
  let good := (List.range 12).filter fun d => k.start.facts.dieGood.getD d true && k.dieLinked d
  if k.start.kind == 3 then good.take 1 else good

/-- R264, R514: the tiles of C-die `d` that take hart IDs, ascending. -/
def Chip.startTiles (k : Chip) (d : Nat) : List Nat :=
  (((List.range 28).map (28 * d + ·)).filter fun t =>
    k.start.facts.tileGood.getD t true && !(k.start.kind == 2 && (k.tile t).failed)).take 24

/-- R255, R269: a hart ID as it leaves reset on tile `t`. -/
def Hart.started (t : Nat) : Hart := { ptile := some t, online := true }

/-- R571: AE_CTRL.ENABLE as it was written for engine `e` while its C-die was out of service. -/
def Chip.applyEnable (k : Chip) (e : Nat) : Chip :=
  match k.flt.enables.find e with
  | some v => { k.wr (AE_CTRL.ENABLE e) v with flt := { k.flt with enables := k.flt.enables.erase e } }
  | none => k

/-- R264, R282, R512, R519: C-die `d` comes into service, or is held in DIE reset. -/
def Chip.startDie (k : Chip) (d : Nat) : Chip :=
  let serves := k.startDies.contains d
  if !serves then
    let k := (k.setDie d fun _ => { heldOut := true }).setEngine (2 * d) fun _ => { inService := false }
    let k := k.setEngine (2 * d + 1) fun _ => { inService := false }
    let k := { k with coh := { k.coh with lost := d :: k.coh.lost } }
    if k.start.facts.dieGood.getD d true then k
    else k.log { cls := 2, unitType := 9, unit := d, action := 9 }
  else
    let ts := k.startTiles d
    let bad := fun t => !k.start.facts.tileGood.getD t true || (k.start.kind == 2 && (k.tile t).failed)
    let k := ((List.range 28).map (28 * d + ·)).foldl (fun k t => k.setTile t fun _ => { failed := bad t }) k
    let k := k.setDie d fun _ => { inService := true }
    let k := ts.zipIdx.foldl (fun (k : Chip) (p : Nat × Nat) =>
      (k.setTile p.1 fun x => { x with hart := some (24 * d + p.2) }).setHart (24 * d + p.2) fun _ => Hart.started p.1) k
    let good := fun e => k.start.facts.engineGood.getD e true
    let k := [2 * d, 2 * d + 1].foldl (fun k e =>
      let k := k.applyEnable e
      k.setEngine e fun _ => { inService := good e && k.on (AE_CTRL.ENABLE e), failed := !good e }) k
    (k.linkInService (2 * d)).linkInService (2 * d + 1)

/-- R264, R265, R512: the hart IDs left over are taken over by spares where there are any; those of a C-die held out of a limp
start stay offline (R519). -/
def Chip.startLeftovers (k : Chip) : Chip :=
  (List.range 288).foldl (fun k h =>
    let home := k.startDies.contains (h / 24)
    if (k.hart h).online || (k.start.kind == 3 && !home) then k
    else (k.decideMove (k.due h (if home then 1 else 2))).takeoverComplete h) k

/-! ### DRAM at a start (R370, R371, R507, R513) -/

/-- R507, R511: the memory configuration in NOR written into the MC fields of its names. -/
def Chip.applyMemcfg (k : Chip) : Chip :=
  match k.gn.memcfg with
  | none => k
  | some v =>
    let k := ((k.wr (MC_CTRL.MIRROR 0) (bits v 0 1)).wr (MC_CTRL.ALLOW_4800 0) (bits v 1 1)).wr (MC_CTRL.ALLOW_3200 0) (bits v 2 1)
    (List.range 16).foldl (fun k c => k.wr (MC_REFRESH.FGR c) (bits v 3 1)) k

/-- R370: the reduced rates that the cold start leaves untrained: those not allowed, and those that fail to train, with the
NOTICE of each. -/
def Chip.trainRates (k : Chip) : Chip :=
  let off := [(1, k.on (MC_CTRL.ALLOW_4800 0)), (2, k.on (MC_CTRL.ALLOW_3200 0))]
  off.foldl (fun (k : Chip) (p : Nat × Bool) =>
    let bad := k.start.facts.untrained.contains p.1
    if p.2 && !bad then k else
    let k := { k with mc := { k.mc with untrained := k.mc.untrained.filter (· != p.1) ++ [p.1] } }
    if p.2 then k.log { cls := 4, unitType := 17, unit := 0, info0 := p.1 } else k) k

/-- R376, R386, R503: the device marks that the memory test leaves, in the lifetime record. -/
def Chip.testMarks (k : Chip) : Chip :=
  k.start.facts.marks.foldl (fun (k : Chip) (m : Nat × Nat) =>
    Chip.lifeWrite { k with gn := { k.gn with life := { k.gn.life with
      marks := Tbl.set 0 k.gn.life.marks m.1 (m.2 % 16 + 128) } } }) k

/-- R370, R513: DRAM after either cold start: configured and trained, with no mark of poison; its bytes are unspecified. -/
def Chip.coldDram (k : Chip) : Chip :=
  let f := k.start.facts
  let k := { k with mem := [], poison := [], mc := { k.mc with untrained := [], installed := 16 * f.dimms * f.gib } }
  let k := (List.range 16).foldl (fun k c =>
    ((k.wr (MC_STATUS.DIMMS c) f.dimms).wr (MC_STATUS.RANKS c) f.ranks).wr (MC_STATUS.SIZE c) (f.dimms * f.gib)) k.applyMemcfg
  let k := k.trainRates
  let k := if k.start.kind == 1 then k else k.testMarks
  { k with gn := { k.gn with saved := some k.gn.config } }

/-- R386: MC_MARK reloaded from the lifetime record. -/
def Chip.reloadMarks (k : Chip) : Chip :=
  (List.range 128).foldl (fun k i =>
    let v := Tbl.get 0 k.gn.life.marks i
    (k.wr (MC_MARK.DEVICE (i / 8) (i % 8)) (v % 16)).wr (MC_MARK.VALID (i / 8) (i % 8)) (v / 128)) k

/-- DRAM at a start: every channel that is not fenced is in service at the full rate. (DESIGN CHOICE, log 1) -/
def Chip.startDram (k : Chip) : Chip :=
  let k := (if k.start.kind == 2 then k else k.coldDram).reloadMarks
  (List.range 16).foldl (fun k c =>
    if k.chFenced c then (if k.on (MC_CTRL.MIRROR 0) then k.wr (MC_STATUS.ALONE (c ^^^ 1)) 1 else k)
    else k.wr (MC_STATUS.STATE c) 2) k

/-! ### The beat at a start (R30 to R32, R52) -/

/-- The first token: count 0 after PCR, the next count after Standby and Drydown; ACTIVE_SEL names the instance; the capacity of
the first beat (R396, R397) and the budgets of its phase 0 (R398). -/
def Chip.firstToken (k : Chip) : Chip :=
  let count := if k.beat.issued then k.now + 1 else 0
  let k := ((k.wr BT_COUNT.COUNT count).wr RE_STATUS.WINDOW_BEAT (count % 256)).wr BT_STATUS.ACTIVE (k.rd BT_CTRL.ACTIVE_SEL)
  let k := if k.rd BT_STATUS.ACTIVE == 0 && k.on BT_STATUS.FENCED_A then k.wr BT_STATUS.ACTIVE 1
    else if k.rd BT_STATUS.ACTIVE == 1 && k.on BT_STATUS.FENCED_B then k.wr BT_STATUS.ACTIVE 0 else k
  let dies := k.startDies.foldl (fun (t : Tbl DieBeat) d => Tbl.set {} t d { count := count, fullDue := false }) []
  let k := Chip.emit { k with beat := { k.beat with phase := 0, start := k.time, slew := 0, issued := true, dies := dies } }
    (.token count)
  k.regulate.refillAll

/-! ### The end of a start (R512, R514, R516, R518, R576) -/

/-- The lifetime record's entry `i` of starts changed by `f`. -/
def Chip.setStarts (k : Chip) (i : Nat) (f : Nat → Nat) : Chip :=
  { k with gn := { k.gn with life := { k.gn.life with starts := Tbl.mod 0 k.gn.life.starts i f } } }

/-- R501, R518: a start of the kind under way succeeds. -/
def Chip.countSuccess (k : Chip) : Chip :=
  match k.start.kind with
  | 3 => k.setStarts 8 fun _ => 1
  | 2 => (k.setStarts 5 fun n => satAdd n 1 32).setStarts 7 fun _ => 0
  | i => ((k.setStarts (2 * i + 1) fun n => satAdd n 1 32).setStarts 7 fun _ => 0).setStarts 8 fun _ => 0

/-- R505: a NOR image fails its check: reported as an event of Gunel. -/
def Chip.imageFailed (k : Chip) : Chip := k.log { cls := 2, unitType := 14, unit := 0 }

/-- R512, R514: the steps of a start that does not fail: DRAM, links, C-dies, hart IDs, CAP, the first token, the secure-world
image, and the harts out of reset. -/
def Chip.finishStart (k : Chip) : Chip :=
  let k := k.startDram
  let k := ((List.range 12).foldl Chip.startDie k).startLeftovers
  let k := (List.range 336).foldl (fun k t => k.wr (CLK_TRIM.AGE t) (Tbl.get 0 k.gn.life.age t)) k
  let k := if k.start.kind == 3 then
      k.log { cls := 4, unitType := 17, unit := 0, info0 := 0xFF, info1 := k.startDies.headD 0 } else k
  let k := k.setCap.firstToken.takeWindow
  let k := if k.start.facts.secureGood.getD k.gn.secureSlot true then k else k.imageFailed
  let k := k.wr WS_SECURE_TOP.TOP k.start.facts.secureTop
  let k := k.wr MQ_LINK.UP (k.mq.present.foldl setBit 0)
  let k := k.countSuccess
  let k := { k with
    hf := { k.hf with block3 := k.start.facts.measurement }
    ws := { k.ws with watchdog := true, wdogSince := k.time }
    pwr := { k.pwr with pkg := .run }
    start := { k.start with running := false, step := 8, limps := 0 } }
  if k.start.kind == 2 then k.startTargets else k

/-! ### Choosing and failing (R511, R517, R518) -/

/-- R511: the kind of the start that Gunel chooses. -/
def Chip.chooseKind (k : Chip) (wake : Bool) : Nat :=
  let f := k.start.facts
  if wake && decide (Tbl.get 0 k.gn.life.starts 7 < 3) && f.dimmPower then 2
  else if 2 ≤ Tbl.get 0 k.gn.life.starts 8 then 3
  else if k.gn.saved == some k.gn.config && f.dimmsMatch then 1
  else 0

/-- R501, R511: a start of a kind begins, at its step with the rails (R554). -/
def Chip.beginStart (k : Chip) (kind : Nat) : Chip :=
  let k := k.setStarts (if kind == 3 then 6 else 2 * kind) fun n => satAdd n 1 32
  { k with
    pwr := { k.pwr with pkg := .starting }
    start := { k.start with kind := kind, running := true, step := if kind == 2 then 1 else 3 } }

/-- R517, R518: the start under way fails at `step`: it is counted and reported, and the next one begins at once; after the
third limp start in a row there is none. -/
def Chip.failStart (k : Chip) (step : Nat) : Chip :=
  let kind := k.start.kind
  let k := k.log { cls := 4, unitType := 17, unit := 0, action := 12, info0 := step, info1 := kind }
  let k := if kind == 2 then k.setStarts 7 fun n => satAdd n 1 8
    else if kind == 3 then { k with start := { k.start with limps := k.start.limps + 1 } }
    else k.setStarts 8 fun n => satAdd n 1 8
  if 3 ≤ k.start.limps then Chip.assertFault { k with start := { k.start with running := false } }
  else if kind == 2 && Tbl.get 0 k.gn.life.starts 7 < 3 then k.beginStart 2
  else k.beginStart (k.chooseKind false)

/-- R517: the step at which the start under way fails by what it finds. -/
def Chip.startFailsAt (k : Chip) : Option Nat :=
  let f := k.start.facts
  let image := f.secureGood.any id
  if k.start.kind == 2 then
    if !f.hdieGood then some 2
    else if !f.verified || !f.dimmsMatch then some 4
    else if k.startDies.isEmpty then some 5
    else if !image then some 7 else none
  else
    if !f.hdieGood then some 3
    else if !f.dramGood && !(k.start.kind == 1 && f.verified) then some 5
    else if k.startDies.isEmpty then some 6
    else if !image then some 7 else none

/-- R517, R518: the starts that follow each other once the rails are up, until one ends in Run or none is left; at most three
warm, two cold and three limp ones can fail. (DEDUCED, log 83) -/
def Chip.runStart : Nat → Chip → Chip
  | 0, k => k
  | n + 1, k =>
    if !k.start.running || !k.start.cdPg then k else
    match k.startFailsAt with
    | some step => Chip.runStart n (k.failStart step)
    | none => k.finishStart

/-- R554: the rail enable that is due rises; with both power-goods up the start goes on. -/
def Chip.raiseRails (k : Chip) : Chip :=
  if !k.start.running then k
  else if !k.start.railMain then { k with start := { k.start with railMain := true } }.emit (.pin "RAIL_EN_MAIN" 1)
  else if !k.start.mainPg then k
  else if !k.start.railCd then { k with start := { k.start with railCd := true } }.emit (.pin "RAIL_EN_CD" 1)
  else if !k.start.cdPg then k
  else Chip.runStart 10 k

/-! ### Gunel's boot (R503, R505, R512) -/

/-- R503: the lifetime record at a start: the newer good copy, or a new record. -/
def Chip.loadLife (k : Chip) : Chip :=
  match k.gn.lifeCopies with
  | l :: _ => { k with gn := { k.gn with life := l } }
  | [] => Chip.log { k with gn := { k.gn with life := { firstStart := k.time } } } { cls := 2, unitType := 14, unit := 0 }

/-- R496, R503, R511: Gunel runs its image, loads the lifetime record and chooses the start. (DEDUCED, log 85) -/
def Chip.bootGunel (k : Chip) : Chip :=
  let k := ((k.wr GN_STATUS.RUNNING 1).wr CLK_STATUS.GUNEL_HB 1).loadLife
  let k := { k with gn := { k.gn with life := { k.gn.life with pcrs := satAdd k.gn.life.pcrs 1 32 } } }
  (k.beginStart (k.chooseKind false)).raiseRails

/-- R505, R511, R512, steps 1 and 2: once XTAL_G is counted and Gunel's PLL is used, the boot ROM loads Gunel, which chooses the
start; with no good image it stays in ROM recovery. -/
def Chip.tryBoot (k : Chip) : Chip :=
  if k.start.reset || k.start.step != 1 || !k.on CLK_STATUS.XTAL_G_OK || !k.pwr.plls.contains 0 then k else
  let good := fun i => k.start.facts.gunelGood.getD i true
  let slot := k.gn.activeSlot
  if !good slot && !good (1 - slot) then
    Chip.assertFault { k with start := { k.start with step := 2 }, gn := { k.gn with recovery := true } }
  else (if good slot then k else k.imageFailed).bootGunel

/-- R488, R511: a warm start, or the start that R511 puts in its place, begins from Standby or Drydown. -/
def Chip.wakeStart (k : Chip) (src : Nat) (facts : StartFacts) : Chip :=
  let k := (k.wr PWR_WAKE.CAUSE (2 ^ src)).warmReset
  let k := { k with start := { k.start with facts := facts, limps := 0 } }
  (k.beginStart (k.chooseKind true)).raiseRails

/-! ### The partial reset of a C-die (R521 to R524) -/

/-- Whether a partial reset is in progress. -/
def Chip.resetting (k : Chip) : Bool := k.flt.dies.any fun e => e.2.step != 0

/-- R14, R522, step 4: what lies in the DIE domain of C-die `d` resets, its ports are down and its hart IDs offline; step 5, a
verifying link start, begins. A planned reset writes the die back first (steps 2 and 3), and a failed engine stays failed
until it passes BIST (R571). (DEDUCED, log 84) -/
def Chip.resetDie (k : Chip) (d : Nat) : Chip :=
  let k := if (k.dieState d).planned then k.emptyDie d else k
  let pages := [16 + d, 32 + 2 * d, 33 + 2 * d, 64 + 2 * d, 65 + 2 * d]
  let k := { k with
    regs := k.regs.filter fun e => !(keyDom e.1 == 2 && pages.contains (keyPage e.1))
    harts := Tbl.mapVals {} k.harts fun _ g =>
      if g.online && g.ptile.any fun t => t / 28 == d then { g with online := false } else g
    noc := { k.noc with
      routers := k.noc.routers.filter fun e => e.1 / 256 != d
      nis := k.noc.nis.filter fun e => e.1 / 16384 / 256 != d
      dies := k.noc.dies.erase d }
    coh := { k.coh with slicesFenced := k.coh.slicesFenced.filter fun t => t / 28 != d } }
  let k := (List.range 2).foldl (fun k i =>
    k.setEngine (2 * d + i) fun g => { inService := false, failed := g.failed }) k
  let k := (k.wr (BL_STATUS.STATE (2 * d)) 0).wr (BL_STATUS.STATE (2 * d + 1)) 0
  let k := (k.setDie d fun s => { s with step := 6, inService := false }).emit (.power "DIE_RESET" d 1)
  (k.startLink (2 * d) true).startLink (2 * d + 1) true

/-- R522: a partial reset of C-die `d` is accepted; after a loss, or of a die held in reset, steps 1 to 4 are already done. -/
def Chip.startReset (k : Chip) (d : Nat) : Chip :=
  if k.dieUp d then k.setDie d fun s => { s with step := 1, planned := true, autoDue := false }
  else (k.setDie d fun s => { s with step := 4, planned := false, autoDue := false, walk := false }).resetDie d

/-- R522: a beat boundary in the partial reset of C-die `d`: at D its engines leave dispatch; once their segments have committed
the die resets. -/
def Chip.resetBoundary (k : Chip) (d : Nat) : Chip :=
  let s := k.dieState d
  if s.step == 1 then
    let k := (k.setEngine (2 * d) fun g => { g with inService := false }).setEngine (2 * d + 1) fun g => { g with inService := false }
    k.setDie d fun s => { s with step := 2 }
  else if s.step == 2 && (k.engine (2 * d)).seg.isNone && (k.engine (2 * d + 1)).seg.isNone then k.resetDie d
  else k

/-- R524: step 5 or 6 fails: the die stays in DIE reset. -/
def Chip.resetFails (k : Chip) (d : Nat) : Chip :=
  let k := k.setDie d fun s => { s with step := 0, planned := false, heldOut := true }
  let k := (k.wr (BL_STATUS.STATE (2 * d)) 0).wr (BL_STATUS.STATE (2 * d + 1)) 0
  k.log { cls := 2, unitType := 9, unit := d, status := 2 }

/-- R523: a hart ID that ran on C-die `d` before a planned reset, on its tile again where that passed, else on a spare. -/
def Chip.hartBack (k : Chip) (d h : Nat) : Chip :=
  match (k.hart h).ptile with
  | some t =>
    if t / 28 != d || (k.hart h).online then k
    else if (k.tile t).failed then k.decideMove (k.due h 1)
    else k.setHart h fun g => { Hart.started t with moved := g.moved, reason := g.reason, moves := g.moves, inStub := k.stubInForce }
  | none => k

/-- R523: an offline hart ID is taken over by the lowest tile of C-die `d` that is free. -/
def Chip.hartToDie (k : Chip) (d h : Nat) : Chip :=
  let g := k.hart h
  if g.online || g.moving.isSome || g.ptile.isSome then k
  else match k.freeTiles d with
    | t :: _ => k.moveTo { k.due h 2 with second := false } t 0xFFFF
    | [] => k

/-- R414, R523: C-die `d` has passed: its ports, tiles and engines return, and its hart IDs as the rule says; its return to
service is a NOTICE. (DEDUCED, log 84) -/
def Chip.resetPasses (k : Chip) (d : Nat) (tiles engines : List Bool) : Chip :=
  let planned := (k.dieState d).planned
  let k := (k.linkInService (2 * d)).linkInService (2 * d + 1)
  let k := k.setDie d fun _ => { inService := true }
  let k := { k with
    coh := { k.coh with lost := k.coh.lost.filter (· != d) }
    pwr := { k.pwr with gatedDies := k.pwr.gatedDies.filter (· != d) }
    beat := { k.beat with dies := Tbl.set {} k.beat.dies d { count := k.now, fullDue := false } } }
  let k := (List.range 28).foldl (fun k i =>
    k.setTile (28 * d + i) fun x => { x with failed := x.failed || !tiles.getD i false, inTest := false, retention := false }) k
  let k := (List.range 2).foldl (fun k i =>
    let good := engines.getD i false
    (k.applyEnable (2 * d + i)).setEngine (2 * d + i) fun _ => { inService := false, failed := !good, stagingBusy := good }) k
  let k := k.log { cls := 4, unitType := 9, unit := d, action := 11 }
  (List.range 288).foldl (fun k h => if planned then k.hartBack d h else k.hartToDie d h) k

/-- R523, R524: the BIST of C-die `d` ends. (DEDUCED, log 84) -/
def Chip.dieBist (k : Chip) (d : Nat) (tiles engines : List Bool) (linkOk : Bool) : Chip :=
  if (k.dieState d).step != 6 then k
  else if !linkOk || !tiles.any id then k.resetFails d
  else k.resetPasses d tiles engines

/-- R521: the status of a DIE_RESET request, and the claim that refuses it. -/
def Chip.dieResetStatus (k : Chip) (d : Nat) (secure : Bool) : Nat × Option Nat :=
  let only := k.dieUp d && ((List.range 12).filter k.dieUp).length == 1
  let claim := k.claims.find? (· == d)
  if 12 ≤ d then (5, none)
  else if k.resetting then (1, none)
  else if only then (5, none)
  else if !secure && claim.isSome then (3, claim)
  else if k.harts.any fun e => e.2.online && !e.2.stopped && e.2.ptile.any fun t => t / 28 == d then (2, none)
  else (0, none)

/-- R524: at a window boundary, the partial reset of a lost C-die whose directory walk has ended, unless it is claimed. -/
def Chip.autoReset (k : Chip) : Chip :=
  if k.resetting then k else
  match (List.range 12).find? fun d =>
    let s := k.dieState d
    s.lost && !s.walk && s.autoDue && !k.claims.contains d with
  | some d => k.startReset d
  | none => k

end Sys2Proof.Machine
end

