-- ==== Sys2Proof/Machine/Power.lean ====
section
/-!
DEFINITION. The commands of clocks and power (19): losses of clock inputs, crystals and PLLs, power requests and wake sources,
retention and droops.
-/

namespace Sys2Proof.Machine

/-! ### Power requests (R451, R485, R486, R490, R494) -/

/-- Where a request's status goes: PWR_CMD, a mailbox, or Gunel's own interfaces. -/
def Chip.pwrStatus (k : Chip) (r : PwrReq) (status : Nat) : Chip :=
  match r.src with
  | 0 | 1 => (k.wr PWR_CMD.STATUS status).wr PWR_CMD.GO 0
  | 3 => (k.wr GN_MBOX_CMD.STATUS status).wr GN_MBOX_CMD.GO 0
  | 4 => (k.wr GN_SMBOX_CMD.STATUS status).wr GN_SMBOX_CMD.GO 0
  | _ => k.emit (.power "STATUS" r.op status)

/-- R450, R494: a request refused for claim `c`. -/
def Chip.pwrRefused (k : Chip) (r : PwrReq) (c : Nat) : Chip :=
  let k := k.refusedSecure c (if r.src == 0 then 0 else 8)
  if r.src == 0 then k.pwrErr PWR_ERR.REFUSED else k

/-- R485 to R490: an accepted request. -/
def Chip.pwrApply (k : Chip) (r : PwrReq) : Chip :=
  if r.target == 0 then
    if r.op == 0 then k.quietChange 0 .leaveQuiet .run
    else if r.op == 1 then k.quietChange k.quietRate .enterQuiet .quiet
    else if k.pwr.pkg == .standby then { k with pwr := { k.pwr with pkg := .enterDrydown } }
    else
      let k := k.stopHarts
      { k with pwr := { k.pwr with pkg := if r.op == 2 then .enterStandby else .enterDrydown } }
  else if r.op == 4 then k.gateUnit r.target r.index
  else match r.target with
    | 1 => k.ungateTile r.index
    | 2 =>
      if !k.pwr.gatedDies.contains r.index || (k.dieState r.index).step != 0 then k
      else (k.setDie r.index fun s => { s with planned := true }).resetDie r.index
    | 3 => k.wakeChannel r.index
    | 4 => { k with pwr := { k.pwr with gatedSign := false } }
    | _ => { k with pwr := { k.pwr with gatedEndpoint := false } }

/-- A request decided by the claims and the conditions of this moment (R451, R490). -/
def Chip.pwrDecide (k : Chip) (r : PwrReq) : Chip :=
  let (status, claim) := if r.target == 0 then k.pkgStatus r else k.unitStatus r
  let k := match claim with
    | some c => k.pwrRefused r c
    | none => k
  (if status == 0 then k.pwrApply r else k).pwrStatus r status

/-- R486, steps 3 to 6: what goes off after the last token. -/
def Chip.enterSleep (k : Chip) : Chip :=
  let k := (List.range 24).foldl (fun k p => k.wr (BL_STATUS.STATE p) 0) k
  let k := (List.range 12).foldl (fun k d => k.setDie d fun s => { s with inService := false }) k
  let k := (List.range 24).foldl (fun k e => k.setEngine e fun g => { g with inService := false }) k
  let k := (List.range 16).foldl (fun k c => if k.chFenced c then k else k.wr (MC_STATUS.STATE c) 3) k
  let k := (List.range 4).foldl (fun k n => k.wr (CN_PORT_STATUS.STATE n) 0) k
  let k := k.endpointDown.wr MQ_LINK.UP 0
  let k := { k with start := { k.start with railCd := false, cdPg := false }, ws := { k.ws with watchdog := false } }
  (k.emit (.pin "RAIL_EN_CD" 0)).lifeWrite

/-- R486, step 8: the main rails go off. -/
def Chip.enterDry (k : Chip) : Chip :=
  { k with start := { k.start with railMain := false, mainPg := false }, pwr := { k.pwr with pkg := .drydown } }.emit
    (.pin "RAIL_EN_MAIN" 0)

/-- R488: a source that fired during the entry starts the warm start as soon as it ends. (DEDUCED, log 82) -/
def Chip.wakePending (k : Chip) : Chip :=
  match k.pwr.wake with
  | some (src, facts) => k.wakeStart src facts
  | none => k

/-- R486, R488: an entry to Standby or Drydown ends. -/
def Chip.endEntry (k : Chip) : Chip :=
  match k.pwr.pkg with
  | .enterStandby => { k.enterSleep with pwr := { k.enterSleep.pwr with pkg := .standby } }.wakePending
  | .enterDrydown => (if k.start.cdPg then k.enterSleep else k.lifeWrite).enterDry.wakePending
  | _ => k

/-- R472, R485, R494: a request arrives. BUSY and INVALID answer at once; a package without beats decides at once; any other
waits for the boundary (R451). -/
def Chip.pwrRequest (k : Chip) (r : PwrReq) : Chip :=
  if !r.shaped then k.pwrStatus r 5
  else if k.pwr.pkg.moving || !k.gunelUp then k.pwrStatus r 1
  else if k.pwr.pkg == .standby || k.pwr.pkg == .drydown then (k.pwrDecide r).endEntry
  else { k with pwr := { k.pwr with requests := k.pwr.requests ++ [r] } }

/-- R451: the requests that waited, at a boundary and in their order; one that finds a transition begun is BUSY. -/
def Chip.pwrBoundary (k : Chip) : Chip :=
  k.pwr.requests.foldl (fun k r => if k.pwr.pkg.moving then k.pwrStatus r 1 else k.pwrDecide r)
    { k with pwr := { k.pwr with requests := [] } }

/-- R494: a write of PWR_CMD with GO = 1, by way of `src`; one while GO reads 1 is not looked at. Requests of Gunel's own
interfaces do not pass PWR_CMD. -/
def Chip.pwrCmd (k : Chip) (op target index src : Nat) : Chip :=
  if 2 ≤ src then k.pwrRequest { op := op, target := target, index := index, src := 2 }
  else if k.on PWR_CMD.GO then k
  else
    let k := (((k.wr PWR_CMD.OP op).wr PWR_CMD.TARGET target).wr PWR_CMD.INDEX index).wr PWR_CMD.GO 1
    k.pwrRequest { op := op, target := target, index := index, src := src }

/-! ### Wake sources (R488) -/

/-- R488: a wake source fires. (DEDUCED, log 82) -/
def Chip.wakeFires (k : Chip) (src : Nat) (facts : StartFacts) : Chip :=
  if !bit (k.rd PWR_WAKE.EN) src || 4 ≤ src then k
  else match k.pwr.pkg with
    | .standby | .drydown => k.wakeStart src facts
    | .enterStandby | .enterDrydown =>
      if k.pwr.wake.isSome then k else { k with pwr := { k.pwr with wake := some (src, facts) } }
    | _ => k

/-! ### Clock inputs, crystals and PLLs (R472, R473) -/

/-- R472: REFCLK_SYS stops, and the package with it; nothing is detected or logged. -/
def Chip.refSysLost (k : Chip) : Chip :=
  { k with beat := { k.beat with stopped := true }, pwr := { k.pwr with refLost := 0 :: k.pwr.refLost.filter (· != 0) } }

/-- R244, R472: REFCLK_RP stops: every drive is treated as removed. -/
def Chip.refRpLost (k : Chip) : Chip :=
  let k := k.mq.present.foldl Chip.driveRemoved k
  { k with pwr := { k.pwr with refLost := 1 :: k.pwr.refLost.filter (· != 1) } }

/-- R224, R472: EP_REFCLK stops: the endpoint link goes down. -/
def Chip.epRefLost (k : Chip) : Chip :=
  let k := k.endpointDown
  { k with pwr := { k.pwr with refLost := 2 :: k.pwr.refLost.filter (· != 2) } }

/-- R472, R500: the H-die's watch of Gunel lapses: the H-die itself writes the record into the error ring and signals its MSI. -/
def Chip.gunelLapses (k : Chip) : Chip :=
  let k := ((k.raise CLK_ERR.GUNEL_LAPSE).wr CLK_STATUS.GUNEL_HB 0).wr GN_STATUS.RUNNING 0
  let e : Ev := { cls := 2, unitType := 14, unit := 0, cause := CLK_ERR.GUNEL_LAPSE.lo, status := 3 }
  let seq := k.gn.seq
  let r := e.record seq k.now k.time
  ({ k with gn := { k.gn with seq := (seq + 1) % 2 ^ 32 } }.emit (.record r)).errorRing seq 2 r

/-- R473: a crystal's count ends: 0 XTAL_G, 1 XTAL_F. -/
def Chip.crystalEnds (k : Chip) (which : Nat) : Chip :=
  match which with
  | 0 => (k.wr CLK_STATUS.XTAL_G_OK 1).tryBoot
  | 1 => k.wr CLK_STATUS.XTAL_F_OK 1
  | _ => k

/-- R473: a PLL's wait ends: it is used from now on. -/
def Chip.pllEnds (k : Chip) (which : Nat) : Chip :=
  Chip.tryBoot { k with pwr := { k.pwr with plls := which :: k.pwr.plls.filter (· != which) } }

/-! ### Heat, droops and retention (R478, R482, R489) -/

/-- R478: a sensor of die `d` reads 110 °C: the package stops. -/
def Chip.overheats (k : Chip) (d : Nat) : Chip :=
  let hs := Tbl.mod noReading k.pwr.highs d fun v => max v 1100
  { k with pwr := { k.pwr with highs := hs } }.fatalStop 17

/-- R482: a droop on tile `t`. -/
def Chip.droopAt (k : Chip) (t : Nat) : Chip :=
  let k := (k.bump (CLK_TRIM.DROOPS t) 1).clkErr CLK_ERR.DROOP t
  if k.on CLK_CTRL.DROOP_EN then k.setTile t fun x => { x with stretch := true } else k

/-- R489: the hart of tile `t` has waited for TILE_IDLE: its L1 and L2 are written back into the die's L3 and the core is held;
an interrupt pending to one of its files keeps it awake. -/
def Chip.retain (k : Chip) (t : Nat) : Chip :=
  if k.rd PWR_CTRL.TILE_IDLE == 0 || !k.pwr.pkg.up then k else
  match (k.tile t).hart with
  | none => k
  | some h =>
    let g := k.hart h
    if !g.online || g.halted || g.pendingMsis != 0 then k else k.setTile t fun x => { x with retention := true }

/-! ### The commands -/

/-- REFCLK_SYS_LOSS (R442, R472). -/
def execRefclkSysLoss (s : State) : Host.Outcome State Fault Refusal := s.commit s.chip.refSysLost

/-- REFCLK_RP_LOSS (R472). -/
def execRefclkRpLoss (s : State) : Host.Outcome State Fault Refusal := s.commit s.chip.refRpLost

/-- EP_REFCLK_LOSS (R472). -/
def execEpRefclkLoss (s : State) : Host.Outcome State Fault Refusal := s.commit s.chip.epRefLost

/-- GUNEL_LAPSE (R472, R500). -/
def execGunelLapse (s : State) : Host.Outcome State Fault Refusal := s.commit s.chip.gunelLapses

/-- CRYSTAL_COUNT_END (R473). -/
def execCrystalCountEnd (which : Nat) (s : State) : Host.Outcome State Fault Refusal := s.commit (s.chip.crystalEnds which)

/-- PLL_WAIT_END (R473). -/
def execPllWaitEnd (which : Nat) (s : State) : Host.Outcome State Fault Refusal := s.commit (s.chip.pllEnds which)

/-- THERMAL_CRITICAL (R419, R478). -/
def execThermalCritical (die : Nat) (s : State) : Host.Outcome State Fault Refusal :=
  s.commit (s.chip.overheats die)

/-- DROOP (R482). -/
def execDroop (tile : Nat) (s : State) : Host.Outcome State Fault Refusal := s.commit (s.chip.droopAt tile)

/-- DROOP_STRETCH_END (R482). -/
def execDroopStretchEnd (tile : Nat) (s : State) : Host.Outcome State Fault Refusal :=
  s.commit (s.chip.setTile tile fun x => { x with stretch := false })

/-- RUN (R485, R494). -/
def execRun (src : Nat) (s : State) : Host.Outcome State Fault Refusal := s.commit (s.chip.pwrCmd 0 0 0 src)

/-- QUIET (R485, R494). -/
def execQuiet (src : Nat) (s : State) : Host.Outcome State Fault Refusal := s.commit (s.chip.pwrCmd 1 0 0 src)

/-- STANDBY (R485, R486). -/
def execStandby (src : Nat) (s : State) : Host.Outcome State Fault Refusal := s.commit (s.chip.pwrCmd 2 0 0 src)

/-- DRYDOWN (R485, R486). -/
def execDrydown (src : Nat) (s : State) : Host.Outcome State Fault Refusal := s.commit (s.chip.pwrCmd 3 0 0 src)

/-- GATE (R489, R490). -/
def execGate (target index src : Nat) (s : State) : Host.Outcome State Fault Refusal :=
  s.commit (s.chip.pwrCmd 4 target index src)

/-- UNGATE (R489, R490). -/
def execUngate (target index src : Nat) (s : State) : Host.Outcome State Fault Refusal :=
  s.commit (s.chip.pwrCmd 5 target index src)

/-- WAKE_SOURCE_FIRE (R487, R488, R511, R514). -/
def execWakeSourceFire (src : Nat) (facts : StartFacts) (s : State) : Host.Outcome State Fault Refusal :=
  s.commit (s.chip.wakeFires src facts)

/-- TILE_RETENTION_ENTRY (R489). -/
def execTileRetentionEntry (tile : Nat) (s : State) : Host.Outcome State Fault Refusal := s.commit (s.chip.retain tile)

/-- TILE_RETENTION_WAKE (R475, R489). -/
def execTileRetentionWake (tile : Nat) (s : State) : Host.Outcome State Fault Refusal := s.commit (s.chip.wakeTile tile)

end Sys2Proof.Machine
end

