-- ==== Sys2Proof/Machine/BeatOps.lean ====
section
/-!
DEFINITION. The steps of a beat boundary (02, 03): the time, the register writes that wait, commits and overruns (R43 to R46),
completion records, what takes effect in step 3 of R38, and the dispatch of the beat that begins.
-/

namespace Sys2Proof.Machine

/-! ### The time (R27, R47) -/

/-- R31: whether the beat master issues tokens: in Run and Quiet, and until the entry to Standby or Drydown is over. -/
def Chip.ticking (k : Chip) : Bool :=
  (k.pwr.pkg.up || k.pwr.pkg == .enterStandby || k.pwr.pkg == .enterDrydown) && !k.beat.stopped

/-- R47: by how many ns the beat under way is shortened. -/
def Chip.slewNow (k : Chip) : Int :=
  if !k.on BT_CTRL.ALIGN_EN || k.on CN_ALIGN.ROOT then 0
  else
    let m : Int := min 40 (k.rd BT_CTRL.SLEW_MAX)
    clampInt (-m) m (toSigned (k.rd BT_ALIGN_OFS.OFS) 32)

/-- The ns from the start of the beat under way, taken to the 10 ns of its start, to its phase `p`. -/
def Chip.phaseNs (k : Chip) (p : Nat) : Int := k.beat.slew + p * ((k.beatNs : Int) - k.slewNow) / 8

/-- The time moved on to the start of phase `p` of the beat under way. -/
def Chip.moveTime (k : Chip) (p : Nat) : Chip := { k with time := max k.time (k.beat.start + (k.phaseNs p / 10).toNat) }

/-- R476, R478, R479, R399: what was measured in the phase that has just ended. -/
def Chip.phaseEnd (k : Chip) (power temps : List Nat) (slacks : List Int) (queues : List (Nat × Nat)) : Chip :=
  let k := ((k.slacks slacks).heat temps).setLevels queues
  { k with pwr := { k.pwr with samples := k.pwr.samples ++ [power.sum] } }

/-! ### The writes that wait (R12, R95, R96, R474) -/

/-- What a field that takes its new value at a boundary sets off (R48, R367, R477, R549). -/
def Chip.heldEffect (k : Chip) (f : Fld) (was : Nat) : Chip :=
  if f.key == PWR_CTRL.TDP.key then
    if k.rd PWR_CTRL.TDP < 300 || 650 < k.rd PWR_CTRL.TDP then k.pwrErr PWR_ERR.TDP_LIMIT else k
  else if f.key == PM_DUMP_CTRL.ENABLE.key then
    if was == 0 then
      let k := (k.wr PM_DUMP_PI.PI 0).wr PM_DUMP_CI.CI 0
      { k with pm := { k.pm with dumpSeq := 0 } }
    else k
  else if f.key == BT_CTRL.ALIGN_EN.key then if was == 1 then k.alignStop else k
  else if f.key == (MC_REFRESH.POSTPONE_MAX (f.page - 96)).key then k.checkPostpone (f.page - 96)
  else k

/-- R12: the register writes that waited take effect. (DEDUCED, log 27) -/
def Chip.applyHeld (k : Chip) : Chip :=
  k.beat.held.foldl (fun k p => (k.wr p.1 p.2).heldEffect p.1 (k.rd p.1)) { k with beat := { k.beat with held := [] } }

/-- R95: ring context `g` with the writes that waited. -/
def Ring.applyHeld (g : Ring) : Ring :=
  let v := fun (off cur : Nat) => ((g.held.find? fun p => p.1 == off).map (·.2)).getD cur
  { g with vector := v 20 g.vector, coalCount := v 22 g.coalCount, coalBeats := v 24 g.coalBeats, held := [] }

/-- R96: function context `c` with the writes that waited, and its fetch cap renewed (R66). -/
def FnCtx.applyHeld (c : FnCtx) : FnCtx :=
  let v := fun (off cur : Nat) => ((c.held.find? fun p => p.1 == off).map (·.2)).getD cur
  { c with weight := v 0 c.weight, fetchCap := v 1 c.fetchCap, held := [], fetched := 0 }

/-- R474: the operating point that hart `g` asked for last. -/
def Hart.applyHeld (g : Hart) : Hart := { g with oppReq := g.oppHeld.getD g.oppReq, oppHeld := none }

/-- R543: the beats at the fetch cap, counted for the beat that ends. -/
def Chip.countCaps (k : Chip) : Chip :=
  k.re.fns.foldl (fun k e => if orDefault e.2.fetchCap 16 ≤ e.2.fetched then k.count 1 e.1 3 1 else k) k

/-- R12, R95, R96, R412, R474: every write that waited for the boundary takes effect. -/
def Chip.applyAll (k : Chip) : Chip :=
  let k := k.countCaps.applyHeld
  Chip.arbBoundary { k with
    re := { k.re with
      rings := Tbl.mapVals {} k.re.rings fun _ g => g.applyHeld
      fns := Tbl.mapVals {} k.re.fns fun _ c => c.applyHeld }
    harts := Tbl.mapVals {} k.harts fun _ g => g.applyHeld }

/-! ### Step 1 of R38: the token edge -/

/-- R30, R47, R53, R56, R92: the token edge: the time, the offset that remains, the count, the phase and the skew of the beat that
ends. -/
def Chip.tokenEdge (k : Chip) : Chip :=
  let ns := k.phaseNs 8
  let adj := k.slewNow
  let ofs : Int := if k.on CN_ALIGN.ROOT then 0 else toSigned (k.rd BT_ALIGN_OFS.OFS) 32 - adj
  let k := k.moveTime 8
  let start := k.beat.start + (ns / 10).toNat
  let count := (k.now + 1) % 2 ^ 64
  let k := ((k.wr BT_ALIGN_OFS.OFS (ofSigned ofs 32)).wr BT_COUNT.COUNT count).wr RE_STATUS.WINDOW_BEAT (count % 256)
  let k := (k.wr BT_SKEW.MAX (min 255 k.beat.skewMax)).wr BT_SKEW.DIE (if k.beat.skewMax == 0 then 0 else k.beat.skewDie)
  Chip.emit { k with beat := { k.beat with phase := 0, start := start, slew := ns % 10, issued := true, skewMax := 0 } }
    (.token count)

/-- R368: the make-up bursts of the channels in service. -/
def Chip.makeUpAll (k : Chip) : Chip :=
  ((List.range 16).filter fun c => k.rd (MC_STATUS.STATE c) == 2).foldl (fun k c => k.makeUp c true) k

/-- Step 1 of R38, with the writes that take effect at the boundary (R12), the capacity of the beat (R396, R397), the budgets of
phase 0 (R398), a change of the DRAM rate (R373) and the make-up bursts (R368). -/
def Chip.stepOne (k : Chip) : Chip := (k.tokenEdge.applyAll.rateBoundary.regulate.refillAll.makeUpAll).addScrubCredit

/-! ### Step 2 of R38: commits (R43, R46, R82, R126, R144, R543) -/

/-- The engine that holds a segment of job `c`. -/
def Chip.engineOf (k : Chip) (c : Nat) : Option Nat := (List.range 24).find? fun e => (k.engine e).seg.any fun s => s.job == c

/-- R82, R223: job `c` dropped without a record: a segment of it stops, what is not issued for it is discarded, and its
context is free. -/
def Chip.dropJob (k : Chip) (c : Nat) : Chip :=
  let k := match k.engineOf c with
    | some e => k.setEngine e fun g => { g with seg := none }
    | none => k
  Chip.freeJob { k with mq := { k.mq with places := k.mq.places.filter fun e => !(e.2.job == some c && !e.2.issued) } } c

/-- R223, step 2: the function-pool jobs of the functions that lost service are dropped. -/
def Chip.dropFunctions (k : Chip) : Chip :=
  let due := fun (f : Nat) => (k.hostFn f).dropDue
  let k := ((k.re.jobs.filter fun e => !e.2.internal && due (e.2.ring / 32)).map (·.1)).foldl Chip.dropJob k
  { k with hf := { k.hf with fns := Tbl.mapVals {} k.hf.fns fun _ c => { c with dropDue := false } } }

/-- R147: the regions with a lost line are built again, and the segments that fold into them replay. -/
def Chip.rebuildRegions (k : Chip) : Chip :=
  ((k.re.jobs.filter fun e => e.2.rebuild).map (·.1)).foldl (fun k c =>
    let k := k.rebuildRegion c
    match k.engineOf c with
    | some e => k.replaySeg e
    | none => k) k

/-- R543, R544: the committed segment `s` of engine `e`, whose job had written `before` bytes. -/
def Chip.countCommit (k : Chip) (e : Nat) (s : Seg) (before : Nat) : Chip :=
  let (busy, k) := k.fresh
  let k := (((k.count 0 e 0 1).count 0 e 2 (ofBool s.replay)).count 0 e 3 s.read).count 0 e 4 (s.after.outLen - before)
  (((k.count 0 e 5 busy).count 0 e 6 s.closes).count 0 e 7 s.plans).count 11 e s.bin 1

/-- R82, R143: job `c` stops with what its segment met; its region is released. -/
def Chip.stopJob (k : Chip) (c : Nat) (st : Nat × Nat) : Chip :=
  (k.releaseRegion c).setJob c fun j => { j with stop := some (j.stop.getD st), state := .waiting, region := none }

/-- R82, R126: the checkpoint of job `c` advances to the end of segment `s`, which engine `e` ran. -/
def Chip.advance (k : Chip) (e c : Nat) (s : Seg) : Chip :=
  let k := k.setRegion c fun g => { g with log := [], copy := none }
  k.setJob c fun j => { j with
    ck := s.after, outLen := s.after.outLen, segments := j.segments + 1, lastBeat := k.now, lastEngine := some e
    degraded := j.degraded || s.after.degraded, hit := j.hit || s.after.hits != 0
    late := j.late || s.overrun || s.crossed
    state := if s.last then .done else .waiting }

/-- R43, R46, R82: the finished segment `s` of engine `e` commits, or its job stops with the status it met. -/
def Chip.commitSeg (k : Chip) (e : Nat) (s : Seg) : Chip :=
  let c := s.job
  let before := (k.job c).ck.outLen
  let k := k.setEngine e fun g => { g with
    seg := none
    lastOver := if s.overrun then g.lastOver else false
    suspect := g.suspect && s.overrun }
  let k := if s.overrun then k.count 0 e 1 1 else k
  match s.status with
  | some st => k.stopJob c st
  | none =>
    let k := (k.advance e c s).countCommit e s before
    if k.flt.fatal then k else s.fragments.foldl (fun k f => k.placeFragment c s.places f) k

/-- Step 2 of R38: the segments that finished before the edge commit; one that a change of the DRAM rate has delayed waits for
the boundary that counts as its first (R373). (DEDUCED, log 39) -/
def Chip.commitAll (k : Chip) (withheld : Bool) : Chip :=
  (List.range 24).foldl (fun k e => match (k.engine e).seg with
    | some s => if s.finished && !(withheld && s.crossed) then k.commitSeg e s else k
    | none => k) k

/-! ### Completion records (R76, R83, R138, R169, R195, R242) -/

/-- R138: a job whose region exceeds the lock limit stops at its first segment. -/
def Chip.stopNoSpace (k : Chip) : Chip :=
  ((k.re.jobs.filter fun e =>
    e.2.waitingRegion && !k.re.regionQueue.contains e.1 && decide (k.lockLimit < e.2.footprint) && decide (e.2.readyAt ≤ k.now)
      && e.2.stop.isNone).map (·.1)).foldl (fun k c => k.setJob c fun j => { j with stop := some (10, 0) }) k

/-- Whether job `j` has come to its end. -/
def Chip.jobEnds (k : Chip) (j : Job) : Bool :=
  (j.state == .done || ((j.stop.isSome || (k.ring j.ring).dead) && j.state != .running && j.state != .replaying))

/-- R83: the status and DETAIL of a job that has come to its end. -/
def Job.outcome (j : Job) : Nat × Nat :=
  match j.stop, j.placeFail with
  | some st, _ => st
  | none, some i => (20, i)
  | none, none => if j.desc.opcode == 4 && j.ck.reports != 0 then (18, min j.ck.reports 65535) else (0, 0)

/-- R76, R195, R242: the records of the jobs that have ended and whose placements have their final outcome. After a
Package-fatal stop there are none (R419). -/
def Chip.endJobs (k : Chip) : Chip :=
  if k.flt.fatal then k else
  (k.re.jobs.map (·.1)).foldl (fun k c =>
    if k.jobUsed c && k.jobEnds (k.job c) && k.placesDone c then k.endJob c (k.job c).outcome.1 (k.job c).outcome.2 else k) k

/-! ### Step 3 of R38: what takes effect -/

/-- R282: the staging ways of engines out of service unlock. -/
def Chip.unlockStaging (k : Chip) : Chip :=
  let free := fun (x : DieLine) => if x.locked.any (fun e => !(k.engine e).inService) then { x with locked := none } else x
  { k with coh := { k.coh with die := Tbl.mapVals {} k.coh.die fun _ x => free x } }

/-- R97, R282: an engine whose way is empty joins dispatch. -/
def Chip.joinEngines (k : Chip) : Chip :=
  (List.range 24).foldl (fun k e =>
    let g := k.engine e
    if !g.inService && !g.failed && !g.inTest && !g.stagingBusy && k.on (AE_CTRL.ENABLE e) && k.dieUp (e / 2) &&
      (k.dieState (e / 2)).step == 0 then k.setEngine e fun g => { g with inService := true } else k) k

/-- Step 3 of R38: rehomes (R436), moves of harts (R265, R266), partial resets (R522), fences and new routes of the networks
(R328), repairs of Bilum ports (R355), engines that leave and join (R282), power requests (R451). -/
def Chip.decisions (k : Chip) : Chip :=
  let pairs := k.flt.pairsDue
  let moves := k.flt.movesDue
  let k := { k with flt := { k.flt with pairsDue := [], movesDue := [] } }
  let k := moves.foldl Chip.decideMove (pairs.foldl Chip.rehome k)
  let k := (List.range 12).foldl Chip.resetBoundary k
  let k := (List.range 13).foldl (fun k d => (k.reportFences d).holdRoutes d) k
  ((List.range 24).foldl Chip.portBoundary k).unlockStaging.joinEngines.pwrBoundary

/-! ### Overruns and no-finish (R43 to R46, R373) -/

/-- R43, R46: the segment of engine `e` has overrun and counts in AE_STATUS.LATE; the second in a row makes the engine suspect,
and a test is asked for. -/
def Chip.overrun (k : Chip) (e : Nat) (s : Seg) : Chip :=
  let k := k.bump (AE_STATUS.LATE e) 1
  let k := (k.setEngine e fun g => { g with seg := some { s with overrun := true } }).setJob s.job fun j => { j with late := true }
  if s.crossed then k
  else if (k.engine e).lastOver then
    ((k.raise (AE_ERR.DOUBLE_OVERRUN e)).setEngine e fun g => { g with suspect := true }).queueTest 1 e false
  else k.setEngine e fun g => { g with lastOver := true }

/-- R43 to R45, R373: the segment that engine `e` has not finished at a boundary. -/
def Chip.unfinished (k : Chip) (withheld second : Bool) (e : Nat) : Chip :=
  match (k.engine e).seg with
  | none => k
  | some s =>
    if s.finished && !s.crossed then k
    else if withheld then k.setEngine e fun g => { g with seg := some { s with crossed := true } }
    else if !s.overrun then k.overrun e s
    else (k.raise (AE_ERR.NO_FINISH e)).engineFail e (AE_ERR.NO_FINISH e).lo second

/-- R45, R432: every engine's segment that is not finished; a C-die whose two engines both reach no-finish is lost. What one
boundary finds is one happening, not one another's second fault (R421). (DEDUCED, log 76) -/
def Chip.unfinishedAll (k : Chip) (withheld : Bool) : Chip :=
  let failedBefore := fun (e : Nat) => (k.engine e).failed
  let second := k.recovering
  let k := (List.range 24).foldl (Chip.unfinished · withheld second) k
  let new := fun (k : Chip) (e : Nat) => (k.engine e).failed && !failedBefore e
  (List.range 12).foldl (fun k d => if new k (2 * d) && new k (2 * d + 1) then k.dieLost d 6 second else k) k

/-! ### Steps 4 and 5 of R38: dispatch (R81, R86, R116, R215, R426) -/

/-- Whether the key slot of job `j` has been loaded or cleared since its fetch (R116). (DEDUCED, log 38) -/
def Chip.keyChanged (k : Chip) (j : Job) : Bool :=
  j.desc.encrypt && (Tbl.get {} k.ws.keys j.desc.keySlot).loads != j.loads

/-- R116: the job in context `c` meets at dispatch another key than the one it is bound to. -/
def Chip.keyStop (k : Chip) (c : Nat) : Chip :=
  k.setJob c fun j => { j with stop := some (j.stop.getD (4, j.desc.keySlot)), state := .waiting }

/-- R81, R215, R423: engine `e` starts the next segment of job `c` from its checkpoint; the read-ahead of the one after it
begins. A replay reads its input again. -/
def Chip.startSeg (k : Chip) (e c : Nat) (replay : Bool) : Chip :=
  let j := k.job c
  if k.keyChanged j then k.keyStop c else
  let seg : Seg :=
    { job := c, number := j.segments, dispatched := k.now, key := Tbl.get {} k.ws.keys j.desc.keySlot, replay := replay
      ahead := if replay then [] else joinReads (k.answers (.readAhead c)).reverse }
  let k := (k.setEngine e fun g => { g with seg := some seg }).setJob c fun j => { j with state := .running, lastEngine := some e }
  if replay then k else k.readAhead c (j.ck.pos + k.segmentSize)

/-- R426: the engine for the replay of job `c`: the lowest on another C-die, else the other engine of the failed one's.
(DEDUCED, log 44) -/
def Chip.replayEngine (k : Chip) (c : Nat) : Option Nat :=
  match (k.job c).lastEngine with
  | none => k.freeEngines.head?
  | some f => (k.freeEngines.find? fun e => e / 2 != f / 2).or (k.freeEngines.find? fun e => e != f)

/-- R425, R426: the segments that wait for a replay, in the order in which they failed. -/
def Chip.startReplays (k : Chip) : Chip :=
  k.re.replays.foldl (fun k c => match k.replayEngine c with
    | some e => { k with re := { k.re with replays := k.re.replays.filter (· != c) } }.startSeg e c true
    | none => k) k

/-- R543: a slot given: from credit, the internal pool's from its reserve, or from surplus. -/
def Chip.countSlot (k : Chip) (c charge : Nat) : Chip := k.count 1 (k.job c).holder (ofBool (charge == 2)) 1

/-- Steps 4 and 5 of R38: replays first, then the plan of the beat, and the segments that it leaves waiting counted; the jobs
that wait for accumulator space and now find it are ready (R138). No segment starts during a change of the DRAM rate (R373) or
after a Package-fatal stop (R419). -/
def Chip.dispatch (k : Chip) : Chip :=
  if k.mc.change.any (·.running) || k.flt.fatal then k else
  let k := k.startReplays.allocRegions
  let ready := (k.re.jobs.map (·.1)).filter k.jobReady
  let k := k.planBeat.countDeferred ready
  let k := k.re.plan.foldl (fun k p => (k.countSlot p.2.1 p.2.2).startSeg p.1 p.2.1 false) k
  { k with re := { k.re with plan := [] } }

/-! ### The whole boundary -/

/-- R84, R439, R520, R524: a window begins: its figures, the deferred tests, a partial reset that is due. -/
def Chip.windowBegins (k : Chip) : Chip :=
  let k := (k.takeWindow.testBoundary true).autoReset
  { k with beat := { k.beat with windowDue := false } }

/-- R76, R187, R195, R240, R439, R474 to R481: what else a boundary does: power and operating points, tests, windows of Conos,
pushes and media commands, and the coalescing timers (R77). -/
def Chip.services (k : Chip) : Chip :=
  let k := (k.powerBoundary.testBoundary false).commitWindows
  let k := if k.flt.fatal then k else k.retryPushes.issuePlaces.flushTargets
  (k.re.rings.map (·.1)).foldl Chip.coalExpiry k

/-- BEAT_BOUNDARY (R38): phase 7 ends and the next beat begins. At the start of a share window the window and the dispatch are
left to WINDOW_BOUNDARY. (DEDUCED, log 25; DESIGN CHOICE, log 19 and 24) -/
def Chip.beatBoundary (k : Chip) (power temps : List Nat) (slacks : List Int) (queues : List (Nat × Nat)) : Chip :=
  if !k.ticking then k else
  let k := if k.beat.windowDue then k.windowBegins else k
  let k := (k.phaseEnd power temps slacks queues).stepOne
  let withheld := k.mc.change.any (·.running)
  let k := (k.dropFunctions.rebuildRegions.commitAll withheld).stopNoSpace.endJobs
  let k := k.decisions
  let k := (k.unfinishedAll (k.mc.change.any (·.running))).services
  let k := if k.now % 256 == 0 then { k with beat := { k.beat with windowDue := true } } else k.dispatch
  k.endEntry

/-- WINDOW_BOUNDARY (R84): the window of this beat begins, and its segments start. (DESIGN CHOICE, log 24) -/
def Chip.windowBoundary (k : Chip) : Chip := if k.ticking && k.beat.windowDue then k.windowBegins.dispatch else k

/-- PHASE_BOUNDARY (R29, R398, R399): a phase ends and the next one of the beat begins; the end of phase 7 is the beat
boundary. (DESIGN CHOICE, log 19) -/
def Chip.phaseBoundary (k : Chip) (power temps : List Nat) (slacks : List Int) (queues : List (Nat × Nat)) : Chip :=
  if !k.ticking || 7 ≤ k.beat.phase then k else
  let k := (k.phaseEnd power temps slacks queues).moveTime (k.beat.phase + 1)
  Chip.refillAll { k with beat := { k.beat with phase := k.beat.phase + 1 } }

end Sys2Proof.Machine
end

