-- ==== Sys2Proof/Machine/Beat.lean ====
section
/-!
DEFINITION. The commands of the beat (02): boundaries, beat tokens at the C-dies, and the two beat-master instances.
-/

namespace Sys2Proof.Machine

/-! ### Tokens at a C-die (R32, R33, R344) -/

/-- CRC-8 with polynomial 0x07 and initial value 0 over a string of bits, the first bit first. (DEDUCED, log 26) -/
def crc8Bits (bs : List Bool) : Nat :=
  bs.foldl (fun c b => (c * 2 % 256) ^^^ (if (c / 128 == 1) != b then 7 else 0)) 0

/-- R344: the bits of a token that its check covers, in the order of the wire. (DEDUCED, log 26) -/
def tokenBits (full : Bool) (count len inst : Nat) : List Bool :=
  full :: (List.range (if full then 64 else 16)).map (bit count) ++ [bit len 0, bit inst 0]

/-- C-die `d`'s beat timer changed by `f`. -/
def Chip.setDieBeat (k : Chip) (d : Nat) (f : DieBeat → DieBeat) : Chip :=
  { k with beat := { k.beat with dies := Tbl.mod {} k.beat.dies d f } }

/-- R32, R33: the count that a good token gives a die whose own counter stands at `own`. -/
def tokenCount (own : Nat) (full : Bool) (count : Nat) : Nat :=
  if full then count % 2 ^ 64 else own + 1 + wrapSub count (own + 1) 16

/-- R56: the skew of a token edge at die `d`. -/
def Chip.noteSkew (k : Chip) (d skew : Nat) : Chip :=
  let k := if k.beat.skewMax < skew then { k with beat := { k.beat with skewMax := skew, skewDie := d } } else k
  if 10 < skew then k.btErr BT_ERR.SKEW_LIMIT else k

/-- BEAT_TOKEN_RECEIVED (R33): a token copy at C-die `d`: a bad one is dropped, the other port's copy of the count it holds
changes nothing. (DEDUCED, log 26) -/
def Chip.tokenAt (k : Chip) (d : Nat) (full : Bool) (count len inst check skew : Nat) : Chip :=
  if !k.dieUp d then k else
  let x : DieBeat := Tbl.get {} k.beat.dies d
  if crc8Bits (tokenBits full count len inst) != check then k.btErr BT_ERR.TOKEN_CHECK
  else
    let k := k.noteSkew d skew
    let w := if full then 64 else 16
    if !x.fullDue && count % 2 ^ w == x.count % 2 ^ w then k
    else
      let n := tokenCount x.count full count
      let k := if !full && n != x.count + 1 then k.btErr BT_ERR.TOKEN_CHECK else k
      k.setDieBeat d fun x => { x with count := n, misses := 0, fullDue := x.fullDue && !full }

/-- TOKEN_MISSING (R33, R432): C-die `d` counts the beat itself; the second in a row stops its dispatch and it is lost. -/
def Chip.tokenMissing (k : Chip) (d : Nat) : Chip :=
  if !k.dieUp d then k else
  let x : DieBeat := Tbl.get {} k.beat.dies d
  let stop := decide (1 ≤ x.misses)
  let k := k.setDieBeat d fun x => { x with count := (x.count + 1) % 2 ^ 64, misses := x.misses + 1, stopped := x.stopped || stop }
  if stop then k.dieLost d 3 k.recovering else k

/-! ### The two instances (R34 to R36) -/

/-- Whether beat-master instance `b` is fenced. -/
def Chip.masterFenced (k : Chip) (b : Nat) : Bool := k.on (if b == 0 then BT_STATUS.FENCED_A else BT_STATUS.FENCED_B)

/-- R35, R36: instance `b` is fenced for `f`, the other one active; the loss of both is Package-fatal (R421). -/
def Chip.fenceMaster (k : Chip) (b : Nat) (f : Fld) : Chip :=
  let k := k.raise f
  if k.masterFenced (1 - b) then k.secondFault 3 b f.lo
  else
    let k := k.wr (if b == 0 then BT_STATUS.FENCED_A else BT_STATUS.FENCED_B) 1
    let k := if k.rd BT_STATUS.ACTIVE == b then k.wr BT_STATUS.ACTIVE (1 - b) else k
    k.logTwin 3 b f.lo

/-- BEAT_MASTER_SELF_CHECK_ERROR (R35): a fenced instance has none to report. (DEDUCED, log 76) -/
def Chip.selfCheckError (k : Chip) (b : Nat) : Chip :=
  if k.masterFenced (b % 2) then k else k.fenceMaster (b % 2) (if b % 2 == 0 then BT_ERR.SELF_A else BT_ERR.SELF_B)

/-- CMP_MISMATCH (R35): with both instances in service the active one stays. -/
def Chip.cmpMismatch (k : Chip) : Chip :=
  if k.masterFenced 0 || k.masterFenced 1 then k else k.fenceMaster (1 - k.rd BT_STATUS.ACTIVE) BT_ERR.CMP_MISMATCH

/-! ### The commands -/

/-- BEAT_BOUNDARY (R38). -/
def execBeatBoundary (power temps : List Nat) (slacks : List Int) (queues : List (Nat × Nat)) (s : State) :
    Host.Outcome State Fault Refusal :=
  s.commit (s.chip.beatBoundary power temps slacks queues)

/-- PHASE_BOUNDARY (R29). -/
def execPhaseBoundary (power temps : List Nat) (slacks : List Int) (queues : List (Nat × Nat)) (s : State) :
    Host.Outcome State Fault Refusal :=
  s.commit (s.chip.phaseBoundary power temps slacks queues)

/-- WINDOW_BOUNDARY (R84). -/
def execWindowBoundary (s : State) : Host.Outcome State Fault Refusal := s.commit s.chip.windowBoundary

/-- BEAT_TOKEN_RECEIVED (R33). -/
def execBeatTokenReceived (die : Nat) (full : Bool) (count len inst check skew : Nat) (s : State) :
    Host.Outcome State Fault Refusal :=
  s.commit (s.chip.tokenAt die full count len inst check skew)

/-- TOKEN_MISSING (R33). -/
def execTokenMissing (die : Nat) (s : State) : Host.Outcome State Fault Refusal := s.commit (s.chip.tokenMissing die)

/-- BEAT_MASTER_SELF_CHECK_ERROR (R35). -/
def execBeatMasterSelfCheckError (b : Nat) (s : State) : Host.Outcome State Fault Refusal :=
  s.commit (s.chip.selfCheckError b)

/-- CMP_MISMATCH (R35). -/
def execCmpMismatch (s : State) : Host.Outcome State Fault Refusal := s.commit s.chip.cmpMismatch

end Sys2Proof.Machine
end

