-- ==== Sys2Proof/Machine/Caches.lean ====
section
/-!
DEFINITION. The commands of the caches (11): staging ways, the accumulator lock, and uncorrectable errors.
-/

namespace Sys2Proof.Machine

/-- The record of a cache error (R270, R289, R414 to R417): the tile, the L3 slice or the bank, and the address. -/
def Chip.logCache (k : Chip) (place : CachePlace) (unit cls action line : Nat) : Chip :=
  let (type, n, i0) := match place with
    | .l1 | .l2 => (0, ((k.tile unit).hart).getD 0xFFFF, unit)
    | .l3 => (6, unit, 64 * line)
    | .bank => (5, unit, 64 * line)
  k.log { cls := cls, unitType := type, unit := n, action := action, info0 := i0 }

/-- R270, R289: a dirty line is marked and stays in the hierarchy. -/
def Chip.poisonAt (k : Chip) (place : CachePlace) (unit line : Nat) : Chip :=
  match place with
  | .bank => k.mark line
  | _ =>
    let d := unit / 28
    if (k.dieLine line d).st == .i then k else
    let bytes := k.dieBytes line d
    k.setDieLine line d fun c => { c with data := some bytes, poison := true }

/-- R289: an L3 slice whose tag is lost: it is fenced, and the lines it held dirty are poisoned at their homes. -/
def Chip.sliceLost (k : Chip) (unit : Nat) : Chip :=
  let d := unit / 28
  let inSlice := fun (e : Nat × DieLine) => e.1 % 16 == d && (Config.l3Place (e.1 / 16)).1 == unit % 28
  let k := (k.coh.die.filter fun e => inSlice e && (e.2.st == .m || e.2.st == .o)).foldl (fun (k : Chip) e =>
    let l := e.1 / 16
    ({ k with poison := k.poison.set false l true }).setHomeLine l
      (match k.homeLine l with
        | .ownedShared _ => .shared
        | _ => .none)) k
  { k with coh := { k.coh with
      die := k.coh.die.filter fun e => !inSlice e
      slicesFenced := if k.coh.slicesFenced.contains unit then k.coh.slicesFenced else unit :: k.coh.slicesFenced } }

/-- R289: a system-cache bank whose tag is lost: it is fenced, and its lines are served by DRAM from then on (R383). -/
def Chip.bankLost (k : Chip) (unit : Nat) : Chip :=
  { k with coh := { k.coh with
      banksFenced := if k.coh.banksFenced.contains unit then k.coh.banksFenced else unit :: k.coh.banksFenced } }

/-- R270, R289: an uncorrectable error. (DEDUCED, log 66) -/
def Chip.cacheError (k : Chip) (place : CachePlace) (unit : Nat) (kind : LineKind) (line : Nat) : Chip :=
  match kind with
  | .clean | .staging => k.logCache place unit 0 1 line
  | .dirty => (k.poisonAt place unit line).logCache place unit 1 2 line
  | .accumulator => match k.acc.find line with
    | some g => k.accLost g.job
    | none => k
  | .tag => match place with
    | .l3 => (k.sliceLost unit).logCache place unit 2 9 line
    | .bank => (k.bankLost unit).logCache place unit 2 9 line
    | _ => k.logCache place unit 0 1 line

/-! ### The commands -/

/-- STAGING_WAY_EMPTY (R282): the engine joins dispatch at the next boundary. -/
def execStagingWayEmpty (engine : Nat) (s : State) : Host.Outcome State Fault Refusal :=
  s.commit (s.chip.setEngine engine fun g => { g with stagingBusy := false })

/-- ACCUM_WAYS_LOCKED (R283). -/
def execAccumWaysLocked (s : State) : Host.Outcome State Fault Refusal :=
  s.commit { s.chip with coh := { s.chip.coh with lockWaits := 0 } }

/-- CACHE_UNCORRECTABLE (R270, R289). -/
def execCacheUncorrectable (place : CachePlace) (unit : Nat) (kind : LineKind) (line : Nat) (s : State) :
    Host.Outcome State Fault Refusal :=
  s.commit (s.chip.cacheError place unit kind line)

end Sys2Proof.Machine
end

