-- ==== Sys2Proof/Machine/Coherence.lean ====
section
/-!
DEFINITION. The commands of coherence (12): requests, snoops, answers, grants and evictions as they arrive.
-/

namespace Sys2Proof.Machine

/-- A request arrives at its home (R302); those of a die that is out of service are discarded (R315). -/
def Chip.request (k : Chip) (m : CohMsg) (r : HomeReq) : Chip :=
  if m.die < 12 && !k.dieUp m.die then k
  else (((k.countHome m.line 0 1).arrive m.line { die := m.die, who := m.who, req := r }).backInvalidate).endHolds

/-- A snoop reaches a die agent. (DEDUCED, log 62) -/
def Chip.snoop (k : Chip) (d l : Nat) (s : Snoop) : Chip := (k.dieSnoop l d s).endHolds

/-- A snoop's answer reaches the home. -/
def Chip.snoopAnswer (k : Chip) (d l : Nat) : Chip := (k.takeAnswer l d).backInvalidate

/-- R314: SNP_STASH reaches a die agent. -/
def Chip.snoopStash (k : Chip) (d l : Nat) (way : StashWay) : Chip :=
  if k.stashFits l d way then
    (match way with
      | .staging e => k.setDieLine l d fun c => { c with locked := some e }
      | _ => k).say "STASH_ACCEPT" d l 0
  else k.say "STASH_DECLINE" d l 0

/-- A COMP or a DATA under way to a die is delivered, of the kind that the command names. -/
def Chip.deliverGrant (k : Chip) (d l : Nat) (comp : Bool) : Chip :=
  match k.coh.grants.find (cohKey l d) with
  | some g => if g.comp == comp then (k.takeGrant l d).endHolds else k
  | none => k

/-- R303: COMP_ACK releases the line. -/
def Chip.compAck (k : Chip) (d l : Nat) : Chip :=
  match k.busyLine l with
  | some b => if b.granted && b.item.die == d then (k.releaseLine l).backInvalidate else k
  | none => k

/-- The eviction-buffer entry of a line whose data the home has: nothing of it is current any more. -/
def Chip.spent (k : Chip) (l d : Nat) : Chip :=
  match k.coh.evict.find (cohKey l d) with
  | some e => { k with coh := { k.coh with
      evict := k.coh.evict.insert (cohKey l d) { e with data := none, stale := true } } }
  | none => k

/-- R278, R304: the data of a WRITEBACK, which goes into the system cache, or of an offered EVICT, which the bank accepts or
declines (R279). -/
def Chip.wbData (k : Chip) (d l : Nat) (bytes : Bytes) (poison : Bool) : Chip :=
  let entry := k.coh.evict.find (cohKey l d)
  let waiting := match k.busyLine l with
    | some b => b.needData && b.item.die == d && (match b.item.req with
        | .writeback _ => true
        | _ => false)
    | none => false
  if waiting then
    let k := k.homePut l (some ((entry.bind (·.data)).getD bytes)) ((entry.map (·.poison)).getD poison)
    let k := k.setHomeLine l (match k.homeLine l with
      | .ownedShared _ => .shared
      | _ => .none)
    (((k.spent l d).say "EVC_ACK" d l 0).releaseLine l).backInvalidate
  else match entry with
    | some e =>
      let (b, set) := Config.scPlace l
      if !e.stale && Tbl.get 0 k.coh.sc l == 0 && k.accepts b set (k.rd SC_CTRL.SC_MODE) then
        { k with coh := { k.coh with sc := Tbl.set 0 k.coh.sc l 1 } }
      else k
    | none => k

/-- R299: the bytes and mask of a WR_LINE reach the home. -/
def Chip.wrData (k : Chip) (l : Nat) (bytes : Bytes) (mask : Nat) (poison : Bool) : Chip :=
  let k := { k with coh := { k.coh with wrData := k.coh.wrData ++ [(l, bytes, mask, poison)] } }
  match k.busyLine l with
  | some b => match b.item.req with
    | .wrLine _ => ((k.setBusy l (some { b with needData := false })).pokeHome l).backInvalidate
    | _ => k
  | none => k

/-- R429, R430: a directory entry reads uncorrectable: all eight lines are snooped on all dies, and the entry is then
NONE; the event is Corrected. -/
def Chip.dirUncorrectable (k : Chip) (v : Nat) : Chip :=
  ((List.range 8).foldl (fun k i => k.arrive (8 * v + i) (homeOwn true)) k).log
    { cls := 0, unitType := 16, unit := 5, action := 1, info0 := v }

/-! ### The commands -/

/-- RD_SHARED (R304). -/
def execRdShared (msg : CohMsg) (s : State) : Host.Outcome State Fault Refusal :=
  s.commit (s.chip.request msg (.rdShared msg.exclOk))

/-- RD_UNIQUE (R304). -/
def execRdUnique (msg : CohMsg) (s : State) : Host.Outcome State Fault Refusal := s.commit (s.chip.request msg .rdUnique)

/-- OWN (R304, R305). -/
def execOwn (msg : CohMsg) (zero : Bool) (s : State) : Host.Outcome State Fault Refusal :=
  s.commit (s.chip.request msg (.own zero))

/-- RD_ONCE (R304). -/
def execRdOnce (msg : CohMsg) (s : State) : Host.Outcome State Fault Refusal := s.commit (s.chip.request msg .rdOnce)

/-- WR_LINE (R286, R304, R314). -/
def execWrLine (msg : CohMsg) (stash : Option Stash) (s : State) : Host.Outcome State Fault Refusal :=
  s.commit (s.chip.request msg (.wrLine stash))

/-- EVICT (R304). -/
def execEvict (msg : CohMsg) (empty : Bool) (s : State) : Host.Outcome State Fault Refusal :=
  s.commit (s.chip.request msg (.evict empty))

/-- WRITEBACK (R304, R308). -/
def execWriteback (msg : CohMsg) (empty : Bool) (s : State) : Host.Outcome State Fault Refusal :=
  s.commit (s.chip.request msg (.writeback empty))

/-- AMO (R311 to R313). -/
def execAmo (msg : CohMsg) (op : AmoOp) (size offset operand : Nat) (s : State) : Host.Outcome State Fault Refusal :=
  s.commit (s.chip.request msg (.amo op size offset operand))

/-- CMO_CLEAN (R304). -/
def execCmoClean (msg : CohMsg) (s : State) : Host.Outcome State Fault Refusal := s.commit (s.chip.request msg (.cmo 0))

/-- CMO_FLUSH (R304). -/
def execCmoFlush (msg : CohMsg) (s : State) : Host.Outcome State Fault Refusal := s.commit (s.chip.request msg (.cmo 1))

/-- CMO_INVAL (R306). -/
def execCmoInval (msg : CohMsg) (s : State) : Host.Outcome State Fault Refusal := s.commit (s.chip.request msg (.cmo 2))

/-- SNP_SHARED (R307). -/
def execSnpShared (die line : Nat) (s : State) : Host.Outcome State Fault Refusal := s.commit (s.chip.snoop die line .shared)

/-- SNP_UNIQUE (R307). -/
def execSnpUnique (die line : Nat) (s : State) : Host.Outcome State Fault Refusal := s.commit (s.chip.snoop die line .unique)

/-- SNP_ONCE (R307). -/
def execSnpOnce (die line : Nat) (s : State) : Host.Outcome State Fault Refusal := s.commit (s.chip.snoop die line .once)

/-- SNP_INV (R285, R307). -/
def execSnpInv (die line : Nat) (s : State) : Host.Outcome State Fault Refusal := s.commit (s.chip.snoop die line .inv)

/-- SNP_CLEAN (R307). -/
def execSnpClean (die line : Nat) (s : State) : Host.Outcome State Fault Refusal := s.commit (s.chip.snoop die line .clean)

/-- SNP_STASH (R314). -/
def execSnpStash (die line : Nat) (way : StashWay) (s : State) : Host.Outcome State Fault Refusal :=
  s.commit (s.chip.snoopStash die line way)

/-- SNP_RESP (R297, R303). -/
def execSnpResp (die line : Nat) (s : State) : Host.Outcome State Fault Refusal := s.commit (s.chip.snoopAnswer die line)

/-- SNP_DATA (R297, R308). -/
def execSnpData (die line : Nat) (s : State) : Host.Outcome State Fault Refusal := s.commit (s.chip.snoopAnswer die line)

/-- STASH_ACCEPT (R314). -/
def execStashAccept (die line : Nat) (s : State) : Host.Outcome State Fault Refusal :=
  s.commit (((s.chip.countHome line 6 1).arrive line { die := die, who := { source := 0, id := 0, w := 0 }, req := .stash }).backInvalidate)

/-- STASH_DECLINE (R314): the line stays in the system cache. -/
def execStashDecline (_die line : Nat) (s : State) : Host.Outcome State Fault Refusal :=
  s.commit (s.chip.countHome line 7 1)

/-- COMP (R303). -/
def execComp (die line : Nat) (s : State) : Host.Outcome State Fault Refusal := s.commit (s.chip.deliverGrant die line true)

/-- EVC_ACK (R308). -/
def execEvcAck (die line : Nat) (s : State) : Host.Outcome State Fault Refusal :=
  s.commit ((s.chip.takeEvcAck line die).endHolds)

/-- COMP_ACK (R303). -/
def execCompAck (die line : Nat) (s : State) : Host.Outcome State Fault Refusal := s.commit (s.chip.compAck die line)

/-- DATA (R277, R294, R303): the fill may displace a line of the die. -/
def execData (die line : Nat) (victim : Option Nat) (s : State) : Host.Outcome State Fault Refusal :=
  let k := s.chip.deliverGrant die line false
  s.commit (match victim with
    | some v => k.evictLine v die
    | none => k)

/-- WB_DATA (R278, R304). -/
def execWbData (die line : Nat) (bytes : Bytes) (poison : Bool) (s : State) : Host.Outcome State Fault Refusal :=
  s.commit (s.chip.wbData die line bytes poison)

/-- WR_DATA (R286, R299). -/
def execWrData (line : Nat) (bytes : Bytes) (mask : Nat) (poison : Bool) (s : State) : Host.Outcome State Fault Refusal :=
  s.commit (s.chip.wrData line bytes mask poison)

/-- LR_SNOOP_HOLD_EXPIRY (R309). -/
def execLrSnoopHoldExpiry (die line : Nat) (s : State) : Host.Outcome State Fault Refusal :=
  s.commit (s.chip.releaseHold line die)

/-- DIRECTORY_ENTRY_UNCORRECTABLE (R429). -/
def execDirectoryEntryUncorrectable (sector : Nat) (s : State) : Host.Outcome State Fault Refusal :=
  s.commit (s.chip.dirUncorrectable sector)

/-- DIRECTORY_WALK_COMPLETE (R432). -/
def execDirectoryWalkComplete (die : Nat) (s : State) : Host.Outcome State Fault Refusal :=
  s.commit (s.chip.setDie die fun x => { x with walk := false })

end Sys2Proof.Machine
end

