-- ==== Sys2Proof/Machine/Flacon.lean ====
section
/-!
DEFINITION. Flacon, the sealed meter (22): its epochs, samples, log, calibration and mailbox.
-/

namespace Sys2Proof.Machine

/-! ### The log (R532, R534) -/

/-- R532: the 32 bytes of a log entry. -/
def Flacon.entry (f : Flacon) (type ch old new : Nat) : Bytes :=
  let b := leBytes f.epoch 4 ++ leBytes f.seq 4 ++ leBytes f.ticks 8 ++ leBytes type 1 ++ leBytes ch 1 ++ zeros 2 ++
    leBytes old 4 ++ leBytes new 4
  b ++ leBytes (crc32 b) 4

/-- R532, R534: an entry is written, while the log has room, and raises the alarm. -/
def Chip.flLog (k : Chip) (type ch old new : Nat) : Chip :=
  if 256 ≤ k.fl.log.length then k else
  ({ k with fl := { k.fl with log := k.fl.log ++ [k.fl.entry type ch old new] } }.raise FL_STATUS.ALARM).emit
    (.power "FLACON_ALARM" type 1)

/-! ### Epochs (R526, R531, R535) -/

/-- R526: Flacon starts: one fuse is burnt, and TICKS, SEQ and every accumulator are 0; with every fuse burnt it does not
meter. -/
def Flacon.startEpoch (f : Flacon) (fault : Bool) : Flacon :=
  let epoch := min 65536 (f.epoch + 1)
  { f with
    epoch := epoch, metering := decide (epoch < 65536), ticks := 0, seq := 0
    energy := [0, 0, 0, 0, 0, 0, 0, 0], residue := [0, 0, 0, 0, 0, 0, 0, 0]
    overLogged := 0, channelsOk := 255, firstRecord := true, clockFault := fault }

/-- R526: VFL comes up. (DEDUCED, log 89) -/
def Chip.vflUp (k : Chip) : Chip :=
  { k with fl := { k.fl.startEpoch false with
      started := true, clockStopped := false, calLand := false, logAtLast := k.fl.log.length } }

/-- R535: XTAL_F stops: metering stops. -/
def Chip.xtalFStops (k : Chip) : Chip :=
  if k.fl.started then { k with fl := { k.fl with clockStopped := true, metering := false } } else k

/-- R535: XTAL_F returns: a new epoch, and a TYPE 3 entry. -/
def Chip.xtalFBack (k : Chip) : Chip :=
  if !k.fl.clockStopped then k
  else Chip.flLog { k with fl := { k.fl.startEpoch true with clockStopped := false } } 3 0 0 0

/-- R531: the SEQ of a signed response is used; past the last one a new epoch starts. -/
def Flacon.useSeq (f : Flacon) : Flacon :=
  if f.seq + 1 < 2 ^ 32 then { f with seq := f.seq + 1 } else f.startEpoch false

/-! ### Samples (R528, R529) -/

/-- R528: the accumulator of channel `c` after a sample of `mv` mV at a shunt drop of `nv` nV: V × I / 8,192, the exact rest in
2⁻¹³ µJ; it never decreases. (DEDUCED, log 89) -/
def Flacon.add (f : Flacon) (c : Nat) (mv nv : Int) : Flacon :=
  let v := Config.flaconTrim (f.gain.getD c 0) (f.offset.getD c 0) mv
  let power := (v * nv * 1000 / (f.shunt.getD c 1 : Nat)).toNat
  let sum := f.residue.getD c 0 + power
  { f with
    energy := f.energy.set c ((f.energy.getD c 0 + sum / 8192000) % 2 ^ 64)
    residue := f.residue.set c (sum % 8192000) }

/-- R528, R529, R532: one channel's sample; above 30 mV it is overrange, the first time of an epoch with an entry. -/
def Chip.flSample (k : Chip) (c : Nat) (s : Int × Int) : Chip :=
  let k := { k with fl := k.fl.add c s.1 s.2 }
  if s.2.natAbs ≤ 30000000 then k else
  let first := !bit k.fl.overLogged c
  let k := { k with fl := { k.fl with channelsOk := clearBit k.fl.channelsOk c, overLogged := setBit k.fl.overLogged c } }
  if first then k.flLog 4 c 0 (s.2.natAbs / 1000) else k

/-- R528: the samples of one of the 8,192 instants of a second, which lie 4 cycles of XTAL_F apart. -/
def Chip.flSamples (k : Chip) (samples : List (Int × Int)) : Chip :=
  if !k.fl.metering then k else
  (samples.take 8).zipIdx.foldl (fun (k : Chip) (p : (Int × Int) × Nat) => k.flSample p.2 p.1)
    { k with fl := { k.fl with ticks := (k.fl.ticks + 4) % 2 ^ 64 } }

/-! ### Calibration (R532, R533) -/

/-- R532: FLACON_CAL rises. -/
def Chip.calRises (k : Chip) : Chip :=
  if !k.fl.started then k else Chip.flLog { k with fl := { k.fl with calLand := true } } 1 0 0 0

/-- R533: a calibration over I3C. -/
def Chip.calibrate (k : Chip) (ch shunt : Nat) (gain offset : Int) : Chip :=
  if !k.fl.metering || !k.fl.calLand || 256 ≤ k.fl.log.length || 8 ≤ ch || shunt < 50000 || 10000000 < shunt then k else
  let old := k.fl.shunt.getD ch 0
  let k := k.flLog 2 ch old shunt
  { k with fl := { k.fl with
      shunt := k.fl.shunt.set ch shunt, gain := k.fl.gain.set ch gain, offset := k.fl.offset.set ch offset
      calId := (k.fl.calId + 1) % 2 ^ 32 } }

/-! ### Records (R530, R537) -/

/-- The package serial as 8 bytes. -/
def serialBytes : Bytes := leBytes Config.packageSerial 8

/-- R530: FLAGS of a record. -/
def Flacon.flags (f : Flacon) : Nat :=
  ofBool f.firstRecord + 2 * ofBool (f.firstRecord && f.clockFault) + 4 * ofBool f.calLand +
    8 * ofBool (decide (256 ≤ f.log.length)) + 16 * ofBool (decide (f.logAtLast < f.log.length))

/-- R530: bytes 0 to 159 of a record. -/
def Flacon.recordBody (f : Flacon) (nonce : Bytes) : Bytes :=
  [0x51, 0x46, 0x45, 0x4D, 1] ++ leBytes f.flags 1 ++ leBytes f.channelsOk 1 ++ zeros 1 ++ leBytes Config.flaconVersion 8 ++
  serialBytes ++ leBytes f.epoch 4 ++ leBytes f.seq 4 ++ leBytes f.ticks 8 ++ f.energy.flatMap (fun e => leBytes e 8) ++
  leBytes f.calId 4 ++ leBytes f.log.length 4 ++ padTo nonce 16 ++ zeros 32

/-- R530, R537: a response with its signature, whose ECDSA nonce the spec leaves to Flacon: a free value. -/
def Chip.flSigned (k : Chip) (body : Bytes) : Bytes × Chip :=
  let (n, k) := k.fresh
  (body ++ p384SignWith k.fl.key (1 + n % (p384N - 1)) body, k)

/-- R537: GET_INFO. -/
def Flacon.info (f : Flacon) : Bytes :=
  leBytes Config.flaconVersion 8 ++ serialBytes ++ leBytes f.epoch 4 ++ leBytes f.seq 4 ++ leBytes f.calId 4 ++
  leBytes f.log.length 4 ++ leBytes (65536 - f.epoch) 4 ++ beBytes Config.flaconRomHash 48

/-- R530, R531, R537: READ_METER. -/
def Chip.flMeter (k : Chip) (nonce : Bytes) : Bytes × Chip :=
  let (b, k) := k.flSigned (k.fl.recordBody nonce)
  (b, { k with fl := Flacon.useSeq { k.fl with
    firstRecord := false, clockFault := false, channelsOk := 255, logAtLast := k.fl.log.length } })

/-- R531, R537: READ_LOG of entry `i`. -/
def Chip.flEntry (k : Chip) (i : Nat) (nonce : Bytes) : Bytes × Chip :=
  let (b, k) := k.flSigned (k.fl.log.getD i [] ++ padTo nonce 16 ++ serialBytes ++ leBytes k.fl.epoch 4 ++ leBytes k.fl.seq 4)
  (b, { k with fl := k.fl.useSeq })

/-! ### The mailbox (R535, R537, R538) -/

/-- What Flacon does with a command: its status, the response and the block; none where it does not answer. -/
def Chip.flAnswer (k : Chip) (op : Nat) : Option (Nat × Bytes × Chip) :=
  let arg := fun i => leBytes (k.rd (FL_MB_ARG.ARG i)) 8
  if !k.fl.started then none
  else if k.fl.clockStopped then some (2, [], k)
  else if op == 1 then some (0, k.fl.info, k)
  else if op == 2 then some (0, p384Pub k.fl.key, k)
  else if 65536 ≤ k.fl.epoch then none
  else if op == 3 then
    let (b, k) := k.flMeter (arg 0 ++ arg 1)
    some (0, b, k)
  else if op == 4 then
    let i := k.rd (FL_MB_ARG.ARG 0)
    if k.fl.log.length ≤ i then some (5, [], k) else
    let (b, k) := k.flEntry i (arg 1)
    some (0, b, k)
  else some (4, [], k)

/-- R537: a command: through Flacon's own I3C target, or written with GO = 1 on the FL page, where one that Flacon does not
answer stays until the mailbox gives up. (PRESUMED, log 90) -/
def Chip.flCmd (k : Chip) (op : Nat) (viaI3c : Bool) : Chip :=
  if viaI3c then
    match k.flAnswer op with
    | some (status, b, k) => k.emit (.mailbox "FLACON_I3C" (leBytes status 1 ++ b))
    | none => k
  else if k.on FL_MB_CMD.GO then k.raise FL_MB_CMD.OVERRUN
  else
    let k := (k.wr FL_MB_CMD.OP op).wr FL_MB_CMD.GO 1
    match k.flAnswer op with
    | some (status, b, k) => ((k.setInd FL_MB_RSP.RSP ((b.length + 7) / 8) b).wr FL_MB_CMD.STATUS status).wr FL_MB_CMD.GO 0
    | none => k

/-- R537: the mailbox ends a command that has no answer with NOT_READY. -/
def Chip.flTimeout (k : Chip) : Chip :=
  if k.on FL_MB_CMD.GO then (k.wr FL_MB_CMD.STATUS 2).wr FL_MB_CMD.GO 0 else k

/-! ### The commands -/

/-- VFL_POWER_UP (R526). -/
def execVflPowerUp (s : State) : Host.Outcome State Fault Refusal := s.commit s.chip.vflUp

/-- FLACON_SAMPLE (R528, R529). -/
def execFlaconSample (samples : List (Int × Int)) (s : State) : Host.Outcome State Fault Refusal :=
  s.commit (s.chip.flSamples samples)

/-- XTAL_F_STOP (R535). -/
def execXtalFStop (s : State) : Host.Outcome State Fault Refusal := s.commit s.chip.xtalFStops

/-- XTAL_F_RETURN (R535). -/
def execXtalFReturn (s : State) : Host.Outcome State Fault Refusal := s.commit s.chip.xtalFBack

/-- FLACON_CAL_RISE (R532). -/
def execFlaconCalRise (s : State) : Host.Outcome State Fault Refusal := s.commit s.chip.calRises

/-- FLACON_CALIBRATE (R533). -/
def execFlaconCalibrate (ch shunt : Nat) (gain offset : Int) (s : State) : Host.Outcome State Fault Refusal :=
  s.commit (s.chip.calibrate ch shunt gain offset)

/-- FL_GET_INFO (R537). -/
def execFlGetInfo (viaI3c : Bool) (s : State) : Host.Outcome State Fault Refusal := s.commit (s.chip.flCmd 0x01 viaI3c)

/-- GET_PUBKEY (R537). -/
def execGetPubkey (viaI3c : Bool) (s : State) : Host.Outcome State Fault Refusal := s.commit (s.chip.flCmd 0x02 viaI3c)

/-- READ_METER (R530, R531, R537). -/
def execReadMeter (viaI3c : Bool) (s : State) : Host.Outcome State Fault Refusal := s.commit (s.chip.flCmd 0x03 viaI3c)

/-- FL_READ_LOG (R531, R532, R537). -/
def execFlReadLog (viaI3c : Bool) (s : State) : Host.Outcome State Fault Refusal := s.commit (s.chip.flCmd 0x04 viaI3c)

/-- FL_MAILBOX_TIMEOUT (R537). -/
def execFlMailboxTimeout (s : State) : Host.Outcome State Fault Refusal := s.commit s.chip.flTimeout

end Sys2Proof.Machine
end

