-- ==== Sys2Proof/Machine/Gunel.lean ====
section
/-!
DEFINITION. The commands of Gunel (20): restarts, sensors and lifetime records, the mailboxes, firmware and recovery.
-/

namespace Sys2Proof.Machine

/-! ### Restarts (R496, R509) -/

/-- R496: a Gunel restart begins; the mailboxes answer BUSY meanwhile. -/
def Chip.gunelRestart (k : Chip) : Chip :=
  if !k.on GN_STATUS.RUNNING then k else
  { k.wr GN_STATUS.RUNNING 0 with gn := { k.gn with restarting := true } }

/-- R472, R496: Gunel runs its image again. -/
def Chip.gunelBack (k : Chip) : Chip :=
  if k.on GN_STATUS.RUNNING || k.gn.recovery || k.start.step < 3 && k.pwr.pkg == .off then k else
  let k := ((k.wr GN_STATUS.RUNNING 1).wr CLK_STATUS.GUNEL_HB 1).bump GN_STATUS.RESTARTS 1
  { k with gn := { k.gn with restarting := false } }

/-- R509: the hub's heartbeat stands still: Gunel writes its record to the NOR log and asserts FAULT_N. -/
def Chip.hubLapses (k : Chip) : Chip :=
  let k := k.raise GN_STATUS.HUB_LAPSE
  let e : Ev := { cls := 3, unitType := 17, unit := 0, status := 3 }
  let r := e.record k.gn.seq k.now k.time
  Chip.assertFault ({ k with gn := { k.gn with
    seq := (k.gn.seq + 1) % 2 ^ 32, log := (r :: k.gn.log).take 4096, nor := (r :: k.gn.nor).take 65536 } }.emit (.record r))

/-! ### Sensors and histograms (R497, R501) -/

/-- R497, R551: whether the domain of sensor `i` is powered. (DEDUCED, log 87) -/
def Chip.sensorOn (k : Chip) (i : Nat) : Bool :=
  if i < 96 then k.start.cdPg && !k.pwr.gatedDies.contains (i / 8)
  else if i < 112 then k.start.mainPg
  else if i < 128 then (i - 112) % 8 == 7 || (if (i - 112) % 8 < 3 then k.start.cdPg else k.start.mainPg)
  else if i < 140 then k.start.cdPg && !k.pwr.gatedDies.contains (i - 128)
  else i == 140 && k.start.mainPg

/-- R501: the temperature bin of `t` tenths of a degree. -/
def tjBin (t : Int) : Nat := if t < 300 then 0 else if 1000 ≤ t then 15 else ((t - 250) / 50).toNat

/-- R501: the voltage bin of `v` mV. -/
def voltBin (v : Nat) : Nat := if v < 600 then 0 else if 950 ≤ v then 15 else (v - 575) / 25

/-- The thermal sensors of a die, 12 the H-die (R497). -/
def dieSensors (d : Nat) : List Nat := if d < 12 then (List.range 8).map (8 * d + ·) else (List.range 16).map (96 + ·)

/-- The sensor of the voltage of a die's main rail (R497, R551). -/
def dieRail (d : Nat) : Nat := 112 + min (d / 4) 3

/-- R501: the highest readings of a die in the second under way; a die without power at a sample drops out of it. -/
def Chip.lifeSample (k : Chip) (d : Nat) : Chip :=
  let l := k.gn.life
  let put := fun (x : Life) => { k with gn := { k.gn with life := x } }
  if (dieSensors d).any (fun i => !k.sensorOn i) then put { l with off := if l.off.contains d then l.off else d :: l.off }
  else
    let hot := (dieSensors d).foldl (fun m i => max m (toSigned (Tbl.get 0x8000 k.gn.sensors i) 16)) noReading
    let volt := Tbl.get 0 k.gn.sensors (dieRail d)
    put { l with highs := Tbl.mod 0 (Tbl.mod 0 l.highs d fun v => max v (hot + 32768).toNat) (16 + d) fun v => max v volt }

/-- R501: a second ends: each die that had power for all of it counts it in two bins. -/
def Life.second (l : Life) : Life :=
  let dies := (List.range 13).filter fun d => !l.off.contains d
  let histo := dies.foldl (fun (t : Tbl Nat) d =>
    let i := 16 * d + tjBin (((Tbl.get 0 l.highs d : Nat) : Int) - 32768)
    let j := 256 + 16 * d + voltBin (Tbl.get 0 l.highs (16 + d))
    Tbl.mod 0 (Tbl.mod 0 t i fun n => satAdd n 1 64) j fun n => satAdd n 1 64) l.histo
  { l with histo := histo, samples := 0, highs := [], off := [] }

/-- R497: the droops of C-die `d` since PWS. -/
def Chip.droopSum (k : Chip) (d : Nat) : Nat := ((List.range 28).map fun i => k.rd (CLK_TRIM.DROOPS (28 * d + i))).sum

/-- R497: Gunel samples the sensors: those of `readings` by their ID, the droops of the last millisecond, and the power.
(DEDUCED, log 87) -/
def Chip.sample (k : Chip) (readings : List Nat) : Chip :=
  if !k.on GN_STATUS.RUNNING then k else
  let sums := (List.range 12).map k.droopSum
  let droops := sums.zipIdx.map fun p => p.1 - Tbl.get 0 k.gn.droops p.2
  let all := ((List.range 128).map fun i => readings.getD i 0x8000) ++ droops ++ [k.rd PWR_MEAS.POWER]
  let sensors := all.zipIdx.foldl (fun (t : Tbl Nat) (p : Nat × Nat) =>
    Tbl.set 0x8000 t p.2 (if k.sensorOn p.2 then p.1 % 65536 else 0x8000)) []
  let marks := sums.zipIdx.foldl (fun (t : Tbl Nat) (p : Nat × Nat) => Tbl.set 0 t p.2 p.1) []
  let k := { k with gn := { k.gn with sensors := sensors, droops := marks } }
  let k := (List.range 13).foldl Chip.lifeSample k
  let l := { k.gn.life with samples := k.gn.life.samples + 1 }
  { k with gn := { k.gn with life := if 1000 ≤ l.samples then l.second else l } }

/-! ### The mailboxes (R507, R508, R510) -/

/-- The OP field of a mailbox. -/
def mboxOp (secure : Bool) : Fld := if secure then GN_SMBOX_CMD.OP else GN_MBOX_CMD.OP
/-- The STATUS field of a mailbox. -/
def mboxStatus (secure : Bool) : Fld := if secure then GN_SMBOX_CMD.STATUS else GN_MBOX_CMD.STATUS
/-- The OVERRUN field of a mailbox. -/
def mboxOverrun (secure : Bool) : Fld := if secure then GN_SMBOX_CMD.OVERRUN else GN_MBOX_CMD.OVERRUN
/-- The GO field of a mailbox. -/
def mboxGo (secure : Bool) : Fld := if secure then GN_SMBOX_CMD.GO else GN_MBOX_CMD.GO
/-- A data register of a mailbox. -/
def mboxData (secure : Bool) (i : Nat) : Fld := if secure then GN_SMBOX_DATA.DATA i else GN_MBOX_DATA.DATA i

/-- The argument in DATA0. -/
def Chip.mboxArg (k : Chip) (secure : Bool) : Nat := k.rd (mboxData secure 0)

/-- The end of a mailbox command with a status. -/
def Chip.mboxDone (k : Chip) (secure : Bool) (status : Nat) : Chip := (k.wr (mboxStatus secure) status).wr (mboxGo secure) 0

/-- R496, R507, R510: command `op` written with GO = 1 to a mailbox: the normal world does not reach the secure one, a write
while GO reads 1 is discarded, and a Gunel that does not run answers BUSY. `f` gives the status, or none where GO stays 1.
(PRESUMED, log 86) -/
def Chip.mbox (k : Chip) (secure : Bool) (who : By) (op : Nat) (f : Chip → Chip × Option Nat) : Chip :=
  if secure && who.w != 0 then k.regWriteDenied (0xF_F000_0000_0000 + 4096 * GN_SMBOX_CMD.GO.page + 0x200) who
  else if k.on (mboxGo secure) then k.raise (mboxOverrun secure)
  else
    let k := (k.wr (mboxOp secure) op).wr (mboxGo secure) 1
    if !k.on GN_STATUS.RUNNING then k.mboxDone secure 1 else
    match f k with
    | (k, some status) => k.mboxDone secure status
    | (k, none) => k

/-- R507: GET_INFO; the layout of its answer is not in the spec. -/
def Chip.mbInfo (k : Chip) (secure : Bool) : Chip × Option Nat :=
  let images := (List.range 4).map fun i => Tbl.get [] k.gn.slots i
  ((List.range 8).foldl (fun k i => k.wr (mboxData secure i)
    (Config.infoWord i images k.gn.activeSlot k.gn.secureSlot k.gn.config)) k, some 0)

/-- R507: READ_LOG: the oldest record of the SRAM log whose SEQ is at or after DATA0. -/
def Chip.mbLog (k : Chip) (secure : Bool) : Chip × Option Nat :=
  match (k.gn.log.filter fun r => decide (k.mboxArg secure ≤ leAt r 0 4)).getLast? with
  | some r => (k.setInd (mboxData secure) 8 r, some 0)
  | none => (k, some 7)

/-- R507: READ_LIFETIME: 64 bytes of the record at the offset in DATA0. -/
def Chip.mbLife (k : Chip) (secure : Bool) : Chip × Option Nat :=
  let o := k.mboxArg secure
  if o % 64 != 0 || 16384 ≤ o then (k, some 5)
  else (k.setInd (mboxData secure) 8 ((k.lifeSync.lifeRecord.drop o).take 64), some 0)

/-- R497, R507: READ_SENSOR: the last sample; a sensor that is off reads 0x8000 with NOT_FOUND. -/
def Chip.mbSensor (k : Chip) (secure : Bool) : Chip × Option Nat :=
  let i := k.mboxArg secure
  if 141 ≤ i then (k, some 7)
  else if !k.sensorOn i then (k.wr (mboxData secure 0) 0x8000, some 7)
  else (k.wr (mboxData secure 0) (Tbl.get 0x8000 k.gn.sensors i), some 0)

/-- R438, R507: the unit that DATA0 of a test command names: UNIT_TYPE in [7:0], UNIT in [23:8]. -/
def Chip.mbUnit (k : Chip) (secure : Bool) : Nat × Nat :=
  (bits (k.mboxArg secure) 0 8, bits (k.mboxArg secure) 8 16)

/-- R438, R507, R508: QUEUE_TEST. -/
def Chip.mbQueue (k : Chip) (secure : Bool) : Chip × Option Nat :=
  let (type, unit) := k.mbUnit secure
  if testable type unit then (k.queueTest type unit false, some 0) else (k, some 5)

/-- R439, R507: CANCEL_TEST. -/
def Chip.mbCancel (k : Chip) (secure : Bool) : Chip × Option Nat :=
  let (type, unit) := k.mbUnit secure
  let (found, k) := k.cancelTest type unit
  (k, some (if found then 0 else 7))

/-- R494, R507: POWER: DATA0 in the form of PWR_CMD. -/
def Chip.mbPower (k : Chip) (secure : Bool) : Chip × Option Nat :=
  let v := k.mboxArg secure
  (k.pwrRequest { op := bits v 12 4, target := bits v 9 3, index := bits v 0 9, src := if secure then 4 else 3 }, none)

/-- R508, R521: DIE_RESET. -/
def Chip.mbDieReset (k : Chip) (secure : Bool) : Chip × Option Nat :=
  let d := k.mboxArg secure
  let (status, claim) := k.dieResetStatus d secure
  let k := match claim with
    | some c => k.refusedSecure c 8
    | none => k
  (if status == 0 then k.startReset d else k, some status)

/-- R507, R508: SET_MEMCFG. -/
def Chip.mbMemcfg (k : Chip) (secure : Bool) : Chip × Option Nat :=
  let v := k.mboxArg secure
  if 16 ≤ v then (k, some 5) else ({ k with gn := { k.gn with memcfg := some v } }, some 0)

/-- R508, R521: HART_STARTED and HART_STOPPED, which only the secure mailbox takes. -/
def Chip.mbStopped (k : Chip) (secure stopped : Bool) : Chip × Option Nat :=
  let h := k.mboxArg secure
  if !secure || 288 ≤ h then (k, some 5) else (k.setHart h fun g => { g with stopped := stopped }, some 0)

/-! ### Firmware (R505, R506) -/

/-- R505, R506: a PLDM update writes component `comp` (1 Gunel, 2 the secure world) into its inactive slot and verifies it. -/
def Chip.pldmUpdate (k : Chip) (comp : Nat) (image : Bytes) : Chip :=
  if !k.on GN_STATUS.RUNNING || (comp != 1 && comp != 2) then k else
  let active := if comp == 1 then k.gn.activeSlot else k.gn.secureSlot
  let good := Config.imageGood image
  let rest := k.gn.verified.filter (· != comp)
  { k with gn := { k.gn with
      slots := Tbl.set [] k.gn.slots (2 * (comp - 1) + (1 - active)) image
      verified := if good then comp :: rest else rest } }.emit
    (.mailbox "VerifyComplete" [BitVec.ofNat 8 comp, BitVec.ofNat 8 (ofBool !good)])

/-- R506: ActivateFirmware flips the active slot of a component whose image verified; for Gunel it also starts a restart. -/
def Chip.activate (k : Chip) (comp : Nat) : Chip :=
  if !k.on GN_STATUS.RUNNING || !k.gn.verified.contains comp then k else
  let gn := { k.gn with verified := k.gn.verified.filter (· != comp) }
  if comp == 1 then Chip.gunelRestart { k with gn := { gn with activeSlot := 1 - gn.activeSlot } }
  else { k with gn := { gn with secureSlot := 1 - gn.secureSlot } }

/-- R505: in ROM recovery, a signed image that checks out is run. (DEDUCED, log 85) -/
def Chip.romRecover (k : Chip) (image : Bytes) : Chip :=
  if !k.gn.recovery || !Config.imageGood image then k
  else Chip.bootGunel { k with gn := { k.gn with recovery := false } }

/-! ### The commands -/

/-- GUNEL_WATCHDOG_LAPSE (R496). -/
def execGunelWatchdogLapse (s : State) : Host.Outcome State Fault Refusal := s.commit s.chip.gunelRestart

/-- GUNEL_RESTART_DONE (R496). -/
def execGunelRestartDone (s : State) : Host.Outcome State Fault Refusal := s.commit s.chip.gunelBack

/-- SENSOR_SAMPLE (R497, R501). -/
def execSensorSample (readings : List Nat) (s : State) : Host.Outcome State Fault Refusal := s.commit (s.chip.sample readings)

/-- LIFETIME_WRITE (R503). -/
def execLifetimeWrite (s : State) : Host.Outcome State Fault Refusal :=
  s.commit (if s.chip.on GN_STATUS.RUNNING then s.chip.lifeWrite else s.chip)

/-- GET_INFO (R507). -/
def execGetInfo (secure : Bool) (who : By) (s : State) : Host.Outcome State Fault Refusal :=
  s.commit (s.chip.mbox secure who 0x01 fun k => k.mbInfo secure)

/-- READ_LOG (R507). -/
def execReadLog (secure : Bool) (who : By) (s : State) : Host.Outcome State Fault Refusal :=
  s.commit (s.chip.mbox secure who 0x02 fun k => k.mbLog secure)

/-- READ_LIFETIME (R507). -/
def execReadLifetime (secure : Bool) (who : By) (s : State) : Host.Outcome State Fault Refusal :=
  s.commit (s.chip.mbox secure who 0x03 fun k => k.mbLife secure)

/-- READ_SENSOR (R507). -/
def execReadSensor (secure : Bool) (who : By) (s : State) : Host.Outcome State Fault Refusal :=
  s.commit (s.chip.mbox secure who 0x04 fun k => k.mbSensor secure)

/-- QUEUE_TEST (R438, R507). -/
def execQueueTest (secure : Bool) (who : By) (s : State) : Host.Outcome State Fault Refusal :=
  s.commit (s.chip.mbox secure who 0x05 fun k => k.mbQueue secure)

/-- CANCEL_TEST (R439, R507). -/
def execCancelTest (secure : Bool) (who : By) (s : State) : Host.Outcome State Fault Refusal :=
  s.commit (s.chip.mbox secure who 0x06 fun k => k.mbCancel secure)

/-- POWER (R494, R507). -/
def execPower (secure : Bool) (who : By) (s : State) : Host.Outcome State Fault Refusal :=
  s.commit (s.chip.mbox secure who 0x07 fun k => k.mbPower secure)

/-- DIE_RESET (R521, R522). -/
def execDieReset (secure : Bool) (who : By) (s : State) : Host.Outcome State Fault Refusal :=
  s.commit (s.chip.mbox secure who 0x08 fun k => k.mbDieReset secure)

/-- SET_MEMCFG (R507). -/
def execSetMemcfg (secure : Bool) (who : By) (s : State) : Host.Outcome State Fault Refusal :=
  s.commit (s.chip.mbox secure who 0x09 fun k => k.mbMemcfg secure)

/-- HART_STARTED (R507, R521). -/
def execHartStarted (secure : Bool) (who : By) (s : State) : Host.Outcome State Fault Refusal :=
  s.commit (s.chip.mbox secure who 0x0A fun k => k.mbStopped secure false)

/-- HART_STOPPED (R507, R521). -/
def execHartStopped (secure : Bool) (who : By) (s : State) : Host.Outcome State Fault Refusal :=
  s.commit (s.chip.mbox secure who 0x0B fun k => k.mbStopped secure true)

/-- PLDM_UPDATE (R505, R506). -/
def execPldmUpdate (comp : Nat) (image : Bytes) (s : State) : Host.Outcome State Fault Refusal :=
  s.commit (s.chip.pldmUpdate comp image)

/-- ACTIVATE_FIRMWARE (R506). -/
def execActivateFirmware (comp : Nat) (s : State) : Host.Outcome State Fault Refusal := s.commit (s.chip.activate comp)

/-- HUB_LAPSE (R509). -/
def execHubLapse (s : State) : Host.Outcome State Fault Refusal := s.commit s.chip.hubLapses

/-- ROM_RECOVERY (R505). -/
def execRomRecovery (image : Bytes) (s : State) : Host.Outcome State Fault Refusal := s.commit (s.chip.romRecover image)

end Sys2Proof.Machine
end

