-- ==== Sys2Proof/Machine/Worlds.lean ====
section
/-!
DEFINITION. The commands of the worlds (18): the watermark, claims, debug halts, key slots, the signing service's key, and
the secure-world restart.
-/

namespace Sys2Proof.Machine

/-! ### The watermark, claims and debug (R445, R450, R453, R465, R466) -/

/-- R445: a write of `top`, a new value, to TOP by the secure world. -/
def Chip.topWrite (k : Chip) (top source : Nat) : Chip :=
  if k.on WS_LOCK.TOP_LOCK then k else
  let k := k.hold WS_SECURE_TOP.TOP top
  if k.dramSize < top % 2 ^ 26 * 2 ^ 26 then k.wsErr WS_ERR.CFG (wsAddr 0) source else k

/-- R445, R465, R573: a write of `value` to WS_SECURE_TOP. (DEDUCED, log 78) -/
def Chip.secureTopWrite (k : Chip) (value : Nat) (who : By) : Chip :=
  if bits value 26 26 == k.rd WS_SECURE_TOP.TOP then k
  else if who.w != 0 then k.regWriteDenied (wsAddr 0) who else k.topWrite (bits value 26 26) who.source

/-- R466: the fields of the claim register at offset `reg` of the WS page, each with what `value` holds for it. -/
def claimFields (reg value : Nat) : List (Fld × Nat) :=
  if reg == 0x18 then
    [(WS_CLAIM.CDIE, bits value 0 12), (WS_CLAIM.CHANNEL, bits value 12 16), (WS_CLAIM.SIGN, bits value 28 1),
      (WS_CLAIM.ENDPOINT, bits value 29 1)]
  else if 0x20 ≤ reg ∧ reg ≤ 0x48 ∧ reg % 8 = 0 then
    let i := (reg - 0x20) / 8
    [(WS_CLAIM_TILE.TILE i, if i == 5 then value % 2 ^ 16 else value % 2 ^ 64)]
  else []

/-- R450, R466, R573: a write of `value` to the claim register at offset `reg` of the WS page. -/
def Chip.claimWrite (k : Chip) (reg value : Nat) (who : By) : Chip :=
  let fs := claimFields reg value
  if fs.all fun p => k.rd p.1 == p.2 then k
  else if who.w != 0 then k.regWriteDenied (wsAddr reg) who
  else fs.foldl (fun k p => k.wr p.1 p.2) k

/-- R453: a halt request for hart `h`. -/
def Chip.haltRequest (k : Chip) (h : Nat) : Chip :=
  if (k.hart h).w == 0 then
    if k.on WS_DEBUG.SID then k.setHart h fun g => { g with halted := true }
    else k.setHart h fun g => { g with haltPending := true }
  else if k.on WS_DEBUG.NID then k.setHart h fun g => { g with halted := true }
  else k

/-! ### Key commands (R454 to R457, R469) -/

/-- R454: the metadata of a slot as WS_KEY_META shows it. -/
def Chip.keyMeta (k : Chip) (s : KeySlot) : Chip :=
  ((((k.wr WS_KEY_META.FUNCTION s.fn).wr WS_KEY_META.FN_VALID (ofBool s.fnValid)).wr WS_KEY_META.INTERNAL_OK
    (ofBool s.internalOk)).wr WS_KEY_META.TYPE s.type).wr WS_KEY_META.GEN s.generation

/-- R455: the end of a key command with a status; the data registers are zeroed. -/
def Chip.keyDone (k : Chip) (status : Nat) : Chip :=
  let k := (List.range 8).foldl (fun k i => k.wr (WS_KEY_DATA.KEY i) 0) k
  (k.wr WS_KEY_CMD.STATUS status).wr WS_KEY_CMD.GO 0

/-- R455, R459, R469: a key command `op` on `slot`: refused to the normal world, and RESTARTING while the secure world is
not in service. -/
def Chip.keyCmd (k : Chip) (op slot : Nat) (who : By) (f : Chip → Chip × Nat) : Chip :=
  if who.w != 0 then k.regWriteDenied (wsAddr 0x80) who else
  let k := (k.wr WS_KEY_CMD.OP op).wr WS_KEY_CMD.SLOT slot
  if k.on WS_STATUS.RESTARTING then k.keyDone 4
  else if 16384 ≤ slot then k.keyDone 1
  else
    let (k, status) := f k
    k.keyDone status

/-- The slot `slot`. -/
abbrev Chip.keySlot (k : Chip) (slot : Nat) : KeySlot := Tbl.get {} k.ws.keys slot

/-- Slot `slot` replaced. -/
def Chip.setKey (k : Chip) (slot : Nat) (s : KeySlot) : Chip :=
  { k with ws := { k.ws with keys := Tbl.set {} k.ws.keys slot s } }

/-- R469: OP READ. -/
def Chip.keyRead (k : Chip) (slot : Nat) (who : By) : Chip :=
  k.keyCmd 0 slot who fun k => (k.keyMeta (k.keySlot slot), 0)

/-- R455: OP LOAD. -/
def Chip.keyLoad (k : Chip) (slot : Nat) (who : By) : Chip :=
  k.keyCmd 1 slot who fun k =>
    let type := k.rd WS_KEY_META.TYPE
    let data := k.indBytes WS_KEY_DATA.KEY 8
    if type == 0 || type == 3 || (type == 2 && data.take 32 == data.drop 32) then (k, 3)
    else (k.setKey slot
      { key := if type == 1 then data.take 32 else data, type := type, generation := k.rd WS_KEY_META.GEN
        fn := k.rd WS_KEY_META.FUNCTION, fnValid := k.on WS_KEY_META.FN_VALID
        internalOk := k.on WS_KEY_META.INTERNAL_OK, loads := (k.keySlot slot).loads + 1 }, 0)

/-- R455: OP CLEAR. -/
def Chip.keyClear (k : Chip) (slot : Nat) (who : By) : Chip :=
  k.keyCmd 2 slot who fun k =>
    let s := k.keySlot slot
    (k.setKey slot { s with type := 0, loads := s.loads + 1 }, 0)

/-- WS_SEAL_PUB and WS_SIGNER_ID filled (R457, R469). -/
def Chip.publish (k : Chip) (pub id : Bytes) : Chip :=
  (k.setInd WS_SEAL_PUB.PUB 13 pub).setInd WS_SIGNER_ID.ID 2 id

/-- R457: OP SIGN_KEY; the slot of the command is not used. -/
def Chip.keySign (k : Chip) (who : By) : Chip :=
  k.keyCmd 3 (k.rd WS_KEY_CMD.SLOT) who fun k =>
    let d := ofBe (k.indBytes WS_KEY_DATA.KEY 6)
    if d == 0 || p384N ≤ d then (k, 3)
    else ({ k.publish [] [] with ws := { k.ws with signKey := some d, signPending := true } }, 0)

/-- R457: the signing service publishes the public key and SIGNER_ID, and SIGN_READY then reads 1. -/
def Chip.signReadyNow (k : Chip) : Chip :=
  match k.ws.signKey with
  | some d =>
    if k.ws.signPending then
      { k.publish (p384Pub d) (signerId d) with ws := { k.ws with signPending := false } }
    else k
  | none => k

/-! ### The watchdog and the restart (R459 to R461, R467, R576) -/

/-- R576: the watchdog period starts again now. -/
def Chip.kickWdog (k : Chip) : Chip := { k with ws := { k.ws with wdogSince := k.time } }

/-- R459, R576: the watchdog lapses: it runs only while the secure world is in service and PERIOD is not 0. -/
def Chip.wdogLapse (k : Chip) : Chip :=
  if k.ws.watchdog && k.rd WS_WDOG.PERIOD != 0 then k.secureRestart 1 else k

/-- R576: a write of 1 to KICK. -/
def Chip.kickWrite (k : Chip) (who : By) : Chip :=
  if who.w != 0 then k.regWriteDenied (wsAddr 0x58) who else k.kickWdog

/-- R459, R467: a write of 1 to REQ. -/
def Chip.reqWrite (k : Chip) (who : By) : Chip :=
  if who.w != 0 then k.regWriteDenied (wsAddr 0x60) who else k.secureRestart 2

/-- R459, steps 3 and 4: the image is measured into SPDM block 3 and loaded, and every hart ID's M-level file receives
the restart identity. (DEDUCED, log 79) -/
def Chip.imageLoaded (k : Chip) (measurement : Bytes) : Chip :=
  if !k.on WS_STATUS.RESTARTING || k.ws.gaveUp || 4 ≤ k.ws.restartStep then k else
  let k := { k with
    ws := { k.ws with restartStep := 4 }
    hf := { k.hf with block3 := measurement }
    harts := Tbl.mapVals {} k.harts fun _ g => { g with inStub := false } }
  (List.range 288).foldl (fun k h => k.deliverMsi h 0 (orDefault (k.rd WS_RESTART.IDENTITY) 1)) k

/-- R459, R467: a write of 1 to DONE. -/
def Chip.doneWrite (k : Chip) (who : By) : Chip :=
  if who.w != 0 then k.regWriteDenied (wsAddr 0x60) who
  else if k.on WS_STATUS.RESTARTING && !k.ws.gaveUp && k.ws.restartStep == 4 then
    let k := (k.wr WS_STATUS.RESTARTING 0).wr WS_STATUS.FAILS 0
    Chip.kickWdog { k with ws := { k.ws with restartStep := 0, watchdog := true } }
  else k

/-- R461: the restart has not ended within 250 ms: it starts again at step 1, and the third failure in a row gives the secure
world up. (DEDUCED, log 79) -/
def Chip.restartTimeout (k : Chip) : Chip :=
  if !k.on WS_STATUS.RESTARTING || k.ws.gaveUp then k else
  let n := min 3 (k.rd WS_STATUS.FAILS + 1)
  let k := k.wr WS_STATUS.FAILS n
  if n == 3 then
    ({ k with ws := { k.ws with gaveUp := true } }.wr WS_STATUS.DOWN 1).wsFailure WS_ERR.DOWN
  else k.beginRestart

/-! ### The commands -/

/-- WS_SECURE_TOP_WRITE (R445). -/
def execWsSecureTopWrite (value : Nat) (who : By) (s : State) : Host.Outcome State Fault Refusal :=
  s.commit (s.chip.secureTopWrite value who)

/-- WS_CLAIM_WRITE (R450, R466). -/
def execWsClaimWrite (reg value : Nat) (who : By) (s : State) : Host.Outcome State Fault Refusal :=
  s.commit (s.chip.claimWrite reg value who)

/-- DEBUG_HALT_REQUEST (R453). -/
def execDebugHaltRequest (hart : Nat) (s : State) : Host.Outcome State Fault Refusal := s.commit (s.chip.haltRequest hart)

/-- WS_KEY_READ (R469). -/
def execWsKeyRead (slot : Nat) (who : By) (s : State) : Host.Outcome State Fault Refusal :=
  s.commit (s.chip.keyRead slot who)

/-- LOAD (R455). -/
def execLoad (slot : Nat) (who : By) (s : State) : Host.Outcome State Fault Refusal := s.commit (s.chip.keyLoad slot who)

/-- CLEAR (R455). -/
def execClear (slot : Nat) (who : By) (s : State) : Host.Outcome State Fault Refusal := s.commit (s.chip.keyClear slot who)

/-- SIGN_KEY (R457). -/
def execSignKey (who : By) (s : State) : Host.Outcome State Fault Refusal := s.commit (s.chip.keySign who)

/-- SIGN_READY (R457). -/
def execSignReady (s : State) : Host.Outcome State Fault Refusal := s.commit s.chip.signReadyNow

/-- SECURE_WATCHDOG_LAPSE (R459, R576). -/
def execSecureWatchdogLapse (s : State) : Host.Outcome State Fault Refusal := s.commit s.chip.wdogLapse

/-- KICK (R576). -/
def execKick (who : By) (s : State) : Host.Outcome State Fault Refusal := s.commit (s.chip.kickWrite who)

/-- REQ (R459). -/
def execReq (who : By) (s : State) : Host.Outcome State Fault Refusal := s.commit (s.chip.reqWrite who)

/-- SIGNING_SRAM_UNCORRECTABLE (R459). -/
def execSigningSramUncorrectable (s : State) : Host.Outcome State Fault Refusal := s.commit (s.chip.secureRestart 4)

/-- SECURE_IMAGE_LOADED (R459). -/
def execSecureImageLoaded (measurement : Bytes) (s : State) : Host.Outcome State Fault Refusal :=
  s.commit (s.chip.imageLoaded measurement)

/-- DONE (R459, R467). -/
def execDone (who : By) (s : State) : Host.Outcome State Fault Refusal := s.commit (s.chip.doneWrite who)

/-- SECURE_RESTART_TIMEOUT (R461). -/
def execSecureRestartTimeout (s : State) : Host.Outcome State Fault Refusal := s.commit s.chip.restartTimeout

end Sys2Proof.Machine
end

