-- ==== Sys2Proof/Machine/RegAccess.lean ====
section
/-!
DEFINITION. Access to the set-up registers (00, 25): the regions of the address map, reserved addresses, what each access
code does, the registers whose write starts an action, and the pages of a C-die that is out of service.
-/

namespace Sys2Proof.Machine

/-! ### The address map (R565 to R570) -/

/-- The regions of the address map (R565); a reserved address is in none. -/
inductive Area where
  | dram | aperture | poolDoorbell | mediaDoorbell | capture | imsic | aplic | ecam | registers | reserved
  deriving DecidableEq, Repr

/-- The base of the set-up register pages (R7, R565). -/
def pageBase : Nat := 0xF_F000_0000_0000

/-- R570: whether page `n` is assigned. -/
def pageAssigned (n : Nat) : Bool := n == 14 || !(regsOfPage 0 0 n).isEmpty

/-- R565, R566: the region of an address; an unassigned offset of a region counts as reserved. -/
def Chip.area (k : Chip) (a : Nat) : Area :=
  if a < k.dramSize then .dram
  else if inAperture a then .aperture
  else if 0xF_C000_0000_0000 ≤ a ∧ a < 0xF_C000_0010_0000 then if a % 4096 < 256 then .poolDoorbell else .reserved
  else if 0xF_C000_0010_0000 ≤ a ∧ a < 0xF_C000_0011_0000 then .mediaDoorbell
  else if 0xF_C000_0011_0000 ≤ a ∧ a < 0xF_C000_0011_1000 then .capture
  else if inImsic a then .imsic
  else if 0xF_D200_0000_0000 ≤ a ∧ a < 0xF_D200_0000_C000 then .aplic
  else if 0xF_E000_0000_0000 ≤ a ∧ a < 0xF_E000_1000_0000 then .ecam
  else if pageBase ≤ a ∧ a < pageBase + 0x8_0000 ∧ pageAssigned ((a - pageBase) / 4096) then .registers
  else .reserved

/-- The hart of a requester, 0xFFFF where it is none (R572). -/
def hartOf (who : By) : Nat := if who.source == 0 then who.id else 0xFFFF

/-- R566: the event of an access to a reserved address. -/
def Chip.logReserved (k : Chip) (a : Nat) (who : By) : Chip :=
  k.log { cls := 0, unitType := 17, unit := 0, info0 := a, hart := hartOf who }

/-- R566, R567: an access to a reserved address, by its requester: a hart takes an access fault, Gunel and the debug module
read 0, any other agent reads the line with the poison mark. (DEDUCED, log 29) -/
def Chip.reserved (k : Chip) (a : Nat) (who : By) (isRead : Bool) : Chip :=
  let k := k.logReserved a who
  if who.source == 0 then k.instrTrap who.id (if isRead then 5 else 7)
  else if !isRead then k
  else if 7 ≤ who.source ∧ who.source ≤ 9 then k.emit (.readData 0)
  else k.emit (.cohData "POISONED" 12 (a / 64) [] true)

/-! ### Errors of an access (R11, R13, R572) -/

/-- R572: an access error of `kind`: 0 a read answered with zero, 1 a write discarded under R11, 2 under R13. -/
def Chip.accessError (k : Chip) (a kind : Nat) (who : By) : Chip :=
  k.log { cls := 0, unitType := 18, unit := (a - pageBase) / 4096, info0 := a, info1 := kind + 16 * (who.source % 16)
          hart := hartOf who }

/-- R13: whether the block of a field is quiesced as its chapter defines. Only Gunel writes the quiesced fields of the memory
controllers, the networks and Bilum (13, 14, 15). (DEDUCED, log 28) -/
def Chip.quiet (k : Chip) (f : Fld) (who : By) : Bool :=
  let idle := k.on RE_STATUS.IDLE && k.on MQ_STATUS.IDLE
  let conosDown := (List.range 4).all fun n => k.cnState n == 0 || k.cnState n == 4
  let held := fun d => (k.dieState d).step != 0 || k.pwr.pkg == .starting
  if f.page == 0 then !k.on RE_CTRL.RUN && k.on RE_STATUS.IDLE && k.on BT_STATUS.ENGINES_IDLE
  else if f.page == 2 then !k.on HF_CTRL.LINK_EN && !k.on HF_STATUS.LINK_UP
  else if f.page == 3 then !k.on MQ_CTRL.ENABLE && k.on MQ_STATUS.IDLE
  else if f.page == 4 then conosDown && (f.key == CN_CTRL.ENABLE.key || !k.on CN_CTRL.ENABLE)
  else if f.page == 5 then k.on RE_STATUS.IDLE && k.rd SC_STATUS.REGIONS == 0
  else if f.page == 7 then idle
  else if f.page == 8 then idle && !k.on CN_CTRL.ENABLE
  else if f.page == 13 then !k.on PM_DUMP_CTRL.ENABLE && !k.on PM_STATUS.DUMPING
  else if f.page == 15 then who.source == 9 && k.pwr.pkg == .starting
  else if 16 ≤ f.page ∧ f.page ≤ 27 then who.source == 9 && held (f.page - 16)
  else if 64 ≤ f.page ∧ f.page ≤ 87 then who.source == 9 && held ((f.page - 64) / 2)
  else if 96 ≤ f.page ∧ f.page ≤ 111 then
    who.source == 9 && k.pwr.pkg == .starting && (List.range 16).all fun c => k.rd (MC_STATUS.STATE c) == 0
  else true

/-! ### Reads (R8, R11, R571) -/

/-- R97: AE_STATUS.STATE of engine `e`. -/
def Chip.aeState (k : Chip) (e : Nat) : Nat :=
  let g := k.engine e
  let overran := g.seg.any (·.overrun)
  if g.failed then 5
  else if !g.inService && !g.inTest then 6
  else if g.inTest then 4
  else if overran then 2
  else if g.suspect then 3
  else if g.seg.isSome then 1
  else 0

/-- R571: the C-die that a page belongs to. -/
def pageDie (n : Nat) : Option Nat :=
  if 16 ≤ n ∧ n ≤ 27 then some (n - 16) else if 32 ≤ n ∧ n ≤ 55 then some ((n - 32) / 2) else none

/-- R571: whether page `n` belongs to a C-die that is in DIE reset, lost or gated. -/
def Chip.pageOffline (k : Chip) (n : Nat) : Bool := (pageDie n).any fun d => !k.dieUp d

/-- Whether a field of an MC page takes effect on page 0 alone (15). -/
def pageZeroOnly (f : Fld) : Bool :=
  decide (96 ≤ f.page ∧ f.page ≤ 111) && f.off == 0 && decide (f.lo < 8)

/-- The value that a field shows to a reader (R8, R227, R334, R385, R549, R571). (DEDUCED, log 23) -/
def Chip.shown (k : Chip) (f : Fld) (who : By) : Nat :=
  let fn := k.rd HF_FN_SEL.FUNCTION
  let c := k.hostFn fn
  if f.acc == .wo then 0
  else if f.secret && who.w != 0 then 0
  else if 32 ≤ f.page ∧ f.page ≤ 55 ∧ f.off = 8 ∧ f.lo = 0 then
    if k.pageOffline f.page then if (k.engine (f.page - 32)).failed then 5 else 6 else k.aeState (f.page - 32)
  else if k.pageOffline f.page && f.dom == .die then f.reset
  else if 32 ≤ f.page ∧ f.page ≤ 55 ∧ f.off = 8 ∧ f.lo = 3 then ofBool (k.engine (f.page - 32)).suspect
  else if f.page == hfFnPage fn && f.off == 0x40 then
    if f.lo == 0 then ofBool (k.fnEnabled fn)
    else if f.lo == 1 then ofBool c.busMaster
    else if f.lo == 2 then ofBool c.inFlr
    else if f.lo == 3 then ofBool c.d3
    else k.tagsHeld fn
  else if f.key == PM_RD_DATA.VALUE.key then
    k.counter (k.rd PM_RD_SEL.SET) (k.rd PM_RD_SEL.INSTANCE) (k.rd PM_RD_SEL.COUNTER)
  else if f.key == (NOC_CTRL.EXPRESS_EN 12).key then 0
  else if pageZeroOnly f then k.rd { f with page := 96 }
  else k.rd f

/-- The registers of page `n` as its selectors stand (R227, R492). -/
def Chip.page (k : Chip) (n : Nat) : List Reg := regsOfPage (k.rd HF_FN_SEL.FUNCTION) (k.rd CLK_TRIM_SEL.TILE) n

/-- The value of a register to a reader. -/
def Chip.readReg (k : Chip) (r : Reg) (who : By) : Nat := (r.fields.map fun f => k.shown f who * 2 ^ f.lo).sum

/-! ### Writes of fields (R8, R9, R12, R13, R573) -/

/-- A write of a register under way: the block, and whether a field was refused to the normal world or was not quiesced. -/
structure Writing where
  k : Chip
  denied : Bool := false
  busy : Bool := false

/-- R465: whether the lock of a field stands. -/
def Chip.locked (k : Chip) (f : Fld) : Bool :=
  (f.key == WS_SECURE_TOP.TOP.key && k.on WS_LOCK.TOP_LOCK) ||
  (f.page == 8 && f.off == 0x50 && k.on WS_LOCK.DEBUG_LOCK)

/-- The bits of `cur` that a write of `v` leaves under RW1C. -/
def clearOnes (cur v w : Nat) : Nat := (List.range w).foldl (fun n i => if bit v i then clearBit n i else n) cur

/-- R8, R573: a write of `v` to one field that a write sets or clears; the fields that start an action are left to the
register's own rule. A write of the current value is no write. -/
def Writing.field (w : Writing) (who : By) (f : Fld) (v : Nat) : Writing :=
  let k := w.k
  let cur := k.rd f
  match f.acc with
  | .ro | .wo | .rw1s => w
  | .rw1c => { w with k := k.wr f (clearOnes cur v f.width) }
  | .rw | .rwo | .rws | .rwl =>
    if v == cur || (pageZeroOnly f && f.page != 96) then w
    else if f.acc == .rws && who.w != 0 then { w with denied := true }
    else if k.locked f then w
    else if f.quiesced && !k.quiet f who then { w with busy := true }
    else if f.page == 8 && f.off == 8 && v == 0 then w
    else if f.beat || f.key == BT_CTRL.LEN.key then { w with k := k.hold f v }
    else { w with k := k.wr f v }

/-- A write of `value` to the fields `fs` of the register at address `a`, with what it reports (R8, R13, R572). -/
def Chip.writeFields (k : Chip) (fs : List Fld) (a value : Nat) (who : By) : Chip :=
  let w := fs.foldl (fun (w : Writing) f => w.field who f (bits value f.lo f.width)) { k := k }
  let k := if w.busy then w.k.accessError a 2 who else w.k
  if w.denied then k.regWriteDenied a who else k

/-! ### Registers whose write starts an action -/

/-- R94, R202, R246, R412: an indirect command register: its operands, then with GO = 1 the command `f` on TARGET, INDEX and
OP. -/
def Chip.indWrite (k : Chip) (r : Reg) (a value : Nat) (who : By) (target : Fld) (index : Fld) (op : Fld)
    (f : Chip → Nat → Nat → Nat → Chip) : Chip :=
  let k := k.writeFields r.fields a value who
  if bit value 31 then f k (k.rd target) (k.rd index) (k.rd op) else k

/-- R94 to R96. -/
def Chip.reInd (k : Chip) (target index op : Nat) : Chip :=
  if op == 0 then k.reIndRead target index
  else if target == 0 then k.reIndWriteRing index
  else k.reIndWriteFunction index

/-- R202. -/
def Chip.cnIndCmd (k : Chip) (target index op : Nat) : Chip :=
  if op == 0 then k.cnIndRead target index
  else if target == 0 then k.windowWrite index
  else k.routeWrite index

/-- R246. -/
def Chip.mqIndCmd (k : Chip) (target index op : Nat) : Chip :=
  if op == 0 then k.mqIndRead target index
  else if target == 0 then k.mqTargetWrite index
  else k.mqQpWrite index

/-- R412. -/
def Chip.qtIndCmd (k : Chip) (target index op : Nat) : Chip :=
  if op == 0 then k.qtIndRead target index else k.qtIndWrite target index

/-- R97, R282: a write of AE_CTRL: an engine enabled again that has left service locks its staging way anew. -/
def Chip.aeWrite (k : Chip) (e : Nat) (r : Reg) (a value : Nat) (who : By) : Chip :=
  let was := k.on (AE_CTRL.ENABLE e)
  let k := k.writeFields r.fields a value who
  if !was && k.on (AE_CTRL.ENABLE e) && !(k.engine e).inService && !(k.engine e).failed then
    k.setEngine e fun g => { g with stagingBusy := true }
  else k

/-- R225, R489, R516: a write of HF_CTRL; without LINK_EN the link is down. -/
def Chip.hfCtrlWrite (k : Chip) (r : Reg) (a value : Nat) (who : By) : Chip :=
  let was := k.on HF_CTRL.LINK_EN
  let k := k.writeFields r.fields a value who
  if was && !k.on HF_CTRL.LINK_EN then k.endpointDown else k

/-- R283, R291: a write of SC_LOCK; ways that enter the accumulator lock are emptied first. -/
def Chip.lockWrite (k : Chip) (r : Reg) (a value : Nat) (who : By) : Chip :=
  let was := min 4 (k.rd SC_LOCK.ACCUM_WAYS)
  let k := k.writeFields r.fields a value who
  let now := min 4 (k.rd SC_LOCK.ACCUM_WAYS)
  if was < now then { k with coh := { k.coh with lockWaits := k.coh.lockWaits + (now - was) } } else k

/-- R174: a write of CN_PORT_CTRL; 1 in ENABLE counts even where it reads 1. -/
def Chip.cnPortWrite (k : Chip) (n : Nat) (r : Reg) (a value : Nat) (who : By) : Chip :=
  let k := k.writeFields (r.fields.filter fun f => f.lo != 0) a value who
  if bit value 0 then k.cnEnable n
  else if k.on (CN_PORT_CTRL.ENABLE n) then k.cnDisable n
  else k

/-- R467, R576: a write of WS_WDOG: PERIOD and KICK, by the secure world alone. -/
def Chip.wdogWrite (k : Chip) (a value : Nat) (who : By) : Chip :=
  let period := bits value 0 16
  let change := period != k.rd WS_WDOG.PERIOD
  let kick := bit value 16
  if !change && !kick then k
  else if who.w != 0 then k.regWriteDenied a who
  else (k.wr WS_WDOG.PERIOD period).kickWdog

/-- R459, R467: a write of WS_RESTART: IDENTITY, REQ and DONE, by the secure world alone. -/
def Chip.restartWrite (k : Chip) (a value : Nat) (who : By) : Chip :=
  let id := bits value 16 11
  let change := id != k.rd WS_RESTART.IDENTITY
  if !change && !bit value 0 && !bit value 1 then k
  else if who.w != 0 then k.regWriteDenied a who
  else
    let k := k.wr WS_RESTART.IDENTITY id
    let k := if bit value 1 then k.doneWrite who else k
    if bit value 0 then k.reqWrite who else k

/-- R455, R469: a write of WS_KEY_CMD; discarded whole while GO reads 1. -/
def Chip.keyCmdWrite (k : Chip) (r : Reg) (a value : Nat) (who : By) : Chip :=
  let slot := bits value 0 14
  let op := bits value 16 2
  if k.on WS_KEY_CMD.GO then k
  else if who.w != 0 then
    if slot == k.rd WS_KEY_CMD.SLOT && op == k.rd WS_KEY_CMD.OP && !bit value 31 then k else k.regWriteDenied a who
  else if !bit value 31 then k.writeFields (r.fields.filter fun f => f.lo < 31) a value who
  else if op == 0 then k.keyRead slot who
  else if op == 1 then k.keyLoad slot who
  else if op == 2 then k.keyClear slot who
  else Chip.keySign (k.wr WS_KEY_CMD.SLOT slot) who

/-- R507: the command of a mailbox operation code; an unknown one ends with UNKNOWN_OP. -/
def Chip.mboxCmd (k : Chip) (secure : Bool) (op : Nat) : Chip × Option Nat :=
  if op == 0x01 then k.mbInfo secure
  else if op == 0x02 then k.mbLog secure
  else if op == 0x03 then k.mbLife secure
  else if op == 0x04 then k.mbSensor secure
  else if op == 0x05 then k.mbQueue secure
  else if op == 0x06 then k.mbCancel secure
  else if op == 0x07 then k.mbPower secure
  else if op == 0x08 then k.mbDieReset secure
  else if op == 0x09 then k.mbMemcfg secure
  else if op == 0x0A then k.mbStopped secure false
  else if op == 0x0B then k.mbStopped secure true
  else (k, some 6)

/-- R507, R510: a write of a mailbox command register. -/
def Chip.mboxWrite (k : Chip) (secure : Bool) (value : Nat) (a : Nat) (who : By) : Chip :=
  let op := bits value 0 8
  let same := op == k.rd (mboxOp secure) && !bit value 31 && !(bit value 12 && k.on (mboxOverrun secure))
  if same then k
  else if secure && who.w != 0 then k.regWriteDenied a who
  else if k.on (mboxGo secure) then k.raise (mboxOverrun secure)
  else
    let k := if bit value 12 then k.wr (mboxOverrun secure) 0 else k
    if bit value 31 then k.mbox secure who op fun k => k.mboxCmd secure op else k.wr (mboxOp secure) op

/-- R537, R538: a write of FL_MB_CMD. -/
def Chip.flCmdWrite (k : Chip) (value : Nat) : Chip :=
  if k.on FL_MB_CMD.GO then k.raise FL_MB_CMD.OVERRUN
  else
    let k := if bit value 12 then k.wr FL_MB_CMD.OVERRUN 0 else k
    if bit value 31 then k.flCmd (bits value 0 8) false else k.wr FL_MB_CMD.OP (bits value 0 8)

/-- R494: a write of PWR_CMD; the source is the secure world, the normal world or Gunel's interfaces. -/
def Chip.pwrCmdWrite (k : Chip) (r : Reg) (a value : Nat) (who : By) : Chip :=
  if bit value 31 then
    k.pwrCmd (bits value 12 4) (bits value 9 3) (bits value 0 9)
      (if who.source == 8 then 2 else if who.w == 0 then 1 else 0)
  else k.writeFields r.fields a value who

/-- A write of the register `r` of page `n`: its own rule where the spec gives one, else each field under its code.
(DEDUCED, log 30 and 31) -/
def Chip.writeReg (k : Chip) (n : Nat) (r : Reg) (a value : Nat) (who : By) : Chip :=
  let plain := k.writeFields r.fields a value who
  if n == 1 then
    if r.off == 0x20 then
      k.indWrite r a value who RE_IND_CMD.TARGET RE_IND_CMD.INDEX RE_IND_CMD.OP Chip.reInd
    else plain
  else if n == 2 then
    if r.off == 0 then k.hfCtrlWrite r a value who
    else if r.off == 0x38 then k.changeService fun k => k.writeFields r.fields a value who
    else plain
  else if n == 3 then
    if r.off == 0x48 then
      k.indWrite r a value who MQ_IND_CMD.TARGET MQ_IND_CMD.INDEX MQ_IND_CMD.OP Chip.mqIndCmd
    else plain
  else if n == 4 then
    if r.off == CN_IND_CMD.GO.off then
      k.indWrite r a value who CN_IND_CMD.TARGET CN_IND_CMD.INDEX CN_IND_CMD.OP Chip.cnIndCmd
    else if r.off == CN_WAKE.SEND.off then plain.wakeSend (bits value 0 4)
    else match (List.range 4).find? fun p => (CN_PORT_CTRL.ENABLE p).off == r.off with
      | some p => k.cnPortWrite p r a value who
      | none => plain
  else if n == 5 then if r.off == 8 then k.lockWrite r a value who else plain
  else if n == 7 then
    if r.off == 0 then k.writeReserve value
    else if r.off == 0x48 then
      k.indWrite r a value who QT_IND_CMD.TARGET QT_IND_CMD.INDEX QT_IND_CMD.OP Chip.qtIndCmd
    else plain
  else if n == 8 then
    if r.off == 0 then k.secureTopWrite value who
    else if 0x18 ≤ r.off ∧ r.off ≤ 0x48 then k.claimWrite r.off value who
    else if r.off == 0x58 then k.wdogWrite a value who
    else if r.off == 0x60 then k.restartWrite a value who
    else if r.off == 0x80 then k.keyCmdWrite r a value who
    else plain
  else if n == 10 then if r.off == 0x20 then k.pwrCmdWrite r a value who else plain
  else if n == 11 then
    if r.off == 0x100 then k.mboxWrite false value a who
    else if r.off == 0x200 then k.mboxWrite true value a who
    else plain
  else if n == 12 then if r.off == 8 then k.flCmdWrite value else plain
  else if n == 13 then
    if r.off == 0 then k.userEnableWrite value
    else if r.off == 0x10 then k.partWrite value
    else if r.off == 0x30 then k.dumpCiWrite value
    else plain
  else if 32 ≤ n ∧ n ≤ 55 then if r.off == 0 then k.aeWrite (n - 32) r a value who else plain
  else if 64 ≤ n ∧ n ≤ 87 then
    if r.off == 0 && bit value 2 then plain.retrainWrite (n - 64) else plain
  else if 96 ≤ n ∧ n ≤ 111 then
    if r.off == 0 then
      (k.writeFields (r.fields.filter fun f => f.lo != 4) a value who).writeRate (n - 96) (bits value 4 2)
    else plain
  else plain

/-! ### The IOMMU's page (R463, R570) -/

/-- A read of the IOMMU's page: its capabilities, and the words written. -/
def Chip.readIommu (k : Chip) (off size : Nat) : Nat :=
  let word := fun o =>
    if o == 0 then Config.iommuCapabilities % 2 ^ 32
    else if o == 4 then Config.iommuCapabilities / 2 ^ 32 % 2 ^ 32
    else Tbl.get 0 k.ws.iommu o
  if size == 8 then word off + 2 ^ 32 * word (off + 4) else word off

/-- A write of the IOMMU's page. -/
def Chip.writeIommu (k : Chip) (off size value : Nat) : Chip :=
  let put := fun (t : Tbl Nat) o v => if o < 8 then t else Tbl.set 0 t o (v % 2 ^ 32)
  let t := put k.ws.iommu off value
  { k with ws := { k.ws with iommu := if size == 8 then put t (off + 4) (value / 2 ^ 32) else t } }

/-! ### One access (R10, R11, R571) -/

/-- R571: a write to a page of a C-die out of service: discarded, but for AE_CTRL.ENABLE, which waits for the die. -/
def Chip.offlineWrite (k : Chip) (n off value : Nat) : Chip :=
  if 32 ≤ n ∧ n ≤ 55 ∧ off = 0 then
    { k with flt := { k.flt with enables := k.flt.enables.insert (n - 32) (value % 2) } }
  else k

/-- The registers of a page that an access of `size` bytes at offset `off` touches. -/
def touched (rs : List Reg) (off size : Nat) : List Reg :=
  rs.filter fun r => decide (off < r.off + r.bits / 8 ∧ r.off < off + size)

/-- An access to a set-up register: only a naturally aligned one of the full width is carried out (R11); a reserved offset
reads 0 and discards writes (R10). The value read, and the block after the access. -/
def Chip.regAccess (k : Chip) (acc : Access) : Nat × Chip :=
  let n := (acc.addr - pageBase) / 4096
  let off := acc.addr % 4096
  if n == 14 then
    if (acc.size != 4 && acc.size != 8) || off % acc.size != 0 then (0, k.accessError acc.addr (ofBool acc.write) acc.who)
    else if acc.write then (0, k.writeIommu off acc.size acc.value)
    else (k.readIommu off acc.size, k)
  else
    match touched (k.page n) off acc.size with
    | [] => (0, k)
    | r :: rest =>
      if !rest.isEmpty || r.off != off || 8 * acc.size != r.bits then (0, k.accessError acc.addr (ofBool acc.write) acc.who)
      else if !acc.write then (k.readReg r acc.who, k)
      else if k.pageOffline n then (0, k.offlineWrite n off acc.value)
      else (0, k.writeReg n r acc.addr (acc.value % 2 ^ r.bits) acc.who)

/-- An access to the register pages by a requester; one outside them, or to a reserved page, is one to a reserved
address (R566). (DEDUCED, log 29) -/
def Chip.access (k : Chip) (acc : Access) : Chip :=
  if k.area acc.addr != .registers then k.reserved acc.addr acc.who (!acc.write)
  else
    let (v, k) := k.regAccess acc
    if acc.write then k else k.emit (.readData v)

/-! ### The commands -/

/-- REGISTER_WRITE (R573). -/
def execRegisterWrite (acc : Access) (s : State) : Host.Outcome State Fault Refusal := s.commit (s.chip.access acc)

/-- RESERVED_ACCESS (R566): the command of an address that is reserved; of another it says nothing. -/
def execReservedAccess (addr : Nat) (who : By) (isRead : Bool) (s : State) : Host.Outcome State Fault Refusal :=
  s.commit (if s.chip.area addr == .reserved || s.chip.area addr == .capture then s.chip.reserved addr who isRead
    else s.chip)

/-- OFFLINE_PAGE_ACCESS (R571): the command of a page of a C-die out of service; of another it says nothing. -/
def execOfflinePageAccess (acc : Access) (s : State) : Host.Outcome State Fault Refusal :=
  s.commit (if s.chip.pageOffline ((acc.addr - pageBase) / 4096) then s.chip.access acc else s.chip)

end Sys2Proof.Machine
end

