-- ==== Sys2Proof/Machine/HartAccess.lean ====
section
/-!
DEFINITION. HART_ACCESS (R257): the checks a hart makes on a load, store, atomic, fetch or cache operation, and where it goes
(10, 12, 18, 25): its die's caches, the Conos aperture, the interrupt files, doorbells, set-up registers.
-/

namespace Sys2Proof.Machine

/-! ### What kind of access it is -/

/-- Whether an access reads, as its exceptions count it: a load, an LR or a fetch. -/
def HartReq.reads (r : HartReq) : Bool := match r.op with
  | .fetch | .load | .lr => true
  | _ => false

/-- Whether an access is atomic: an AMO, an LR or an SC (R311). -/
def HartReq.atomic (r : HartReq) : Bool := match r.op with
  | .lr | .sc | .amo _ => true
  | _ => false

/-- Whether an access is a cache-block operation. -/
def HartReq.cmo (r : HartReq) : Bool := match r.op with
  | .cboClean | .cboFlush | .cboInval | .cboZero => true
  | _ => false

/-- The access-fault exception of the matching kind (R257, R311, R566). -/
def HartReq.faultCause (r : HartReq) : Nat :=
  if r.op == .fetch then 1 else if r.reads then 5 else 7

/-- The address-misaligned exception of the matching kind (R248). -/
def HartReq.misaligned (r : HartReq) : Nat :=
  if r.op == .fetch then 0 else if r.reads then 4 else 6

/-- The requester that hart `h` is (R443, R468). -/
def Chip.byHart (k : Chip) (h : Nat) : By := { source := 0, id := h, w := (k.hart h).w }

/-! ### Cacheable memory (R248, R293) -/

/-- R293: a cacheable access through the die agent of the die on which the hart runs, line by line; each part of one that crosses
a line has the bytes of its line. -/
def Chip.cacheAccess (k : Chip) (r : HartReq) : Chip :=
  let d := k.hartDie r.hart
  let addr := if r.cmo then r.addr / 64 * 64 else r.addr
  let size := if r.cmo then 64 else r.size
  let k := (linesOf addr size).foldl (fun k l =>
    let a := max addr (64 * l)
    let n := min (addr + size) (64 * l + 64) - a
    k.dieAccess l d { r with addr := a, size := n, data := if r.atomic then r.data else (r.data.drop (a - addr)).take n }) k
  k.endHolds

/-! ### Everything else (R189, R311, R565 to R569) -/

/-- A load that the spec gives no value. -/
def Chip.loadFree (k : Chip) (h : Nat) : Chip :=
  let (v, k) := k.fresh
  k.emit (.loadValue h v false)

/-- A load of hart `r` from the I/O region `area`. -/
def Chip.ioLoad (k : Chip) (area : Area) (r : HartReq) : Chip :=
  match area with
  | .aperture => k.apertureReadBy r.addr r.size (k.byHart r.hart)
  | .imsic => k.emit (.loadValue r.hart 0 false)
  | .registers =>
    let (v, k) := k.regAccess { addr := r.addr, size := r.size, write := false, value := 0, who := k.byHart r.hart }
    k.emit (.loadValue r.hart v false)
  | .dram | .poolDoorbell | .mediaDoorbell | .capture | .aplic | .ecam | .reserved => k.loadFree r.hart

/-- A store of hart `r` to the I/O region `area`. -/
def Chip.ioStore (k : Chip) (area : Area) (r : HartReq) : Chip :=
  let v := ofLe (r.data.take r.size)
  match area with
  | .aperture => (k.apertureWrite r.addr (padTo r.data r.size) false none).1
  | .imsic => k.msiWrite r.addr v (k.hart r.hart).w r.size 0
  | .registers => (k.regAccess { addr := r.addr, size := r.size, write := true, value := v, who := k.byHart r.hart }).2
  | .poolDoorbell =>
    let o := r.addr - 0xF_C000_0000_0000
    if o % 8 < 4 then k.workPi true (o / 4096) (o % 4096) r.size v else k.cplCi true (o / 4096) (o % 4096) r.size v
  | .mediaDoorbell =>
    let o := r.addr - 0xF_C000_0010_0000
    if r.size != 4 then k else if o < 0x8000 then k.passSq (o / 4) v else k.passCq ((o - 0x8000) / 4) v
  | .aplic | .ecam => k.emit (.device r.addr (padTo r.data r.size))
  | .dram | .capture | .reserved => k

/-- R189, R248, R311, R566: an access to anything but cacheable memory. -/
def Chip.ioAccess (k : Chip) (r : HartReq) : Chip :=
  let area := k.area r.addr
  if area == .reserved || area == .capture then
    (k.logReserved r.addr (k.byHart r.hart)).instrTrap r.hart r.faultCause
  else if r.atomic || r.op == .cboZero || r.op == .fetch then k.instrTrap r.hart r.faultCause
  else if r.cmo then k
  else if !([1, 2, 4, 8].contains r.size) || r.addr % r.size != 0 then k.instrTrap r.hart r.misaligned
  else match r.op with
    | .load => k.ioLoad area r
    | .store => k.ioStore area r
    | .fetch | .lr | .sc | .amo _ | .cboClean | .cboFlush | .cboInval | .cboZero => k

/-- HART_ACCESS (R257): an access of a hart; one that is offline makes none. With W = 1 nothing below the watermark is
reached. (DEDUCED, log 58) -/
def Chip.hartAccess (k : Chip) (r : HartReq) : Chip :=
  let g := k.hart r.hart
  if !g.online then k
  else if g.w == 1 && decide (r.addr < k.secureTop) then k.instrTrap r.hart r.faultCause
  else if k.area r.addr != .dram then k.ioAccess r
  else if r.atomic && r.addr % max 1 r.size != 0 then k.instrTrap r.hart r.misaligned
  else if !r.cmo && k.dramSize < r.addr + r.size then
    (k.logReserved k.dramSize (k.byHart r.hart)).instrTrap r.hart r.faultCause
  else k.cacheAccess r

/-- HART_ACCESS (R257). -/
def execHartAccess (hart : Nat) (kind : HartOp) (addr size : Nat) (data : Bytes) (s : State) :
    Host.Outcome State Fault Refusal :=
  s.commit (s.chip.hartAccess { hart := hart, op := kind, addr := addr, size := size, data := data })

end Sys2Proof.Machine
end

