-- ==== Sys2Proof/Machine/Start.lean ====
section
/-!
DEFINITION. The commands of start and restart (21) and of the board (24): package cold reset, power-goods and their bounds,
rails lost, and the end of a C-die's BIST.
-/

namespace Sys2Proof.Machine

/-- R511, R512, R559: package cold reset is released: Gunel's clock starts, then Gunel, then the start that R511 chooses. -/
def Chip.resetReleased (k : Chip) (facts : StartFacts) : Chip :=
  if !k.start.reset then k
  else Chip.tryBoot { k with start := { k.start with reset := false, step := 1, facts := facts, limps := 0 } }

/-- R554: MAIN_PG rises; the package looks at it only while it waits for it (R556). -/
def Chip.mainGood (k : Chip) : Chip :=
  if k.start.running && k.start.railMain && !k.start.mainPg then
    Chip.raiseRails { k with start := { k.start with mainPg := true } }
  else k

/-- R554: CD_PG rises, while the package waits for it. -/
def Chip.cdGood (k : Chip) : Chip :=
  if k.start.running && k.start.railCd && !k.start.cdPg then
    Chip.raiseRails { k with start := { k.start with cdPg := true } }
  else k

/-- R517: the start under way fails at the step it has reached. -/
def Chip.stepTimeout (k : Chip) : Chip :=
  if k.start.running then (k.failStart k.start.step).raiseRails else k

/-- R556: a power-good that the start waits for does not rise within its bound. -/
def Chip.powerGoodLate (k : Chip) : Chip :=
  if k.start.running && ((k.start.railMain && !k.start.mainPg) || (k.start.railCd && !k.start.cdPg)) then
    (k.failStart k.start.step).raiseRails
  else k

/-- R442, R556: a rail is lost in service: of a VCD rail the first C-die in service is a die loss and each further one a second
fault; without any other rail the package stops. (DEDUCED, log 88) -/
def Chip.railLost (k : Chip) (r : Nat) : Chip :=
  if r < 3 then
    match ((List.range 4).map (4 * r + ·)).filter k.dieUp with
    | [] => k
    | d :: ds => ds.foldl (fun k e => k.dieLost e 1 true) (k.dieLost d 1 k.recovering)
  else { k with beat := { k.beat with stopped := true } }

/-! ### The commands -/

/-- PKG_RESET_RELEASE (R511, R512). -/
def execPkgResetRelease (facts : StartFacts) (s : State) : Host.Outcome State Fault Refusal :=
  s.commit (s.chip.resetReleased facts)

/-- PKG_RESET_ASSERT (R14, R559). -/
def execPkgResetAssert (s : State) : Host.Outcome State Fault Refusal := s.commit s.chip.coldReset

/-- START_STEP_TIMEOUT (R517, R518). -/
def execStartStepTimeout (s : State) : Host.Outcome State Fault Refusal := s.commit s.chip.stepTimeout

/-- MAIN_PG_RISE (R554). -/
def execMainPgRise (s : State) : Host.Outcome State Fault Refusal := s.commit s.chip.mainGood

/-- CD_PG_RISE (R512, R514, R554). -/
def execCdPgRise (s : State) : Host.Outcome State Fault Refusal := s.commit s.chip.cdGood

/-- POWER_GOOD_TIMEOUT (R556). -/
def execPowerGoodTimeout (s : State) : Host.Outcome State Fault Refusal := s.commit s.chip.powerGoodLate

/-- RAIL_LOSS (R442, R556). -/
def execRailLoss (rail : Nat) (s : State) : Host.Outcome State Fault Refusal := s.commit (s.chip.railLost rail)

/-- DIE_BIST_DONE (R522 to R524). -/
def execDieBistDone (die : Nat) (tiles engines : List Bool) (linkOk : Bool) (s : State) :
    Host.Outcome State Fault Refusal :=
  s.commit (s.chip.dieBist die tiles engines linkOk)

end Sys2Proof.Machine
end

