-- ==== Sys2Proof/Machine/Dispatch.lean ====
section
/-!
DEFINITION. The effect of a command on everything but the queue: one arm per command, each one call of its meaning.
-/

namespace Sys2Proof.Machine

def exec (i : Instr) (s : State) : Host.Outcome State Fault Refusal :=
  match i with
  | .beatBoundary power temps slacks queues => Sys2Proof.Machine.execBeatBoundary power temps slacks queues s
  | .phaseBoundary power temps slacks queues => Sys2Proof.Machine.execPhaseBoundary power temps slacks queues s
  | .windowBoundary => Sys2Proof.Machine.execWindowBoundary s
  | .beatTokenReceived die full count len inst check skew => Sys2Proof.Machine.execBeatTokenReceived die full count len inst check skew s
  | .tokenMissing die => Sys2Proof.Machine.execTokenMissing die s
  | .beatMasterSelfCheckError b => Sys2Proof.Machine.execBeatMasterSelfCheckError b s
  | .cmpMismatch => Sys2Proof.Machine.execCmpMismatch s
  | .registerWrite acc => Sys2Proof.Machine.execRegisterWrite acc s
  | .workPi internal group off width value => Sys2Proof.Machine.execWorkPi internal group off width value s
  | .cplCi internal group off width value => Sys2Proof.Machine.execCplCi internal group off width value s
  | .descriptorFetch ring => Sys2Proof.Machine.execDescriptorFetch ring s
  | .descriptorReadDone ring => Sys2Proof.Machine.execDescriptorReadDone ring s
  | .paramBlockReadDone job => Sys2Proof.Machine.execParamBlockReadDone job s
  | .segmentFinish engine => Sys2Proof.Machine.execSegmentFinish engine s
  | .coalBeatsExpiry ring => Sys2Proof.Machine.execCoalBeatsExpiry ring s
  | .msixVectorUnmask fn vector => Sys2Proof.Machine.execMsixVectorUnmask fn vector s
  | .reIndRead target index => Sys2Proof.Machine.execReIndRead target index s
  | .reIndWriteRing index => Sys2Proof.Machine.execReIndWriteRing index s
  | .reIndWriteFunction index => Sys2Proof.Machine.execReIndWriteFunction index s
  | .engineReadData engine inp => Sys2Proof.Machine.execEngineReadData engine inp s
  | .accWr engine => Sys2Proof.Machine.execAccWr engine s
  | .close engine => Sys2Proof.Machine.execClose engine s
  | .signRequest engine => Sys2Proof.Machine.execSignRequest engine s
  | .signatureReturn engine => Sys2Proof.Machine.execSignatureReturn engine s
  | .accumRegionAllocate => Sys2Proof.Machine.execAccumRegionAllocate s
  | .accumRestoreDone job => Sys2Proof.Machine.execAccumRestoreDone job s
  | .accumLineUncorrectable job => Sys2Proof.Machine.execAccumLineUncorrectable job s
  | .cnPortEnable port => Sys2Proof.Machine.execCnPortEnable port s
  | .conosTrainingStepDone port ok => Sys2Proof.Machine.execConosTrainingStepDone port ok s
  | .conosTrainingRetryTimer port => Sys2Proof.Machine.execConosTrainingRetryTimer port s
  | .ident port pkg peerPort version len => Sys2Proof.Machine.execIdent port pkg peerPort version len s
  | .conosFrameReceived port frame crcOk => Sys2Proof.Machine.execConosFrameReceived port frame crcOk s
  | .linkNak port ack => Sys2Proof.Machine.execLinkNak port ack s
  | .linkAckTimeout port => Sys2Proof.Machine.execLinkAckTimeout port s
  | .write op => Sys2Proof.Machine.execWrite op s
  | .readReq op => Sys2Proof.Machine.execReadReq op s
  | .readRsp op => Sys2Proof.Machine.execReadRsp op s
  | .push op => Sys2Proof.Machine.execPush op s
  | .pushAck op => Sys2Proof.Machine.execPushAck op s
  | .opNak op => Sys2Proof.Machine.execOpNak op s
  | .flowAck peer vc seq => Sys2Proof.Machine.execFlowAck peer vc seq s
  | .flowNak peer vc seq => Sys2Proof.Machine.execFlowNak peer vc seq s
  | .flowAckTimeout peer vc => Sys2Proof.Machine.execFlowAckTimeout peer vc s
  | .alignReq port src t1 t2 t3 => Sys2Proof.Machine.execAlignReq port src t1 t2 t3 s
  | .alignRsp t1 t2 t3 t4 len => Sys2Proof.Machine.execAlignRsp t1 t2 t3 t4 len s
  | .alignIntervalExpiry now => Sys2Proof.Machine.execAlignIntervalExpiry now s
  | .conosApertureWrite addr data who => Sys2Proof.Machine.execConosApertureWrite addr data who s
  | .conosApertureRead addr len who => Sys2Proof.Machine.execConosApertureRead addr len who s
  | .readFailed tag => Sys2Proof.Machine.execReadFailed tag s
  | .cnWindowWrite index => Sys2Proof.Machine.execCnWindowWrite index s
  | .cnRouteWrite index => Sys2Proof.Machine.execCnRouteWrite index s
  | .cnIndRead target index => Sys2Proof.Machine.execCnIndRead target index s
  | .winDrained window => Sys2Proof.Machine.execWinDrained window s
  | .pushFullWaitExpiry tag => Sys2Proof.Machine.execPushFullWaitExpiry tag s
  | .pushAckTimeout tag => Sys2Proof.Machine.execPushAckTimeout tag s
  | .cnWakeSend mask => Sys2Proof.Machine.execCnWakeSend mask s
  | .wakePatternEnd port => Sys2Proof.Machine.execWakePatternEnd port s
  | .wakePatternDetected port => Sys2Proof.Machine.execWakePatternDetected port s
  | .conosLaneLoss port => Sys2Proof.Machine.execConosLaneLoss port s
  | .flr fn => Sys2Proof.Machine.execFlr fn s
  | .functionEnableChange change => Sys2Proof.Machine.execFunctionEnableChange change s
  | .endpointReset => Sys2Proof.Machine.execEndpointReset s
  | .hostReadCompletion fn tag off data poisoned => Sys2Proof.Machine.execHostReadCompletion fn tag off data poisoned s
  | .completionTimeout fn tag => Sys2Proof.Machine.execCompletionTimeout fn tag s
  | .barWriteOutside fn off => Sys2Proof.Machine.execBarWriteOutside fn off s
  | .completionTimeoutValueWrite fn enc => Sys2Proof.Machine.execCompletionTimeoutValueWrite fn enc s
  | .l1IdleExpiry => Sys2Proof.Machine.execL1IdleExpiry s
  | .l0sIdleExpiry => Sys2Proof.Machine.execL0sIdleExpiry s
  | .spdmRequest code => Sys2Proof.Machine.execSpdmRequest code s
  | .mqTargetWrite index => Sys2Proof.Machine.execMqTargetWrite index s
  | .mqQpWrite index => Sys2Proof.Machine.execMqQpWrite index s
  | .mqIndRead target index => Sys2Proof.Machine.execMqIndRead target index s
  | .driveCompletionCapture qp cid status result => Sys2Proof.Machine.execDriveCompletionCapture qp cid status result s
  | .passSqDoorbell qp tail => Sys2Proof.Machine.execPassSqDoorbell qp tail s
  | .passCqDoorbell qp head => Sys2Proof.Machine.execPassCqDoorbell qp head s
  | .mediaCommandTimeout cmd => Sys2Proof.Machine.execMediaCommandTimeout cmd s
  | .driveRemoved port => Sys2Proof.Machine.execDriveRemoved port s
  | .driveAdded port => Sys2Proof.Machine.execDriveAdded port s
  | .qfworldWrite hart w pw => Sys2Proof.Machine.execQfworldWrite hart w pw s
  | .qfsillageWrite hart mode value => Sys2Proof.Machine.execQfsillageWrite hart mode value s
  | .qfoppWrite hart value => Sys2Proof.Machine.execQfoppWrite hart value s
  | .customCsrIllegal hart csr mode isWrite value => Sys2Proof.Machine.execCustomCsrIllegal hart csr mode isWrite value s
  | .trapToMMode hart cause mepc mpp mpv => Sys2Proof.Machine.execTrapToMMode hart cause mepc mpp mpv s
  | .mret hart => Sys2Proof.Machine.execMret hart s
  | .hartAccess hart kind addr size data => Sys2Proof.Machine.execHartAccess hart kind addr size data s
  | .coreFault hart => Sys2Proof.Machine.execCoreFault hart s
  | .hartHangTimeout hart => Sys2Proof.Machine.execHartHangTimeout hart s
  | .takeoverComplete hart => Sys2Proof.Machine.execTakeoverComplete hart s
  | .migrationComplete hart => Sys2Proof.Machine.execMigrationComplete hart s
  | .msiDelivery addr data who width => Sys2Proof.Machine.execMsiDelivery addr data who width s
  | .stagingWayEmpty engine => Sys2Proof.Machine.execStagingWayEmpty engine s
  | .accumWaysLocked => Sys2Proof.Machine.execAccumWaysLocked s
  | .cacheUncorrectable place unit kind line => Sys2Proof.Machine.execCacheUncorrectable place unit kind line s
  | .rdShared msg => Sys2Proof.Machine.execRdShared msg s
  | .rdUnique msg => Sys2Proof.Machine.execRdUnique msg s
  | .own msg zero => Sys2Proof.Machine.execOwn msg zero s
  | .rdOnce msg => Sys2Proof.Machine.execRdOnce msg s
  | .wrLine msg stash => Sys2Proof.Machine.execWrLine msg stash s
  | .evict msg empty => Sys2Proof.Machine.execEvict msg empty s
  | .writeback msg empty => Sys2Proof.Machine.execWriteback msg empty s
  | .amo msg op size offset operand => Sys2Proof.Machine.execAmo msg op size offset operand s
  | .cmoClean msg => Sys2Proof.Machine.execCmoClean msg s
  | .cmoFlush msg => Sys2Proof.Machine.execCmoFlush msg s
  | .cmoInval msg => Sys2Proof.Machine.execCmoInval msg s
  | .snpShared die line => Sys2Proof.Machine.execSnpShared die line s
  | .snpUnique die line => Sys2Proof.Machine.execSnpUnique die line s
  | .snpOnce die line => Sys2Proof.Machine.execSnpOnce die line s
  | .snpInv die line => Sys2Proof.Machine.execSnpInv die line s
  | .snpClean die line => Sys2Proof.Machine.execSnpClean die line s
  | .snpStash die line way => Sys2Proof.Machine.execSnpStash die line way s
  | .snpResp die line => Sys2Proof.Machine.execSnpResp die line s
  | .snpData die line => Sys2Proof.Machine.execSnpData die line s
  | .stashAccept die line => Sys2Proof.Machine.execStashAccept die line s
  | .stashDecline die line => Sys2Proof.Machine.execStashDecline die line s
  | .comp die line => Sys2Proof.Machine.execComp die line s
  | .evcAck die line => Sys2Proof.Machine.execEvcAck die line s
  | .compAck die line => Sys2Proof.Machine.execCompAck die line s
  | .data die line victim => Sys2Proof.Machine.execData die line victim s
  | .wbData die line bytes poison => Sys2Proof.Machine.execWbData die line bytes poison s
  | .wrData line bytes mask poison => Sys2Proof.Machine.execWrData line bytes mask poison s
  | .lrSnoopHoldExpiry die line => Sys2Proof.Machine.execLrSnoopHoldExpiry die line s
  | .directoryEntryUncorrectable sector => Sys2Proof.Machine.execDirectoryEntryUncorrectable sector s
  | .directoryWalkComplete die => Sys2Proof.Machine.execDirectoryWalkComplete die s
  | .flitReceived die stop net vc flit crcOk => Sys2Proof.Machine.execFlitReceived die stop net vc flit crcOk s
  | .flitDeliver die stop net src => Sys2Proof.Machine.execFlitDeliver die stop net src s
  | .nocLinkFail die link => Sys2Proof.Machine.execNocLinkFail die link s
  | .routerFenced die stop => Sys2Proof.Machine.execRouterFenced die stop s
  | .routeCompileDone die => Sys2Proof.Machine.execRouteCompileDone die s
  | .routeTableInstall die => Sys2Proof.Machine.execRouteTableInstall die s
  | .sbIdent port msg => Sys2Proof.Machine.execSbIdent port msg s
  | .mapAnnounce port width map wh => Sys2Proof.Machine.execMapAnnounce port width map wh s
  | .mapAdopt port hash => Sys2Proof.Machine.execMapAdopt port hash s
  | .mapReject port wires => Sys2Proof.Machine.execMapReject port wires s
  | .wireReport port dir wire errs => Sys2Proof.Machine.execWireReport port dir wire errs s
  | .testDone port ok => Sys2Proof.Machine.execTestDone port ok s
  | .creditInit port => Sys2Proof.Machine.execCreditInit port s
  | .sbMsgTimeout port => Sys2Proof.Machine.execSbMsgTimeout port s
  | .bilumFlitReceived port dir grp crcOk idle cls => Sys2Proof.Machine.execBilumFlitReceived port dir grp crcOk idle cls s
  | .bilumReplayTimeout port dir grp => Sys2Proof.Machine.execBilumReplayTimeout port dir grp s
  | .creditFrame port dir word => Sys2Proof.Machine.execCreditFrame port dir word s
  | .bilumRecalSlot port delay => Sys2Proof.Machine.execBilumRecalSlot port delay s
  | .swapLimitReached port dir wire => Sys2Proof.Machine.execSwapLimitReached port dir wire s
  | .blockLost port dir block => Sys2Proof.Machine.execBlockLost port dir block s
  | .bilumPortFail port => Sys2Proof.Machine.execBilumPortFail port s
  | .bilumRetrainTimer port => Sys2Proof.Machine.execBilumRetrainTimer port s
  | .retrain port => Sys2Proof.Machine.execRetrain port s
  | .clkSilent die => Sys2Proof.Machine.execClkSilent die s
  | .refreshDue ch rank busy => Sys2Proof.Machine.execRefreshDue ch rank busy s
  | .mr4Read ch rank twice => Sys2Proof.Machine.execMr4Read ch rank twice s
  | .dramRecalSlot ch => Sys2Proof.Machine.execDramRecalSlot ch s
  | .mcRateWrite ch value => Sys2Proof.Machine.execMcRateWrite ch value s
  | .rateChangeComplete failed => Sys2Proof.Machine.execRateChangeComplete failed s
  | .dramRead ch line errs partner deadline => Sys2Proof.Machine.execDramRead ch line errs partner deadline s
  | .dramWrite ch line data poison => Sys2Proof.Machine.execDramWrite ch line data poison s
  | .mergeBufferWrite ch line data mask => Sys2Proof.Machine.execMergeBufferWrite ch line data mask s
  | .channelFence ch => Sys2Proof.Machine.execChannelFence ch s
  | .scrubBurst ch errs => Sys2Proof.Machine.execScrubBurst ch errs s
  | .qtReserveWrite value => Sys2Proof.Machine.execQtReserveWrite value s
  | .stopSet => Sys2Proof.Machine.execStopSet s
  | .stopClear => Sys2Proof.Machine.execStopClear s
  | .arbiterCycle inst port reqs still unitEnd last => Sys2Proof.Machine.execArbiterCycle inst port reqs still unitEnd last s
  | .qtIndRead target index => Sys2Proof.Machine.execQtIndRead target index s
  | .qtIndWrite target index => Sys2Proof.Machine.execQtIndWrite target index s
  | .haPairMismatch pair => Sys2Proof.Machine.execHaPairMismatch pair s
  | .reInstanceFailover inst selfCheck => Sys2Proof.Machine.execReInstanceFailover inst selfCheck s
  | .engineSramUncorrectable engine => Sys2Proof.Machine.execEngineSramUncorrectable engine s
  | .selfTestComplete unitType unit pass => Sys2Proof.Machine.execSelfTestComplete unitType unit pass s
  | .wsSecureTopWrite value who => Sys2Proof.Machine.execWsSecureTopWrite value who s
  | .wsClaimWrite reg value who => Sys2Proof.Machine.execWsClaimWrite reg value who s
  | .debugHaltRequest hart => Sys2Proof.Machine.execDebugHaltRequest hart s
  | .wsKeyRead slot who => Sys2Proof.Machine.execWsKeyRead slot who s
  | .load slot who => Sys2Proof.Machine.execLoad slot who s
  | .clear slot who => Sys2Proof.Machine.execClear slot who s
  | .signKey who => Sys2Proof.Machine.execSignKey who s
  | .signReady => Sys2Proof.Machine.execSignReady s
  | .secureWatchdogLapse => Sys2Proof.Machine.execSecureWatchdogLapse s
  | .kick who => Sys2Proof.Machine.execKick who s
  | .req who => Sys2Proof.Machine.execReq who s
  | .signingSramUncorrectable => Sys2Proof.Machine.execSigningSramUncorrectable s
  | .secureImageLoaded measurement => Sys2Proof.Machine.execSecureImageLoaded measurement s
  | .done who => Sys2Proof.Machine.execDone who s
  | .secureRestartTimeout => Sys2Proof.Machine.execSecureRestartTimeout s
  | .refclkSysLoss => Sys2Proof.Machine.execRefclkSysLoss s
  | .refclkRpLoss => Sys2Proof.Machine.execRefclkRpLoss s
  | .epRefclkLoss => Sys2Proof.Machine.execEpRefclkLoss s
  | .gunelLapse => Sys2Proof.Machine.execGunelLapse s
  | .crystalCountEnd which => Sys2Proof.Machine.execCrystalCountEnd which s
  | .pllWaitEnd which => Sys2Proof.Machine.execPllWaitEnd which s
  | .thermalCritical die => Sys2Proof.Machine.execThermalCritical die s
  | .droop tile => Sys2Proof.Machine.execDroop tile s
  | .droopStretchEnd tile => Sys2Proof.Machine.execDroopStretchEnd tile s
  | .run src => Sys2Proof.Machine.execRun src s
  | .quiet src => Sys2Proof.Machine.execQuiet src s
  | .standby src => Sys2Proof.Machine.execStandby src s
  | .drydown src => Sys2Proof.Machine.execDrydown src s
  | .gate target index src => Sys2Proof.Machine.execGate target index src s
  | .ungate target index src => Sys2Proof.Machine.execUngate target index src s
  | .wakeSourceFire src facts => Sys2Proof.Machine.execWakeSourceFire src facts s
  | .tileRetentionEntry tile => Sys2Proof.Machine.execTileRetentionEntry tile s
  | .tileRetentionWake tile => Sys2Proof.Machine.execTileRetentionWake tile s
  | .gunelWatchdogLapse => Sys2Proof.Machine.execGunelWatchdogLapse s
  | .gunelRestartDone => Sys2Proof.Machine.execGunelRestartDone s
  | .sensorSample readings => Sys2Proof.Machine.execSensorSample readings s
  | .lifetimeWrite => Sys2Proof.Machine.execLifetimeWrite s
  | .getInfo secure who => Sys2Proof.Machine.execGetInfo secure who s
  | .readLog secure who => Sys2Proof.Machine.execReadLog secure who s
  | .readLifetime secure who => Sys2Proof.Machine.execReadLifetime secure who s
  | .readSensor secure who => Sys2Proof.Machine.execReadSensor secure who s
  | .queueTest secure who => Sys2Proof.Machine.execQueueTest secure who s
  | .cancelTest secure who => Sys2Proof.Machine.execCancelTest secure who s
  | .power secure who => Sys2Proof.Machine.execPower secure who s
  | .dieReset secure who => Sys2Proof.Machine.execDieReset secure who s
  | .dieBistDone die tiles engines linkOk => Sys2Proof.Machine.execDieBistDone die tiles engines linkOk s
  | .setMemcfg secure who => Sys2Proof.Machine.execSetMemcfg secure who s
  | .hartStarted secure who => Sys2Proof.Machine.execHartStarted secure who s
  | .hartStopped secure who => Sys2Proof.Machine.execHartStopped secure who s
  | .pldmUpdate comp image => Sys2Proof.Machine.execPldmUpdate comp image s
  | .activateFirmware comp => Sys2Proof.Machine.execActivateFirmware comp s
  | .hubLapse => Sys2Proof.Machine.execHubLapse s
  | .pkgResetRelease facts => Sys2Proof.Machine.execPkgResetRelease facts s
  | .startStepTimeout => Sys2Proof.Machine.execStartStepTimeout s
  | .pkgResetAssert => Sys2Proof.Machine.execPkgResetAssert s
  | .mainPgRise => Sys2Proof.Machine.execMainPgRise s
  | .cdPgRise => Sys2Proof.Machine.execCdPgRise s
  | .powerGoodTimeout => Sys2Proof.Machine.execPowerGoodTimeout s
  | .railLoss rail => Sys2Proof.Machine.execRailLoss rail s
  | .vflPowerUp => Sys2Proof.Machine.execVflPowerUp s
  | .flaconSample samples => Sys2Proof.Machine.execFlaconSample samples s
  | .xtalFStop => Sys2Proof.Machine.execXtalFStop s
  | .xtalFReturn => Sys2Proof.Machine.execXtalFReturn s
  | .flaconCalRise => Sys2Proof.Machine.execFlaconCalRise s
  | .flaconCalibrate ch shunt gain offset => Sys2Proof.Machine.execFlaconCalibrate ch shunt gain offset s
  | .flGetInfo viaI3c => Sys2Proof.Machine.execFlGetInfo viaI3c s
  | .getPubkey viaI3c => Sys2Proof.Machine.execGetPubkey viaI3c s
  | .readMeter viaI3c => Sys2Proof.Machine.execReadMeter viaI3c s
  | .flReadLog viaI3c => Sys2Proof.Machine.execFlReadLog viaI3c s
  | .flMailboxTimeout => Sys2Proof.Machine.execFlMailboxTimeout s
  | .pmDump => Sys2Proof.Machine.execPmDump s
  | .pmDumpEntryWritten => Sys2Proof.Machine.execPmDumpEntryWritten s
  | .userCounterRead hart mode csr => Sys2Proof.Machine.execUserCounterRead hart mode csr s
  | .pmPartWrite value => Sys2Proof.Machine.execPmPartWrite value s
  | .userEnableWrite value => Sys2Proof.Machine.execUserEnableWrite value s
  | .pmDumpCiWrite value => Sys2Proof.Machine.execPmDumpCiWrite value s
  | .reservedAccess addr who isRead => Sys2Proof.Machine.execReservedAccess addr who isRead s
  | .offlinePageAccess acc => Sys2Proof.Machine.execOfflinePageAccess acc s
  | .linkUp speed width flit => Sys2Proof.Machine.execLinkUp speed width flit s
  | .flrComplete fn => Sys2Proof.Machine.execFlrComplete fn s
  | .sbSetFail port set => Sys2Proof.Machine.execSbSetFail port set s
  | .alertN ch => Sys2Proof.Machine.execAlertN ch s
  | .controlStopError die => Sys2Proof.Machine.execControlStopError die s
  | .engineControlParity engine => Sys2Proof.Machine.execEngineControlParity engine s
  | .bridgeParityError die bridge => Sys2Proof.Machine.execBridgeParityError die bridge s
  | .trackerUncorrectable pair => Sys2Proof.Machine.execTrackerUncorrectable pair s
  | .romRecovery image => Sys2Proof.Machine.execRomRecovery image s

end Sys2Proof.Machine
end

