-- ==== Sys2Proof/Machine/Step.lean ====
section
/-!
DEFINITION. One step of the block: the command at the front of its queue, first in, first out; with none waiting it idles.
-/

namespace Sys2Proof.Machine

/-- One step: the command at the front runs on the block with the rest of the queue. (DESIGN CHOICE, log 19) -/
def step (s : State) : Host.Outcome State Fault Refusal :=
  match s.pending with
  | [] => .next s
  | c :: rest => exec c { s with pending := rest }

/-- The block with the command that a word spells at the front of its queue; unchanged where the word spells none.
(DEDUCED, log 21) -/
def State.withFetchWord (s : State) (nbits w : Nat) : State :=
  match decodeTableWord nbits w with
  | some c => { s with pending := c :: s.pending }
  | none => s

end Sys2Proof.Machine
end

