-- ==== Sys2Proof/Safety.lean ====
section
/-!
DEFINITION. The terms in which the statements speak of a state: the state after a command, status fields that show the hardware,
memory and registers left alone, and the canonical form of memory.
-/

namespace Sys2Proof.Machine

/-- The state after a command whose effect on the block is `k`: the status fields show the hardware, the queue is as it was. -/
def State.after (s : State) (k : Chip) : State := { s with chip := k.refresh }

/-- R14: every status field reads the hardware that it shows. -/
def Chip.Showing (k : Chip) : Prop := ∀ p ∈ k.shows, k.rd p.1 = p.2 % 2 ^ p.1.width

/-- Every byte of memory at the home reads as before. -/
def Chip.SameMemory (k k' : Chip) : Prop := ∀ a, byteAt k'.mem a = byteAt k.mem a

/-- Every byte of memory at the home outside `a` to `a + n − 1` reads as before. -/
def Chip.SameMemoryBut (a n : Nat) (k k' : Chip) : Prop := ∀ x, x < a ∨ a + n ≤ x → byteAt k'.mem x = byteAt k.mem x

/-- Every register field but those of `fs` and the status fields reads as before. -/
def Chip.SameRegs (fs : List Fld) (k k' : Chip) : Prop :=
  ∀ f : Fld, f.key ∉ fs.map Fld.key → f.key ∉ shownFields.map Fld.key → k'.rd f = k.rd f

/-- R285, R468, R500: the register fields that reporting an event may change: what a refused entry of the error ring sets, and the
count of locked lines that the entry's write invalidates. -/
def reportFields : List Fld :=
  [WS_ERR.VIOLATION, WS_ERR_INFO.ADDR, WS_ERR_INFO.SOURCE, WS_ERR_INFO.EVENT, SC_LWI.COUNT]

/-- A home with nothing under way: no line busy, no snoop held back, room in every directory set, nothing lost (R302, R309, R315). -/
def Chip.HomeQuiet (k : Chip) : Prop :=
  k.coh.busy = [] ∧ k.coh.heldSnoops = [] ∧ k.coh.dir.length < 16 ∧ k.coh.lost = []

/-- R315, R444: a request that its home serves: its die is in service, and its world reaches the line. -/
def Chip.Serves (k : Chip) (m : CohMsg) : Prop :=
  (m.die < 12 → k.dieUp m.die = true) ∧ (m.who.w ≠ 1 ∨ k.secureTop ≤ 64 * m.line)

/-- What a state must hold for its data to have one form: memory is canonical, and the status fields show the hardware. -/
def State.Good (s : State) : Prop := Memory.wf s.chip.mem = true ∧ s.chip.Showing

end Sys2Proof.Machine
end

