-- ==== Sys2Proof/Certificates/Slice0/Obligations.lean ====
section
/-!
DEFINITION. The statements about the model: whole-machine rules, shared operations, and for every command a state in which it
answers with its own effect.
-/

open Sys2Proof Sys2Proof.Machine

/-! ### The whole machine -/

/-- The command at the front of the queue runs on the block with the rest of the queue behind it; on an empty queue the block
idles: the model's choice. Where the rules leave a point open, this states the model's reading: log entry 19. -/
def Obligations.StepRunsTheQueue : Prop :=
  (∀ (s : State) (c : Instr) (rest : List Instr), s.pending = c :: rest →
    step s = exec c { s with pending := rest } ∧
    ∃ t, step s = .next t ∧ t.pending = rest) ∧
  (∀ s : State, s.pending = [] → step s = .next s)

/-- R14: each status field of `shownFields` reads, after every step from a state in which it does, the hardware it shows.
Where the rules leave a point open, this states the model's reading: log entry 23. -/
def Obligations.StepKeepsStatusShowing : Prop :=
  ∀ s t : State, s.chip.Showing → step s = .next t → t.chip.Showing

/-- R14, R565: after reset memory is canonical and every status field reads the hardware that it shows. Where the rules leave
a point open, this states the model's reading: log entries 1 and 23. -/
def Obligations.ResetIsGood : Prop :=
  State.reset.Good

/-! ### The beat (02) -/

/-- R30, R54, R92: the token edge raises the beat counter by exactly 1, starts phase 0 and shows the low byte of the count;
an offset to be worked off loses what the beat was shortened by. Where the rules leave a point open, this states the model's
reading: log entry 27. -/
def Obligations.TokenEdgeCountsTheBeat : Prop :=
  ∀ k : Chip,
    k.tokenEdge.now = (k.now + 1) % 2 ^ 64 ∧
    k.tokenEdge.beat.phase = 0 ∧ k.tokenEdge.beat.issued = true ∧
    k.tokenEdge.rd RE_STATUS.WINDOW_BEAT = (k.now + 1) % 256 ∧
    (k.on CN_ALIGN.ROOT = false →
      k.tokenEdge.rd BT_ALIGN_OFS.OFS = ofSigned (toSigned (k.rd BT_ALIGN_OFS.OFS) 32 - k.slewNow) 32) ∧
    k.tokenEdge.out = .token ((k.now + 1) % 2 ^ 64) :: k.out ∧
    k.SameMemory k.tokenEdge ∧
    k.SameRegs [BT_COUNT.COUNT, BT_ALIGN_OFS.OFS, BT_SKEW.MAX, BT_SKEW.DIE, RE_STATUS.WINDOW_BEAT] k.tokenEdge

/-- R29, R31, R38, R84: while the beat master issues tokens, BEAT_BOUNDARY runs the steps of R38 in order, the first of them
the token edge; the start of a share window leaves the last steps to WINDOW_BOUNDARY, which runs them, and PHASE_BOUNDARY
moves from a phase to the next; no boundary does anything while the beat master issues no tokens. Where the rules leave a
point open, this states the model's reading: log entries 19, 24 and 25. -/
def Obligations.BoundariesRunTheirSteps : Prop :=
  (∀ (s : State) (power temps : List Nat) (slacks : List Int) (queues : List (Nat × Nat)),
    s.chip.ticking = true → s.chip.beat.windowDue = false →
    ∃ k1 k2 k3 k4 : Chip, k1 = (s.chip.phaseEnd power temps slacks queues).stepOne ∧
      k2 = ((k1.dropFunctions.rebuildRegions.commitAll (k1.mc.change.any (·.running))).stopNoSpace.endJobs).decisions ∧
      k3 = (k2.unfinishedAll (k2.mc.change.any (·.running))).services ∧
      k4 = (if k3.now % 256 = 0 then { k3 with beat := { k3.beat with windowDue := true } } else k3.dispatch) ∧
      exec (.beatBoundary power temps slacks queues) s = .next (s.after k4.endEntry)) ∧
  (∀ s : State, s.chip.ticking = true → s.chip.beat.windowDue = true →
    ∃ k : Chip, k = (s.chip.takeWindow.testBoundary true).autoReset ∧
      exec .windowBoundary s = .next (s.after (Chip.dispatch { k with beat := { k.beat with windowDue := false } }))) ∧
  (∀ (s : State) (power temps : List Nat) (slacks : List Int) (queues : List (Nat × Nat)),
    s.chip.ticking = true → s.chip.beat.phase < 7 →
    ∃ k : Chip, k = (s.chip.phaseEnd power temps slacks queues).moveTime (s.chip.beat.phase + 1) ∧
      exec (.phaseBoundary power temps slacks queues) s =
        .next (s.after (Chip.refillAll { k with beat := { k.beat with phase := k.beat.phase + 1 } }))) ∧
  (∀ (s : State) (power temps : List Nat) (slacks : List Int) (queues : List (Nat × Nat)), s.chip.ticking = false →
    exec (.beatBoundary power temps slacks queues) s = .next (s.after s.chip) ∧
    exec (.phaseBoundary power temps slacks queues) s = .next (s.after s.chip) ∧
    exec .windowBoundary s = .next (s.after s.chip))

/-- R32, R33, R196, R197: a die takes the count of a full token after a link start, extends a short one from its own counter,
and counts the beat itself once when a token is missing; a token whose check fails is dropped and reported; a parent answers
ALIGN_REQ with its times; a child takes half the difference of the two ways as its offset; when the interval ends it asks
again. Where the rules leave a point open, this states the model's reading: log entries 25, 26 and 49. -/
def Obligations.TokensAndAlignment : Prop :=
  (∀ (s : State) (d count len inst skew : Nat), s.chip.dieUp d = true → skew ≤ 10 →
    (Tbl.get {} s.chip.beat.dies d).fullDue = true →
    ∃ t, exec (.beatTokenReceived d true count len inst (crc8Bits (tokenBits true count len inst)) skew) s = .next t ∧
      Tbl.get {} t.chip.beat.dies d =
        { Tbl.get {} s.chip.beat.dies d with count := count % 2 ^ 64, misses := 0, fullDue := false } ∧
      s.chip.SameMemory t.chip ∧ s.chip.SameRegs [] t.chip ∧ t.chip.out = s.chip.out) ∧
  (∀ (s : State) (d len inst skew : Nat), s.chip.dieUp d = true → skew ≤ 10 →
    (Tbl.get {} s.chip.beat.dies d).fullDue = false → (Tbl.get {} s.chip.beat.dies d).count < 2 ^ 64 - 1 →
    ∃ t, exec (.beatTokenReceived d false (((Tbl.get {} s.chip.beat.dies d).count + 1) % 2 ^ 16) len inst
          (crc8Bits (tokenBits false (((Tbl.get {} s.chip.beat.dies d).count + 1) % 2 ^ 16) len inst)) skew) s = .next t ∧
      Tbl.get {} t.chip.beat.dies d =
        { Tbl.get {} s.chip.beat.dies d with count := (Tbl.get {} s.chip.beat.dies d).count + 1, misses := 0 } ∧
      s.chip.SameRegs [] t.chip ∧ t.chip.out = s.chip.out) ∧
  (∀ (s : State) (d count len inst check skew : Nat) (full : Bool), s.chip.dieUp d = true →
    crc8Bits (tokenBits full count len inst) ≠ check →
    exec (.beatTokenReceived d full count len inst check skew) s = .next (s.after (s.chip.btErr BT_ERR.TOKEN_CHECK))) ∧
  (∀ (s : State) (d : Nat), s.chip.dieUp d = true → (Tbl.get {} s.chip.beat.dies d).misses = 0 →
    ∃ t, exec (.tokenMissing d) s = .next t ∧
      Tbl.get {} t.chip.beat.dies d =
        { Tbl.get {} s.chip.beat.dies d with
          count := ((Tbl.get {} s.chip.beat.dies d).count + 1) % 2 ^ 64, misses := 1 } ∧
      s.chip.SameRegs [] t.chip ∧ t.chip.out = s.chip.out) ∧
  (∀ (s : State) (p src t1 t2 t3 : Nat), p < 4 → s.chip.cnState p = 2 →
    exec (.alignReq p src t1 t2 t3) s = .next (s.after (s.chip.sendLink p (s.chip.newFrame 10 2 src 0 0 true
      (leBytes t1 4 ++ leBytes t2 4 ++ leBytes t3 4 ++ leBytes (s.chip.rd BT_CTRL.LEN) 1))))) ∧
  (∀ (s : State) (t1 t2 t3 t4 : Nat), s.chip.on CN_ALIGN.ROOT = false → s.chip.on BT_CTRL.ALIGN_EN = true →
    (beatDiff t2 t1 s.chip.beatNs - beatDiff t4 t3 s.chip.beatNs) % 2 = 0 →
    ∃ t, exec (.alignRsp t1 t2 t3 t4 (s.chip.rd BT_CTRL.LEN)) s = .next t ∧
      t.chip.rd BT_ALIGN_OFS.OFS =
        ofSigned ((beatDiff t2 t1 s.chip.beatNs - beatDiff t4 t3 s.chip.beatNs) / 2) 32 ∧
      t.chip.beat.alignInEffect = true ∧ t.chip.beat.alignMissed = 0 ∧
      s.chip.SameMemory t.chip ∧ s.chip.SameRegs [BT_ALIGN_OFS.OFS] t.chip ∧ t.chip.out = s.chip.out) ∧
  (∀ (s : State) (now n : Nat), s.chip.on CN_ALIGN.ROOT = false → s.chip.on BT_CTRL.ALIGN_EN = true →
    n = s.chip.rd CN_ALIGN.PARENT_PORT → s.chip.cnState n = 2 → s.chip.beat.alignMissed < 8 →
    ∃ k : Chip, k = { s.chip with beat := { s.chip.beat with alignMissed := s.chip.beat.alignMissed + 1 } } ∧
      exec (.alignIntervalExpiry now) s = .next (s.after (k.sendLink n
        (k.newFrame 9 2 (k.rd (CN_PORT_STATUS.PEER_PKG n)) 0 0 true (leBytes now 4)))))

/-- R35: of two beat-master instances in service, a self-check error fences the one that reports it and makes the other
active; a mismatch without one keeps the active instance and fences the other; each is recorded in BT_ERR. -/
def Obligations.BeatMasterFencing : Prop :=
  ∀ s : State, s.chip.masterFenced 0 = false → s.chip.masterFenced 1 = false → s.chip.rd BT_STATUS.ACTIVE < 2 →
    (∀ b < 2, ∃ t, exec (.beatMasterSelfCheckError b) s = .next t ∧
      t.chip.masterFenced b = true ∧ t.chip.masterFenced (1 - b) = false ∧ t.chip.rd BT_STATUS.ACTIVE = 1 - b ∧
      t.chip.rd (if b = 0 then BT_ERR.SELF_A else BT_ERR.SELF_B) = 1 ∧ t.chip.now = s.chip.now) ∧
    (∃ t, exec .cmpMismatch s = .next t ∧
      t.chip.masterFenced (s.chip.rd BT_STATUS.ACTIVE) = false ∧
      t.chip.masterFenced (1 - s.chip.rd BT_STATUS.ACTIVE) = true ∧
      t.chip.rd BT_STATUS.ACTIVE = s.chip.rd BT_STATUS.ACTIVE ∧ t.chip.rd BT_ERR.CMP_MISMATCH = 1)

/-! ### Work rings (03) -/

/-- R64, R65, R67, R94 to R96, R569: a WORK_PI write to a running ring of the writer's pool moves the producer index when the
ring has room for it; the other rings, memory and every register but the link state stay; a WORK_PI value that the ring has
no room for leaves the ring in the error state; a doorbell write that is not a naturally aligned 32-bit write is discarded
with RE_ERR.DB_SIZE; a read command of the ring engine fills the data registers with the 64 bytes of the context; a write
command applies the data registers' bytes to a context when their values lie in their ranges. Where the rules leave a point
open, this states the model's reading: log entries 34 and 35. -/
def Obligations.RingRegisters : Prop :=
  (∀ (s : State) (internal : Bool) (group off value : Nat), group < 256 → off < 256 → off % 4 = 0 →
    ∀ g : Ring, g = s.chip.ring (32 * group + off / 8) → g.state = 1 → g.internal = internal →
    (internal = false → (s.chip.hostFn group).inFlr = false) →
    wrapSub value g.wrPi 32 ≤ g.room →
    ∃ t, exec (.workPi internal group off 4 value) s = .next t ∧
      t.chip.ring (32 * group + off / 8) = { g with wrPi := value % 2 ^ 32 } ∧
      (∀ r, r ≠ 32 * group + off / 8 → t.chip.ring r = s.chip.ring r) ∧
      s.chip.SameMemory t.chip ∧ s.chip.SameRegs [HF_STATUS.LSTATE] t.chip ∧ t.chip.out = s.chip.out ∧
      t.chip.re.jobs = s.chip.re.jobs ∧ t.chip.harts = s.chip.harts) ∧
  (∀ (s : State) (group off value : Nat), group < 256 → off < 256 → off % 4 = 0 →
    ∀ g : Ring, g = s.chip.ring (32 * group + off / 8) → g.state = 1 → g.internal = true →
    g.room < wrapSub value g.wrPi 32 →
    exec (.workPi true group off 4 value) s = .next (s.after (s.chip.ringError (32 * group + off / 8) 21 value)) ∧
    ((s.chip.ringError (32 * group + off / 8) 21 value).ring (32 * group + off / 8)).state = 2 ∧
    ((s.chip.ringError (32 * group + off / 8) 21 value).ring (32 * group + off / 8)).fetching = false) ∧
  (∀ (s : State) (internal : Bool) (group off width value : Nat), group < 256 → off < 256 → width ≠ 4 ∨ off % 4 ≠ 0 →
    exec (.workPi internal group off width value) s = .next (s.after (s.chip.wr RE_ERR.DB_SIZE 1)) ∧
    exec (.cplCi internal group off width value) s = .next (s.after (s.chip.wr RE_ERR.DB_SIZE 1))) ∧
  (∀ (s : State) (r : Nat), r < 8192 → ∃ t, exec (.reIndRead 0 r) s = .next t ∧
    t.chip.indBytes RE_IND_DATA.DATA 8 = (s.chip.ring r).bytes ∧ t.chip.rd RE_IND_CMD.STATUS = 0 ∧
    t.chip.rd RE_IND_CMD.GO = 0 ∧ t.chip.re = s.chip.re ∧ s.chip.SameMemory t.chip) ∧
  (∀ (s : State) (f : Nat), f < 256 → ∃ t, exec (.reIndRead 1 f) s = .next t ∧
    t.chip.indBytes RE_IND_DATA.DATA 8 = (s.chip.fnCtx f).bytes (s.chip.contexts f) ∧ t.chip.rd RE_IND_CMD.STATUS = 0 ∧
    t.chip.rd RE_IND_CMD.GO = 0 ∧ t.chip.re = s.chip.re ∧ s.chip.SameMemory t.chip) ∧
  (∀ (s : State) (r : Nat) (b : Bytes), r < 8192 → b = s.chip.indBytes RE_IND_DATA.DATA 8 → ringValuesGood b = true →
    (s.chip.ring r).inProgress = 0 → (s.chip.ring r).fetching = false →
    ∃ t, exec (.reIndWriteRing r) s = .next t ∧ t.chip.ring r = (s.chip.ring r).written b ∧
      (∀ r', r' ≠ r → t.chip.ring r' = s.chip.ring r') ∧ t.chip.rd RE_IND_CMD.STATUS = 0 ∧ t.chip.rd RE_IND_CMD.GO = 0 ∧
      s.chip.SameMemory t.chip) ∧
  (∀ (s : State) (f : Nat) (b : Bytes), f < 256 → b = s.chip.indBytes RE_IND_DATA.DATA 8 → leAt b 2 1 ≤ leAt b 4 1 →
    leAt b 4 1 ≤ leAt b 3 1 → leAt b 1 1 ≤ 64 →
    ∃ t, exec (.reIndWriteFunction f) s = .next t ∧
      (t.chip.fnCtx f).tagLo = leAt b 2 1 ∧ (t.chip.fnCtx f).tagHi = leAt b 3 1 ∧ (t.chip.fnCtx f).tagDefault = leAt b 4 1 ∧
      (t.chip.fnCtx f).rate = leAt b 6 2 ∧ (t.chip.fnCtx f).weight = (s.chip.fnCtx f).weight ∧
      t.chip.rd RE_IND_CMD.STATUS = 0 ∧ t.chip.re.rings = s.chip.re.rings ∧ s.chip.SameMemory t.chip)

/-- R69: CPL_CI carries the new consumer index; a value that would move it back or past the producer index is discarded with
RE_ERR.DB_RANGE, and the ring stays in service. -/
def Obligations.CplCiMovesTheConsumerIndex : Prop :=
  ∀ (s : State) (internal : Bool) (group off value : Nat), group < 256 → off < 256 → off % 4 = 0 →
    ∀ g : Ring, g = s.chip.ring (32 * group + off / 8) → g.state = 1 → g.internal = internal →
    (internal = false → (s.chip.hostFn group).inFlr = false) →
    (wrapSub value g.crCi 32 ≤ wrapSub g.crPi g.crCi 32 →
      ∃ t, exec (.cplCi internal group off 4 value) s = .next t ∧
        t.chip.ring (32 * group + off / 8) = { g with crCi := value % 2 ^ 32 } ∧
        (∀ r, r ≠ 32 * group + off / 8 → t.chip.ring r = s.chip.ring r) ∧
        s.chip.SameMemory t.chip ∧ s.chip.SameRegs [HF_STATUS.LSTATE] t.chip ∧ t.chip.out = s.chip.out) ∧
    (wrapSub g.crPi g.crCi 32 < wrapSub value g.crCi 32 →
      ∃ t, exec (.cplCi internal group off 4 value) s = .next t ∧
        t.chip.ring (32 * group + off / 8) = g ∧ t.chip.rd RE_ERR.DB_RANGE = 1 ∧
        s.chip.SameMemory t.chip ∧ s.chip.SameRegs [HF_STATUS.LSTATE, RE_ERR.DB_RANGE] t.chip)

/-- R62, R66, R73, R77, R78, R80: an internal-pool ring whose work ring lies in package memory is fetched; the descriptor
read taken into a job context moves WR_CI past it, and the job then waits for its parameter block; a parameter block that
passes its checks makes a RECALL job without erasure code ready to be dispatched; when the oldest unsignalled record of an
internal-pool ring is COAL_BEATS beats old, the ring writes MSI_DATA to MSI_ADDR, once. Where the rules leave a point open,
this states the model's reading: log entries 35, 36 and 40. -/
def Obligations.FetchingAndSignalling : Prop :=
  (∀ (s : State) (r : Nat), (s.chip.ring r).internal = true → s.chip.mayFetch r = true →
    s.chip.isHost (s.chip.ringDev r) (s.chip.ring r).fetchAt 64 = false →
    exec (.descriptorFetch r) s = .next (s.after (s.chip.setRing r fun g => { g with fetching := true }))) ∧
  (∀ (s : State) (r : Nat) (b : Bytes), (s.chip.ring r).fetching = true → s.chip.arrivedAll (.descriptor r) = true →
    s.chip.contextFree (if (s.chip.ring r).internal then 256 else r / 32) = true →
    s.chip.dmaRead (joinReads (s.chip.answers (.descriptor r)).reverse) (s.chip.ringDev r) (s.chip.ring r).fetchAt 64 =
      .bytes b →
    (Desc.ofBytes b).opcode ≠ 6 → s.chip.descRefused r (Desc.ofBytes b) = none →
    s.chip.isHost (s.chip.ringDev r) (Desc.ofBytes b).param 128 = false →
    ∃ t, exec (.descriptorReadDone r) s = .next t ∧
      (t.chip.ring r).wrCi = ((s.chip.ring r).wrCi + 1) % 2 ^ 32 ∧
      (t.chip.ring r).inProgress = (s.chip.ring r).inProgress + 1 ∧ (t.chip.ring r).fetching = false ∧
      (t.chip.job s.chip.newContext).desc = Desc.ofBytes b ∧ (t.chip.job s.chip.newContext).ring = r ∧
      (t.chip.job s.chip.newContext).state = .paramRead ∧
      s.chip.SameMemory t.chip ∧ s.chip.SameRegs [] t.chip ∧ t.chip.out = s.chip.out) ∧
  (∀ (s : State) (c : Nat) (p : Bytes) (j : Job), j = s.chip.job c → s.chip.jobUsed c = true → j.state = .paramRead →
    s.chip.arrivedAll (.param c) = true → j.desc.opcode = 2 → j.desc.encrypt = false →
    s.chip.dmaRead (joinReads (s.chip.answers (.param c)).reverse) (s.chip.devOfRing j.ring j.internal) j.desc.param 128 =
      .bytes p →
    j.desc.paramInvalid p (s.chip.on BT_CTRL.LEN) = none →
    ∃ t, exec (.paramBlockReadDone c) s = .next t ∧
      t.chip.job c = { j with params := p, state := .waiting, waitingRegion := false } ∧
      s.chip.SameMemory t.chip ∧ s.chip.SameRegs [] t.chip ∧ t.chip.out = s.chip.out) ∧
  (∀ (s : State) (r : Nat), (s.chip.ring r).coalBeats ≠ 0 → (s.chip.ring r).sinceIrq ≠ 0 →
    (s.chip.ring r).oldest + (s.chip.ring r).coalBeats ≤ s.chip.now → (s.chip.ring r).internal = true →
    ∃ t, exec (.coalBeatsExpiry r) s = .next t ∧
      t.chip.out = .msi (s.chip.ring r).msiAddr (s.chip.ring r).msiData :: s.chip.out ∧
      t.chip.ring r = { s.chip.ring r with sinceIrq := 0, oldest := 0 } ∧
      s.chip.SameMemory t.chip ∧ s.chip.SameRegs [] t.chip)

/-- R44, R81, R84, R86: the credits of a window add up to its shared slots, whatever the place of the rotating pointer; the
plan of a beat gives each engine at most one segment and each job at most one engine, takes only engines that can take a
segment and jobs that are ready, and spends credit on at most S = E − V slots. Where the rules leave a point open, this
states the model's reading: log entry 37. -/
def Obligations.WindowPlans : Prop :=
  (∀ t n ptr : Nat, 0 < n → ((List.range n).map (windowCredit t n ptr)).sum = t) ∧
  (∀ k : Chip, k.takeWindow.enabledFns ≠ [] →
    (k.takeWindow.enabledFns.map fun f => (k.takeWindow.fnCtx f).credit).sum =
      256 * (k.takeWindow.re.e - k.takeWindow.re.v)) ∧
  (∀ k : Chip,
    (k.planBeat.re.plan.map fun p => p.1).Nodup ∧ (k.planBeat.re.plan.map fun p => p.2.1).Nodup ∧
    (∀ p ∈ k.planBeat.re.plan, p.1 ∈ k.freeEngines ∧ k.jobReady p.2.1 = true) ∧
    (k.planBeat.re.plan.filter fun p => p.2.2 == 1).length ≤ k.re.e - k.re.v)

/-! ### Running segments and accumulation (04 to 06) -/

/-- R43, R58, R98, R140, R141, R144, R146: the running segment of a COPY job reads its input and writes it unchanged to DST
at the same offset; an accumulate write puts the line into DST, folds it into the region of the job and logs it; a close
writes the stripe's parity fragments to DST and zeroes the region's lines; a segment that has run, whose accumulate items are
all taken, that awaits no signature and whose remote writes count as written is finished. Where the rules leave a point open,
this states the model's reading: log entries 40 and 41. -/
def Obligations.SegmentsRunAndClose : Prop :=
  (∀ (s : State) (e n : Nat) (sg : Seg) (j : Job) (inp : List HostRead) (b : Bytes) (k' : Chip),
    (s.chip.engine e).seg = some sg → sg.ran = false → j = s.chip.job sg.job → j.desc.opcode = 6 →
    n = min s.chip.segmentSize (j.desc.length - j.ck.pos) →
    s.chip.dmaRead (inp ++ sg.ahead) (s.chip.devOfRing j.ring j.internal) (j.desc.src + j.ck.pos) n = .bytes b → b ≠ [] →
    j.ck.pos + b.length ≤ j.desc.dstLimit →
    s.chip.dmaWrite (s.chip.devOfRing j.ring j.internal) (j.desc.dst + j.ck.pos) b false (some sg.job) = (k', true) →
    ∃ t x, exec (.engineReadData e inp) s = .next t ∧ t.chip.mem = k'.mem ∧ (t.chip.engine e).seg = some x ∧
      x.ran = true ∧ x.status = none ∧ x.after.pos = j.ck.pos + n ∧ x.after.outLen = j.ck.outLen + b.length) ∧
  (∀ (s : State) (e a off stripe col pos : Nat) (data : Bytes) (rest : List OutItem) (sg : Seg) (j : Job) (k' : Chip),
    (s.chip.engine e).seg = some sg → sg.items = .fold (some a) data off stripe col pos :: rest →
    s.chip.foldsHeld sg.job = false → j = s.chip.job sg.job →
    k' = (s.chip.dmaWrite (s.chip.devOfRing j.ring j.internal) a data false (some sg.job)).1 →
    exec (.accWr e) s = .next (s.after (Chip.setEngine (k'.setRegion sg.job fun g => { g with
        acc := j.regionCode.fold j.desc.field g.acc col (64 * pos + off) data
        log := g.log ++ [.fold (some a) data off stripe col pos] }) e
      fun g => { g with seg := g.seg.map fun s => { s with items := s.items.drop 1 } }))) ∧
  (∀ (s : State) (e stripe cols : Nat) (ps : List (Nat × Option Nat × Bytes)) (rest : List OutItem) (sg : Seg) (j : Job),
    (s.chip.engine e).seg = some sg → sg.items = .close stripe cols ps :: rest → s.chip.foldsHeld sg.job = false →
    j = s.chip.job sg.job →
    exec (.close e) s = .next (s.after (Chip.setEngine (Chip.popItem (Chip.setRegion
        (s.chip.writeParity j sg.key.key (((s.chip.region sg.job).map (·.acc)).getD []) ps sg.job) sg.job fun g => { g with
          copy := if j.closeCopy && g.copy.isNone then some g.acc else g.copy
          acc := g.acc.map fun a => zeros a.length
          log := g.log ++ [.close stripe cols ps] }) e) e
      fun g => { g with seg := g.seg.map fun s => { s with closes := s.closes + 1 } }))) ∧
  (∀ (s : State) (e : Nat) (sg : Seg), (s.chip.engine e).seg = some sg → sg.ran = true → sg.items = [] →
    sg.signWait = false → s.chip.writesDone sg.job = true →
    ∃ t bin, exec (.segmentFinish e) s = .next t ∧
      (t.chip.engine e).seg = some { sg with finished := true, bin := bin } ∧
      (∀ e', e' ≠ e → t.chip.engine e' = s.chip.engine e') ∧ t.chip.re = s.chip.re ∧
      s.chip.SameMemory t.chip ∧ s.chip.SameRegs [] t.chip ∧ t.chip.out = s.chip.out)

/-- R130, R140, R145: folding the same bytes twice at the same place cancels, and two folds may arrive in either order. -/
def Obligations.FoldsCancelAndCommute : Prop :=
  (∀ (c : Code) (field j off : Nat) (acc : List Bytes) (bs : Bytes),
    (∀ row ∈ acc, row.length % 2 = 0 ∧ off + bs.length ≤ row.length) →
    c.fold field (c.fold field acc j off bs) j off bs = acc) ∧
  (∀ (c : Code) (field j j' off off' : Nat) (acc : List Bytes) (bs bs' : Bytes),
    (∀ row ∈ acc, row.length % 2 = 0 ∧ off + bs.length ≤ row.length ∧ off' + bs'.length ≤ row.length) →
    c.fold field (c.fold field acc j off bs) j' off' bs' = c.fold field (c.fold field acc j' off' bs') j off bs)

/-- R125, R138, R145, R147, R458: with a signing key loaded, no restart under way and no key change pending, a closing
segment's request waits for the signature, and the signature it gets is that of the manifest under the signing key; waiting
jobs get their regions in the order in which they started waiting, none ahead of one that does not fit; a restored region
lets its folds go on; a lost accumulator line has the region built again. Where the rules leave a point open, this states the
model's reading: log entry 42. -/
def Obligations.SigningAndRegions : Prop :=
  (∀ (s : State) (e : Nat) (sg : Seg) (m : Bytes) (rest : List OutItem), (s.chip.engine e).seg = some sg →
    sg.items = .sign m :: rest → s.chip.signs = true →
    (∃ t, exec (.signRequest e) s = .next t ∧ (t.chip.engine e).seg = some { sg with signWait := true } ∧
      t.chip.pwr.gatedSign = false ∧ s.chip.SameMemory t.chip ∧ s.chip.SameRegs [] t.chip) ∧
    (sg.signWait = true → ∃ t r x,
      r = Run.closeSeal { k := s.chip, ck := sg.after } (s.chip.segCtx sg [])
        (m ++ p384Sign (s.chip.ws.signKey.getD 0) m) ∧
      exec (.signatureReturn e) s = .next t ∧ (t.chip.engine e).seg = some x ∧ x.signWait = false ∧
      x.after = r.ck ∧ x.status = r.st ∧ (r.st = none → x.items = r.items) ∧ t.chip.mem = r.k.mem)) ∧
  (∀ (s : State) (c : Nat), s.chip.re.regionQueue = [c] → s.chip.jobUsed c = true →
    s.chip.lockUsed + (s.chip.job c).footprint ≤ s.chip.lockLimit →
    ∃ t, exec .accumRegionAllocate s = .next t ∧ (t.chip.job c).region = some s.chip.newRegion ∧
      (t.chip.job c).waitingRegion = false ∧ t.chip.re.regionQueue = [] ∧
      (t.chip.acc.find s.chip.newRegion).map (·.job) = some c ∧ s.chip.SameMemory t.chip) ∧
  (∀ (s : State) (c : Nat) (cs : List Nat), s.chip.re.regionQueue = c :: cs →
    s.chip.lockLimit < s.chip.lockUsed + (s.chip.job c).footprint →
    exec .accumRegionAllocate s = .next (s.after s.chip)) ∧
  (∀ (s : State) (c : Nat) (g : Region), s.chip.region c = some g → g.restoring = true →
    ∃ t g', exec (.accumRestoreDone c) s = .next t ∧ t.chip.region c = some g' ∧ g'.restoring = false ∧ g'.log = [] ∧
      g'.job = g.job ∧ s.chip.SameMemory t.chip ∧ s.chip.SameRegs [] t.chip) ∧
  (∀ (s : State) (c : Nat) (g : Region), s.chip.region c = some g →
    exec (.accumLineUncorrectable c) s =
      .next (s.after ((s.chip.log { cls := 2, unitType := 5, unit := 0 }).setJob c fun j => { j with rebuild := true })))

/-! ### Conos (07) -/

/-- R174, R175, R198, R199, R200: a port trains step by step, waits its 10 ms after a failed step, takes its peer's identity
at step 4, sends and sees the wake pattern, and goes down when its lanes are lost. Where the rules leave a point open, this
states the model's reading: log entries 45 and 50. -/
def Obligations.PortsTrainAndWake : Prop :=
  (∀ (s : State) (p : Nat), p < 4 → s.chip.cnState p = 0 ∨ s.chip.cnState p = 4 →
    exec (.cnPortEnable p) s = .next (s.after ((((s.chip.wr (CN_PORT_CTRL.ENABLE p) 1).wr (CN_PORT_STATUS.STATE p) 1).wr
      (CN_PORT_STATUS.STEP p) 1).setPort p fun x => { x with
        failures := 0, timer := false, identHeld := false, identSeen := false }))) ∧
  (∀ (s : State) (p step : Nat), p < 4 → s.chip.cnTraining p = true → (s.chip.port p).timer = false →
    step = s.chip.rd (CN_PORT_STATUS.STEP p) → step < 6 → step ≠ 3 → (step = 4 → (s.chip.port p).identHeld = false) →
    exec (.conosTrainingStepDone p true) s = .next (s.after (s.chip.wr (CN_PORT_STATUS.STEP p) (step + 1)))) ∧
  (∀ (s : State) (p : Nat), p < 4 → (s.chip.port p).timer = true →
    exec (.conosTrainingRetryTimer p) s = .next (s.after ((s.chip.wr (CN_PORT_STATUS.STEP p) 1).setPort p fun x => { x with
      timer := false }))) ∧
  (∀ (s : State) (p pkg peerPort len : Nat), p < 4 → s.chip.cnTraining p = true → s.chip.rd (CN_PORT_STATUS.STEP p) = 4 →
    (s.chip.port p).timer = false → pkg ≠ s.chip.rd CN_ID.PKG_ID →
    exec (.ident p pkg peerPort 1 len) s = .next (s.after (((s.chip.wr (CN_PORT_STATUS.PEER_PKG p) pkg).wr
      (CN_PORT_STATUS.PEER_PORT p) peerPort).setPort p fun x => { x with
        identHeld := false, identSeen := true, peerPkg := pkg }))) ∧
  (∀ (s : State) (p : Nat), p < 4 → s.chip.cnState p = 0 ∨ s.chip.cnState p = 4 →
    exec (.cnWakeSend (2 ^ p)) s = .next (s.after (((s.chip.wr CN_WAKE.SENDING (setBit (s.chip.rd CN_WAKE.SENDING) p)).setPort p
      fun x => { x with pattern := true, wakeRetry := s.chip.time + 100000000 }).emit (.wakePattern p)))) ∧
  (∀ (s : State) (p : Nat), p < 4 → (s.chip.port p).pattern = true →
    exec (.wakePatternEnd p) s = .next (s.after (((s.chip.wr CN_WAKE.SENDING (clearBit (s.chip.rd CN_WAKE.SENDING) p)).setPort p
      fun x => { x with pattern := false }).startTraining p))) ∧
  (∀ (s : State) (p : Nat), p < 4 → s.chip.pwr.pkg = .run →
    exec (.wakePatternDetected p) s = .next (s.after ((s.chip.wr CN_WAKE.SEEN (setBit (s.chip.rd CN_WAKE.SEEN) p)).setPort p
      fun x => { x with wakeRetry := s.chip.time + 100000000 }))) ∧
  (∀ (s : State) (p : Nat), p < 4 → ∃ t, exec (.conosLaneLoss p) s = .next t ∧ t.chip.rd (CN_PORT_STATUS.STATE p) = 0 ∧
    t.chip.rd CN_EVENT.PORT_FAILED = 1 ∧ (t.chip.port p).replay = [] ∧ (t.chip.port p).waiting = [])

/-- R178 to R181: a frame with the expected LINK_SEQ is accepted and its credit owed; an acknowledgement frees the replay
buffer; what is not acknowledged is sent again, and a port without progress after 8 resends retrains; FLOW_ACK empties the
store of the frames that it covers; an answer that is missing or that asks for a frame again counts a resend, and memory
stays. Where the rules leave a point open, this states the model's reading: log entries 46 and 47. -/
def Obligations.ConosRetransmission : Prop :=
  (∀ (s : State) (p : Nat) (f : Frame), p < 4 → s.chip.cnState p = 2 → f.nak = false → f.kind ≠ 0 →
    (s.chip.port p).waiting = [] → f.linkSeq = (s.chip.port p).rxSeq → f.dst = s.chip.rd CN_ID.PKG_ID →
    ∃ t, exec (.conosFrameReceived p f true) s = .next t ∧
      (t.chip.port p).rxSeq = ((s.chip.port p).rxSeq + 1) % 65536 ∧
      (t.chip.port p).owed = (s.chip.port p).owed.set f.vc ((s.chip.port p).owed.getD f.vc 0 + 1) ∧
      (t.chip.port p).replay = (s.chip.port p).replay.filter (fun x => !serialLe x.linkSeq f.linkAck 16) ∧
      t.chip.out = s.chip.out ∧ s.chip.SameMemory t.chip ∧ s.chip.SameRegs [] t.chip) ∧
  (∀ (s : State) (p : Nat) (f : Frame), p < 4 → s.chip.cnState p = 2 →
    exec (.conosFrameReceived p f false) s = .next (s.after (s.chip.sendNak p))) ∧
  (∀ (s : State) (p : Nat), p < 4 → s.chip.cnState p = 2 → (s.chip.port p).replay ≠ [] → (s.chip.port p).resends < 8 →
    ∃ t, exec (.linkAckTimeout p) s = .next t ∧ (t.chip.port p).resends = (s.chip.port p).resends + 1 ∧
      (t.chip.port p).replay = (s.chip.port p).replay ∧
      t.chip.out = ((s.chip.port p).replay.map (Out.frame p)).reverse ++ s.chip.out ∧
      s.chip.SameMemory t.chip ∧ s.chip.SameRegs [CN_PORT_CNT.RESENDS p] t.chip) ∧
  (∀ (s : State) (p : Nat), p < 4 → s.chip.cnState p = 2 → (s.chip.port p).replay ≠ [] → 8 ≤ (s.chip.port p).resends →
    ∃ t, exec (.linkAckTimeout p) s = .next t ∧ t.chip.cnState p = 3 ∧ t.chip.rd (CN_PORT_STATUS.STEP p) = 1 ∧
      t.chip.out = s.chip.out) ∧
  (∀ (s : State) (p ack : Nat) (left : List Frame), p < 4 → s.chip.cnState p = 2 →
    left = (s.chip.port p).replay.filter (fun x => !serialLe x.linkSeq ack 16) → left ≠ [] →
    left.length < (s.chip.port p).replay.length →
    ∃ t, exec (.linkNak p ack) s = .next t ∧ (t.chip.port p).replay = left ∧ (t.chip.port p).resends = 1 ∧
      t.chip.out = (left.map (Out.frame p)).reverse ++ s.chip.out ∧ s.chip.SameMemory t.chip) ∧
  (∀ (s : State) (peer vc seq : Nat) (left : List Frame), vc < 2 → (s.chip.flow peer vc).unacked.length ≤ 1024 →
    left = (s.chip.flow peer vc).unacked.filter (fun f => !serialLe f.flowSeq seq 32) →
    left.length < (s.chip.flow peer vc).unacked.length →
    exec (.flowAck peer vc seq) s = .next (s.after (s.chip.setFlow peer vc fun l => { l with unacked := left, resends := 0 }))) ∧
  (∀ (s : State) (peer vc : Nat), vc < 2 → (s.chip.flow peer vc).unacked ≠ [] → s.chip.flt.fatal = false →
    (s.chip.flow peer vc).resends < 8 →
    ∃ t, exec (.flowAckTimeout peer vc) s = .next t ∧ (t.chip.flow peer vc).resends = (s.chip.flow peer vc).resends + 1 ∧
      (t.chip.flow peer vc).unacked = (s.chip.flow peer vc).unacked ∧ s.chip.SameMemory t.chip ∧ t.chip.re = s.chip.re) ∧
  (∀ (s : State) (peer vc seq : Nat), vc < 2 → (s.chip.flow peer vc).unacked ≠ [] → s.chip.flt.fatal = false →
    (s.chip.flow peer vc).resends < 8 →
    (∀ f ∈ (s.chip.flow peer vc).unacked, serialLe f.flowSeq (wrapSub seq 1 32) 32 = false) →
    ∃ t, exec (.flowNak peer vc seq) s = .next t ∧ (t.chip.flow peer vc).resends = (s.chip.flow peer vc).resends + 1 ∧
      (t.chip.flow peer vc).unacked = (s.chip.flow peer vc).unacked ∧ s.chip.SameMemory t.chip)

/-- R185, R187, R190, R191, R193 to R195: an operation in its flow that its window allows acts on memory at the window's
base: a WRITE and the first frame of a PUSH land their bytes, a READ_REQ is answered with the bytes it asks for; one that the
window denies is refused and leaves memory alone; answers at the source: the last READ_RSP gives the hart its value and frees
the tag, a PUSH_ACK, a full window that stays full and a missing answer end the push with its status, and a refused read
returns poison. Where the rules leave a point open, this states the model's reading: log entries 47 and 48. -/
def Obligations.ConosOperations : Prop :=
  (∀ (s : State) (f : Frame) (k1 k2 : Chip) (e : WinEntry), s.chip.flowArrives f = (k1, true) →
    (k1.flow f.src f.vc).refused = false → (k1.window (k1.stampOp f).1).mapping (k1.stampOp f).2.1 = some e →
    e.denies f.src 1 3 (f.arg % 2 ^ 26) f.body.length = false →
    k1.dmaWrite e.deviceId (e.base + f.arg % 2 ^ 26) f.body f.poison = (k2, true) →
    ∃ t, exec (.write f) s = .next t ∧ t.chip.mem = k2.mem ∧ t.chip.poison = k2.poison) ∧
  (∀ (s : State) (f : Frame) (k1 : Chip) (e : WinEntry), s.chip.flowArrives f = (k1, true) →
    (k1.flow f.src f.vc).refused = false → (k1.window (k1.stampOp f).1).mapping (k1.stampOp f).2.1 = some e →
    e.denies f.src 1 3 (f.arg % 2 ^ 26) f.body.length = true →
    exec (.write f) s = .next (s.after (((k1.refuseOp f (k1.stampOp f).2.2 2).keepOp f (k1.stampOp f) true).ackFlow f)) ∧
      k1.mem = s.chip.mem) ∧
  (∀ (s : State) (f : Frame) (k1 : Chip) (e : WinEntry) (b : Bytes), s.chip.flowArrives f = (k1, true) →
    e = (k1.window f.window).entry →
    0 < leAt f.body 0 4 → leAt f.body 0 4 ≤ 4096 → e.denies f.src 1 2 (leAt f.body 4 4) (leAt f.body 0 4) = false →
    (k1.ackFlow f).dmaRead [] e.deviceId (e.base + leAt f.body 4 4) (leAt f.body 0 4) = .bytes b →
    exec (.readReq f) s = .next (s.after ((pieces 224 b).zipIdx.foldl (fun k p =>
      k.sendFlow (k.newFrame 3 1 f.src f.window (f.arg % 65536 + 65536 * p.2) (p.2 + 1 == (pieces 224 b).length) p.1))
      (k1.ackFlow f)))) ∧
  (∀ (s : State) (f : Frame) (k1 k2 : Chip) (e : WinEntry) (sl : Nat), s.chip.flowArrives f = (k1, true) →
    (k1.flow f.src f.vc).refused = false → f.arg % 2 ^ 21 = 0 → f.last = false →
    k1.cn.landings.find (2048 * f.src + f.arg / 2 ^ 21 % 2048) = none →
    (k1.window (k1.stampOp f).1).mapping (k1.stampOp f).2.1 = some e →
    e.denies f.src 2 0 0 (64 + leAt f.body 32 4) = false → (k1.window (k1.stampOp f).1).freeSlot e = some sl →
    k1.dmaWrite e.deviceId (e.base + sl * 2 ^ e.slotLog2 + f.arg % 2 ^ 21) f.body f.poison = (k2, true) →
    ∃ t, exec (.push f) s = .next t ∧ t.chip.mem = k2.mem ∧
      t.chip.cn.landings.find (2048 * f.src + f.arg / 2 ^ 21 % 2048) =
        some { window := (k1.stampOp f).1, gen := (k1.stampOp f).2.1, slot := sl, head := f.body.take 64 }) ∧
  (∀ (s : State) (f : Frame) (k1 : Chip) (r : RemoteRead) (h : Nat), s.chip.flowArrives f = (k1, true) →
    (k1.ackFlow f).cn.reads.find (f.arg % 65536) = some r → r.peer = f.src → r.got = [] → f.arg / 65536 = 0 →
    r.poisoned = false → f.poison = false → 0 < r.len → r.len ≤ 224 → r.hart = some h →
    ∃ t, exec (.readRsp f) s = .next t ∧ t.chip.out.head? = some (.loadValue h (ofLe f.body) false) ∧
      t.chip.cn.reads.find (f.arg % 65536) = none ∧ s.chip.SameMemory t.chip) ∧
  (∀ (s : State) (f : Frame) (k1 : Chip) (u : Push), s.chip.flowArrives f = (k1, true) →
    (k1.ackFlow f).cn.pushes.find (f.arg % 2048) = some u → u.peer = f.src →
    exec (.pushAck f) s = .next (s.after ((k1.ackFlow f).endPush (f.arg % 2048) (leAt f.body 0 2) (leAt f.body 8 8)))) ∧
  (∀ (s : State) (f : Frame) (k1 : Chip) (tag : Nat) (r : RemoteRead), s.chip.flowArrives f = (k1, true) →
    (k1.ackFlow f).cn.pushes.find? (fun e => e.2.peer == f.src && e.2.flowSeq == f.arg) = none →
    (k1.ackFlow f).cn.reads.find? (fun e => e.2.peer == f.src && e.2.flowSeq == f.arg) = some (tag, r) →
    leAt f.body 0 2 = 2 →
    exec (.opNak f) s = .next (s.after ((k1.ackFlow f).failRead tag 2))) ∧
  (∀ (s : State) (tag : Nat) (r : RemoteRead), s.chip.cn.reads.find tag = some r → r.hart = none →
    ∃ t, exec (.readFailed tag) s = .next t ∧ t.chip.cn.reads.find tag = none ∧ t.chip.rd CN_EVENT.READ_FAILED = 1 ∧
      s.chip.SameMemory t.chip) ∧
  (∀ (s : State) (tag : Nat) (u : Push), s.chip.cn.pushes.find tag = some u → u.job = none → s.chip.cn.pushQueue = [] →
    (∃ t, exec (.pushAckTimeout tag) s = .next t ∧ t.chip.cn.pushes.find tag = none ∧ s.chip.SameMemory t.chip ∧
      s.chip.SameRegs [] t.chip) ∧
    (u.fullSince.isSome = true → ∃ t, exec (.pushFullWaitExpiry tag) s = .next t ∧ t.chip.cn.pushes.find tag = none ∧
      s.chip.SameMemory t.chip ∧ s.chip.SameRegs [] t.chip))

/-- R180, R183, R187 to R191, R202: an access to the aperture with a route becomes a remote write with the next FLOW_SEQ,
here over the loop back to this package, or a remote read with a new READ_TAG; a write of a window goes to its shadow and
leaves the entry in effect, a write of a route takes effect, a read shows the entry, and a window with no older operation
left is drained. Where the rules leave a point open, this states the model's reading: log entry 47. -/
def Obligations.ApertureAndTables : Prop :=
  (∀ (s : State) (addr : Nat) (bs : Bytes) (who : By), inAperture addr = true → s.chip.on CN_CTRL.ENABLE = true →
    s.chip.flt.fatal = false → (apertureParts addr).1 = s.chip.rd CN_ID.PKG_ID → bs ≠ [] → bs.length ≤ 224 →
    exec (.conosApertureWrite addr bs who) s = .next (s.after
      ((s.chip.setFlow (s.chip.rd CN_ID.PKG_ID) 0 fun l => { l with
          txSeq := (l.txSeq + 1) % 2 ^ 32, syncDue := false }).emit
        (.frame 4 { s.chip.newFrame 1 0 (s.chip.rd CN_ID.PKG_ID) (apertureParts addr).2.1 (apertureParts addr).2.2 true bs with
          poison := false
          flowSeq := (s.chip.flow (s.chip.rd CN_ID.PKG_ID) 0).txSeq
          sync := (s.chip.flow (s.chip.rd CN_ID.PKG_ID) 0).syncDue })))) ∧
  (∀ (s : State) (addr len : Nat) (who : By), inAperture addr = true → s.chip.reachable (apertureParts addr).1 = true →
    who.source ≠ 0 →
    ∃ t, exec (.conosApertureRead addr len who) s = .next t ∧ t.chip.cn.nextTag = (s.chip.cn.nextTag + 1) % 65536 ∧
      t.chip.cn.reads.find s.chip.cn.nextTag = some
        { peer := (apertureParts addr).1, window := (apertureParts addr).2.1, off := (apertureParts addr).2.2
          flowSeq := (s.chip.flow (apertureParts addr).1 0).txSeq, len := len } ∧
      s.chip.SameMemory t.chip) ∧
  (∀ (s : State) (w : Nat) (e : WinEntry), w < 1024 → e = WinEntry.ofBytes (s.chip.indBytes CN_IND_DATA.DATA 4) →
    e.valid = true →
    ∃ t, exec (.cnWindowWrite w) s = .next t ∧ (t.chip.window w).shadow = some e ∧
      (t.chip.window w).entry = (s.chip.window w).entry ∧ (t.chip.window w).gen = (s.chip.window w).gen ∧
      (∀ w', w' ≠ w → t.chip.window w' = s.chip.window w') ∧ t.chip.rd CN_IND_CMD.STATUS = 0 ∧ t.chip.rd CN_IND_CMD.GO = 0 ∧
      s.chip.SameMemory t.chip) ∧
  (∀ (s : State) (p : Nat), p < 16384 → ∃ t, exec (.cnRouteWrite p) s = .next t ∧
    Tbl.get 0 t.chip.cn.routes p = leAt (s.chip.indBytes CN_IND_DATA.DATA 1) 0 2 % 64 ∧
    (∀ p', p' ≠ p → Tbl.get 0 t.chip.cn.routes p' = Tbl.get 0 s.chip.cn.routes p') ∧ t.chip.rd CN_IND_CMD.STATUS = 0 ∧
    s.chip.SameMemory t.chip) ∧
  (∀ (s : State) (w : Nat), w < 1024 → ∃ t, exec (.cnIndRead 0 w) s = .next t ∧
    t.chip.indBytes CN_IND_DATA.DATA 4 = (s.chip.window w).bytes ∧ t.chip.rd CN_IND_CMD.STATUS = 0 ∧
    t.chip.cn = s.chip.cn ∧ s.chip.SameMemory t.chip) ∧
  (∀ (s : State) (w : Nat), w < 1024 → (s.chip.window w).draining = true → s.chip.olderInFlight w = false →
    ∃ t, exec (.winDrained w) s = .next t ∧ (t.chip.window w).draining = false ∧ (t.chip.window w).drained = true ∧
      (t.chip.window w).old = [] ∧ t.chip.rd CN_EVENT.DRAINED = 1 ∧ s.chip.SameMemory t.chip)

/-! ### The host endpoint (08) -/

/-- R205, R206, R223, R224, R516: an FLR ends the service of its function, resets its function-pool rings and quarantines its
tags until FLR_COMPLETE; a function may be enabled and disabled; a reset of the endpoint disables every function and takes
the link down; a link that comes up shows its speed. Where the rules leave a point open, this states the model's reading: log
entries 7 and 51. -/
def Obligations.FunctionService : Prop :=
  (∀ (s : State) (f : Nat), ∃ t, exec (.flr f) s = .next t ∧
    t.chip.fnEnabled f = false ∧ (t.chip.hostFn f).inFlr = true ∧ (t.chip.hostFn f).dropDue = true ∧
    (t.chip.fnCtx f).credit = 0 ∧ (t.chip.fnCtx f).deferred = 0 ∧
    (∀ e ∈ t.chip.hf.tags, e.2.fn = f → e.2.quarantined = true) ∧
    (∀ e ∈ t.chip.re.rings, e.1 / 32 = f → e.2.internal = false →
      e.2.wrPi = 0 ∧ e.2.wrCi = 0 ∧ e.2.crPi = 0 ∧ e.2.crCi = 0 ∧ e.2.fetching = false) ∧
    s.chip.SameMemory t.chip ∧ s.chip.SameRegs [] t.chip ∧ t.chip.out = s.chip.out) ∧
  (∀ (s : State) (f : Nat), ∃ t, exec (.flrComplete f) s = .next t ∧
    t.chip.hostFn f = { s.chip.hostFn f with inFlr := false } ∧ (∀ g, g ≠ f → t.chip.hostFn g = s.chip.hostFn g) ∧
    t.chip.re = s.chip.re ∧ s.chip.SameMemory t.chip ∧ s.chip.SameRegs [] t.chip) ∧
  (∀ (s : State) (f : Nat), (∃ t, exec (.functionEnableChange (.busMaster f true)) s = .next t ∧
      t.chip.hostFn f = { s.chip.hostFn f with busMaster := true } ∧ t.chip.re = s.chip.re ∧ s.chip.SameMemory t.chip ∧
      s.chip.SameRegs [] t.chip) ∧
    (f < 256 → s.chip.fnEnabled f = true → ∃ t, exec (.functionEnableChange (.busMaster f false)) s = .next t ∧
      t.chip.hostFn f = { s.chip.hostFn f with busMaster := false, dropDue := true } ∧ (t.chip.fnCtx f).credit = 0 ∧
      (∀ e ∈ t.chip.hf.tags, e.2.fn = f → e.2.quarantined = true) ∧ s.chip.SameMemory t.chip ∧
      s.chip.SameRegs [] t.chip)) ∧
  (∀ s : State, ∃ t, exec .endpointReset s = .next t ∧ t.chip.enabledFns = [] ∧ t.chip.rd HF_STATUS.LINK_UP = 0 ∧
    t.chip.rd HF_STATUS.LSTATE = 5 ∧ s.chip.SameMemory t.chip ∧
    s.chip.SameRegs [HF_STATUS.LINK_UP, HF_STATUS.SPEED, HF_STATUS.WIDTH, HF_STATUS.FLIT, HF_STATUS.LSTATE] t.chip) ∧
  (∀ (s : State) (speed width : Nat) (flit : Bool), s.chip.on HF_CTRL.LINK_EN = true → s.chip.pwr.gatedEndpoint = false →
    s.chip.pwr.pkg.powered = true → s.chip.rd HF_CTRL.TARGET_SPEED = 0 → speed ≤ 6 → width ≤ 16 →
    ∃ t, exec (.linkUp speed width flit) s = .next t ∧ t.chip.rd HF_STATUS.LINK_UP = 1 ∧
      t.chip.rd HF_STATUS.SPEED = speed ∧ t.chip.rd HF_STATUS.WIDTH = width ∧
      t.chip.rd HF_STATUS.FLIT = ofBool (flit || speed == 6) ∧ t.chip.rd HF_STATUS.LSTATE = 0 ∧ t.chip.hf = s.chip.hf ∧
      s.chip.SameMemory t.chip)

/-- R78, R208, R209, R213, R214, R216, R217, R220 to R223: the completion that brings the last byte of a read frees its tag
and hands over the bytes; a timeout of a quarantined tag only frees it, any other is reported, and a read-ahead that times
out stops its job; the timeout range of a function takes an encoding of the table only; a pending message goes out when its
vector is unmasked; a write to a reserved offset of a BAR is reported; an idle link enters L1 or L0s; an SPDM request is
answered, Busy while the secure world restarts. Where the rules leave a point open, this states the model's reading: log
entries 52 and 53. -/
def Obligations.HostReadsAndMessages : Prop :=
  (∀ (s : State) (fn tag : Nat) (g : HostTag) (data : Bytes), s.chip.hf.tags.find (tagKey' fn tag) = some g → g.got = [] →
    g.quarantined = false → g.use ≠ .dropped → g.poisoned = false → data.length = g.len → s.chip.hf.queue = [] →
    ∃ t, exec (.hostReadCompletion fn tag 0 data false) s = .next t ∧ t.chip.hf.tags = s.chip.hf.tags.erase (tagKey' fn tag) ∧
      t.chip.answers g.use = insertAnswer { iova := g.iova, len := g.len, answer := .data data } (s.chip.answers g.use) ∧
      t.chip.out = s.chip.out ∧ t.chip.re = s.chip.re ∧ s.chip.SameMemory t.chip ∧ s.chip.SameRegs [] t.chip) ∧
  (∀ (s : State) (fn tag off : Nat) (data : Bytes) (poisoned : Bool), s.chip.hf.tags.find (tagKey' fn tag) = none →
    exec (.hostReadCompletion fn tag off data poisoned) s =
      .next (s.after ((s.chip.hfErr HF_ERR.UNEXPECTED_CPL fn 0).aer fn 1))) ∧
  (∀ (s : State) (fn tag : Nat) (g : HostTag), s.chip.hf.tags.find (tagKey' fn tag) = some g → s.chip.hf.queue = [] →
    (g.quarantined = true → exec (.completionTimeout fn tag) s = .next (s.after
      { s.chip with hf := { s.chip.hf with tags := s.chip.hf.tags.erase (tagKey' fn tag) } })) ∧
    (g.quarantined = false → ∀ c, g.use = .readAhead c → ∃ t, exec (.completionTimeout fn tag) s = .next t ∧
      t.chip.rd HF_ERR.CPL_TIMEOUT = 1 ∧ t.chip.hf.tags.find (tagKey' fn tag) = none ∧
      (t.chip.job c).stop = some (7, ((s.chip.job c).segments +
        ofBool ((s.chip.job c).state == .running || (s.chip.job c).state == .replaying)) % 65536))) ∧
  (∀ (s : State) (fn enc : Nat), exec (.completionTimeoutValueWrite fn enc) s = .next (s.after
    (if enc ∈ [0, 1, 2, 5, 6, 9, 10, 13, 14] then s.chip.setHostFn fn fun c => { c with timeoutCode := enc } else s.chip))) ∧
  (∀ (s : State) (fn v : Nat) (e : Vector), (s.chip.hostFn fn).msixOn = true → (s.chip.hostFn fn).mask = false →
    e = Tbl.get {} (s.chip.hostFn fn).vectors v → e.pending = true →
    ∃ t, exec (.msixVectorUnmask fn v) s = .next t ∧ .msix fn v e.addr e.data ∈ t.chip.out ∧
      (Tbl.get {} (t.chip.hostFn fn).vectors v).pending = false ∧ (Tbl.get {} (t.chip.hostFn fn).vectors v).masked = false ∧
      s.chip.SameMemory t.chip ∧ s.chip.SameRegs [HF_STATUS.LSTATE] t.chip) ∧
  (∀ (s : State) (fn off : Nat), barDefined fn off = false →
    exec (.barWriteOutside fn off) s = .next (s.after (s.chip.hfErr HF_ERR.DB_RESERVED fn 0))) ∧
  (∀ (s : State) (fn off : Nat), off < 256 → (s.chip.ring (32 * fn + off / 8)).internal = true →
    exec (.barWriteOutside fn off) s = .next (s.after (s.chip.hfErr HF_ERR.DB_POOL fn (off / 8)))) ∧
  (∀ s : State, s.chip.rd HF_PM.L1_IDLE ≠ 0 → s.chip.on HF_STATUS.LINK_UP = true → bit s.chip.hf.aspm 1 = true →
    s.chip.hf.queue = [] → s.chip.hf.tags = [] → s.chip.noHostSegment = true → s.chip.rd HF_STATUS.LSTATE < 2 →
    exec .l1IdleExpiry s = .next (s.after (s.chip.wr HF_STATUS.LSTATE
      (if bit s.chip.hf.aspm 3 then 4 else if bit s.chip.hf.aspm 2 then 3 else 2)))) ∧
  (∀ s : State, s.chip.on HF_STATUS.LINK_UP = true → s.chip.on HF_STATUS.FLIT = false → bit s.chip.hf.aspm 0 = true →
    s.chip.hf.queue = [] → s.chip.rd HF_STATUS.LSTATE = 0 →
    exec .l0sIdleExpiry s = .next (s.after (s.chip.wr HF_STATUS.LSTATE 1))) ∧
  (∀ (s : State) (code : Nat), ∃ t m, exec (.spdmRequest code) s = .next t ∧ t.chip.out = .spdm m :: s.chip.out ∧
    (s.chip.on WS_STATUS.RESTARTING = true → m = [0x12, 0x7F, 0x03, 0x00]) ∧ s.chip.SameMemory t.chip ∧
    s.chip.SameRegs [] t.chip)

/-! ### Media (09) -/

/-- R231 to R233, R243, R244, R246: a write of a target or queue-pair entry whose values lie in their ranges takes effect
while the target is neither initialising nor ready, an enabled target then initialises; a read shows the entry; a command
that times out with retries left is aborted on the admin pair; an abort without an answer lets the command be sent again; the
targets of a drive that is removed are offline, and one that is added shows its link. Where the rules leave a point open,
this states the model's reading: log entries 54, 55 and 57. -/
def Obligations.MediaTablesAndDrives : Prop :=
  (∀ (s : State) (i : Nat) (b : Bytes) (g : Target), i < 4096 → b = s.chip.indBytes MQ_IND_DATA.DATA 4 →
    targetValuesGood b = true → g = s.chip.target i → g.state = 0 →
    ((g.written b).enabled = false → ∃ t, exec (.mqTargetWrite i) s = .next t ∧ t.chip.target i = g.written b ∧
      (∀ j, j ≠ i → t.chip.target j = s.chip.target j) ∧ t.chip.rd MQ_IND_CMD.STATUS = 0 ∧ t.chip.rd MQ_IND_CMD.GO = 0 ∧
      s.chip.SameMemory t.chip) ∧
    ((g.written b).enabled = true → g.enabled = false → s.chip.on MQ_CTRL.ENABLE = true →
      ∃ t, exec (.mqTargetWrite i) s = .next t ∧ (t.chip.target i).state = 1 ∧ t.chip.rd MQ_IND_CMD.STATUS = 0 ∧
        t.chip.rd MQ_IND_CMD.GO = 0)) ∧
  (∀ (s : State) (i : Nat) (b : Bytes) (q : QPair), i < 8192 → b = s.chip.indBytes MQ_IND_DATA.DATA 4 →
    qpairValuesGood b = true → q = s.chip.qpair i → (s.chip.target q.target).active = false →
    ∃ t, exec (.mqQpWrite i) s = .next t ∧
      t.chip.qpair i = (if bit (q.written b).flags 0 && !bit q.flags 0
        then { q.written b with sqTail := 0, cqHead := 0, cqTail := 0 } else q.written b) ∧
      (∀ j, j ≠ i → t.chip.qpair j = s.chip.qpair j) ∧ t.chip.rd MQ_IND_CMD.STATUS = 0 ∧ t.chip.rd MQ_IND_CMD.GO = 0 ∧
      s.chip.SameMemory t.chip) ∧
  (∀ (s : State) (i : Nat), i < 4096 →
    (∃ t, exec (.mqIndRead 0 i) s = .next t ∧ t.chip.indBytes MQ_IND_DATA.DATA 4 = (s.chip.target i).bytes ∧
      t.chip.rd MQ_IND_CMD.STATUS = 0 ∧ t.chip.mq = s.chip.mq ∧ s.chip.SameMemory t.chip) ∧
    (∃ t, exec (.mqIndRead 1 i) s = .next t ∧ t.chip.indBytes MQ_IND_DATA.DATA 4 = (s.chip.qpair i).bytes ∧
      t.chip.rd MQ_IND_CMD.STATUS = 0 ∧ t.chip.mq = s.chip.mq ∧ s.chip.SameMemory t.chip)) ∧
  (∀ (s : State) (n : Nat) (c : MediaCmd) (ps : List Nat) (k : Chip), s.chip.mq.cmds.find n = some c → c.use = .flush ps →
    c.retries < s.chip.rd MQ_TIMEOUT.RETRIES →
    k = s.chip.mqEvent MQ_EVENT.TIMEOUT c.target (s.chip.target c.target).port 0 →
    exec (.mediaCommandTimeout n) s = .next (s.after (Chip.setCmd (k.newNvme
      { target := c.target, qp := k.adminPair c.target, use := .abort n
        sqe := nvmeEntry 0x08 0 0 0 [(c.qp - k.adminPair c.target) % 65536 + c.cid * 65536, 0, 0, 0, 0, 0] }) n
      fun c => { c with aborted := true }))) ∧
  (∀ (s : State) (n m : Nat) (c : MediaCmd), s.chip.mq.cmds.find n = some c → c.use = .abort m →
    exec (.mediaCommandTimeout n) s = .next (s.after ((s.chip.dropCmd n).retry m))) ∧
  (∀ (s : State) (port : Nat), port < 32 → ∃ t, exec (.driveRemoved port) s = .next t ∧
    bit (t.chip.rd MQ_LINK.UP) port = false ∧ t.chip.rd MQ_EVENT.DRIVE_REMOVED = 1 ∧ port ∉ t.chip.mq.present ∧
    (∀ e ∈ s.chip.mq.targets, e.2.enabled = true → e.2.port = port → (t.chip.target e.1).state = 3)) ∧
  (∀ (s : State) (port : Nat), port < 32 → ∃ t, exec (.driveAdded port) s = .next t ∧
    bit (t.chip.rd MQ_LINK.UP) port = true ∧ t.chip.rd MQ_EVENT.DRIVE_ADDED = 1 ∧ port ∈ t.chip.mq.present ∧
    t.chip.mq.targets = s.chip.mq.targets ∧ t.chip.mq.cmds = s.chip.mq.cmds ∧ s.chip.SameMemory t.chip)

/-- R234, R235, R237: the completion of a pass-through command is written behind the completion queue's tail and signalled,
that of a Flush ends the placements it covers; an accepted entry of a pass-through pair goes to the drive, a refused one is
completed with Invalid Command Opcode; the head doorbell goes to the drive. Where the rules leave a point open, this states
the model's reading: log entries 54 and 57. -/
def Obligations.QueuePairs : Prop :=
  (∀ (k : Chip) (p cid status result : Nat),
    (k.completionEntry p cid status result).out = .msi (k.qpair p).msiAddr (k.qpair p).msiData :: k.out ∧
    (k.completionEntry p cid status result).qpair p =
      { k.qpair p with cqTail := ((k.qpair p).cqTail + 1) % 2 ^ ((k.qpair p).qlog2 + 1) } ∧
    (k.completionEntry p cid status result).mq.cmds = k.mq.cmds) ∧
  (∀ (s : State) (p cid result n c' : Nat) (c : MediaCmd), bit (s.chip.qpair p).flags 1 = true →
    s.chip.mq.cmds.find? (fun e => e.2.qp == p && e.2.cid == cid) = some (n, c) → c.use = .pass c' →
    ∀ status, exec (.driveCompletionCapture p cid status result) s = .next (s.after
      (((s.chip.countMedia (s.chip.target (s.chip.qpair p).target).port).dropCmd n).completionEntry c.qp c'
        (if status % 2048 = 0 then 0 else status) result))) ∧
  (∀ (s : State) (p cid result n : Nat) (c : MediaCmd) (ps : List Nat) (k : Chip), bit (s.chip.qpair p).flags 1 = false →
    s.chip.mq.cmds.find? (fun e => e.2.qp == p && e.2.cid == cid) = some (n, c) → c.use = .flush ps →
    k = (s.chip.setQpair p fun q => { q with cqHead := (q.cqHead + 1) % 2 ^ q.qlog2 }).emit
      (.driveDoorbell p true (((s.chip.qpair p).cqHead + 1) % 2 ^ (s.chip.qpair p).qlog2)) →
    exec (.driveCompletionCapture p cid 0 result) s = .next (s.after
      (((k.countMedia (k.target (k.qpair p).target).port).dropCmd n).endPlacements ps 0))) ∧
  (∀ (s : State) (p : Nat) (q : QPair) (e : Bytes), q = s.chip.qpair p → bit q.flags 1 = true → bit q.flags 0 = true →
    s.chip.on MQ_CTRL.ENABLE = true → 0 < q.qlog2 → e = s.chip.load (q.sqBase + 64 * (q.sqTail % 2 ^ q.qlog2)) 64 →
    ∃ k : Chip, k = s.chip.setQpair p (fun q => { q with sqTail := (q.sqTail + 1) % 2 ^ q.qlog2 }) ∧
      (k.passAllowed q e = true → ∃ t, exec (.passSqDoorbell p (q.sqTail + 1)) s = .next t ∧
        t.chip.out = .driveCommand p (leAt e 2 2) e :: s.chip.out ∧
        t.chip.qpair p = { q with sqTail := (q.sqTail + 1) % 2 ^ q.qlog2 } ∧ s.chip.SameMemory t.chip ∧
        s.chip.SameRegs [] t.chip) ∧
      (k.passAllowed q e = false → exec (.passSqDoorbell p (q.sqTail + 1)) s = .next (s.after
        ((k.completionEntry p (leAt e 2 2) 0x01 0).mqEvent MQ_EVENT.PASS_REFUSED q.target (k.target q.target).port 0x01)))) ∧
  (∀ (s : State) (p head : Nat) (q : QPair), q = s.chip.qpair p → bit q.flags 1 = true → bit q.flags 0 = true →
    s.chip.on MQ_CTRL.ENABLE = true →
    ∃ t, exec (.passCqDoorbell p head) s = .next t ∧ t.chip.qpair p = { q with cqHead := head % 2 ^ q.qlog2 } ∧
      t.chip.out = .driveDoorbell p true (head % 2 ^ q.qlog2) :: s.chip.out ∧ s.chip.SameMemory t.chip ∧
      s.chip.SameRegs [] t.chip)

/-! ### The cores (10) -/

/-- R49, R254, R256, R259, R262, R447: M-mode writes W and PW of qfworld; qfsillage takes any tag in M-mode and in S-mode
only one within qftaglim; qfopp's request waits for the boundary; a disallowed access to a Kloesk CSR raises its exception,
an allowed one runs; a trap into M-mode puts the hart in the secure world, keeps the old world in PW and the entry record,
and saves what MRET needs; MRET goes back to the saved world, mode and address. Where the rules leave a point open, this
states the model's reading: log entries 58 and 59. -/
def Obligations.KloeskRegistersAndTraps : Prop :=
  (∀ (s : State) (h w pw : Nat), (s.chip.hart h).haltPending = false →
    ∃ t, exec (.qfworldWrite h w pw) s = .next t ∧ t.chip.hart h = { s.chip.hart h with w := w % 2, pw := pw % 2 } ∧
      (∀ g, g ≠ h → t.chip.hart g = s.chip.hart g) ∧ s.chip.SameMemory t.chip ∧ s.chip.SameRegs [] t.chip ∧
      t.chip.out = s.chip.out) ∧
  (∀ (s : State) (h value : Nat) (mode : Mode),
    mode = .m ∨ (mode = .s ∧ (s.chip.hart h).tagLo ≤ value % 256 ∧ value % 256 ≤ (s.chip.hart h).tagHi) →
    ∃ t, exec (.qfsillageWrite h mode value) s = .next t ∧ t.chip.hart h = { s.chip.hart h with sillage := value % 256 } ∧
      (∀ g, g ≠ h → t.chip.hart g = s.chip.hart g) ∧ s.chip.SameMemory t.chip ∧ s.chip.SameRegs [] t.chip ∧
      t.chip.out = s.chip.out) ∧
  (∀ (s : State) (h value : Nat), value % 256 < (s.chip.hart h).tagLo ∨ (s.chip.hart h).tagHi < value % 256 →
    ∃ t v, exec (.qfsillageWrite h .s value) s = .next t ∧ t.chip.out = .trap h 2 v :: s.chip.out ∧
      t.chip.harts = s.chip.harts ∧ s.chip.SameMemory t.chip ∧ s.chip.SameRegs [] t.chip) ∧
  (∀ (s : State) (h value : Nat), ∃ t, exec (.qfoppWrite h value) s = .next t ∧
    t.chip.hart h = { s.chip.hart h with oppHeld := some (value % 16) } ∧ (∀ g, g ≠ h → t.chip.hart g = s.chip.hart g) ∧
    s.chip.SameMemory t.chip ∧ s.chip.SameRegs [] t.chip ∧ t.chip.out = s.chip.out) ∧
  (∀ (s : State) (h csr value : Nat) (mode : Mode) (isWrite : Bool), csrAllowed csr mode isWrite = false →
    ∃ t v, exec (.customCsrIllegal h csr mode isWrite value) s = .next t ∧
      t.chip.out = .trap h (csrCause csr mode isWrite) v :: s.chip.out ∧ t.chip.harts = s.chip.harts ∧
      s.chip.SameMemory t.chip ∧ s.chip.SameRegs [] t.chip) ∧
  (∀ (s : State) (h value : Nat) (mode : Mode), ∃ t, exec (.customCsrIllegal h 0xCC0 mode false value) s = .next t ∧
    t.chip.out = .csrValue h (Tbl.get {} s.chip.beat.dies (s.chip.hartDie h)).count :: s.chip.out ∧
    t.chip.harts = s.chip.harts ∧ s.chip.SameMemory t.chip ∧ s.chip.SameRegs [] t.chip) ∧
  (∀ (s : State) (h cause mepc mpp : Nat) (mpv : Bool), s.chip.stubInForce = false →
    ∃ t v, exec (.trapToMMode h cause mepc mpp mpv) s = .next t ∧
      t.chip.hart h = { s.chip.hart h with
        pw := (s.chip.hart h).w, w := 0, mode := .m, mepc := mepc, mcause := cause, mtval := v, mpp := mpp, mpv := mpv
        entry := if (s.chip.hart h).w == 1 then some (mepc, mpp, mpv, cause) else (s.chip.hart h).entry } ∧
      (∀ g, g ≠ h → t.chip.hart g = s.chip.hart g) ∧ s.chip.SameMemory t.chip ∧ s.chip.SameRegs [] t.chip ∧
      t.chip.out = s.chip.out) ∧
  (∀ (s : State) (h : Nat), (s.chip.hart h).haltPending = false →
    ∃ t, exec (.mret h) s = .next t ∧
      t.chip.hart h = { s.chip.hart h with
        w := (s.chip.hart h).pw, mode := modeOf (s.chip.hart h).mpp (s.chip.hart h).mpv, pc := (s.chip.hart h).mepc
        entry := if (s.chip.hart h).pw == 1 then none else (s.chip.hart h).entry } ∧
      (∀ g, g ≠ h → t.chip.hart g = s.chip.hart g) ∧ s.chip.SameMemory t.chip ∧ s.chip.SameRegs [] t.chip ∧
      t.chip.out = s.chip.out) ∧
  (∀ (g : Hart) (cause mepc tval : Nat) (nid : Bool) (r : Hart), g.haltPending = false →
    r = (g.trap cause mepc (modeBits g.mode).1 (modeBits g.mode).2 tval).mret nid →
    r.w = g.w ∧ r.mode = g.mode ∧ r.pc = mepc ∧ (g.w = 1 → r.entry = none))

/-- R243, R248, R251, R293, R311, R444, R566: an access of a hart that is offline does nothing; with W = 1 nothing below the
watermark is reached; a load is served by the line that its die holds, or asks the home for it; a store goes into a line held
in M or E, or asks for one; outside DRAM a misaligned or atomic access raises its exception and a store reaches the interrupt
files. Where the rules leave a point open, this states the model's reading: log entries 58 and 62. -/
def Obligations.HartAccesses : Prop :=
  (∀ (s : State) (h addr size : Nat) (op : HartOp) (data : Bytes), (s.chip.hart h).online = false →
    exec (.hartAccess h op addr size data) s = .next (s.after s.chip)) ∧
  (∀ (s : State) (h addr size : Nat) (op : HartOp) (data : Bytes), (s.chip.hart h).online = true → (s.chip.hart h).w = 1 →
    addr < s.chip.secureTop → ∃ t c v, exec (.hartAccess h op addr size data) s = .next t ∧
      t.chip.out = .trap h c v :: s.chip.out ∧ c ∈ [1, 5, 7] ∧ t.chip.coh = s.chip.coh ∧ t.chip.harts = s.chip.harts ∧
      s.chip.SameMemory t.chip ∧ s.chip.SameRegs [] t.chip) ∧
  (∀ (s : State) (h addr size l d : Nat) (data : Bytes), (s.chip.hart h).online = true →
    (s.chip.hart h).w ≠ 1 ∨ s.chip.secureTop ≤ addr → addr + size ≤ s.chip.dramSize → 0 < size → addr % 64 + size ≤ 64 →
    l = addr / 64 → d = s.chip.hartDie h → s.chip.coh.waits.find (cohKey l d) = none →
    s.chip.coh.evict.find (cohKey l d) = none → s.chip.coh.heldSnoops = [] →
    ((s.chip.dieLine l d).st ≠ .i → s.chip.diePoison l d = false →
      ∃ t, exec (.hartAccess h .load addr size data) s = .next t ∧
        t.chip.out = .loadValue h (ofLe (slice (s.chip.dieBytes l d) (addr % 64) size)) false :: s.chip.out ∧
        t.chip.coh.die = s.chip.coh.die ∧ s.chip.SameMemory t.chip ∧ s.chip.SameRegs [] t.chip) ∧
    ((s.chip.dieLine l d).st = .i → ∃ t, exec (.hartAccess h .load addr size data) s = .next t ∧
      t.chip.out = .coherence "RD_SHARED" d l 1 :: s.chip.out ∧ t.chip.coh.die = s.chip.coh.die ∧
      t.chip.coh.waits.find (cohKey l d) =
        some [{ hart := h, op := .load, addr := addr, size := size, data := data.take size }] ∧
      s.chip.SameMemory t.chip ∧ s.chip.SameRegs [] t.chip) ∧
    ((s.chip.dieLine l d).st = .m ∨ (s.chip.dieLine l d).st = .e → data.length = size → (s.chip.dieBytes l d).length = 64 →
      ∃ t, exec (.hartAccess h .store addr size data) s = .next t ∧ (t.chip.dieLine l d).st = .m ∧
        slice (t.chip.dieBytes l d) (addr % 64) size = data ∧
        (∀ k', k' ≠ cohKey l d → Tbl.get {} t.chip.coh.die k' = Tbl.get {} s.chip.coh.die k') ∧
        t.chip.out = s.chip.out ∧ s.chip.SameMemory t.chip ∧ s.chip.SameRegs [] t.chip)) ∧
  (∀ (s : State) (h addr size : Nat) (data : Bytes), (s.chip.hart h).online = true →
    (s.chip.hart h).w ≠ 1 ∨ s.chip.secureTop ≤ addr → s.chip.area addr = .imsic → size = 4 → addr % 4 = 0 →
    exec (.hartAccess h .store addr size data) s =
      .next (s.after (s.chip.msiWrite addr (ofLe (data.take 4)) (s.chip.hart h).w 4 0)))

/-- R251, R266, R267, R270, R273, R444, R459: a 4-byte MSI write that its world may make sets the identity pending in the
hart's file; one of the non-secure world to the M-level file is refused; a core failure takes the hart offline at once, its
tile out of service, and asks for a spare at the next boundary, and with W = 0 the secure world restarts; a takeover ends at
reset on the spare, a migration with the context and the held MSIs. Where the rules leave a point open, this states the
model's reading: log entries 60 and 61. -/
def Obligations.MsisAndMoves : Prop :=
  (∀ (s : State) (addr data h f : Nat) (who : By), fileOf addr = some (h, f) → f ≠ 0 ∨ who.w ≠ 1 → addr % 4096 = 0 →
    1 ≤ data → data ≤ 2047 → f ≤ 8 → (s.chip.hart h).moving = none → (s.chip.hart h).online = true →
    ∃ t, exec (.msiDelivery addr data who 4) s = .next t ∧
      t.chip.hart h = { s.chip.hart h with files := Tbl.mod 0 (s.chip.hart h).files f fun n => setBit n data } ∧
      (∀ g, g ≠ h → t.chip.hart g = s.chip.hart g) ∧ s.chip.SameMemory t.chip ∧ s.chip.SameRegs [] t.chip ∧
      t.chip.out = s.chip.out) ∧
  (∀ (s : State) (addr data h f : Nat) (who : By) (moving : Nat × Nat), fileOf addr = some (h, f) → f ≠ 0 ∨ who.w ≠ 1 →
    addr % 4096 = 0 → (s.chip.hart h).moving = some moving →
    ∃ t, exec (.msiDelivery addr data who 4) s = .next t ∧
      t.chip.hart h = { s.chip.hart h with heldMsis := (s.chip.hart h).heldMsis ++ [(f, data)] } ∧
      s.chip.SameMemory t.chip ∧ s.chip.SameRegs [] t.chip) ∧
  (∀ (s : State) (addr data h : Nat) (who : By) (width : Nat), fileOf addr = some (h, 0) → who.w = 1 →
    exec (.msiDelivery addr data who width) s = .next (s.after (s.chip.wsErr WS_ERR.MSI_SECURE addr who.source))) ∧
  (∀ (s : State) (h tl : Nat) (c : Instr), c = .coreFault h ∨ c = .hartHangTimeout h → (s.chip.hart h).online = true →
    (s.chip.hart h).ptile = some tl →
    ∃ t, exec c s = .next t ∧ (t.chip.hart h).online = false ∧ (t.chip.tile tl).failed = true ∧
      t.chip.flt.movesDue = s.chip.flt.movesDue ++ [s.chip.due h 1] ∧
      ((s.chip.hart h).w = 0 → t.chip.rd WS_STATUS.RESTARTING = 1) ∧
      ((s.chip.hart h).w ≠ 0 → s.chip.SameMemory t.chip ∧ s.chip.SameRegs [] t.chip ∧
        ∀ g, g ≠ h → t.chip.hart g = s.chip.hart g)) ∧
  (∀ (s : State) (h tl reason : Nat), (s.chip.hart h).moving = some (tl, reason) → reason ≤ 2 →
    ∃ t, exec (.takeoverComplete h) s = .next t ∧
      t.chip.hart h = (s.chip.hart h).afterReset tl reason s.chip.stubInForce ∧
      (∀ g, g ≠ h → t.chip.hart g = s.chip.hart g) ∧ s.chip.SameMemory t.chip ∧ s.chip.SameRegs [] t.chip) ∧
  (∀ (s : State) (h tl reason : Nat), (s.chip.hart h).moving = some (tl, reason) → 2 < reason → (s.chip.hart h).heldMsis = [] →
    ∃ t, exec (.migrationComplete h) s = .next t ∧
      t.chip.hart h = { s.chip.hart h with
        ptile := some tl, moved := true, reason := reason, moves := min 255 ((s.chip.hart h).moves + 1), moving := none } ∧
      (∀ g, g ≠ h → t.chip.hart g = s.chip.hart g) ∧ s.chip.SameMemory t.chip ∧ s.chip.SameRegs [] t.chip)

/-! ### The caches (11) -/

/-- R282, R283, R289: a staging way that is empty lets its engine be dispatched again; locked ways end the wait for the lock;
an uncorrectable error marks a dirty line with poison, fences a slice or a bank that lost a tag, and is reported. Where the
rules leave a point open, this states the model's reading: log entries 42 and 66. -/
def Obligations.CacheEvents : Prop :=
  (∀ (s : State) (e : Nat), ∃ t, exec (.stagingWayEmpty e) s = .next t ∧
    t.chip.engine e = { s.chip.engine e with stagingBusy := false } ∧ (∀ x, x ≠ e → t.chip.engine x = s.chip.engine x) ∧
    s.chip.SameMemory t.chip ∧ s.chip.SameRegs [] t.chip) ∧
  (∀ s : State, ∃ t, exec .accumWaysLocked s = .next t ∧ t.chip.rd SC_STATUS.LOCK_BUSY = 0 ∧ t.chip.coh.lockWaits = 0 ∧
    s.chip.SameMemory t.chip ∧ s.chip.SameRegs [] t.chip) ∧
  (∀ (s : State) (unit line : Nat), exec (.cacheUncorrectable .bank unit .clean line) s =
    .next (s.after (s.chip.log { cls := 0, unitType := 5, unit := unit, action := 1, info0 := 64 * line }))) ∧
  (∀ (s : State) (unit line : Nat), exec (.cacheUncorrectable .bank unit .dirty line) s =
    .next (s.after ((s.chip.mark line).log { cls := 1, unitType := 5, unit := unit, action := 2, info0 := 64 * line }))) ∧
  (∀ (s : State) (unit line : Nat) (b : Bytes), (s.chip.dieLine line (unit / 28)).st ≠ .i →
    b = s.chip.dieBytes line (unit / 28) →
    exec (.cacheUncorrectable .l3 unit .dirty line) s = .next (s.after
      ((s.chip.setDieLine line (unit / 28) fun c => { c with data := some b, poison := true }).log
        { cls := 1, unitType := 6, unit := unit, action := 2, info0 := 64 * line }))) ∧
  (∀ (s : State) (unit line : Nat), ∃ t, exec (.cacheUncorrectable .bank unit .tag line) s = .next t ∧
    unit ∈ t.chip.coh.banksFenced ∧ t.chip.rd SC_STATUS.FENCED = t.chip.coh.banksFenced.length % 2 ^ SC_STATUS.FENCED.width)

/-! ### Coherence (12) -/

/-- R304, R306, R311, R313: at a home with nothing under way, a request for a line that no die holds is granted at once: a
read to be shared gets E where it may and S otherwise, a read to be written E, CBO.ZERO's OWN the line of zeros, a read once
its data, a write the line merged and written through, a far AMO the old value with the result in the line, a cache operation
its COMP. Where the rules leave a point open, this states the model's reading: log entries 64 and 67. -/
def Obligations.HomeGrantsFreeLines : Prop :=
  ∀ (s : State) (m : CohMsg), s.chip.HomeQuiet → s.chip.Serves m → s.chip.homeLine m.line = .none →
    s.chip.presentDies m.line = [] → s.chip.coh.wrData = [] →
    (∀ excl : Bool, excl = (m.exclOk && s.chip.on HA_CTRL.EXCL_READ) → ∃ t, exec (.rdShared m) s = .next t ∧
      t.chip.homeLine m.line = (if excl then .owned m.die else .shared) ∧
      t.chip.coh.grants.find (cohKey m.line m.die) = some { st := if excl then .e else .s } ∧
      t.chip.out = .cohData "DATA" m.die m.line (memBytes s.chip.mem (64 * m.line) 64) (s.chip.linePoison m.line) :: s.chip.out ∧
      s.chip.SameMemory t.chip ∧ s.chip.SameRegs [] t.chip) ∧
    (∃ t, exec (.rdUnique m) s = .next t ∧ t.chip.homeLine m.line = .owned m.die ∧
      t.chip.coh.grants.find (cohKey m.line m.die) = some { st := .e } ∧
      t.chip.out = .cohData "DATA" m.die m.line (memBytes s.chip.mem (64 * m.line) 64) (s.chip.linePoison m.line) :: s.chip.out ∧
      s.chip.SameMemory t.chip ∧ s.chip.SameRegs [] t.chip) ∧
    (∃ t, exec (.own m true) s = .next t ∧ t.chip.homeLine m.line = .owned m.die ∧
      t.chip.coh.grants.find (cohKey m.line m.die) = some { st := .m, data := some (zeros 64), comp := true } ∧
      t.chip.out = .coherence "COMP" m.die m.line 0 :: s.chip.out ∧ s.chip.SameMemory t.chip ∧ s.chip.SameRegs [] t.chip) ∧
    (∃ t, exec (.rdOnce m) s = .next t ∧ t.chip.coh.dir = s.chip.coh.dir ∧ t.chip.coh.grants = s.chip.coh.grants ∧
      t.chip.out = .cohData "DATA" m.die m.line (memBytes s.chip.mem (64 * m.line) 64) (s.chip.linePoison m.line) :: s.chip.out ∧
      s.chip.SameMemory t.chip ∧ s.chip.SameRegs [] t.chip) ∧
    (∀ (bytes : Bytes) (mask : Nat) (poison : Bool),
      ∃ t u, exec (.wrLine m none) s = .next t ∧ exec (.wrData m.line bytes mask poison) t = .next u ∧
        t.chip.out = s.chip.out ∧ s.chip.SameMemory t.chip ∧
        u.chip.out = .coherence "COMP" m.die m.line 0 :: s.chip.out ∧
        u.chip.mem = memPut s.chip.mem (64 * m.line) (maskLine (memBytes s.chip.mem (64 * m.line) 64) bytes mask) ∧
        u.chip.busyLine m.line = none ∧ s.chip.SameRegs [] u.chip) ∧
    (∀ (op : AmoOp) (size off x old : Nat), s.chip.rd HA_CTRL.AMO_MODE = 2 → amoNear op size = false →
      s.chip.linePoison m.line = false → old = leAt (memBytes s.chip.mem (64 * m.line) 64) off size →
      ∃ t, exec (.amo m op size off x) s = .next t ∧
        t.chip.coh.grants.find (cohKey m.line m.die) = some { old := some old } ∧
        t.chip.mem = memPut s.chip.mem (64 * m.line) ((memBytes s.chip.mem (64 * m.line) 64).take off ++
          leBytes (amoApply op size old x) size ++ (memBytes s.chip.mem (64 * m.line) 64).drop (off + size)) ∧
        s.chip.SameRegs [] t.chip) ∧
    (∀ c : Instr, c = .cmoClean m ∨ c = .cmoFlush m ∨ c = .cmoInval m → ∃ t, exec c s = .next t ∧
      t.chip.homeLine m.line = .none ∧ t.chip.coh.grants.find (cohKey m.line m.die) = some { comp := true } ∧
      t.chip.out = .coherence "COMP" m.die m.line 0 :: s.chip.out ∧ s.chip.SameMemory t.chip ∧ s.chip.SameRegs [] t.chip)

/-- R277, R278, R301, R302, R304, R305, R308: a request for a line that another die holds keeps the line busy until the dies
it snoops have answered, and changes neither memory nor the directory before; a copy that alone holds the line may be written
at once; an EVICT of a clean shared line leaves the die and is acknowledged; a WRITEBACK of a line that its die owns brings
its data home, where it is the line's content, and frees the line; EVC_ACK empties the eviction buffer. Where the rules leave
a point open, this states the model's reading: log entries 62 and 64. -/
def Obligations.HomeSnoopsAndEvictions : Prop :=
  (∀ (s : State) (m : CohMsg) (x : Nat), s.chip.HomeQuiet → s.chip.Serves m → x ≠ m.die →
    (s.chip.homeLine m.line = .owned x → s.chip.presentDies m.line = [x] →
      ∀ (c : Instr) (sn : Snoop) (req : HomeReq),
        (c = .rdShared m ∧ sn = .shared ∧ req = .rdShared m.exclOk) ∨ (c = .rdUnique m ∧ sn = .unique ∧ req = .rdUnique) ∨
        (c = .rdOnce m ∧ sn = .once ∧ req = .rdOnce) ∨ (c = .own m true ∧ sn = .inv ∧ req = .own true) ∨
        (c = .own m false ∧ sn = .unique ∧ req = .rdUnique) ∨ (c = .cmoClean m ∧ sn = .clean ∧ req = .cmo 0) ∨
        (c = .cmoFlush m ∧ sn = .inv ∧ req = .cmo 1) ∨ (c = .cmoInval m ∧ sn = .inv ∧ req = .cmo 2) →
      ∃ t, exec c s = .next t ∧ t.chip.out = .coherence sn.name x m.line 0 :: s.chip.out ∧
        t.chip.coh.busy = [(m.line, { item := { die := m.die, who := m.who, req := req }, before := .owned x, awaiting := [x] })] ∧
        t.chip.coh.dir = s.chip.coh.dir ∧ t.chip.coh.die = s.chip.coh.die ∧ s.chip.SameMemory t.chip ∧
        s.chip.SameRegs [] t.chip) ∧
    (s.chip.homeLine m.line = .shared → s.chip.presentDies m.line = [m.die] → ∃ t, exec (.own m false) s = .next t ∧
      t.chip.homeLine m.line = .owned m.die ∧
      t.chip.coh.grants.find (cohKey m.line m.die) = some { st := .m, comp := true } ∧
      t.chip.out = .coherence "COMP" m.die m.line 0 :: s.chip.out ∧ s.chip.SameMemory t.chip ∧ s.chip.SameRegs [] t.chip)) ∧
  (∀ (s : State) (m : CohMsg), s.chip.HomeQuiet → s.chip.Serves m → s.chip.homeLine m.line = .shared →
    (s.chip.dieLine m.line m.die).st = .s → (s.chip.dieLine m.line m.die).locked = none →
    s.chip.coh.evict.find (cohKey m.line m.die) = none → s.chip.coh.waits.find (cohKey m.line m.die) = none →
    ∃ t n, exec (.evict m false) s = .next t ∧ (t.chip.dieLine m.line m.die).st = .i ∧
      (t.chip.coh.evict.find (cohKey m.line m.die)).isSome = true ∧ t.chip.coh.dir = s.chip.coh.dir ∧
      t.chip.out = .coherence "EVC_ACK" m.die m.line 0 :: .coherence "EVICT" m.die m.line n :: s.chip.out ∧
      s.chip.SameMemory t.chip ∧ s.chip.SameRegs [] t.chip) ∧
  (∀ (s : State) (m : CohMsg) (b bytes : Bytes) (poison : Bool), s.chip.HomeQuiet → s.chip.Serves m →
    s.chip.homeLine m.line = .owned m.die → (s.chip.dieLine m.line m.die).st = .m →
    (s.chip.dieLine m.line m.die).data = some b → b.length = 64 → (s.chip.dieLine m.line m.die).locked = none →
    s.chip.coh.evict.find (cohKey m.line m.die) = none → s.chip.coh.waits.find (cohKey m.line m.die) = none →
    ∃ t u, exec (.writeback m false) s = .next t ∧ exec (.wbData m.die m.line bytes poison) t = .next u ∧
      (t.chip.dieLine m.line m.die).st = .i ∧ s.chip.SameMemory t.chip ∧
      u.chip.mem = memPut s.chip.mem (64 * m.line) b ∧ u.chip.homeLine m.line = .none ∧ u.chip.coh.busy = [] ∧
      u.chip.out.head? = some (.coherence "EVC_ACK" m.die m.line 0)) ∧
  (∀ (s : State) (d l : Nat), s.chip.coh.waits.find (cohKey l d) = none → s.chip.coh.heldSnoops = [] →
    ∃ t, exec (.evcAck d l) s = .next t ∧ t.chip.coh.evict = s.chip.coh.evict.erase (cohKey l d) ∧
      t.chip.coh.die = s.chip.coh.die ∧ t.chip.out = s.chip.out ∧ s.chip.SameMemory t.chip ∧ s.chip.SameRegs [] t.chip)

/-- R307: a snoop that finds nothing of the line under way or held back leaves it in the state of the table and sends its
data where the table says so; other lines, memory and the directory stay. Where the rules leave a point open, this states the
model's reading: log entry 62. -/
def Obligations.SnoopsFollowTheTable : Prop :=
  ∀ (s : State) (d l : Nat) (c : Instr) (sn : Snoop) (st : Line) (data : Bool),
    (c = .snpShared d l ∧ sn = .shared) ∨ (c = .snpUnique d l ∧ sn = .unique) ∨ (c = .snpOnce d l ∧ sn = .once) ∨
    (c = .snpInv d l ∧ sn = .inv) ∨ (c = .snpClean d l ∧ sn = .clean) →
    s.chip.dieUp d = true → s.chip.coh.grants.find (cohKey l d) = none → s.chip.coh.evict.find (cohKey l d) = none →
    (s.chip.dieLine l d).lrHold = none → s.chip.coh.heldSnoops = [] → snoopTable sn (s.chip.dieLine l d).st = (st, data) →
    ∃ t a, exec c s = .next t ∧ (t.chip.dieLine l d).st = st ∧ t.chip.coh.answers.find (cohKey l d) = some a ∧ a.st = st ∧
      (a.dirty = true ↔ data = true ∧ ((s.chip.dieLine l d).st = .m ∨ (s.chip.dieLine l d).st = .o)) ∧
      a.superseded = false ∧
      (data = true → t.chip.out = .cohData "SNP_DATA" d l (s.chip.dieBytes l d) (s.chip.diePoison l d) :: s.chip.out) ∧
      (data = false → t.chip.out = .coherence "SNP_RESP" d l (ofBool a.empty) :: s.chip.out) ∧
      (∀ key, key ≠ cohKey l d → Tbl.get {} t.chip.coh.die key = Tbl.get {} s.chip.coh.die key) ∧
      t.chip.coh.dir = s.chip.coh.dir ∧ s.chip.SameMemory t.chip ∧ s.chip.SameRegs [SC_LWI.COUNT] t.chip

/-- R297, R303, R304, R309, R314, R429, R432: an answer that is not the last leaves the line busy with the dies still to
answer; the last one lets the home grant the line, with the dirty data where the answer brought any; COMP_ACK frees the line;
a COMP or DATA under way gives its die the granted state, DATA with a COMP_ACK; an offer to stash is taken or declined, and
the home grants an accepted one; the hold of an LR ends; a directory entry that is lost has its lines snooped on every die.
Where the rules leave a point open, this states the model's reading: log entries 62 and 64. -/
def Obligations.AnswersAndGrants : Prop :=
  (∀ (s : State) (d l : Nat) (a : SnpAns) (b : Busy) (c : Instr), c = .snpResp d l ∨ c = .snpData d l →
    s.chip.coh.answers.find (cohKey l d) = some a → a.empty = false → a.dirty = false →
    s.chip.coh.busy = [(l, b)] → b.blocked = none → b.granted = false → b.awaiting.filter (· != d) ≠ [] →
    ∃ t, exec c s = .next t ∧
      t.chip.coh.busy = [(l, { b with
        awaiting := b.awaiting.filter (· != d), ownerSt := if b.before.owner == some d then a.st else b.ownerSt })] ∧
      t.chip.coh.dir = s.chip.coh.dir ∧ t.chip.out = s.chip.out ∧ s.chip.SameMemory t.chip ∧ s.chip.SameRegs [] t.chip) ∧
  (∀ (s : State) (d l : Nat) (a : SnpAns) (b : Busy) (c : Instr), c = .snpResp d l ∨ c = .snpData d l →
    s.chip.coh.answers.find (cohKey l d) = some a → a.empty = false → a.superseded = false → s.chip.coh.busy = [(l, b)] →
    b.blocked = none → b.granted = false → b.needData = false → b.awaiting = [d] → b.item.req = .rdUnique →
    b.dirty = false → b.data = none → b.poison = false →
    ∃ t, exec c s = .next t ∧ t.chip.homeLine l = .owned b.item.die ∧
      t.chip.coh.grants.find (cohKey l b.item.die) = some
        { st := if a.dirty then .m else .e, data := if a.dirty then a.data else none, poison := a.dirty && a.poison } ∧
      s.chip.SameMemory t.chip ∧ s.chip.SameRegs [] t.chip) ∧
  (∀ (s : State) (d l : Nat) (b : Busy), s.chip.coh.busy = [(l, b)] → b.granted = true → b.item.die = d → b.waiting = [] →
    ∃ t, exec (.compAck d l) s = .next t ∧ t.chip.coh.busy = [] ∧ t.chip.coh.dir = s.chip.coh.dir ∧ t.chip.out = s.chip.out ∧
      s.chip.SameMemory t.chip ∧ s.chip.SameRegs [] t.chip) ∧
  (∀ (s : State) (d l : Nat) (g : Grant), s.chip.coh.grants.find (cohKey l d) = some g → g.st ≠ .i →
    s.chip.coh.waits.find (cohKey l d) = none → s.chip.coh.heldSnoops = [] →
    (g.comp = true → ∃ t, exec (.comp d l) s = .next t ∧ (t.chip.dieLine l d).st = g.st ∧
      t.chip.coh.grants.find (cohKey l d) = none ∧ t.chip.out = s.chip.out ∧ s.chip.SameMemory t.chip ∧
      s.chip.SameRegs [] t.chip) ∧
    (g.comp = false → ∃ t, exec (.data d l none) s = .next t ∧ (t.chip.dieLine l d).st = g.st ∧
      (t.chip.dieLine l d).data = g.data ∧ t.chip.coh.grants.find (cohKey l d) = none ∧
      t.chip.out = .coherence "COMP_ACK" d l 0 :: s.chip.out ∧ s.chip.SameMemory t.chip ∧ s.chip.SameRegs [] t.chip)) ∧
  (∀ (s : State) (d l : Nat) (way : StashWay),
    (s.chip.stashFits l d way = false → exec (.snpStash d l way) s = .next (s.after (s.chip.say "STASH_DECLINE" d l 0))) ∧
    (s.chip.stashFits l d .open = true → exec (.snpStash d l .open) s = .next (s.after (s.chip.say "STASH_ACCEPT" d l 0)))) ∧
  (∀ (s : State) (d l : Nat), s.chip.HomeQuiet → s.chip.homeLine l = .none → ∃ t, exec (.stashAccept d l) s = .next t ∧
    t.chip.homeLine l = .shared ∧ t.chip.coh.grants.find (cohKey l d) = some { st := .s } ∧ s.chip.SameMemory t.chip ∧
    s.chip.SameRegs [] t.chip) ∧
  (∀ (s : State) (d l : Nat), exec (.stashDecline d l) s = .next (s.after (s.chip.countHome l 7 1))) ∧
  (∀ (s : State) (d l : Nat), (s.chip.coh.heldSnoops.find (cohKey l d)) = none →
    ∃ t, exec (.lrSnoopHoldExpiry d l) s = .next t ∧ (t.chip.dieLine l d).lrHold = none ∧
      (t.chip.dieLine l d).st = (s.chip.dieLine l d).st ∧ t.chip.out = s.chip.out ∧ s.chip.SameMemory t.chip ∧
      s.chip.SameRegs [] t.chip) ∧
  (∀ (s : State) (v x : Nat), s.chip.HomeQuiet → x < 12 → s.chip.dieUp x = true → ∃ t,
    exec (.directoryEntryUncorrectable v) s = .next t ∧
    ∀ i < 8, ∃ b, t.chip.busyLine (8 * v + i) = some b ∧ b.item = homeOwn true ∧
      b.awaiting = (List.range 12).filter fun d => s.chip.dieUp d) ∧
  (∀ (s : State) (d : Nat), ∃ t, exec (.directoryWalkComplete d) s = .next t ∧
    t.chip.dieState d = { s.chip.dieState d with walk := false } ∧
    (∀ e, e ≠ d → t.chip.dieState e = s.chip.dieState e) ∧ s.chip.SameMemory t.chip ∧ s.chip.SameRegs [] t.chip)

/-! ### The on-die networks (13) -/

/-- R320, R326: on a mesh of any width, each hop of the route in x and then in y brings a flit one stop nearer to its
destination. Where the rules leave a point open, this states the model's reading: log entry 68. -/
def Obligations.MeshRoutesShorten : Prop :=
  ∀ w at_ dst n l : Nat, 0 < w → at_ ≠ dst → meshNext w false at_ dst = (n, l) →
    ((n % w : Int) - (dst % w : Nat)).natAbs + ((n / w : Int) - (dst / w : Nat)).natAbs + 1 =
      ((at_ % w : Int) - (dst % w : Nat)).natAbs + ((at_ / w : Int) - (dst / w : Nat)).natAbs

/-- R324 to R326, R328, R334: a good flit goes on to the next router of its route, and at its destination is delivered in SEQ
order; a bad one is counted and reported; a link or router is fenced once and waits to be reported; the compiled tables are
installed at a boundary, which the route generation counts; a bridge error is reported, and the tile behind the bridge fails.
Where the rules leave a point open, this states the model's reading: log entries 13 and 68. -/
def Obligations.NetworkFlits : Prop :=
  (∀ (s : State) (d stop net vc n : Nat) (link : Option Nat) (f : Flit), d < 13 → stop < 256 → f.route = [] →
    f.dst ≠ 256 * d + stop → s.chip.nextHop (256 * d + stop) f.src f.dst = some (n, link) →
    (s.chip.nocDie d).links = [] → (s.chip.nocDie d).routers = [] →
    ∃ t, exec (.flitReceived d stop net vc f true) s = .next t ∧
      t.chip.out = .flit (n / 256) (n % 256) net vc { f with net := net, vc := vc } :: s.chip.out ∧
      t.chip.noc.nis = s.chip.noc.nis ∧ t.chip.noc.dies = s.chip.noc.dies ∧ s.chip.SameMemory t.chip ∧
      s.chip.SameRegs [] t.chip) ∧
  (∀ (s : State) (d stop net vc : Nat) (f : Flit), d < 13 → stop < 256 → f.dst = 256 * d + stop →
    f.seq % 1024 = (Tbl.get {} s.chip.noc.nis (niKey (256 * d + stop) net f.src)).expect →
    ∃ t, exec (.flitReceived d stop net vc f true) s = .next t ∧
      Tbl.get {} t.chip.noc.nis (niKey (256 * d + stop) net f.src) =
        { Tbl.get {} s.chip.noc.nis (niKey (256 * d + stop) net f.src) with
          holding := Tbl.set none (Tbl.get {} s.chip.noc.nis (niKey (256 * d + stop) net f.src)).holding (f.seq % 1024)
            (some { f with net := net, vc := vc }) } ∧
      t.chip.out = s.chip.out ∧ s.chip.SameMemory t.chip ∧ s.chip.SameRegs [] t.chip) ∧
  (∀ (s : State) (d stop net src q : Nat) (f : Flit), d < 13 → stop < 256 →
    Tbl.get {} s.chip.noc.nis (niKey (256 * d + stop) net src) = { expect := q, holding := [(q, some f)] } →
    (Tbl.get {} s.chip.noc.routers (256 * d + stop)).queue = [] →
    ∃ t, exec (.flitDeliver d stop net src) s = .next t ∧ t.chip.out = .noc "DELIVER" d stop f.data :: s.chip.out ∧
      Tbl.get {} t.chip.noc.nis (niKey (256 * d + stop) net src) = { expect := (q + 1) % 1024, holding := [] } ∧
      s.chip.SameMemory t.chip ∧ s.chip.SameRegs [] t.chip) ∧
  (∀ (s : State) (d stop net vc : Nat) (f : Flit), d < 13 → ∃ t, exec (.flitReceived d stop net vc f false) s = .next t ∧
    t.chip.rd (NOC_ERR.LINK_REPLAY d) = 1 ∧
    t.chip.rd (NOC_CNT.REPLAYS d) = satAdd (s.chip.rd (NOC_CNT.REPLAYS d)) 1 (NOC_CNT.REPLAYS d).width % 2 ^ (NOC_CNT.REPLAYS d).width) ∧
  (∀ (s : State) (d link : Nat), link ∉ (s.chip.nocDie d).links → s.chip.noc.routers = [] →
    ∃ t, exec (.nocLinkFail d link) s = .next t ∧
      t.chip.nocDie d = { s.chip.nocDie d with
        links := (s.chip.nocDie d).links ++ [link], newLinks := (s.chip.nocDie d).newLinks ++ [s.chip.due link 0] } ∧
      (∀ e, e ≠ d → t.chip.nocDie e = s.chip.nocDie e) ∧ t.chip.out = s.chip.out ∧ s.chip.SameMemory t.chip ∧
      s.chip.SameRegs [] t.chip) ∧
  (∀ (s : State) (d stop : Nat), stop ∉ (s.chip.nocDie d).routers → s.chip.noc.routers = [] →
    ∃ t, exec (.routerFenced d stop) s = .next t ∧
      (t.chip.nocDie d).routers = (s.chip.nocDie d).routers ++ [stop] ∧
      (t.chip.nocDie d).newRouters = (s.chip.nocDie d).newRouters ++ [s.chip.due stop 0] ∧
      (∀ e ∈ stopLinks d stop, e.1 ∈ (t.chip.nocDie d).links) ∧
      (∀ e, e ≠ d → t.chip.nocDie e = s.chip.nocDie e) ∧ t.chip.out = s.chip.out ∧ s.chip.SameMemory t.chip ∧
      s.chip.SameRegs [] t.chip) ∧
  (∀ (s : State) (d : Nat), ∃ t, exec (.routeCompileDone d) s = .next t ∧
    t.chip.nocDie d = { s.chip.nocDie d with tableReady := (s.chip.nocDie d).compiling } ∧
    (∀ e, e ≠ d → t.chip.nocDie e = s.chip.nocDie e) ∧ s.chip.SameMemory t.chip ∧ s.chip.SameRegs [] t.chip) ∧
  (∀ (s : State) (d : Nat), d < 13 → (s.chip.nocDie d).holding = true → ∃ t, exec (.routeTableInstall d) s = .next t ∧
    t.chip.nocDie d = { s.chip.nocDie d with compiling := false, tableReady := false, holding := false } ∧
    t.chip.rd (NOC_STATUS.ROUTE_GEN d) = (s.chip.rd (NOC_STATUS.ROUTE_GEN d) + 1) % 2 ^ (NOC_STATUS.ROUTE_GEN d).width ∧
    t.chip.out = .noc "TABLES" d 0 0 :: s.chip.out ∧ s.chip.SameMemory t.chip ∧
    s.chip.SameRegs [NOC_STATUS.ROUTE_GEN d] t.chip) ∧
  (∀ (s : State) (d tl : Nat), (s.chip.tile tl).hart = none →
    exec (.bridgeParityError d (.tile tl)) s = .next (s.after
      ((s.chip.nocErr (NOC_ERR.BRIDGE d) d 2 9 0 0).setTile tl fun x => { x with failed := true }))) ∧
  (∀ (s : State) (d p : Nat), exec (.bridgeParityError d (.port p)) s = .next (s.after
    ((s.chip.nocErr (NOC_ERR.BRIDGE d) d 2 9 0 0).portFail p)))

/-! ### Bilum (14) -/

/-- R346, R347, R348, R349, R350, R351, R352: a port in a link start agrees on the generation with its peer, takes the map
that is announced, reports one that does not match, trains fully after a refusal or a failed verification, and is UP when its
credits start. Where the rules leave a point open, this states the model's reading: log entry 69. -/
def Obligations.BilumLinkStarts : Prop :=
  ∀ (s : State) (p : Nat), p < 24 →
    (∀ (m : SbIdent), s.chip.linkStarting p = true → m.fromDie = true → m.genMax = 1 → m.genMin ≤ 1 →
      ∃ t, exec (.sbIdent p m) s = .next t ∧ t.chip.rd (BL_STATUS.GEN p) = 1 ∧ t.chip.rd (BL_STATUS.STEP p) = 3 ∧
        t.chip.rd (BL_HASH.DIE p) = (if m.retained then m.hash else 0) % 2 ^ 32 ∧ s.chip.SameMemory t.chip ∧
        s.chip.SameRegs [BL_STATUS.GEN p, BL_STATUS.STEP p, BL_HASH.DIE p] t.chip) ∧
    (∀ (m : SbIdent), s.chip.linkStarting p = true → linkGeneration m = none →
      exec (.sbIdent p m) s = .next (s.after ((s.chip.wr (BL_STATUS.STATE p) 0).blErr (BL_ERR.GEN_MISMATCH p) p 0 9 m.genMax))) ∧
    (∀ (w : Nat) (map : List Nat), s.chip.linkStarting p = true →
      ∃ t, exec (.mapAnnounce p w map 1) s = .next t ∧ (t.chip.bport p).retained = some (w, map) ∧
        t.chip.rd (BL_STATUS.STEP p) = 8 ∧ t.chip.out = .sideband p "MAP_ADOPT" (mapHash map) :: s.chip.out ∧
        s.chip.SameMemory t.chip ∧ s.chip.SameRegs [BL_STATUS.STEP p] t.chip) ∧
    (∀ hash : Nat, hash % 2 ^ 32 = s.chip.rd (BL_HASH.HUB p) →
      (s.chip.linkStarting p = true → s.chip.rd (BL_HASH.DIE p) = s.chip.rd (BL_HASH.HUB p)) →
      exec (.mapAdopt p hash) s = .next (s.after (s.chip.setBport p fun x => { x with tries := 0 }))) ∧
    (∀ hash : Nat, hash % 2 ^ 32 ≠ s.chip.rd (BL_HASH.HUB p) →
      exec (.mapAdopt p hash) s = .next (s.after
        ((s.chip.setBport p fun x => { x with tries := 0 }).blErr (BL_ERR.MAP_MISMATCH p) p 0 0 hash))) ∧
    (∀ wires : List Nat, s.chip.on (BL_CTRL.ENABLE p) = true → ∃ t, exec (.mapReject p wires) s = .next t ∧
      t.chip.rd (BL_STATUS.STATE p) = 1 ∧ t.chip.rd (BL_STATUS.STEP p) = 1 ∧ t.chip.rd (BL_ERR.MAP_REJECT p) = 1 ∧
      t.chip.out.head? = some (.sideband p "LINK_START" 0)) ∧
    (s.chip.linkStarting p = true → ∃ t, exec (.testDone p true) s = .next t ∧ t.chip.rd (BL_STATUS.STEP p) = 9 ∧
      (t.chip.bport p).tries = 0 ∧ s.chip.SameMemory t.chip ∧ s.chip.SameRegs [BL_STATUS.STEP p] t.chip) ∧
    (s.chip.linkStarting p = true → (s.chip.bport p).width = 0 → ∃ t, exec (.creditInit p) s = .next t ∧
      t.chip.rd (BL_STATUS.STATE p) = 3 ∧ t.chip.rd (BL_STATUS.STEP p) = 9 ∧ t.chip.rd (BL_STATUS.WIDTH p) = 0 ∧
      (Tbl.get {} t.chip.beat.dies (p / 2)).fullDue = true ∧ s.chip.SameMemory t.chip ∧
      s.chip.SameRegs [BL_STATUS.STATE p, BL_STATUS.STEP p, BL_STATUS.WIDTH p] t.chip) ∧
    ((s.chip.bport p).tries < 8 → exec (.sbMsgTimeout p) s = .next (s.after
      ((s.chip.setBport p fun x => { x with tries := x.tries + 1 }).emit
        (.sideband p "RESEND" ((s.chip.bport p).tries + 1)))))

/-- R339 to R343, R345, R353 to R359: a good flit counts as received unless the receiver discards, a bad one makes it discard
until the sender resends from the first unacknowledged flit; a good credit frame acknowledges and returns credits, 16 bad
ones in a row fail the port; wires and blocks that fail are repaired from the next boundary on; a failed port leaves its
traffic to the other and trains again; a die whose clocks fall silent is lost. Where the rules leave a point open, this
states the model's reading: log entry 69. -/
def Obligations.BilumRetransmissionAndRepair : Prop :=
  (∀ (s : State) (p dir net : Nat) (g : BGroup), p < 24 → g = Tbl.get {} s.chip.bl.groups (groupKey p dir net) →
    (∀ cls : Nat, ∃ t, exec (.bilumFlitReceived p dir net true false cls) s = .next t ∧
      Tbl.get {} t.chip.bl.groups (groupKey p dir net) = { g with
        sent := (g.sent + 1) % 256, received := if g.discarding then g.received else (g.received + 1) % 256 } ∧
      s.chip.SameMemory t.chip ∧ s.chip.SameRegs [] t.chip ∧ t.chip.out = s.chip.out) ∧
    (∀ cls : Nat, ∃ t, exec (.bilumFlitReceived p dir net false false cls) s = .next t ∧
      Tbl.get {} t.chip.bl.groups (groupKey p dir net) = { g with discarding := true, sent := (g.sent + 1) % 256 } ∧
      s.chip.SameMemory t.chip ∧ s.chip.SameRegs [] t.chip ∧ t.chip.out = s.chip.out) ∧
    (wrapSub g.sent g.acked 8 ≠ 0 → g.resends < 8 → ∃ t, exec (.bilumReplayTimeout p dir net) s = .next t ∧
      Tbl.get {} t.chip.bl.groups (groupKey p dir net) =
        { sent := g.acked, acked := g.acked, received := g.acked, resends := g.resends + 1, discarding := false } ∧
      t.chip.rd (BL_ERR.REPLAY p) = 1 ∧ t.chip.out.head? = some (.sideband p "FLIT_RESEND" (groupKey p dir net))) ∧
    (∀ word : Nat, crc6 (bits word 0 26) = bits word 26 6 → bit word 25 = false → bits word 0 2 = net → net < 4 →
      ∃ t, exec (.creditFrame p (1 - dir % 2) word) s = .next t ∧
        (Tbl.get {} t.chip.bl.groups (groupKey p dir net)).acked = (bits word 17 8 + 1) % 256 ∧
        (∀ vc < 3, Tbl.get 0 t.chip.bl.credits (4 * groupKey p dir net + vc) = bits word (2 + 5 * vc) 5) ∧
        s.chip.SameMemory t.chip ∧ s.chip.SameRegs [] t.chip ∧ t.chip.out = s.chip.out) ∧
    (∀ word : Nat, crc6 (bits word 0 26) ≠ bits word 26 6 →
      Tbl.get 0 s.chip.bl.badCredit (2 * p + dir % 2) < 15 →
      ∃ t, exec (.creditFrame p dir word) s = .next t ∧
        Tbl.get 0 t.chip.bl.badCredit (2 * p + dir % 2) = Tbl.get 0 s.chip.bl.badCredit (2 * p + dir % 2) + 1 ∧
        t.chip.bl.credits = s.chip.bl.credits ∧ t.chip.bl.groups = s.chip.bl.groups ∧ s.chip.SameMemory t.chip)) ∧
  (∀ (s : State) (p : Nat), p < 24 →
    (∀ delay : Nat, s.chip.portUp p = true →
      exec (.bilumRecalSlot p delay) s = .next (s.after (s.chip.wr (BL_TOKEN.DELAY p) delay))) ∧
    (∀ dir wire : Nat, ∃ t, exec (.swapLimitReached p dir wire) s = .next t ∧ (dir, wire) ∈ (t.chip.bport p).failed ∧
      (t.chip.bport p).swapDue = true ∧ s.chip.SameMemory t.chip ∧ s.chip.SameRegs [] t.chip ∧ t.chip.out = s.chip.out) ∧
    (∀ dir wire errs : Nat, s.chip.rd (BL_STATUS.STATE p) = 1 → 0 < errs → ∃ t, exec (.wireReport p dir wire errs) s = .next t ∧
      (dir, wire) ∈ (t.chip.bport p).failed ∧ s.chip.SameMemory t.chip ∧ s.chip.SameRegs [BL_CNT.PATTERN_ERRS p] t.chip) ∧
    (∀ dir block : Nat, ∃ t, exec (.blockLost p dir block) s = .next t ∧ (dir, block) ∈ (t.chip.bport p).lost ∧
      (t.chip.bport p).swapDue = true ∧ s.chip.SameMemory t.chip ∧ s.chip.SameRegs [] t.chip ∧ t.chip.out = s.chip.out) ∧
    (s.chip.rd (BL_STATUS.STATE p) ≠ 4 → s.chip.rd (BL_STATUS.STATE (otherPort p)) ≠ 4 →
      ∃ t, exec (.bilumPortFail p) s = .next t ∧ t.chip.rd (BL_STATUS.STATE p) = 4 ∧ t.chip.rd (BL_ERR.PORT_FAILED p) = 1 ∧
        (t.chip.bport p).swapDue = false ∧ t.chip.flt = s.chip.flt) ∧
    ((s.chip.bport p).timer = true → s.chip.rd (BL_STATUS.STATE p) = 4 → s.chip.on (BL_CTRL.ENABLE p) = true →
      ∃ t, exec (.bilumRetrainTimer p) s = .next t ∧ t.chip.rd (BL_STATUS.STATE p) = 1 ∧ t.chip.rd (BL_STATUS.STEP p) = 1 ∧
        t.chip.out = .sideband p "LINK_START" 0 :: s.chip.out ∧ s.chip.SameMemory t.chip ∧
        s.chip.SameRegs [BL_STATUS.STATE p, BL_STATUS.STEP p] t.chip) ∧
    (s.chip.portUp (otherPort p) = true → ∃ t, exec (.retrain p) s = .next t ∧
      t.chip.bport p = { s.chip.bport p with retrainDue := true } ∧ s.chip.SameMemory t.chip ∧ s.chip.SameRegs [] t.chip) ∧
    (∀ d : Nat, p = 2 * d → (s.chip.dieState d).inService = true → (s.chip.dieState d).lost = false →
      ∃ t, exec (.clkSilent d) s = .next t ∧ (t.chip.dieState d).lost = true ∧ (t.chip.dieState d).cause = 1 ∧
        t.chip.rd (BL_ERR.CLK_SILENT (2 * d)) = 1 ∧ t.chip.rd (BL_ERR.CLK_SILENT (2 * d + 1)) = 1) ∧
    (∀ set : Nat, (s.chip.bport p).setFail = [] → ∃ t, exec (.sbSetFail p set) s = .next t ∧
      t.chip.rd (BL_STATUS.SB_SET p) = 1 - set % 2 ∧ t.chip.rd (BL_ERR.SB_SET p) = 1 ∧ (t.chip.bport p).setFail = [set]))

/-! ### DRAM (15) -/

/-- R364: without mirroring the sixteen channels share out the lines: the line at each place of a channel lies on that
channel and at that place. -/
def Obligations.ChannelsShareOutTheLines : Prop :=
  ∀ (k : Chip) (c n : Nat), k.on (MC_CTRL.MIRROR 0) = false → c < 16 →
    channelOf (64 * k.lineAt c n) = c ∧ k.localLine (k.lineAt c n) = n

/-- R366, R375, R377, R380, R383, R392: a read without errors returns the line, one that cannot be corrected is counted and
reported, one from a fenced channel returns poison; a write puts its bytes and its mark into the line, a partial one after
merging. Where the rules leave a point open, this states the model's reading: log entries 70, 71 and 73. -/
def Obligations.DramAccesses : Prop :=
  (∀ (s : State) (c line : Nat), c < 16 → s.chip.chFenced c = false → c ∉ s.chip.pwr.gatedChannels →
    s.chip.linePoison (s.chip.lineAt c line) = false →
    ∃ t, exec (.dramRead c line [] [] none) s = .next t ∧ t.chip.out = .dram c "READ_DATA" line :: s.chip.out ∧
      s.chip.SameMemory t.chip ∧ t.chip.poison = s.chip.poison ∧ s.chip.SameRegs [] t.chip) ∧
  (∀ (s : State) (c line : Nat) (errs partner : List DevErr) (a b : Nat), c < 16 → s.chip.chFenced c = false →
    s.chip.on (MC_CTRL.MIRROR 0) = false → (errs.map (·.device)).eraseDups = [a, b] →
    (∀ e ∈ errs.head?, s.chip.markedDevice c e.rank e.sub = none) →
    ∃ t, exec (.dramRead c line errs partner none) s = .next t ∧ t.chip.rd (MC_ERR.UNCORRECTED c) = 1 ∧
      t.chip.rd (MC_CNT.UNCORRECTED c) = satAdd (s.chip.rd (MC_CNT.UNCORRECTED c)) 1 (MC_CNT.UNCORRECTED c).width) ∧
  (∀ (s : State) (c line : Nat) (errs partner : List DevErr) (deadline : Option Nat), c < 16 → s.chip.chFenced c = true →
    s.chip.on (MC_CTRL.MIRROR 0) = false →
    exec (.dramRead c line errs partner deadline) s = .next (s.after (s.chip.emit (.dram c "READ_POISON" line)))) ∧
  (∀ (s : State) (c line : Nat) (data : Bytes) (poison : Bool), c < 16 → s.chip.chFenced c = false →
    c ∉ s.chip.pwr.gatedChannels → (Tbl.get {} s.chip.mc.ch c).writes.length < 16 →
    ∃ t, exec (.dramWrite c line data poison) s = .next t ∧
      t.chip.mem = memPut s.chip.mem (64 * s.chip.lineAt c line) (padTo data 64) ∧
      Tbl.get false t.chip.poison (s.chip.lineAt c line) = poison ∧
      (Tbl.get {} t.chip.mc.ch c).writes = (Tbl.get {} s.chip.mc.ch c).writes ++ [line] ∧
      t.chip.out = s.chip.out ∧ s.chip.SameRegs [] t.chip) ∧
  (∀ (s : State) (c line l mask : Nat) (data : Bytes), c < 16 → s.chip.chFenced c = false → l = s.chip.lineAt c line →
    c ∉ s.chip.pwr.gatedChannels →
    ∃ t, exec (.mergeBufferWrite c line data mask) s = .next t ∧
      t.chip.mem = memPut s.chip.mem (64 * l) (padTo (maskLine (memBytes s.chip.mem (64 * l) 64) data mask) 64) ∧
      Tbl.get false t.chip.poison l = (mask % 2 ^ 64 != 2 ^ 64 - 1 && s.chip.linePoison l) ∧ s.chip.SameRegs [] t.chip)

/-- R362, R367, R369, R372, R373, R374, R380, R381: a refresh is issued, or postponed while the rank is busy; recalibration
takes the ranks in turn; a rate that is trained is changed to at a boundary, and the channels return to service at it; the
scrubber reads 8 lines and moves on; a fenced channel is out of service; ALERT_N replays the write. Where the rules leave a
point open, this states the model's reading: log entries 71 and 72. -/
def Obligations.DramMaintenance : Prop :=
  ∀ (s : State) (c : Nat), c < 16 →
    (∀ (r : Nat) (busy : Bool), s.chip.rd (MC_STATUS.STATE c) = 2 →
      busy = false ∨ s.chip.postponeMax c ≤ (Tbl.get {} (Tbl.get {} s.chip.mc.ch c).ranks r).postponed →
      exec (.refreshDue c r busy) s = .next (s.after (s.chip.emit (.dram c "REFRESH" r)))) ∧
    (∀ r : Nat, s.chip.rd (MC_STATUS.STATE c) = 2 →
      (Tbl.get {} (Tbl.get {} s.chip.mc.ch c).ranks r).postponed < s.chip.postponeMax c →
      ∃ t, exec (.refreshDue c r true) s = .next t ∧
        (Tbl.get {} (Tbl.get {} t.chip.mc.ch c).ranks r).postponed =
          (Tbl.get {} (Tbl.get {} s.chip.mc.ch c).ranks r).postponed + 1 ∧ t.chip.out = s.chip.out ∧
        s.chip.SameMemory t.chip ∧ s.chip.SameRegs [MC_STATUS.POSTPONED c] t.chip) ∧
    (∀ (r : Nat) (twice : Bool), ∃ t, exec (.mr4Read c r twice) s = .next t ∧
      Tbl.get {} (Tbl.get {} t.chip.mc.ch c).ranks r =
        { Tbl.get {} (Tbl.get {} s.chip.mc.ch c).ranks r with doubled := twice } ∧ s.chip.SameMemory t.chip ∧
      s.chip.SameRegs [MC_STATUS.POSTPONED c] t.chip) ∧
    (∀ r : Nat, s.chip.rd (MC_STATUS.STATE c) = 2 → r = (Tbl.get {} s.chip.mc.ch c).nextRank % s.chip.ranksOf c →
      ∃ t, exec (.dramRecalSlot c) s = .next t ∧ .dram c "RECALIBRATE" r ∈ t.chip.out ∧
        (Tbl.get {} t.chip.mc.ch c).nextRank = (r + 1) % s.chip.ranksOf c ∧ s.chip.SameMemory t.chip ∧
        s.chip.SameRegs [MC_STATUS.POSTPONED c] t.chip) ∧
    (∀ v : Nat, v < 3 → v ≠ s.chip.rd (MC_CTRL.RATE 0) → s.chip.trained v = true → s.chip.mc.change = none →
      v ≠ s.chip.rd (MC_STATUS.RATE 0) →
      exec (.mcRateWrite 0 v) s = .next (s.after { s.chip with mc := { s.chip.mc with
        change := some { target := v, previous := s.chip.rd (MC_STATUS.RATE 0) } } })) ∧
    (∀ v : Nat, v < 3 → v ≠ s.chip.rd (MC_CTRL.RATE 0) → s.chip.trained v = false →
      exec (.mcRateWrite 0 v) s = .next (s.after (s.chip.mcErr MC_ERR.CFG 0 {} 0 0 0))) ∧
    (∀ x : RateChange, s.chip.mc.change = some x → x.running = true → x.target < 4 → s.chip.rd (MC_STATUS.STATE c) = 4 →
      ∃ t, exec (.rateChangeComplete []) s = .next t ∧ t.chip.mc.change = none ∧ t.chip.rd (MC_STATUS.STATE c) = 2 ∧
        t.chip.rd (MC_STATUS.RATE c) = x.target ∧ s.chip.SameMemory t.chip) ∧
    (s.chip.chFenced c = false → s.chip.on (MC_CTRL.MIRROR 0) = false → ∃ t, exec (.channelFence c) s = .next t ∧
      t.chip.rd (MC_STATUS.STATE c) = 5 ∧ t.chip.rd (MC_ERR.FENCED c) = 1 ∧ (Tbl.get {} t.chip.mc.ch c).writes = []) ∧
    (s.chip.rd (MC_STATUS.STATE c) = 2 → s.chip.pwr.pkg.up = true → s.chip.poison = [] →
      8 * 2 ^ 32 ≤ (Tbl.get {} s.chip.mc.ch c).scrubCredit → s.chip.rd (MC_SCRUB_POS.LINE c) + 8 < s.chip.chLines c →
      s.chip.rd (MC_SCRUB_POS.LINE c) + 8 < 2 ^ (MC_SCRUB_POS.LINE c).width →
      ∃ t, exec (.scrubBurst c []) s = .next t ∧ t.chip.rd (MC_SCRUB_POS.LINE c) = s.chip.rd (MC_SCRUB_POS.LINE c) + 8 ∧
        (Tbl.get {} t.chip.mc.ch c).scrubCredit = (Tbl.get {} s.chip.mc.ch c).scrubCredit - 8 * 2 ^ 32 ∧
        t.chip.out = s.chip.out ∧ s.chip.SameMemory t.chip ∧ s.chip.SameRegs [MC_SCRUB_POS.LINE c] t.chip) ∧
    (s.chip.chFenced c = false → (Tbl.get {} s.chip.mc.ch c).retries < 3 → ∃ t, exec (.alertN c) s = .next t ∧
      t.chip.rd (MC_ERR.LINK_RETRY c) = 1 ∧
      (Tbl.get {} t.chip.mc.ch c).retries = (Tbl.get {} s.chip.mc.ch c).retries + 1 ∧
      t.chip.out.head? = some (.dram c "REPLAY" ((Tbl.get {} s.chip.mc.ch c).retries + 1)))

/-! ### Traffic regulation (16) -/

/-- R395, R399, R400, R401, R412: a reservation within the capacity is held for the next boundary, one beyond it is discarded
with CFG; STOP is set and cleared as the word shows; an arbitration entry is read, and written for the next boundary. Where
the rules leave a point open, this states the model's reading: log entries 74 and 75. -/
def Obligations.TrafficRegisters : Prop :=
  (∀ (s : State) (v : Nat), bits v 0 16 + bits v 16 16 + bits v 32 16 ≤ s.chip.rd QT_CAP.CAP →
    s.chip.rd QT_RESERVE.HP ≠ bits v 0 16 →
    ∃ t, exec (.qtReserveWrite v) s = .next t ∧ (QT_RESERVE.HP, bits v 0 16) ∈ t.chip.beat.held ∧
      (QT_RESERVE.DL_ENG, bits v 16 16) ∈ t.chip.beat.held ∧ (QT_RESERVE.DL_HUB, bits v 32 16) ∈ t.chip.beat.held ∧
      s.chip.SameMemory t.chip ∧ s.chip.SameRegs [QT_STATUS.CFG] t.chip) ∧
  (∀ (s : State) (v : Nat), s.chip.rd QT_CAP.CAP < bits v 0 16 + bits v 16 16 + bits v 32 16 →
    s.chip.rd QT_RESERVE.HP ≠ bits v 0 16 →
    exec (.qtReserveWrite v) s = .next (s.after (s.chip.wr QT_STATUS.CFG 1))) ∧
  (∀ s : State, ∃ t, exec .stopSet s = .next t ∧ t.chip.qt.stop = true ∧ t.chip.rd QT_CAP.STOP = 1 ∧
    t.chip.qt.word = t.chip.throttleWord ∧ s.chip.SameMemory t.chip ∧ s.chip.SameRegs [] t.chip) ∧
  (∀ s : State, ∃ t, exec .stopClear s = .next t ∧ t.chip.qt.stop = false ∧ t.chip.rd QT_CAP.STOP = 0 ∧
    s.chip.SameMemory t.chip ∧ s.chip.SameRegs [] t.chip) ∧
  (∀ (s : State) (i : Nat), i < 256 → ∃ t, exec (.qtIndRead 0 i) s = .next t ∧
    t.chip.rd QT_IND_DATA0.DATA = Tbl.get 1 s.chip.qt.entries i % 8 + 8 * ofBool (bit (Tbl.get 1 s.chip.qt.entries i) 2) ∧
    t.chip.rd QT_IND_CMD.STATUS = 0 ∧ t.chip.rd QT_IND_CMD.GO = 0 ∧ t.chip.qt = s.chip.qt ∧ s.chip.SameMemory t.chip) ∧
  (∀ (s : State) (i : Nat), i < 256 → ∃ t, exec (.qtIndWrite 0 i) s = .next t ∧
    t.chip.qt.entriesHeld.find i = some (s.chip.rd QT_IND_DATA0.DATA % 4) ∧
    t.chip.rd QT_IND_CMD.STATUS = 0 ∧ t.chip.rd QT_IND_CMD.GO = 0 ∧ s.chip.SameMemory t.chip)

/-- R402, R403: where no grant is in use, a cycle of an arbiter decides the next: among the requesters that have waited to
the limit, or among all where none has, it grants one of the highest class. Where the rules leave a point open, this states
the model's reading: log entry 75. -/
def Obligations.ArbitersGrantTheHighestClass : Prop :=
  (∀ (s : State) (inst port : Nat) (reqs : List Nat) (still unitEnd last : Bool), inst < 4 →
    (Tbl.get {} s.chip.qt.arbs (256 * inst + port)).grant = none →
    ∃ t, exec (.arbiterCycle inst port reqs still unitEnd last) s = .next t ∧
      Tbl.get {} t.chip.qt.arbs (256 * inst + port) = Arb.decide (Tbl.get {} s.chip.qt.arbs (256 * inst + port))
        (s.chip.arbClass inst) (orDefault (s.chip.rd (QT_ARB_CTRL.WAIT_LIMIT inst)) 32) reqs ∧
      s.chip.SameMemory t.chip ∧ s.chip.SameRegs [] t.chip) ∧
  (∀ (a b : Arb) (cls : Nat → Nat) (limit : Nat) (e : List Nat), e ≠ [] → b = a.decide cls limit e →
    ∃ w, b.grant = some w ∧ w ∈ e ∧
      ((∃ r ∈ e, limit ≤ Tbl.get 0 b.waits r) → limit ≤ Tbl.get 0 b.waits w ∧
        ∀ r ∈ e, limit ≤ Tbl.get 0 b.waits r → cls r ≤ cls w) ∧
      ((∀ r ∈ e, Tbl.get 0 b.waits r < limit) → ∀ r ∈ e, cls r ≤ cls w))

/-! ### Faults and failover (17) -/

/-- R430, R432, R435, R436, R437, R438: a home-agent pair stops until its spare takes over, and without one the package
stops; a ring-engine instance that fails is fenced and the other is active; the first SRAM error of an engine replays its
segment, the second within 256 beats and a control error fail it; a control stop loses its die; a unit returns from a test
that it passes and is withdrawn by one that it fails. Where the rules leave a point open, this states the model's reading:
log entries 44, 76 and 77. -/
def Obligations.UnitsFailOver : Prop :=
  (∀ (s : State) (n : Nat) (c : Instr), c = .haPairMismatch n ∨ c = .trackerUncorrectable n →
    (s.chip.pair n).failed = false → (s.chip.pair n).failing = false → s.chip.pairServes n = true →
    (s.chip.sparesLeft ≠ 0 → ∃ t, exec c s = .next t ∧ t.chip.pair n = { s.chip.pair n with failing := true } ∧
      t.chip.flt.pairsDue = s.chip.flt.pairsDue ++ [s.chip.due n 0] ∧ s.chip.SameMemory t.chip ∧ s.chip.SameRegs [] t.chip) ∧
    (s.chip.sparesLeft = 0 → ∃ t, exec c s = .next t ∧ t.chip.pair n = { s.chip.pair n with failed := true } ∧
      t.chip.flt.fatal = true)) ∧
  (∀ (s : State) (i : Nat), s.chip.re.fencedOther = false → i < 2 →
    ∃ t, exec (.reInstanceFailover i true) s = .next t ∧ t.chip.re.fencedOther = true ∧
      t.chip.re.instanceB = (i == 0) ∧ t.chip.rd RE_ERR.INSTANCE = 1 ∧ t.chip.rd RE_STATUS.FENCED = 1) ∧
  (∀ (s : State) (e : Nat) (sg : Seg) (j : Job), e < 24 → (s.chip.engine e).seg = some sg →
    s.chip.re.jobs.find sg.job = some j →
    ((s.chip.engine e).sramError = none → ∃ t, exec (.engineSramUncorrectable e) s = .next t ∧
      (t.chip.engine e).seg = none ∧ (t.chip.engine e).sramError = some s.chip.now ∧
      (t.chip.engine e).failed = (s.chip.engine e).failed ∧ (t.chip.job sg.job).state = .replaying ∧
      sg.job ∈ t.chip.re.replays ∧ t.chip.rd (AE_ERR.SRAM_UNCORRECTED e) = 1) ∧
    (∀ b, (s.chip.engine e).sramError = some b → s.chip.now < b + 256 → (s.chip.engine e).failed = false →
      ∃ t, exec (.engineSramUncorrectable e) s = .next t ∧ (t.chip.engine e).seg = none ∧ (t.chip.engine e).failed = true ∧
        (t.chip.job sg.job).state = .replaying) ∧
    ((s.chip.engine e).failed = false → ∃ t, exec (.engineControlParity e) s = .next t ∧ (t.chip.engine e).seg = none ∧
      (t.chip.engine e).failed = true ∧ (t.chip.engine e).inService = false ∧ (t.chip.job sg.job).state = .replaying ∧
      sg.job ∈ t.chip.re.replays)) ∧
  (∀ (s : State) (d : Nat), d < 12 → (s.chip.dieState d).inService = true → (s.chip.dieState d).lost = false →
    ∃ t, exec (.controlStopError d) s = .next t ∧ (t.chip.dieState d).lost = true ∧ (t.chip.dieState d).cause = 5 ∧
      (t.chip.dieState d).lostAt = s.chip.now) ∧
  (∀ (s : State) (e : Nat) (x : Test), e < 24 → s.chip.gn.tests = [x] → x.running = true → x.unitType = 1 → x.unit = e →
    (∃ t, exec (.selfTestComplete 1 e true) s = .next t ∧
      t.chip.engine e = { s.chip.engine e with inTest := false, suspect := false } ∧ t.chip.gn.tests = []) ∧
    (∃ t, exec (.selfTestComplete 1 e false) s = .next t ∧
      t.chip.engine e = { s.chip.engine e with inTest := false, suspect := false, failed := true, inService := false } ∧
      t.chip.rd (AE_ERR.SELFTEST_FAIL e) = 1 ∧ t.chip.gn.tests = []))

/-! ### The worlds (18) -/

/-- R444, R573: a write to a register of the worlds that the normal world makes changes nothing but the denial it reports:
not the watermark nor a claim, no key slot, no step of a restart. Where the rules leave a point open, this states the model's
reading: log entry 29. -/
def Obligations.NormalWorldLeavesTheSecureState : Prop :=
  ∀ (s : State) (c : Instr) (who : By), who.w ≠ 0 →
    (∃ value, c = .wsSecureTopWrite value who) ∨ (∃ reg value, c = .wsClaimWrite reg value who) ∨
      (∃ slot, c = .wsKeyRead slot who) ∨ (∃ slot, c = .load slot who) ∨ (∃ slot, c = .clear slot who) ∨
      c = .signKey who ∨ c = .kick who ∨ c = .req who ∨ c = .done who →
    ∃ t, exec c s = .next t ∧ t.chip.ws = s.chip.ws ∧ t.chip.beat = s.chip.beat ∧
      s.chip.SameRegs (WS_ERR.REG_WRITE :: reportFields) t.chip

/-- R445, R450, R453 to R457, R465, R466, R469: the secure world's new watermark waits for the beat boundary and a locked one
stays; a claim register takes its fields at once; a hart in the secure world halts for the debugger with SID set, else when
it leaves; one in the normal world with NID set; a key slot's metadata is read, a key of 256 or 512 bits is loaded, a slot is
cleared, each counting a load where it changes the slot; a type that a load does not take ends it in status 3, a restart of
the secure world in status 4; the signing service's key is published by the service; every one leaves the data registers 0.
Where the rules leave a point open, this states the model's reading: log entry 78. -/
def Obligations.SecureWorldCommands : Prop :=
  (∀ (s : State) (value source id : Nat), s.chip.on WS_LOCK.TOP_LOCK = false →
    bits value 26 26 ≠ s.chip.rd WS_SECURE_TOP.TOP → bits value 26 26 * 2 ^ 26 ≤ s.chip.dramSize →
    ∃ t, exec (.wsSecureTopWrite value { source := source, id := id, w := 0 }) s = .next t ∧
      t.chip.beat = { s.chip.beat with
        held := (s.chip.beat.held.filter fun e => e.1.key != WS_SECURE_TOP.TOP.key) ++
          [(WS_SECURE_TOP.TOP, bits value 26 26)] } ∧
      s.chip.SameMemory t.chip ∧ s.chip.SameRegs [] t.chip ∧ t.chip.out = s.chip.out) ∧
  (∀ (s : State) (value source id : Nat), s.chip.on WS_LOCK.TOP_LOCK = true →
    exec (.wsSecureTopWrite value { source := source, id := id, w := 0 }) s = .next (s.after s.chip)) ∧
  (∀ (s : State) (value source id : Nat), ∃ t,
    exec (.wsClaimWrite 0x18 value { source := source, id := id, w := 0 }) s = .next t ∧
      t.chip.rd WS_CLAIM.CDIE = bits value 0 12 ∧ t.chip.rd WS_CLAIM.CHANNEL = bits value 12 16 ∧
      t.chip.rd WS_CLAIM.SIGN = bits value 28 1 ∧ t.chip.rd WS_CLAIM.ENDPOINT = bits value 29 1 ∧
      s.chip.SameMemory t.chip ∧
      s.chip.SameRegs [WS_CLAIM.CDIE, WS_CLAIM.CHANNEL, WS_CLAIM.SIGN, WS_CLAIM.ENDPOINT] t.chip) ∧
  (∀ (s : State) (i value source id : Nat), i < 6 → ∃ t,
    exec (.wsClaimWrite (0x20 + 8 * i) value { source := source, id := id, w := 0 }) s = .next t ∧
      t.chip.rd (WS_CLAIM_TILE.TILE i) = value % 2 ^ (if i = 5 then 16 else 64) ∧
      s.chip.SameMemory t.chip ∧ s.chip.SameRegs [WS_CLAIM_TILE.TILE i] t.chip) ∧
  (∀ (s : State) (h : Nat), ∃ t, exec (.debugHaltRequest h) s = .next t ∧
    t.chip.hart h = { s.chip.hart h with
      halted := (s.chip.hart h).halted || s.chip.on (if (s.chip.hart h).w = 0 then WS_DEBUG.SID else WS_DEBUG.NID)
      haltPending := (s.chip.hart h).haltPending || decide ((s.chip.hart h).w = 0) && !s.chip.on WS_DEBUG.SID } ∧
    (∀ g, g ≠ h → t.chip.hart g = s.chip.hart g) ∧ s.chip.SameMemory t.chip ∧ s.chip.SameRegs [] t.chip) ∧
  (∀ (s : State) (slot source id : Nat) (x : KeySlot) (c : Instr), s.chip.on WS_STATUS.RESTARTING = false → slot < 16384 →
    c = .wsKeyRead slot { source := source, id := id, w := 0 } → x = s.chip.keySlot slot →
    ∃ t, exec c s = .next t ∧ t.chip.rd WS_KEY_META.TYPE = x.type % 4 ∧ t.chip.rd WS_KEY_META.GEN = x.generation % 2 ^ 32 ∧
      t.chip.rd WS_KEY_META.FUNCTION = x.fn % 256 ∧ t.chip.on WS_KEY_META.FN_VALID = x.fnValid ∧
      t.chip.on WS_KEY_META.INTERNAL_OK = x.internalOk ∧ (∀ i < 8, t.chip.rd (WS_KEY_DATA.KEY i) = 0) ∧
      t.chip.rd WS_KEY_CMD.STATUS = 0 ∧ t.chip.rd WS_KEY_CMD.GO = 0 ∧ t.chip.rd WS_KEY_CMD.SLOT = slot ∧
      t.chip.ws = s.chip.ws ∧ s.chip.SameMemory t.chip) ∧
  (∀ (s : State) (slot source id : Nat) (data : Bytes), s.chip.on WS_STATUS.RESTARTING = false → slot < 16384 →
    data = s.chip.indBytes WS_KEY_DATA.KEY 8 →
    s.chip.rd WS_KEY_META.TYPE = 1 ∨ (s.chip.rd WS_KEY_META.TYPE = 2 ∧ data.take 32 ≠ data.drop 32) →
    ∃ t, exec (.load slot { source := source, id := id, w := 0 }) s = .next t ∧
      t.chip.keySlot slot =
        { key := if s.chip.rd WS_KEY_META.TYPE = 1 then data.take 32 else data, type := s.chip.rd WS_KEY_META.TYPE
          generation := s.chip.rd WS_KEY_META.GEN, fn := s.chip.rd WS_KEY_META.FUNCTION
          fnValid := s.chip.on WS_KEY_META.FN_VALID, internalOk := s.chip.on WS_KEY_META.INTERNAL_OK
          loads := (s.chip.keySlot slot).loads + 1 } ∧
      (∀ n, n ≠ slot → t.chip.keySlot n = s.chip.keySlot n) ∧ (∀ i < 8, t.chip.rd (WS_KEY_DATA.KEY i) = 0) ∧
      t.chip.rd WS_KEY_CMD.STATUS = 0 ∧ t.chip.rd WS_KEY_CMD.GO = 0 ∧ s.chip.SameMemory t.chip) ∧
  (∀ (s : State) (slot source id : Nat), s.chip.on WS_STATUS.RESTARTING = false → slot < 16384 →
    s.chip.rd WS_KEY_META.TYPE ∈ [0, 3] → ∃ t, exec (.load slot { source := source, id := id, w := 0 }) s = .next t ∧
      t.chip.rd WS_KEY_CMD.STATUS = 3 ∧ t.chip.rd WS_KEY_CMD.GO = 0 ∧ t.chip.ws = s.chip.ws) ∧
  (∀ (s : State) (slot source id : Nat), s.chip.on WS_STATUS.RESTARTING = false → slot < 16384 →
    ∃ t, exec (.clear slot { source := source, id := id, w := 0 }) s = .next t ∧
      t.chip.keySlot slot = { s.chip.keySlot slot with type := 0, loads := (s.chip.keySlot slot).loads + 1 } ∧
      (∀ n, n ≠ slot → t.chip.keySlot n = s.chip.keySlot n) ∧ t.chip.rd WS_KEY_CMD.STATUS = 0 ∧
      t.chip.rd WS_KEY_CMD.GO = 0 ∧ s.chip.SameMemory t.chip) ∧
  (∀ (s : State) (slot source id : Nat) (who : By) (c : Instr), who = { source := source, id := id, w := 0 } →
    c ∈ [.wsKeyRead slot who, .load slot who, .clear slot who, .signKey who] → s.chip.on WS_STATUS.RESTARTING = true →
    ∃ t, exec c s = .next t ∧ t.chip.rd WS_KEY_CMD.STATUS = 4 ∧ t.chip.rd WS_KEY_CMD.GO = 0 ∧
      (∀ i < 8, t.chip.rd (WS_KEY_DATA.KEY i) = 0) ∧ t.chip.ws = s.chip.ws ∧ s.chip.SameMemory t.chip) ∧
  (∀ (s : State) (source id d : Nat), s.chip.on WS_STATUS.RESTARTING = false → s.chip.rd WS_KEY_CMD.SLOT < 16384 →
    d = ofBe (s.chip.indBytes WS_KEY_DATA.KEY 6) → 0 < d → d < p384N →
    ∃ t, exec (.signKey { source := source, id := id, w := 0 }) s = .next t ∧ t.chip.ws.signKey = some d ∧
      t.chip.rd WS_STATUS.SIGN_READY = 0 ∧ (∀ i < 13, t.chip.rd (WS_SEAL_PUB.PUB i) = 0) ∧
      (∀ i < 2, t.chip.rd (WS_SIGNER_ID.ID i) = 0) ∧ (∀ i < 8, t.chip.rd (WS_KEY_DATA.KEY i) = 0) ∧
      t.chip.rd WS_KEY_CMD.STATUS = 0 ∧ t.chip.ws.keys = s.chip.ws.keys ∧ s.chip.SameMemory t.chip) ∧
  (∀ (s : State) (d : Nat), s.chip.ws.signKey = some d → s.chip.ws.signPending = true →
    ∃ t, exec .signReady s = .next t ∧ t.chip.rd WS_STATUS.SIGN_READY = 1 ∧ t.chip.ws.signKey = some d ∧
      (∀ i < 13, t.chip.rd (WS_SEAL_PUB.PUB i) = leAt (p384Pub d) (8 * i) 8) ∧
      (∀ i < 2, t.chip.rd (WS_SIGNER_ID.ID i) = leAt (signerId d) (8 * i) 8) ∧ s.chip.SameMemory t.chip)

/-- R459, R460, R461, R467, R576: each cause starts a restart of the secure world, which stops its watchdog and forces the
harts out; the loaded image is measured and every hart told; DONE ends the restart and starts the watchdog; a restart that
does not end is tried again, and the third failure gives the secure world up; a kick starts the watchdog's period again.
Where the rules leave a point open, this states the model's reading: log entry 79. -/
def Obligations.SecureRestart : Prop :=
  (∀ (s : State) (c : Instr) (cause source id : Nat), s.chip.on WS_STATUS.RESTARTING = false →
    (c = .secureWatchdogLapse ∧ s.chip.ws.watchdog = true ∧ s.chip.rd WS_WDOG.PERIOD ≠ 0 ∧ cause = 1) ∨
      (c = .req { source := source, id := id, w := 0 } ∧ cause = 2) ∨ (c = .signingSramUncorrectable ∧ cause = 4) →
    ∃ t, exec c s = .next t ∧ t = s.after (s.chip.secureRestart cause) ∧ t.chip.rd WS_STATUS.RESTARTING = 1 ∧
      t.chip.rd WS_RESTART.CAUSE = cause ∧ t.chip.rd WS_STATUS.RESTARTS = satAdd (s.chip.rd WS_STATUS.RESTARTS) 1 8 ∧
      t.chip.rd WS_ERR.RESTART = 1 ∧
      t.chip.ws = { s.chip.ws with restartStep := 1, watchdog := false, gaveUp := false }) ∧
  (∀ (g : Hart) (mepc mpp cause : Nat) (mpv : Bool), g.entry = some (mepc, mpp, mpv, cause) →
    g.forcedExit.w = 1 ∧ g.forcedExit.entry = none ∧ g.forcedExit.mode = modeOf mpp mpv ∧
      g.forcedExit.pc = (if isEcall cause then (mepc + 4) % 2 ^ 64 else mepc)) ∧
  (∀ (s : State) (measurement : Bytes) (h id : Nat), s.chip.on WS_STATUS.RESTARTING = true → s.chip.ws.gaveUp = false →
    s.chip.ws.restartStep < 4 → id = orDefault (s.chip.rd WS_RESTART.IDENTITY) 1 → Tbl.wf {} s.chip.harts = true →
    h < 288 → (s.chip.hart h).moving = none → (s.chip.hart h).online = true →
    ∃ t, exec (.secureImageLoaded measurement) s = .next t ∧ t.chip.ws = { s.chip.ws with restartStep := 4 } ∧
      t.chip.hf = { s.chip.hf with block3 := measurement } ∧
      t.chip.hart h = Hart.deliver { s.chip.hart h with inStub := false } 0 id ∧
      s.chip.SameMemory t.chip ∧ s.chip.SameRegs [] t.chip) ∧
  (∀ (s : State) (source id : Nat), s.chip.on WS_STATUS.RESTARTING = true → s.chip.ws.gaveUp = false →
    s.chip.ws.restartStep = 4 → ∃ t, exec (.done { source := source, id := id, w := 0 }) s = .next t ∧
      t.chip.rd WS_STATUS.RESTARTING = 0 ∧ t.chip.rd WS_STATUS.FAILS = 0 ∧
      t.chip.ws = { s.chip.ws with restartStep := 0, watchdog := true, wdogSince := s.chip.time } ∧
      s.chip.SameMemory t.chip ∧ s.chip.SameRegs [WS_STATUS.RESTARTING, WS_STATUS.FAILS] t.chip) ∧
  (∀ s : State, s.chip.on WS_STATUS.RESTARTING = true → s.chip.ws.gaveUp = false → s.chip.rd WS_STATUS.FAILS < 2 →
    ∃ t, exec .secureRestartTimeout s = .next t ∧ t.chip.rd WS_STATUS.FAILS = s.chip.rd WS_STATUS.FAILS + 1 ∧
      t.chip.rd WS_STATUS.RESTARTS = satAdd (s.chip.rd WS_STATUS.RESTARTS) 1 8 ∧ t.chip.rd WS_ERR.RESTART = 1 ∧
      t.chip.ws = { s.chip.ws with restartStep := 1, watchdog := false }) ∧
  (∀ s : State, s.chip.on WS_STATUS.RESTARTING = true → s.chip.ws.gaveUp = false → 2 ≤ s.chip.rd WS_STATUS.FAILS →
    ∃ t, exec .secureRestartTimeout s = .next t ∧ t.chip.rd WS_STATUS.FAILS = 3 ∧ t.chip.rd WS_STATUS.DOWN = 1 ∧
      t.chip.ws = { s.chip.ws with gaveUp := true } ∧ t.chip.rd WS_ERR.DOWN = 1) ∧
  (∀ (s : State) (source id : Nat), ∃ t, exec (.kick { source := source, id := id, w := 0 }) s = .next t ∧
    t.chip.ws = { s.chip.ws with wdogSince := s.chip.time } ∧ s.chip.SameMemory t.chip ∧ s.chip.SameRegs [] t.chip)

/-! ### Clocks and power (19) -/

/-- R450, R451, R472, R485, R486, R489, R490, R494: a power request waits in PWR_CMD for the beat boundary with GO at 1;
while GO reads 1 another is not looked at; a package in transition answers BUSY and a request of no shape INVALID, both at
once, and one without beats decides at once; at the boundary a request for Standby is NOT_QUIESCED while work is under way,
REFUSED_SECURE to the normal world while a unit is claimed, and otherwise begins the entry with every hart stopped; Quiet
starts its change of rate; a gate of a tile whose hart does not run, of a channel and of the signing service takes it out, an
ungate brings the tile back. Where the rules leave a point open, this states the model's reading: log entry 80. -/
def Obligations.PowerRequests : Prop :=
  (∀ (s : State) (c : Instr) (op target index src : Nat), src < 2 →
    (c = .run src ∧ op = 0 ∧ target = 0 ∧ index = 0) ∨ (c = .quiet src ∧ op = 1 ∧ target = 0 ∧ index = 0) ∨
      (c = .standby src ∧ op = 2 ∧ target = 0 ∧ index = 0) ∨ (c = .drydown src ∧ op = 3 ∧ target = 0 ∧ index = 0) ∨
      (c = .gate target index src ∧ op = 4 ∧ target < 8 ∧ index < 512) ∨
      (c = .ungate target index src ∧ op = 5 ∧ target < 8 ∧ index < 512) →
    (s.chip.on PWR_CMD.GO = true → exec c s = .next (s.after s.chip)) ∧
    (∀ (k : Chip) (r : PwrReq), s.chip.on PWR_CMD.GO = false → r = { op := op, target := target, index := index, src := src } →
      k = (((s.chip.wr PWR_CMD.OP op).wr PWR_CMD.TARGET target).wr PWR_CMD.INDEX index).wr PWR_CMD.GO 1 →
      (r.shaped = false → exec c s = .next (s.after ((k.wr PWR_CMD.STATUS 5).wr PWR_CMD.GO 0))) ∧
      (r.shaped = true → s.chip.pwr.pkg.moving = true ∨ s.chip.gunelUp = false →
        exec c s = .next (s.after ((k.wr PWR_CMD.STATUS 1).wr PWR_CMD.GO 0))) ∧
      (r.shaped = true → s.chip.pwr.pkg = .run ∨ s.chip.pwr.pkg = .quiet → s.chip.gunelUp = true →
        exec c s = .next (s.after { k with pwr := { k.pwr with requests := s.chip.pwr.requests ++ [r] } })) ∧
      (r.shaped = true → s.chip.pwr.pkg = .standby ∨ s.chip.pwr.pkg = .drydown → s.chip.gunelUp = true →
        exec c s = .next (s.after (k.pwrDecide r).endEntry)))) ∧
  (∀ (k : Chip) (r : PwrReq), k.pwr.requests = [r] → k.pwr.pkg = .run → k.gunelUp = true → r.src < 2 →
    k.pwrBoundary.rd PWR_CMD.GO = 0 ∧
    (r.op = 2 → r.target = 0 → k.quiesced = false →
      k.pwrBoundary.rd PWR_CMD.STATUS = 2 ∧ k.pwrBoundary.pwr = { k.pwr with requests := [] }) ∧
    (r.op = 2 → r.target = 0 → k.quiesced = true → r.src = 0 → k.claims ≠ [] →
      k.pwrBoundary.rd PWR_CMD.STATUS = 3 ∧ k.pwrBoundary.rd WS_ERR.REFUSED = 1 ∧ k.pwrBoundary.rd PWR_ERR.REFUSED = 1 ∧
      k.pwrBoundary.pwr.pkg = .run) ∧
    (r.op = 2 → r.target = 0 → k.quiesced = true → r.src = 1 ∨ k.claims = [] →
      k.pwrBoundary.rd PWR_CMD.STATUS = 0 ∧ k.pwrBoundary.pwr.pkg = .enterStandby ∧
      ∀ h, (k.pwrBoundary.hart h).online = false) ∧
    (r.op = 1 → r.target = 0 → k.trained k.quietRate = true → k.mc.change = none → k.rd (MC_STATUS.RATE 0) = k.quietRate →
      k.pwrBoundary.rd PWR_CMD.STATUS = 0 ∧ k.pwrBoundary.pwr.pkg = .quiet) ∧
    (r.op = 1 → r.target = 0 → k.trained k.quietRate = true → k.mc.change = none → k.rd (MC_STATUS.RATE 0) ≠ k.quietRate →
      k.pwrBoundary.rd PWR_CMD.STATUS = 0 ∧ k.pwrBoundary.pwr.pkg = .enterQuiet ∧
      k.pwrBoundary.mc.change = some { target := k.quietRate, previous := k.rd (MC_STATUS.RATE 0), running := true }) ∧
    (r.op = 4 → r.target = 1 → k.tileRuns r.index = false → r.src = 1 ∨ k.claimsOf 1 r.index = [] →
      k.pwrBoundary.rd PWR_CMD.STATUS = 0 ∧ (k.pwrBoundary.tile r.index).gated = true) ∧
    (r.op = 4 → r.target = 3 → r.src = 1 ∨ k.claimsOf 3 r.index = [] → k.rd (MC_STATUS.STATE r.index) = 2 → r.index < 16 →
      k.pwrBoundary.rd PWR_CMD.STATUS = 0 ∧ k.pwrBoundary.rd (MC_STATUS.STATE r.index) = 3 ∧
      r.index ∈ k.pwrBoundary.pwr.gatedChannels) ∧
    (r.op = 4 → r.target = 4 → r.src = 1 ∨ k.claimsOf 4 r.index = [] →
      k.pwrBoundary.rd PWR_CMD.STATUS = 0 ∧ k.pwrBoundary.pwr.gatedSign = true) ∧
    (r.op = 5 → r.target = 1 →
      k.pwrBoundary.rd PWR_CMD.STATUS = 0 ∧ (k.pwrBoundary.tile r.index).gated = false))

/-- R224, R244, R472, R473, R487, R488, R500: a wake source that is enabled starts the package from Standby and from Drydown;
one that fires during an entry waits for its end, the first of them; a source that is not enabled does nothing; the loss of
REFCLK_SYS stops the beat without a word, that of REFCLK_RP removes the drives, that of EP_REFCLK takes the endpoint link
down; the H-die reports Gunel's lapse; the counts of the crystals and the waits of the PLLs end. Where the rules leave a
point open, this states the model's reading: log entries 57 and 82. -/
def Obligations.WakeSourcesAndClocks : Prop :=
  (∀ (s : State) (src : Nat) (facts : StartFacts),
    (bit (s.chip.rd PWR_WAKE.EN) src = false → exec (.wakeSourceFire src facts) s = .next (s.after s.chip)) ∧
    (bit (s.chip.rd PWR_WAKE.EN) src = true → src < 4 →
      (s.chip.pwr.pkg = .standby ∨ s.chip.pwr.pkg = .drydown →
        exec (.wakeSourceFire src facts) s = .next (s.after (s.chip.wakeStart src facts))) ∧
      (s.chip.pwr.pkg = .enterStandby ∨ s.chip.pwr.pkg = .enterDrydown → s.chip.pwr.wake = none →
        ∃ t, exec (.wakeSourceFire src facts) s = .next t ∧ t.chip.pwr = { s.chip.pwr with wake := some (src, facts) } ∧
          s.chip.SameMemory t.chip ∧ s.chip.SameRegs [] t.chip ∧ t.chip.out = s.chip.out))) ∧
  (∀ s : State, ∃ t, exec .refclkSysLoss s = .next t ∧ t.chip.beat = { s.chip.beat with stopped := true } ∧
    0 ∈ t.chip.pwr.refLost ∧ t.chip.ticking = false ∧ s.chip.SameMemory t.chip ∧ s.chip.SameRegs [] t.chip ∧
    t.chip.out = s.chip.out) ∧
  (∀ s : State, s.chip.mq.present = [] → ∃ t, exec .refclkRpLoss s = .next t ∧ 1 ∈ t.chip.pwr.refLost ∧
    s.chip.SameMemory t.chip ∧ s.chip.SameRegs [] t.chip ∧ t.chip.out = s.chip.out) ∧
  (∀ (s : State) (port : Nat), s.chip.mq.present = [port] → exec .refclkRpLoss s = .next (s.after
    { s.chip.driveRemoved port with pwr := { (s.chip.driveRemoved port).pwr with
        refLost := 1 :: (s.chip.driveRemoved port).pwr.refLost.filter (· != 1) } })) ∧
  (∀ s : State, ∃ t, exec .epRefclkLoss s = .next t ∧ 2 ∈ t.chip.pwr.refLost ∧ t.chip.rd HF_STATUS.LINK_UP = 0 ∧
    t.chip.rd HF_STATUS.LSTATE = 5 ∧ t.chip.hf.numVfs = 0) ∧
  (∀ s : State, ∃ t, exec .gunelLapse s = .next t ∧ t.chip.rd CLK_ERR.GUNEL_LAPSE = 1 ∧ t.chip.rd CLK_STATUS.GUNEL_HB = 0 ∧
    t.chip.rd GN_STATUS.RUNNING = 0 ∧ t.chip.gn.log = s.chip.gn.log ∧
    t.chip.gn.seq = (s.chip.gn.seq + 1) % 2 ^ 32 ∧
    .record (Ev.record { cls := 2, unitType := 14, unit := 0, cause := 0, status := 3 } s.chip.gn.seq s.chip.now s.chip.time) ∈
      t.chip.out ∧ t.chip.pwr = s.chip.pwr) ∧
  (∀ s : State, ∃ t, exec (.crystalCountEnd 1) s = .next t ∧ t.chip.rd CLK_STATUS.XTAL_F_OK = 1 ∧ s.chip.SameMemory t.chip ∧
    s.chip.SameRegs [CLK_STATUS.XTAL_F_OK] t.chip ∧ t.chip.out = s.chip.out) ∧
  (∀ s : State, exec (.crystalCountEnd 0) s = .next (s.after (s.chip.wr CLK_STATUS.XTAL_G_OK 1).tryBoot)) ∧
  (∀ (s : State) (n : Nat), s.chip.start.reset = true → ∃ t, exec (.pllWaitEnd n) s = .next t ∧ n ∈ t.chip.pwr.plls ∧
    s.chip.SameMemory t.chip ∧ s.chip.SameRegs [] t.chip ∧ t.chip.out = s.chip.out) ∧
  (∀ s : State, s.chip.start.reset = false → s.chip.start.step = 1 → s.chip.on CLK_STATUS.XTAL_G_OK = true →
    s.chip.start.facts.gunelGood.getD s.chip.gn.activeSlot true = true →
    exec (.pllWaitEnd 0) s = .next (s.after (Chip.bootGunel
      { s.chip with pwr := { s.chip.pwr with plls := 0 :: s.chip.pwr.plls.filter (· != 0) } })))

/-- R475, R478, R482, R489: 110 °C on a die stops the package; a droop is counted, reported once, and stretches the tile's
clock while enabled, until its end; an idle tile enters retention unless an interrupt waits for its hart, and wakes. Where
the rules leave a point open, this states the model's reading: log entry 81. -/
def Obligations.HeatDroopsAndRetention : Prop :=
  (∀ (s : State) (d : Nat), ∃ t, exec (.thermalCritical d) s = .next t ∧ t.chip.flt.fatal = true ∧
    (s.chip.flt.fatal = false → t.chip.gn.faultN = true) ∧ (1100 : Int) ≤ Tbl.get noReading t.chip.pwr.highs d) ∧
  (∀ (s : State) (n : Nat), n < 336 → s.chip.on CLK_ERR.DROOP = true → ∃ t, exec (.droop n) s = .next t ∧
    t.chip.rd (CLK_TRIM.DROOPS n) = satAdd (s.chip.rd (CLK_TRIM.DROOPS n)) 1 32 ∧ t.chip.rd CLK_ERR.DROOP = 1 ∧
    t.chip.tile n = { s.chip.tile n with stretch := (s.chip.tile n).stretch || s.chip.on CLK_CTRL.DROOP_EN } ∧
    (∀ m, m ≠ n → t.chip.tile m = s.chip.tile m) ∧ s.chip.SameMemory t.chip ∧
    s.chip.SameRegs [CLK_TRIM.DROOPS n] t.chip ∧ t.chip.out = s.chip.out) ∧
  (∀ (s : State) (n : Nat), n < 336 → s.chip.on CLK_ERR.DROOP = false → s.chip.on CLK_CTRL.DROOP_EN = false →
    exec (.droop n) s = .next (s.after (((s.chip.bump (CLK_TRIM.DROOPS n) 1).raise CLK_ERR.DROOP).log
      { cls := 0, unitType := 17, unit := 0, cause := 2, info0 := n }))) ∧
  (∀ (s : State) (n : Nat), ∃ t, exec (.droopStretchEnd n) s = .next t ∧
    t.chip.tile n = { s.chip.tile n with stretch := false } ∧ (∀ m, m ≠ n → t.chip.tile m = s.chip.tile m) ∧
    s.chip.SameMemory t.chip ∧ s.chip.SameRegs [] t.chip ∧ t.chip.out = s.chip.out) ∧
  (∀ (s : State) (n h : Nat), (s.chip.tile n).hart = some h → (s.chip.hart h).online = true → (s.chip.hart h).halted = false →
    s.chip.rd PWR_CTRL.TILE_IDLE ≠ 0 → s.chip.pwr.pkg.up = true → ∃ t, exec (.tileRetentionEntry n) s = .next t ∧
      t.chip.tile n = { s.chip.tile n with
        retention := (s.chip.tile n).retention || decide ((s.chip.hart h).pendingMsis = 0) } ∧
      t.chip.harts = s.chip.harts ∧ s.chip.SameMemory t.chip ∧ s.chip.SameRegs [] t.chip ∧ t.chip.out = s.chip.out) ∧
  (∀ (s : State) (n : Nat), ∃ t, exec (.tileRetentionWake n) s = .next t ∧
    t.chip.tile n = { s.chip.tile n with retention := false } ∧ (∀ m, m ≠ n → t.chip.tile m = s.chip.tile m) ∧
    s.chip.SameMemory t.chip ∧ s.chip.SameRegs [] t.chip ∧ t.chip.out = s.chip.out)

/-! ### Start and restart, the board (21, 24) -/

/-- R14, R442, R522 to R524, R556, R559: the assertion of package cold reset leaves every register at its reset value and the
parts of the machine at theirs, but for what stands in NOR, in Flacon and on the board, and lowers the rails; a C-die rail is
lost with the dies that it feeds, any other stops the package; BIST on a die whose link is not up or with no good tile leaves
it in reset, one that passes returns it to service with its tiles, the failed ones apart. Where the rules leave a point open,
this states the model's reading: log entries 1, 3, 83, 84 and 88. -/
def Obligations.ResetsAndRails : Prop :=
  (∀ s : State, ∃ t, exec .pkgResetAssert s = .next t ∧
    (∀ f : Fld, f.key ∉ shownFields.map Fld.key → t.chip.rd f = f.reset) ∧
    (∀ a, byteAt t.chip.mem a = 0) ∧ t.chip.poison = [] ∧ t.chip.time = 0 ∧ t.chip.beat = {} ∧ t.chip.re = {} ∧
    t.chip.eng = [] ∧ t.chip.acc = [] ∧ t.chip.cn = {} ∧ t.chip.harts = [] ∧ t.chip.tiles = [] ∧ t.chip.coh = {} ∧
    t.chip.noc = {} ∧ t.chip.bl = {} ∧ t.chip.qt = {} ∧ t.chip.flt = {} ∧ t.chip.ws = {} ∧ t.chip.start = {} ∧
    t.chip.pm = {} ∧ t.chip.fl = s.chip.fl ∧ t.chip.gn.nor = s.chip.gn.nor ∧
    t.chip.out.take 2 = [.pin "RAIL_EN_MAIN" 0, .pin "RAIL_EN_CD" 0]) ∧
  (∀ (s : State) (r : Nat), 3 ≤ r → ∃ t, exec (.railLoss r) s = .next t ∧
    t.chip.beat = { s.chip.beat with stopped := true } ∧ s.chip.SameMemory t.chip ∧ s.chip.SameRegs [] t.chip ∧
    t.chip.out = s.chip.out) ∧
  (∀ (s : State) (r d : Nat), r < 3 → ((List.range 4).map (4 * r + ·)).filter s.chip.dieUp = [d] →
    exec (.railLoss r) s = .next (s.after (s.chip.dieLost d 1 s.chip.recovering))) ∧
  (∀ (s : State) (d : Nat) (tiles engines : List Bool) (linkOk : Bool), d < 12 → (s.chip.dieState d).step = 6 →
    linkOk = false ∨ tiles.any id = false → ∃ t, exec (.dieBistDone d tiles engines linkOk) s = .next t ∧
      t.chip.dieState d = { s.chip.dieState d with step := 0, planned := false, heldOut := true } ∧
      t.chip.rd (BL_STATUS.STATE (2 * d)) = 0 ∧ t.chip.rd (BL_STATUS.STATE (2 * d + 1)) = 0) ∧
  (∀ (s : State) (d i : Nat) (tiles engines : List Bool), d < 12 → i < 28 → (s.chip.dieState d).step = 6 →
    tiles.any id = true → ∃ t, exec (.dieBistDone d tiles engines true) s = .next t ∧
      t.chip.dieState d = { inService := true } ∧ d ∉ t.chip.coh.lost ∧ d ∉ t.chip.pwr.gatedDies ∧
      Tbl.get {} t.chip.beat.dies d = { count := s.chip.now, fullDue := false } ∧
      (t.chip.tile (28 * d + i)).failed = ((s.chip.tile (28 * d + i)).failed || !tiles.getD i false))

/-- R511, R512, R517, R554, R556: the release of reset waits for Gunel's clock; each power-good that the start waits for
raises the next rail, and one that nothing waits for is not looked at; a step or a power-good that is late fails the start at
its step; a start fails at the step where R517 says so and else ends in Run. Where the rules leave a point open, this states
the model's reading: log entries 17 and 83. -/
def Obligations.StartsAndRails : Prop :=
  (∀ (s : State) (facts : StartFacts), s.chip.start.reset = true → s.chip.on CLK_STATUS.XTAL_G_OK = false →
    ∃ t, exec (.pkgResetRelease facts) s = .next t ∧
      t.chip.start = { s.chip.start with reset := false, step := 1, facts := facts, limps := 0 } ∧
      s.chip.SameMemory t.chip ∧ s.chip.SameRegs [] t.chip ∧ t.chip.out = s.chip.out) ∧
  (∀ s : State, s.chip.start.running = true → s.chip.start.railMain = true → s.chip.start.mainPg = false →
    s.chip.start.railCd = false → ∃ t, exec .mainPgRise s = .next t ∧
      t.chip.start = { s.chip.start with mainPg := true, railCd := true } ∧ t.chip.out = .pin "RAIL_EN_CD" 1 :: s.chip.out ∧
      s.chip.SameMemory t.chip ∧ s.chip.SameRegs [] t.chip) ∧
  (∀ s : State, s.chip.start.running = true → s.chip.start.railMain = true → s.chip.start.mainPg = true →
    s.chip.start.railCd = true → s.chip.start.cdPg = false →
    exec .cdPgRise s = .next (s.after (Chip.runStart 10 { s.chip with start := { s.chip.start with cdPg := true } }))) ∧
  (∀ (s : State) (c : Instr), c ∈ [.mainPgRise, .cdPgRise, .startStepTimeout, .powerGoodTimeout] →
    s.chip.start.running = false → exec c s = .next (s.after s.chip)) ∧
  (∀ (s : State) (c : Instr), s.chip.start.running = true →
    c = .startStepTimeout ∨ (c = .powerGoodTimeout ∧
      ((s.chip.start.railMain = true ∧ s.chip.start.mainPg = false) ∨
        (s.chip.start.railCd = true ∧ s.chip.start.cdPg = false))) →
    exec c s = .next (s.after (s.chip.failStart s.chip.start.step).raiseRails)) ∧
  (∀ (k : Chip) (n step : Nat), k.start.running = true → k.start.cdPg = true → k.startFailsAt = some step →
    Chip.runStart (n + 1) k = Chip.runStart n (k.failStart step)) ∧
  (∀ (k : Chip) (n : Nat), k.start.running = true → k.start.cdPg = true → k.startFailsAt = none →
    (Chip.runStart (n + 1) k).pwr.pkg = .run ∧ (Chip.runStart (n + 1) k).start.running = false) ∧
  (∀ (k : Chip) (step : Nat), k.start.kind ≠ 2 → k.start.kind ≠ 3 → k.start.limps < 3 →
    (k.failStart step).start.running = true ∧ (k.failStart step).pwr.pkg = .starting ∧
    ((k.failStart step).start.kind = 3 ↔ 1 ≤ Tbl.get 0 (k.log
      { cls := 4, unitType := 17, unit := 0, action := 12, info0 := step, info1 := k.start.kind }).gn.life.starts 8))

/-! ### Gunel (20) -/

/-- R496, R497, R501, R503, R505, R506, R509: a lapse of Gunel's watchdog starts its restart, whose end is counted; a Gunel
that runs writes the lifetime record to the older copy; an update goes into the inactive slot, and a verified one is
activated; the hub's lapse and ROM recovery with a good image; Gunel's sample keeps the reading of each sensor with power,
0x8000 for one without, the droops of each C-die since the last sample, and the package power; a second that ends is counted
for each die that had power, in one bin of its temperatures and one of its voltages. Where the rules leave a point open, this
states the model's reading: log entries 85, 87 and 88. -/
def Obligations.GunelItself : Prop :=
  (∀ s : State, s.chip.on GN_STATUS.RUNNING = true → ∃ t, exec .gunelWatchdogLapse s = .next t ∧
    t.chip.rd GN_STATUS.RUNNING = 0 ∧ t.chip.gn = { s.chip.gn with restarting := true } ∧ s.chip.SameMemory t.chip ∧
    s.chip.SameRegs [GN_STATUS.RUNNING] t.chip) ∧
  (∀ s : State, s.chip.on GN_STATUS.RUNNING = false → s.chip.gn.recovery = false → s.chip.pwr.pkg ≠ .off →
    ∃ t, exec .gunelRestartDone s = .next t ∧ t.chip.rd GN_STATUS.RUNNING = 1 ∧ t.chip.rd CLK_STATUS.GUNEL_HB = 1 ∧
      t.chip.rd GN_STATUS.RESTARTS = satAdd (s.chip.rd GN_STATUS.RESTARTS) 1 8 ∧
      t.chip.gn = { s.chip.gn with restarting := false } ∧ s.chip.SameMemory t.chip ∧
      s.chip.SameRegs [GN_STATUS.RUNNING, CLK_STATUS.GUNEL_HB, GN_STATUS.RESTARTS] t.chip) ∧
  (∀ s : State, s.chip.on GN_STATUS.RUNNING = true → ∃ t, exec .lifetimeWrite s = .next t ∧
    t.chip.gn.lifeCopies = (t.chip.gn.life :: s.chip.gn.lifeCopies).take 2 ∧
    t.chip.gn.life.writeSeq = (s.chip.gn.life.writeSeq + 1) % 2 ^ 64 ∧ t.chip.gn.life.counts = s.chip.gn.life.counts ∧
    s.chip.SameMemory t.chip ∧ s.chip.SameRegs [] t.chip) ∧
  (∀ (s : State) (image : Bytes) (comp slot : Nat), s.chip.on GN_STATUS.RUNNING = true →
    (comp = 1 ∧ slot = 1 - s.chip.gn.activeSlot) ∨ (comp = 2 ∧ slot = 3 - s.chip.gn.secureSlot ∧ s.chip.gn.secureSlot ≤ 1) →
    ∃ t, exec (.pldmUpdate comp image) s = .next t ∧ Tbl.get [] t.chip.gn.slots slot = image ∧
      (∀ n, n ≠ slot → Tbl.get [] t.chip.gn.slots n = Tbl.get [] s.chip.gn.slots n) ∧
      t.chip.gn.activeSlot = s.chip.gn.activeSlot ∧ t.chip.gn.secureSlot = s.chip.gn.secureSlot ∧
      (comp ∈ t.chip.gn.verified ↔ Config.imageGood image = true) ∧ s.chip.SameMemory t.chip ∧ s.chip.SameRegs [] t.chip) ∧
  (∀ s : State, s.chip.on GN_STATUS.RUNNING = true → 1 ∈ s.chip.gn.verified → ∃ t, exec (.activateFirmware 1) s = .next t ∧
    t.chip.gn.activeSlot = 1 - s.chip.gn.activeSlot ∧ t.chip.gn.restarting = true ∧ t.chip.rd GN_STATUS.RUNNING = 0 ∧
    1 ∉ t.chip.gn.verified ∧ s.chip.SameRegs [GN_STATUS.RUNNING] t.chip) ∧
  (∀ s : State, s.chip.on GN_STATUS.RUNNING = true → 2 ∈ s.chip.gn.verified → ∃ t, exec (.activateFirmware 2) s = .next t ∧
    t.chip.gn.secureSlot = 1 - s.chip.gn.secureSlot ∧ t.chip.gn.activeSlot = s.chip.gn.activeSlot ∧
    s.chip.SameRegs [] t.chip) ∧
  (∀ s : State, ∃ t, exec .hubLapse s = .next t ∧ t.chip.rd GN_STATUS.HUB_LAPSE = 1 ∧ t.chip.gn.faultN = true ∧
    t.chip.gn.nor = ((Ev.record { cls := 3, unitType := 17, unit := 0, status := 3 } s.chip.gn.seq s.chip.now s.chip.time) ::
      s.chip.gn.nor).take 65536 ∧ s.chip.SameMemory t.chip ∧ s.chip.SameRegs [GN_STATUS.HUB_LAPSE] t.chip) ∧
  (∀ (s : State) (image : Bytes), s.chip.gn.recovery = true →
    exec (.romRecovery image) s = .next (s.after (if Config.imageGood image then
      Chip.bootGunel { s.chip with gn := { s.chip.gn with recovery := false } } else s.chip))) ∧
  (∀ (s : State) (readings : List Nat) (i : Nat), s.chip.on GN_STATUS.RUNNING = true →
    ∃ t, exec (.sensorSample readings) s = .next t ∧
      (i < 128 → Tbl.get 0x8000 t.chip.gn.sensors i =
        if s.chip.sensorOn i then readings.getD i 0x8000 % 65536 else 0x8000) ∧
      (i < 12 → s.chip.sensorOn (128 + i) = true → Tbl.get 0x8000 t.chip.gn.sensors (128 + i) =
        (s.chip.droopSum i - Tbl.get 0 s.chip.gn.droops i) % 65536 ∧
        Tbl.get 0 t.chip.gn.droops i = s.chip.droopSum i) ∧
      (s.chip.start.mainPg = true → Tbl.get 0x8000 t.chip.gn.sensors 140 = s.chip.rd PWR_MEAS.POWER % 65536) ∧
      s.chip.SameMemory t.chip ∧ s.chip.SameRegs [] t.chip ∧ t.chip.out = s.chip.out) ∧
  (∀ (l : Life) (d bin volt : Nat), d < 13 → d ∉ l.off →
    bin = 16 * d + tjBin (((Tbl.get 0 l.highs d : Nat) : Int) - 32768) →
    volt = 256 + 16 * d + voltBin (Tbl.get 0 l.highs (16 + d)) →
    Tbl.get 0 l.second.histo bin = satAdd (Tbl.get 0 l.histo bin) 1 64 ∧
    Tbl.get 0 l.second.histo volt = satAdd (Tbl.get 0 l.histo volt) 1 64)

/-- R496, R497, R501, R507, R510: the secure mailbox denies the normal world; a command to a mailbox with GO at 1 is
discarded and counted as OVERRUN; a Gunel that does not run answers BUSY; what the commands of a mailbox that takes them
read: the versions (their layout is the model's own, Config.infoWord), the record of the log asked for, 64 bytes of the
lifetime record, and a sensor. Where the rules leave a point open, this states the model's reading: log entries 86 and 87. -/
def Obligations.MailboxReads : Prop :=
  (∀ (s : State) (secure : Bool) (who : By) (op : Nat) (c : Instr),
    (op, c) ∈ [(1, .getInfo secure who), (2, .readLog secure who), (3, .readLifetime secure who), (4, .readSensor secure who),
      (5, .queueTest secure who), (6, .cancelTest secure who), (7, .power secure who), (8, .dieReset secure who),
      (9, .setMemcfg secure who), (10, .hartStarted secure who), (11, .hartStopped secure who)] →
    (secure = true → who.w ≠ 0 → exec c s = .next (s.after (s.chip.regWriteDenied 0xF_F000_0000_B200 who))) ∧
    (secure = false ∨ who.w = 0 → s.chip.on (mboxGo secure) = true →
      exec c s = .next (s.after (s.chip.raise (mboxOverrun secure)))) ∧
    (secure = false ∨ who.w = 0 → s.chip.on (mboxGo secure) = false → s.chip.on GN_STATUS.RUNNING = false →
      ∃ t, exec c s = .next t ∧ t.chip.rd (mboxStatus secure) = 1 ∧ t.chip.rd (mboxGo secure) = 0 ∧
        t.chip.rd (mboxOp secure) = op ∧ t.chip.gn = s.chip.gn ∧ s.chip.SameMemory t.chip ∧
        s.chip.SameRegs [mboxStatus secure, mboxGo secure, mboxOp secure] t.chip)) ∧
  (∀ (s : State) (secure : Bool) (who : By), secure = false ∨ who.w = 0 → s.chip.on (mboxGo secure) = false →
    s.chip.on GN_STATUS.RUNNING = true →
    (∃ t, exec (.getInfo secure who) s = .next t ∧ t.chip.rd (mboxStatus secure) = 0 ∧ t.chip.rd (mboxGo secure) = 0 ∧
      (∀ i < 8, t.chip.rd (mboxData secure i) = Config.infoWord i ((List.range 4).map fun j => Tbl.get [] s.chip.gn.slots j)
        s.chip.gn.activeSlot s.chip.gn.secureSlot s.chip.gn.config % 2 ^ 64) ∧
      t.chip.gn = s.chip.gn ∧ s.chip.SameMemory t.chip) ∧
    (∀ r : Bytes, (s.chip.gn.log.filter fun r => decide (s.chip.mboxArg secure ≤ leAt r 0 4)).getLast? = some r →
      ∃ t, exec (.readLog secure who) s = .next t ∧ t.chip.rd (mboxStatus secure) = 0 ∧ t.chip.rd (mboxGo secure) = 0 ∧
        (∀ i < 8, t.chip.rd (mboxData secure i) = leAt r (8 * i) 8) ∧ t.chip.gn = s.chip.gn ∧ s.chip.SameMemory t.chip) ∧
    ((∀ r ∈ s.chip.gn.log, leAt r 0 4 < s.chip.mboxArg secure) → ∃ t, exec (.readLog secure who) s = .next t ∧
      t.chip.rd (mboxStatus secure) = 7 ∧ t.chip.rd (mboxGo secure) = 0 ∧ t.chip.gn = s.chip.gn) ∧
    (∀ n : Nat, s.chip.mboxArg secure = 64 * n → n < 256 → ∃ t, exec (.readLifetime secure who) s = .next t ∧
      t.chip.rd (mboxStatus secure) = 0 ∧ t.chip.rd (mboxGo secure) = 0 ∧
      (∀ i < 8, t.chip.rd (mboxData secure i) = leAt ((s.chip.lifeSync.lifeRecord.drop (64 * n)).take 64) (8 * i) 8) ∧
      t.chip.gn = s.chip.gn ∧ s.chip.SameMemory t.chip) ∧
    (∀ i : Nat, s.chip.mboxArg secure = i → i < 141 → ∃ t, exec (.readSensor secure who) s = .next t ∧
      t.chip.rd (mboxGo secure) = 0 ∧ t.chip.rd (mboxStatus secure) = (if s.chip.sensorOn i then 0 else 7) ∧
      t.chip.rd (mboxData secure 0) =
        (if s.chip.sensorOn i then Tbl.get 0x8000 s.chip.gn.sensors i % 2 ^ 64 else 0x8000) ∧
      t.chip.gn = s.chip.gn ∧ s.chip.SameMemory t.chip))

/-- R438, R439, R494, R507, R508, R521, R522: what the commands of a mailbox that takes them do: a test is queued and one
that does not run yet is cancelled, a power request waits, a partial reset of a die that is quiet begins, the memory
configuration is kept, and the secure mailbox notes whether a hart is started. Where the rules leave a point open, this
states the model's reading: log entries 77, 80 and 86. -/
def Obligations.MailboxActions : Prop :=
  ∀ (s : State) (secure : Bool) (who : By) (v : Nat), secure = false ∨ who.w = 0 → s.chip.on (mboxGo secure) = false →
    s.chip.on GN_STATUS.RUNNING = true → v = s.chip.mboxArg secure →
    (testable (bits v 0 8) (bits v 8 16) = true →
      (s.chip.gn.tests.any fun x => x.unitType == bits v 0 8 && x.unit == bits v 8 16) = false →
      ∃ t, exec (.queueTest secure who) s = .next t ∧ t.chip.rd (mboxStatus secure) = 0 ∧ t.chip.rd (mboxGo secure) = 0 ∧
        (∃ x : Test, t.chip.gn.tests = s.chip.gn.tests ++ [x] ∧ x.unitType = bits v 0 8 ∧ x.unit = bits v 8 16 ∧
          x.running = false ∧ x.retire = false)) ∧
    (∀ x : Test, s.chip.gn.tests = [x] → x.running = false → x.unitType = bits v 0 8 → x.unit = bits v 8 16 →
      ∃ t, exec (.cancelTest secure who) s = .next t ∧ t.chip.rd (mboxStatus secure) = 0 ∧ t.chip.rd (mboxGo secure) = 0 ∧
        t.chip.gn = { s.chip.gn with tests := [] } ∧ s.chip.SameMemory t.chip) ∧
    (PwrReq.shaped { op := bits v 12 4, target := bits v 9 3, index := bits v 0 9, src := if secure then 4 else 3 } = true →
      s.chip.pwr.pkg = .run ∨ s.chip.pwr.pkg = .quiet → s.chip.on CLK_STATUS.GUNEL_HB = true →
      ∃ t, exec (.power secure who) s = .next t ∧ t.chip.rd (mboxGo secure) = 1 ∧
        t.chip.pwr = { s.chip.pwr with requests := s.chip.pwr.requests ++
          [{ op := bits v 12 4, target := bits v 9 3, index := bits v 0 9, src := if secure then 4 else 3 }] } ∧
        s.chip.SameMemory t.chip) ∧
    (s.chip.dieUp v = true → s.chip.resetting = false → 1 < ((List.range 12).filter s.chip.dieUp).length → v < 12 →
      v ∉ s.chip.claims → (∀ e ∈ s.chip.harts, e.2.online = true → e.2.stopped = true) →
      ∃ t, exec (.dieReset secure who) s = .next t ∧ t.chip.rd (mboxStatus secure) = 0 ∧ t.chip.rd (mboxGo secure) = 0 ∧
        t.chip.dieState v = { s.chip.dieState v with step := 1, planned := true, autoDue := false } ∧
        s.chip.SameMemory t.chip) ∧
    ((∃ t, exec (.setMemcfg secure who) s = .next t ∧ t.chip.rd (mboxStatus secure) = (if v < 16 then 0 else 5) ∧
      t.chip.rd (mboxGo secure) = 0 ∧ t.chip.gn = (if v < 16 then { s.chip.gn with memcfg := some v } else s.chip.gn) ∧
      s.chip.SameMemory t.chip)) ∧
    (∀ c ∈ [Instr.hartStarted secure who, Instr.hartStopped secure who], secure = true → v < 288 →
      ∃ t, exec c s = .next t ∧ t.chip.rd (mboxStatus secure) = 0 ∧ t.chip.rd (mboxGo secure) = 0 ∧
        t.chip.hart v = { s.chip.hart v with stopped := c == .hartStopped secure who } ∧
        (∀ h, h ≠ v → t.chip.hart h = s.chip.hart h) ∧ s.chip.SameMemory t.chip) ∧
    (∀ c ∈ [Instr.hartStarted secure who, Instr.hartStopped secure who], secure = false →
      ∃ t, exec c s = .next t ∧ t.chip.rd (mboxStatus secure) = 5 ∧ t.chip.rd (mboxGo secure) = 0 ∧
        t.chip.harts = s.chip.harts)

/-! ### Flacon (22) -/

/-- R526, R528, R532, R533, R535: VFL starts a new epoch with a fuse burnt and every accumulator 0; a sample adds voltage ×
current to the accumulator with the rest kept; metering stops with XTAL_F and a new epoch starts when it returns; FLACON_CAL
opens the calibration; the log keeps an entry of each. Where the rules leave a point open, this states the model's reading:
log entry 89. -/
def Obligations.FlaconMeters : Prop :=
  (∀ s : State, ∃ t, exec .vflPowerUp s = .next t ∧ t.chip.fl.epoch = min 65536 (s.chip.fl.epoch + 1) ∧
    t.chip.fl.energy = [0, 0, 0, 0, 0, 0, 0, 0] ∧ t.chip.fl.ticks = 0 ∧ t.chip.fl.seq = 0 ∧ t.chip.fl.log = s.chip.fl.log ∧
    t.chip.fl.started = true ∧ t.chip.fl.calLand = false ∧
    t.chip.rd FL_STATUS.READY = (if s.chip.fl.epoch + 1 < 65536 then 1 else 0) ∧
    t.chip.rd FL_STATUS.FUSES_OUT = (if s.chip.fl.epoch + 1 < 65536 then 0 else 1) ∧ s.chip.SameMemory t.chip ∧
    s.chip.SameRegs [] t.chip ∧ t.chip.out = s.chip.out) ∧
  (∀ (s : State) (mv nv : Int), s.chip.fl.metering = true → nv.natAbs ≤ 30000000 →
    ∃ t, exec (.flaconSample [(mv, nv)]) s = .next t ∧
      t.chip.fl = Flacon.add { s.chip.fl with ticks := (s.chip.fl.ticks + 4) % 2 ^ 64 } 0 mv nv ∧
      s.chip.SameMemory t.chip ∧ s.chip.SameRegs [] t.chip ∧ t.chip.out = s.chip.out) ∧
  (∀ (s : State) (samples : List (Int × Int)), s.chip.fl.metering = false →
    exec (.flaconSample samples) s = .next (s.after s.chip)) ∧
  (∀ (f : Flacon) (c : Nat) (mv nv : Int), c < f.energy.length → c < f.residue.length → f.residue.getD c 0 < 8192000 →
    (f.energy.getD c 0) + (f.residue.getD c 0 +
      (Config.flaconTrim (f.gain.getD c 0) (f.offset.getD c 0) mv * nv * 1000 / (f.shunt.getD c 1 : Nat)).toNat) / 8192000 <
        2 ^ 64 →
    8192000 * (f.add c mv nv).energy.getD c 0 + (f.add c mv nv).residue.getD c 0 =
      8192000 * f.energy.getD c 0 + f.residue.getD c 0 +
        (Config.flaconTrim (f.gain.getD c 0) (f.offset.getD c 0) mv * nv * 1000 / (f.shunt.getD c 1 : Nat)).toNat ∧
    f.energy.getD c 0 ≤ (f.add c mv nv).energy.getD c 0 ∧ (f.add c mv nv).residue.getD c 0 < 8192000 ∧
    (∀ d, d ≠ c → (f.add c mv nv).energy.getD d 0 = f.energy.getD d 0)) ∧
  (∀ s : State, s.chip.fl.started = true → ∃ t, exec .xtalFStop s = .next t ∧
    t.chip.fl = { s.chip.fl with clockStopped := true, metering := false } ∧ t.chip.rd FL_STATUS.READY = 0 ∧
    s.chip.SameMemory t.chip ∧ s.chip.SameRegs [] t.chip ∧ t.chip.out = s.chip.out) ∧
  (∀ s : State, s.chip.fl.clockStopped = true → s.chip.fl.log.length < 256 → ∃ t, exec .xtalFReturn s = .next t ∧
    t.chip.fl.epoch = min 65536 (s.chip.fl.epoch + 1) ∧ t.chip.fl.clockFault = true ∧ t.chip.fl.clockStopped = false ∧
    t.chip.fl.log = s.chip.fl.log ++ [(s.chip.fl.startEpoch true).entry 3 0 0 0] ∧ t.chip.rd FL_STATUS.ALARM = 1 ∧
    s.chip.SameMemory t.chip ∧ s.chip.SameRegs [FL_STATUS.ALARM] t.chip) ∧
  (∀ s : State, s.chip.fl.started = true → s.chip.fl.log.length < 256 → ∃ t, exec .flaconCalRise s = .next t ∧
    t.chip.fl = { s.chip.fl with calLand := true, log := s.chip.fl.log ++ [s.chip.fl.entry 1 0 0 0] } ∧
    t.chip.rd FL_STATUS.ALARM = 1 ∧ t.chip.rd FL_STATUS.CAL = 1 ∧ s.chip.SameMemory t.chip ∧
    s.chip.SameRegs [FL_STATUS.ALARM] t.chip) ∧
  (∀ (s : State) (ch shunt : Nat) (gain offset : Int), s.chip.fl.metering = true → s.chip.fl.calLand = true →
    s.chip.fl.log.length < 256 → ch < 8 → 50000 ≤ shunt → shunt ≤ 10000000 →
    ∃ t, exec (.flaconCalibrate ch shunt gain offset) s = .next t ∧
      t.chip.fl = { s.chip.fl with
        shunt := s.chip.fl.shunt.set ch shunt, gain := s.chip.fl.gain.set ch gain, offset := s.chip.fl.offset.set ch offset
        calId := (s.chip.fl.calId + 1) % 2 ^ 32
        log := s.chip.fl.log ++ [s.chip.fl.entry 2 ch (s.chip.fl.shunt.getD ch 0) shunt] } ∧
      s.chip.SameMemory t.chip ∧ s.chip.SameRegs [FL_STATUS.ALARM] t.chip)

/-- R530, R531, R535, R537: a command by Flacon's mailbox is answered in the response registers; a signed response uses a
SEQ; a log entry that is not there is NOT_FOUND; without XTAL_F the answer is NOT_READY, which the mailbox gives itself where
Flacon does not answer; a command with GO at 1 is discarded; over I3C the answer leaves by that way. Where the rules leave a
point open, this states the model's reading: log entries 89 and 90. -/
def Obligations.FlaconCommands : Prop :=
  (∀ (s : State) (c : Instr) (answer : Bytes), s.chip.on FL_MB_CMD.GO = false → s.chip.fl.started = true →
    s.chip.fl.clockStopped = false →
    (c = .flGetInfo false ∧ answer = s.chip.fl.info) ∨ (c = .getPubkey false ∧ answer = p384Pub s.chip.fl.key) →
    ∃ t, exec c s = .next t ∧ t.chip.rd FL_MB_CMD.STATUS = 0 ∧ t.chip.rd FL_MB_CMD.GO = 0 ∧
      (∀ i < (answer.length + 7) / 8, t.chip.rd (FL_MB_RSP.RSP i) = leAt answer (8 * i) 8) ∧ t.chip.fl = s.chip.fl ∧
      s.chip.SameMemory t.chip) ∧
  (∀ (s : State) (nonce body answer : Bytes), s.chip.on FL_MB_CMD.GO = false → s.chip.fl.started = true →
    s.chip.fl.clockStopped = false → s.chip.fl.epoch < 65536 → s.chip.fl.seq + 1 < 2 ^ 32 →
    nonce = leBytes (s.chip.rd (FL_MB_ARG.ARG 0)) 8 ++ leBytes (s.chip.rd (FL_MB_ARG.ARG 1)) 8 →
    body = s.chip.fl.recordBody nonce →
    answer = body ++ p384SignWith s.chip.fl.key (1 + Config.freeNat s.chip.free % (p384N - 1)) body →
    ∃ t, exec (.readMeter false) s = .next t ∧ t.chip.rd FL_MB_CMD.STATUS = 0 ∧ t.chip.rd FL_MB_CMD.GO = 0 ∧
      (∀ i < (answer.length + 7) / 8, t.chip.rd (FL_MB_RSP.RSP i) = leAt answer (8 * i) 8) ∧
      t.chip.fl = { s.chip.fl with
        seq := s.chip.fl.seq + 1, firstRecord := false, clockFault := false, channelsOk := 255
        logAtLast := s.chip.fl.log.length } ∧ s.chip.SameMemory t.chip) ∧
  (∀ s : State, s.chip.on FL_MB_CMD.GO = false → s.chip.fl.started = true → s.chip.fl.clockStopped = false →
    s.chip.fl.epoch < 65536 →
    (s.chip.rd (FL_MB_ARG.ARG 0) < s.chip.fl.log.length → s.chip.fl.seq + 1 < 2 ^ 32 →
      ∃ t, exec (.flReadLog false) s = .next t ∧ t.chip.rd FL_MB_CMD.STATUS = 0 ∧ t.chip.rd FL_MB_CMD.GO = 0 ∧
        t.chip.fl = { s.chip.fl with seq := s.chip.fl.seq + 1 } ∧ s.chip.SameMemory t.chip) ∧
    (s.chip.fl.log.length ≤ s.chip.rd (FL_MB_ARG.ARG 0) → ∃ t, exec (.flReadLog false) s = .next t ∧
      t.chip.rd FL_MB_CMD.STATUS = 5 ∧ t.chip.rd FL_MB_CMD.GO = 0 ∧ t.chip.fl = s.chip.fl ∧ s.chip.SameMemory t.chip)) ∧
  (∀ (s : State) (op : Nat) (c : Instr),
    (op, c) ∈ [(1, .flGetInfo false), (2, .getPubkey false), (3, .readMeter false), (4, .flReadLog false)] →
    (s.chip.on FL_MB_CMD.GO = true → exec c s = .next (s.after (s.chip.raise FL_MB_CMD.OVERRUN))) ∧
    (s.chip.on FL_MB_CMD.GO = false → s.chip.fl.started = true → s.chip.fl.clockStopped = true →
      ∃ t, exec c s = .next t ∧ t.chip.rd FL_MB_CMD.STATUS = 2 ∧ t.chip.rd FL_MB_CMD.GO = 0 ∧ t.chip.fl = s.chip.fl) ∧
    (s.chip.on FL_MB_CMD.GO = false → s.chip.fl.started = false →
      ∃ t, exec c s = .next t ∧ t.chip.rd FL_MB_CMD.GO = 1 ∧ t.chip.rd FL_MB_CMD.OP = op ∧ t.chip.fl = s.chip.fl)) ∧
  (∀ s : State, s.chip.on FL_MB_CMD.GO = true → ∃ t, exec .flMailboxTimeout s = .next t ∧ t.chip.rd FL_MB_CMD.STATUS = 2 ∧
    t.chip.rd FL_MB_CMD.GO = 0 ∧ s.chip.SameMemory t.chip ∧ s.chip.SameRegs [FL_MB_CMD.STATUS, FL_MB_CMD.GO] t.chip) ∧
  (∀ s : State, s.chip.fl.started = true → s.chip.fl.clockStopped = false → ∃ t, exec (.flGetInfo true) s = .next t ∧
    t.chip.out = .mailbox "FLACON_I3C" (0 :: s.chip.fl.info) :: s.chip.out ∧ t.chip.fl = s.chip.fl ∧
    s.chip.SameMemory t.chip ∧ s.chip.SameRegs [] t.chip)

/-! ### Performance counters (23) -/

/-- R540, R541, R545 to R547, R549: a dump that is due samples the selected sets into the records to be written, or is
dropped whole where the ring has no room; each entry is written whole and the producer index moves by one; the consumer index
moves only up to it; M-mode reads the time and the hart's counts, of which the model gives no value; below S-mode they need
USER_ENABLE, and the time does not; USER_ENABLE is set only where the partition is small, and a partition that ceases to be
small clears it at the boundary. Where the rules leave a point open, this states the model's reading: log entries 2, 91, 92
and 93. -/
def Obligations.PerformanceCounters : Prop :=
  (∀ (s : State) (sets : List Nat), sets = setBits (s.chip.rd PM_DUMP_CTRL.SETS) 15 → s.chip.dumpDue = true →
    (∀ n ∈ sets, recordLen n ≤ s.chip.dumpEntry) → s.chip.pm.dumpPending = [] →
    sets.length ≤ s.chip.dumpRing - wrapSub (s.chip.rd PM_DUMP_PI.PI) (s.chip.rd PM_DUMP_CI.CI) 32 →
    ∃ t, exec .pmDump s = .next t ∧ t.chip.pm = { s.chip.pm with
        dumpPending := sets.map s.chip.dumpRecord, dumpSeq := (s.chip.pm.dumpSeq + 1) % 2 ^ 32 } ∧
      s.chip.SameMemory t.chip ∧ s.chip.SameRegs [] t.chip ∧ t.chip.out = s.chip.out) ∧
  (∀ (s : State) (sets : List Nat), sets = setBits (s.chip.rd PM_DUMP_CTRL.SETS) 15 → s.chip.dumpDue = true →
    (∀ n ∈ sets, recordLen n ≤ s.chip.dumpEntry) →
    s.chip.dumpRing - wrapSub (s.chip.rd PM_DUMP_PI.PI) (s.chip.rd PM_DUMP_CI.CI) 32 < sets.length →
    ∃ t, exec .pmDump s = .next t ∧ t.chip.pm = { s.chip.pm with dumpSeq := (s.chip.pm.dumpSeq + 1) % 2 ^ 32 } ∧
      t.chip.rd PM_STATUS.DROPPED = satAdd (s.chip.rd PM_STATUS.DROPPED) 1 16 ∧ t.chip.rd PM_ERR.DROPPED = 1) ∧
  (∀ s : State, s.chip.dumpDue = false → exec .pmDump s = .next (s.after s.chip)) ∧
  (∀ (s : State) (r : Bytes) (rs : List Bytes) (addr : Nat) (k : Chip), s.chip.pm.dumpPending = r :: rs →
    addr = s.chip.rd PM_DUMP_BASE.BASE + s.chip.dumpEntry * (s.chip.rd PM_DUMP_PI.PI % s.chip.dumpRing) →
    k = { s.chip with free := s.chip.free + 1, pm := { s.chip.pm with dumpPending := rs } } →
    (s.chip.secureTop ≤ addr → addr + s.chip.dumpEntry ≤ s.chip.dramSize →
      exec .pmDumpEntryWritten s = .next (s.after ((k.store addr
        (r ++ leBytes (Config.freeNat s.chip.free) (s.chip.dumpEntry - r.length))).wr PM_DUMP_PI.PI
          (s.chip.rd PM_DUMP_PI.PI + 1)))) ∧
    (addr < s.chip.secureTop → ∃ t, exec .pmDumpEntryWritten s = .next t ∧ t.chip.rd PM_ERR.REFUSED = 1 ∧
      t.chip.rd PM_DUMP_PI.PI = (s.chip.rd PM_DUMP_PI.PI + 1) % 2 ^ 32 ∧ t.chip.pm.dumpPending = rs)) ∧
  (∀ (s : State) (v : Nat),
    wrapSub v (s.chip.rd PM_DUMP_CI.CI) 32 ≤ wrapSub (s.chip.rd PM_DUMP_PI.PI) (s.chip.rd PM_DUMP_CI.CI) 32 →
    ∃ t, exec (.pmDumpCiWrite v) s = .next t ∧ t.chip.rd PM_DUMP_CI.CI = v % 2 ^ 32 ∧ s.chip.SameMemory t.chip ∧
      s.chip.SameRegs [PM_DUMP_CI.CI] t.chip) ∧
  (∀ (s : State) (v : Nat),
    wrapSub (s.chip.rd PM_DUMP_PI.PI) (s.chip.rd PM_DUMP_CI.CI) 32 < wrapSub v (s.chip.rd PM_DUMP_CI.CI) 32 →
    exec (.pmDumpCiWrite v) s = .next (s.after s.chip)) ∧
  (∀ (s : State) (h : Nat), ∃ t, exec (.userCounterRead h .m 0xC01) s = .next t ∧
    t.chip.out = .csrValue h (s.chip.time % 2 ^ 64) :: s.chip.out ∧ s.chip.SameMemory t.chip ∧ s.chip.SameRegs [] t.chip) ∧
  (∀ (s : State) (h csr : Nat), csr ≠ 0xC01 → 0xC00 ≤ csr → csr ≤ 0xC1F →
    ∃ t, exec (.userCounterRead h .m csr) s = .next t ∧
      t.chip.out = .csrValue h (Config.freeNat s.chip.free % 2 ^ 64) :: s.chip.out ∧ s.chip.SameMemory t.chip ∧
      s.chip.SameRegs [] t.chip) ∧
  (∀ (s : State) (h csr : Nat), csr ≠ 0xC01 → s.chip.on PM_CTRL.USER_ENABLE = false →
    ∃ t v, exec (.userCounterRead h .u csr) s = .next t ∧ t.chip.out = .trap h 2 v :: s.chip.out ∧
      s.chip.SameMemory t.chip ∧ s.chip.SameRegs [] t.chip) ∧
  (∀ (s : State) (value : Nat), ∃ t, exec (.pmPartWrite value) s = .next t ∧
    (∀ d < 12, t.chip.rd (PM_PART.PART d) = bits value (4 * d) 4 ∧ t.chip.rd (PM_PART.SHARED d) = bits value (48 + d) 1) ∧
    (s.chip.small = false ∨ t.chip.small = true → t.chip.beat = s.chip.beat) ∧
    (s.chip.small = true → t.chip.small = false → (PM_CTRL.USER_ENABLE, 0) ∈ t.chip.beat.held) ∧
    s.chip.SameMemory t.chip ∧ t.chip.out = s.chip.out) ∧
  (∀ (s : State) (v : Nat), s.chip.small = true ∨ v % 2 = 0 → ∃ t, exec (.userEnableWrite v) s = .next t ∧
    t.chip.rd PM_CTRL.USER_ENABLE = v % 2 ∧ s.chip.SameMemory t.chip ∧ s.chip.SameRegs [PM_CTRL.USER_ENABLE] t.chip) ∧
  (∀ (s : State) (v : Nat), s.chip.small = false → v % 2 = 1 → s.chip.rd PM_CTRL.USER_ENABLE = 0 →
    ∃ t, exec (.userEnableWrite v) s = .next t ∧ t.chip.rd PM_CTRL.USER_ENABLE = 0 ∧ t.chip.rd PM_ERR.NOT_SMALL = 1)

/-! ### Access to the registers (00, 25) -/

/-- R8, R12, R13, R573: what a write does to a field: nothing to one that is read-only or starts an action, the ones of an
RW1C field cleared, the new value of a plain one, at the boundary where it waits for that, denied to the normal world where
only the secure one writes it, and refused where its block is not quiesced. Where the rules leave a point open, this states
the model's reading: log entries 27 and 28. -/
def Obligations.FieldWrites : Prop :=
  ∀ (w : Writing) (who : By) (f : Fld) (v : Nat),
    (f.acc = .ro ∨ f.acc = .wo ∨ f.acc = .rw1s → w.field who f v = w) ∧
    (f.acc = .rw1c → w.k.rd f < 2 ^ f.width → ∀ i < f.width,
      bit ((w.field who f v).k.rd f) i = (bit (w.k.rd f) i && !bit v i)) ∧
    (f.acc = .rws → who.w ≠ 0 → v ≠ w.k.rd f → pageZeroOnly f = false → w.field who f v = { w with denied := true }) ∧
    (f.acc = .rw → f.page < 96 → f.page ≠ 8 → f.off < 4096 → f.lo < 64 → v ≠ w.k.rd f →
      (f.quiesced = true → w.k.quiet f who = false → w.field who f v = { w with busy := true }) ∧
      (f.quiesced = false → f.beat = true → w.field who f v = { w with k := w.k.hold f v }) ∧
      (f.quiesced = false → f.beat = false → f.key ≠ BT_CTRL.LEN.key → (w.field who f v).k.rd f = v % 2 ^ f.width ∧
        (w.field who f v).denied = w.denied ∧ (w.field who f v).busy = w.busy))

/-- R10, R11, R571, R572: an access of the full width reaches its register, one of another width or alignment is an access
error; a reserved offset reads 0 and keeps nothing; a page of a C-die out of service discards writes, but AE_CTRL.ENABLE
waits. Where the rules leave a point open, this states the model's reading: log entries 29, 30 and 31. -/
def Obligations.RegisterAccesses : Prop :=
  (∀ (s : State) (value : Nat) (who : By), s.chip.area 0xF_F000_0000_B020 = .registers →
    ∃ t, exec (.registerWrite { addr := 0xF_F000_0000_B020, size := 8, write := true, value := value, who := who }) s = .next t ∧
      t.chip.rd GN_RING_MSI_ADDR.ADDR = value % 2 ^ 64 ∧ s.chip.SameMemory t.chip ∧
      s.chip.SameRegs [GN_RING_MSI_ADDR.ADDR] t.chip ∧ t.chip.out = s.chip.out) ∧
  (∀ (s : State) (acc : Access) (r : Reg) (n : Nat), n = (acc.addr - pageBase) / 4096 → n ≠ 14 →
    s.chip.area acc.addr = .registers → touched (s.chip.page n) (acc.addr % 4096) acc.size = [r] →
    r.off ≠ acc.addr % 4096 ∨ 8 * acc.size ≠ r.bits → acc.write = true →
    exec (.registerWrite acc) s = .next (s.after (s.chip.accessError acc.addr 1 acc.who))) ∧
  (∀ (s : State) (acc : Access) (r : Reg) (n : Nat), n = (acc.addr - pageBase) / 4096 → n ≠ 14 →
    s.chip.area acc.addr = .registers → touched (s.chip.page n) (acc.addr % 4096) acc.size = [r] →
    r.off = acc.addr % 4096 → 8 * acc.size = r.bits → acc.write = false →
    exec (.registerWrite acc) s = .next (s.after (s.chip.emit (.readData (s.chip.readReg r acc.who))))) ∧
  (∀ (s : State) (acc : Access) (n : Nat), n = (acc.addr - pageBase) / 4096 → n ≠ 14 →
    s.chip.area acc.addr = .registers → touched (s.chip.page n) (acc.addr % 4096) acc.size = [] →
    exec (.registerWrite acc) s = .next (s.after (if acc.write then s.chip else s.chip.emit (.readData 0)))) ∧
  (∀ (s : State) (acc : Access) (r : Reg) (n : Nat), n = (acc.addr - pageBase) / 4096 → s.chip.pageOffline n = true →
    s.chip.area acc.addr = .registers → touched (s.chip.page n) (acc.addr % 4096) acc.size = [r] →
    r.off = acc.addr % 4096 → 8 * acc.size = r.bits → acc.write = true →
    (32 ≤ n → r.off = 0 → ∃ t, exec (.offlinePageAccess acc) s = .next t ∧
      t.chip.flt.enables.find (n - 32) = some (acc.value % 2) ∧ s.chip.SameMemory t.chip ∧ s.chip.SameRegs [] t.chip) ∧
    (n < 32 ∨ r.off ≠ 0 → exec (.offlinePageAccess acc) s = .next (s.after s.chip)))

/-- R566: an access to a reserved address is reported; a hart takes an access fault of its kind, Gunel and the debug module
read 0, any other agent reads the line with the poison mark, and a write is discarded. -/
def Obligations.ReservedAccesses : Prop :=
  ∀ (s : State) (addr : Nat) (who : By), s.chip.area addr = .reserved → ∃ e : Ev,
    (who.source = 0 → ∀ isRead, exec (.reservedAccess addr who isRead) s =
      .next (s.after ((s.chip.log e).instrTrap who.id (if isRead then 5 else 7)))) ∧
    (who.source ≠ 0 → exec (.reservedAccess addr who false) s = .next (s.after (s.chip.log e))) ∧
    (7 ≤ who.source → who.source ≤ 9 → exec (.reservedAccess addr who true) s =
      .next (s.after ((s.chip.log e).emit (.readData 0)))) ∧
    (0 < who.source → who.source < 7 ∨ 9 < who.source → exec (.reservedAccess addr who true) s =
      .next (s.after ((s.chip.log e).emit (.cohData "POISONED" 12 (addr / 64) [] true))))

/-! ### Shared operations -/

/-- R286, R287, R304, R428: a store by an agent without a cache, to lines of which no die holds a copy, writes its bytes and
no other byte, leaves memory canonical, and clears the mark of a line that it writes whole and of no other. Where the rules
leave a point open, this states the model's reading: log entries 1 and 63. -/
def Obligations.StoreWritesItsBytes : Prop :=
  ∀ (k : Chip) (a : Nat) (bs : Bytes), (∀ l ∈ linesOf a bs.length, k.cohTouches l = false) →
    (∀ i < bs.length, byteAt (k.store a bs).mem (a + i) = bs.getD i 0) ∧
    k.SameMemoryBut a bs.length (k.store a bs) ∧
    (Memory.wf k.mem = true → Memory.wf (k.store a bs).mem = true) ∧
    (∀ l, a ≤ 64 * l → 64 * l + 64 ≤ a + bs.length → (k.store a bs).linePoison l = k.dramGone l) ∧
    (∀ l, 64 * l < a ∨ a + bs.length < 64 * l + 64 → (k.store a bs).linePoison l = k.linePoison l) ∧
    k.SameRegs [] (k.store a bs)

/-- R70, R176, R184, R231, R232: the layouts keep every bit that they carry: 64 bytes read as a descriptor and written again
are the same bytes; window, target and queue-pair entries read back as they were written; a frame is what its 256 bytes
spell, and its check is good. -/
def Obligations.LayoutsRoundTrip : Prop :=
  (∀ b : Bytes, b.length = 64 → (Desc.ofBytes b).bytes = b) ∧
  (∀ (b : Bytes) (w : Window), w.entry = WinEntry.ofBytes b → WinEntry.ofBytes w.bytes = w.entry) ∧
  (∀ (b : Bytes) (g : Target), g.written (g.written b).bytes = g.written b) ∧
  (∀ (b : Bytes) (q : QPair), b.length = 32 → (q.written b).bytes = b) ∧
  (∀ f : Frame, f.kind < 16 → f.vc < 16 → f.op < 256 → f.linkSeq < 65536 → f.linkAck < 65536 → f.dst < 65536 →
    f.src < 65536 → f.window < 65536 → f.ttl < 256 → f.creditVc < 4 → f.credit < 64 → f.flowSeq < 2 ^ 32 → f.arg < 2 ^ 32 →
    f.body.length ≤ 224 →
    frameOfBytes (frameBytes f) = f ∧ frameCrcGood (frameBytes f) = true ∧ (frameBytes f).length = 256)
end

