-- ==== Sys2Proof/Laws/Tbl.lean ====
section
/-!
SUPPORT. What reading and changing a sparse table does: a read after a change, and the canonical form that every change
keeps.
-/

namespace Sys2Proof.Machine

variable {α : Type}

@[simp] theorem Tbl.find_nil (k : Nat) : Tbl.find ([] : Tbl α) k = none := rfl

@[simp] theorem Tbl.get_nil (d : α) (k : Nat) : Tbl.get d [] k = d := rfl

theorem Tbl.find_erase_self (t : Tbl α) (k : Nat) : (t.erase k).find k = none := by
  induction t with
  | nil => rfl
  | cons e t ih =>
    rw [Tbl.erase, List.filter_cons]
    split
    · next h =>
      have h' : k ≠ e.1 := by
        rintro rfl
        simp at h
      rw [Tbl.find, if_neg h']
      exact ih
    · exact ih

theorem Tbl.find_erase_ne (t : Tbl α) {k j : Nat} (h : j ≠ k) : (t.erase k).find j = t.find j := by
  induction t with
  | nil => rfl
  | cons e t ih =>
    rw [Tbl.erase, List.filter_cons]
    split
    · rw [Tbl.find, Tbl.find]
      split
      · rfl
      · exact ih
    · next hk =>
      have hk' : e.1 = k := by simpa using hk
      rw [Tbl.find, if_neg (by omega)]
      exact ih

theorem Tbl.find_insert_self (t : Tbl α) (k : Nat) (a : α) : (t.insert k a).find k = some a := by
  induction t with
  | nil => simp [Tbl.insert, Tbl.find]
  | cons e t ih =>
    rw [Tbl.insert]
    split
    · simp [Tbl.find]
    · split
      · simp [Tbl.find]
      · next h _ => rw [Tbl.find, if_neg h, ih]

theorem Tbl.find_insert_ne (t : Tbl α) {k j : Nat} (a : α) (h : j ≠ k) : (t.insert k a).find j = t.find j := by
  induction t with
  | nil => simp [Tbl.insert, Tbl.find, h]
  | cons e t ih =>
    rw [Tbl.insert]
    split
    · next hk => simp [Tbl.find, h, ← hk]
    · split
      · rw [Tbl.find, if_neg h]
      · rw [Tbl.find, Tbl.find, ih]

/-! ### The canonical form -/

/-- Keys that rise strictly, all above a bound. -/
def Tbl.above (k : Nat) (t : Tbl α) : Prop := ∀ e ∈ t, k < e.1

theorem Tbl.rising_cons (e : Nat × α) (t : Tbl α) :
    Tbl.rising (e :: t) = true ↔ Tbl.above e.1 t ∧ Tbl.rising t = true := by
  induction t generalizing e with
  | nil => simp [Tbl.rising, Tbl.above]
  | cons x t ih =>
    obtain ⟨i, a⟩ := e
    obtain ⟨j, b⟩ := x
    simp only [Tbl.rising, Bool.and_eq_true, decide_eq_true_eq, Tbl.above, List.mem_cons, forall_eq_or_imp]
    constructor
    · rintro ⟨hij, ht⟩
      refine ⟨⟨hij, fun e he => ?_⟩, ht⟩
      have := ((ih (j, b)).1 ht).1 e he
      exact Nat.lt_trans hij this
    · rintro ⟨⟨hij, -⟩, ht⟩
      exact ⟨hij, ht⟩

theorem Tbl.rising_filter (p : Nat × α → Bool) (t : Tbl α) (h : t.rising = true) :
    Tbl.rising (t.filter p) = true := by
  induction t with
  | nil => rfl
  | cons e t ih =>
    obtain ⟨ha, ht⟩ := (Tbl.rising_cons e t).1 h
    rw [List.filter_cons]
    split
    · exact (Tbl.rising_cons _ _).2 ⟨fun x hx => ha x (List.mem_filter.1 hx).1, ih ht⟩
    · exact ih ht

theorem Tbl.above_insert {k j : Nat} {a : α} {t : Tbl α} (hk : j < k) (h : Tbl.above j t) :
    Tbl.above j (t.insert k a) := by
  induction t with
  | nil => simpa [Tbl.insert, Tbl.above] using hk
  | cons e t ih =>
    have he : j < e.1 := h e (List.mem_cons_self ..)
    have ht : Tbl.above j t := fun x hx => h x (List.mem_cons_of_mem _ hx)
    rw [Tbl.insert]
    split
    · intro x hx
      rcases List.mem_cons.1 hx with rfl | hx
      · exact hk
      · exact ht x hx
    · split
      · intro x hx
        rcases List.mem_cons.1 hx with rfl | hx
        · exact hk
        · exact h x hx
      · intro x hx
        rcases List.mem_cons.1 hx with rfl | hx
        · exact he
        · exact ih ht x hx

theorem Tbl.rising_insert (t : Tbl α) (k : Nat) (a : α) (h : t.rising = true) :
    (Tbl.insert t k a).rising = true := by
  induction t with
  | nil => rfl
  | cons e t ih =>
    obtain ⟨ha, ht⟩ := (Tbl.rising_cons e t).1 h
    rw [Tbl.insert]
    split
    · next hk => exact (Tbl.rising_cons _ _).2 ⟨by simpa [hk] using ha, ht⟩
    · split
      · next hk =>
        refine (Tbl.rising_cons _ _).2 ⟨fun x hx => ?_, h⟩
        rcases List.mem_cons.1 hx with rfl | hx
        · exact hk
        · exact Nat.lt_trans hk (ha x hx)
      · exact (Tbl.rising_cons _ _).2 ⟨Tbl.above_insert (by omega) ha, ih ht⟩

theorem Tbl.mem_insert {t : Tbl α} {k : Nat} {a : α} {e : Nat × α} (h : e ∈ t.insert k a) : e = (k, a) ∨ e ∈ t := by
  induction t with
  | nil => simpa [Tbl.insert] using h
  | cons x t ih =>
    rw [Tbl.insert] at h
    split at h
    · rcases List.mem_cons.1 h with h | h
      · exact .inl h
      · exact .inr (List.mem_cons_of_mem _ h)
    · split at h
      · rcases List.mem_cons.1 h with h | h
        · exact .inl h
        · exact .inr h
      · rcases List.mem_cons.1 h with h | h
        · exact .inr (h ▸ List.mem_cons_self ..)
        · exact (ih h).imp_right (List.mem_cons_of_mem _)

variable [DecidableEq α]

@[simp] theorem Tbl.get_set_self (d : α) (t : Tbl α) (k : Nat) (a : α) : Tbl.get d (Tbl.set d t k a) k = a := by
  rw [Tbl.set, Tbl.get]
  split
  · next h => rw [Tbl.find_erase_self, h]; rfl
  · rw [Tbl.find_insert_self]; rfl

theorem Tbl.get_set_ne (d d' : α) (t : Tbl α) {k j : Nat} (a : α) (h : j ≠ k) :
    Tbl.get d' (Tbl.set d t k a) j = Tbl.get d' t j := by
  rw [Tbl.set, Tbl.get, Tbl.get]
  split
  · rw [Tbl.find_erase_ne _ h]
  · rw [Tbl.find_insert_ne _ _ h]

theorem Tbl.get_set (d : α) (t : Tbl α) (k j : Nat) (a : α) :
    Tbl.get d (Tbl.set d t k a) j = if j = k then a else Tbl.get d t j := by
  split
  · next h => rw [h, Tbl.get_set_self]
  · next h => exact Tbl.get_set_ne d d t a h

@[simp] theorem Tbl.get_mod_self (d : α) (t : Tbl α) (k : Nat) (f : α → α) :
    Tbl.get d (Tbl.mod d t k f) k = f (Tbl.get d t k) := Tbl.get_set_self d t k _

theorem Tbl.get_mod_ne (d d' : α) (t : Tbl α) {k j : Nat} (f : α → α) (h : j ≠ k) :
    Tbl.get d' (Tbl.mod d t k f) j = Tbl.get d' t j := Tbl.get_set_ne d d' t _ h

theorem Tbl.wf_iff (d : α) (t : Tbl α) : Tbl.wf d t = true ↔ t.rising = true ∧ ∀ e ∈ t, e.2 ≠ d := by
  simp [Tbl.wf]

theorem Tbl.wf_filter (d : α) (p : Nat × α → Bool) (t : Tbl α) (h : Tbl.wf d t = true) :
    Tbl.wf d (t.filter p) = true := by
  obtain ⟨hr, hd⟩ := (Tbl.wf_iff d t).1 h
  exact (Tbl.wf_iff _ _).2 ⟨Tbl.rising_filter p t hr, fun e he => hd e (List.mem_filter.1 he).1⟩

theorem Tbl.wf_set (d : α) (t : Tbl α) (k : Nat) (a : α) (h : Tbl.wf d t = true) :
    Tbl.wf d (Tbl.set d t k a) = true := by
  rw [Tbl.set]
  split
  · exact Tbl.wf_filter d _ t h
  · next ha =>
    obtain ⟨hr, hd⟩ := (Tbl.wf_iff d t).1 h
    refine (Tbl.wf_iff _ _).2 ⟨Tbl.rising_insert t k a hr, fun e he => ?_⟩
    rcases Tbl.mem_insert he with rfl | he
    · exact ha
    · exact hd e he

theorem Tbl.wf_mod (d : α) (t : Tbl α) (k : Nat) (f : α → α) (h : Tbl.wf d t = true) :
    Tbl.wf d (Tbl.mod d t k f) = true := Tbl.wf_set d t k _ h

end Sys2Proof.Machine
end

