-- ==== Sys2Proof/Laws/State.lean ====
section
/-!
SUPPORT. What each named update of the state leaves as it was, one lemma per field and update, and what a read of a
register field gives after a write.
-/

namespace Sys2Proof.Machine

variable (k : Chip)

/-! ### Registers -/

/-- A field reads the low bits of what was last written. -/
@[simp] theorem Chip.rd_wr_self (f : Fld) (v : Nat) : (k.wr f v).rd f = v % 2 ^ f.width :=
  Tbl.get_set_self _ _ _ _

theorem Chip.rd_wr_ne {f g : Fld} (v : Nat) (h : g.key ≠ f.key) : (k.wr f v).rd g = k.rd g :=
  Tbl.get_set_ne _ _ _ _ h

theorem Chip.rd_congr {k k' : Chip} (h : k.regs = k'.regs) (f : Fld) : k.rd f = k'.rd f := by
  rw [Chip.rd, Chip.rd, h]

/-! ### `wr` -/

@[simp] theorem Chip.wr_mem (f : Fld) (v : Nat) : (k.wr f v).mem = k.mem := rfl
@[simp] theorem Chip.wr_poison (f : Fld) (v : Nat) : (k.wr f v).poison = k.poison := rfl
@[simp] theorem Chip.wr_out (f : Fld) (v : Nat) : (k.wr f v).out = k.out := rfl
@[simp] theorem Chip.wr_free (f : Fld) (v : Nat) : (k.wr f v).free = k.free := rfl
@[simp] theorem Chip.wr_time (f : Fld) (v : Nat) : (k.wr f v).time = k.time := rfl
@[simp] theorem Chip.wr_beat (f : Fld) (v : Nat) : (k.wr f v).beat = k.beat := rfl
@[simp] theorem Chip.wr_re (f : Fld) (v : Nat) : (k.wr f v).re = k.re := rfl
@[simp] theorem Chip.wr_eng (f : Fld) (v : Nat) : (k.wr f v).eng = k.eng := rfl
@[simp] theorem Chip.wr_acc (f : Fld) (v : Nat) : (k.wr f v).acc = k.acc := rfl
@[simp] theorem Chip.wr_hf (f : Fld) (v : Nat) : (k.wr f v).hf = k.hf := rfl
@[simp] theorem Chip.wr_cn (f : Fld) (v : Nat) : (k.wr f v).cn = k.cn := rfl
@[simp] theorem Chip.wr_mq (f : Fld) (v : Nat) : (k.wr f v).mq = k.mq := rfl
@[simp] theorem Chip.wr_harts (f : Fld) (v : Nat) : (k.wr f v).harts = k.harts := rfl
@[simp] theorem Chip.wr_tiles (f : Fld) (v : Nat) : (k.wr f v).tiles = k.tiles := rfl
@[simp] theorem Chip.wr_coh (f : Fld) (v : Nat) : (k.wr f v).coh = k.coh := rfl
@[simp] theorem Chip.wr_noc (f : Fld) (v : Nat) : (k.wr f v).noc = k.noc := rfl
@[simp] theorem Chip.wr_bl (f : Fld) (v : Nat) : (k.wr f v).bl = k.bl := rfl
@[simp] theorem Chip.wr_mc (f : Fld) (v : Nat) : (k.wr f v).mc = k.mc := rfl
@[simp] theorem Chip.wr_qt (f : Fld) (v : Nat) : (k.wr f v).qt = k.qt := rfl
@[simp] theorem Chip.wr_flt (f : Fld) (v : Nat) : (k.wr f v).flt = k.flt := rfl
@[simp] theorem Chip.wr_ws (f : Fld) (v : Nat) : (k.wr f v).ws = k.ws := rfl
@[simp] theorem Chip.wr_pwr (f : Fld) (v : Nat) : (k.wr f v).pwr = k.pwr := rfl
@[simp] theorem Chip.wr_gn (f : Fld) (v : Nat) : (k.wr f v).gn = k.gn := rfl
@[simp] theorem Chip.wr_start (f : Fld) (v : Nat) : (k.wr f v).start = k.start := rfl
@[simp] theorem Chip.wr_fl (f : Fld) (v : Nat) : (k.wr f v).fl = k.fl := rfl
@[simp] theorem Chip.wr_pm (f : Fld) (v : Nat) : (k.wr f v).pm = k.pm := rfl

/-! ### `raise` -/

@[simp] theorem Chip.raise_mem (f : Fld) : (k.raise f).mem = k.mem := rfl
@[simp] theorem Chip.raise_poison (f : Fld) : (k.raise f).poison = k.poison := rfl
@[simp] theorem Chip.raise_out (f : Fld) : (k.raise f).out = k.out := rfl
@[simp] theorem Chip.raise_free (f : Fld) : (k.raise f).free = k.free := rfl
@[simp] theorem Chip.raise_time (f : Fld) : (k.raise f).time = k.time := rfl
@[simp] theorem Chip.raise_beat (f : Fld) : (k.raise f).beat = k.beat := rfl
@[simp] theorem Chip.raise_re (f : Fld) : (k.raise f).re = k.re := rfl
@[simp] theorem Chip.raise_eng (f : Fld) : (k.raise f).eng = k.eng := rfl
@[simp] theorem Chip.raise_acc (f : Fld) : (k.raise f).acc = k.acc := rfl
@[simp] theorem Chip.raise_hf (f : Fld) : (k.raise f).hf = k.hf := rfl
@[simp] theorem Chip.raise_cn (f : Fld) : (k.raise f).cn = k.cn := rfl
@[simp] theorem Chip.raise_mq (f : Fld) : (k.raise f).mq = k.mq := rfl
@[simp] theorem Chip.raise_harts (f : Fld) : (k.raise f).harts = k.harts := rfl
@[simp] theorem Chip.raise_tiles (f : Fld) : (k.raise f).tiles = k.tiles := rfl
@[simp] theorem Chip.raise_coh (f : Fld) : (k.raise f).coh = k.coh := rfl
@[simp] theorem Chip.raise_noc (f : Fld) : (k.raise f).noc = k.noc := rfl
@[simp] theorem Chip.raise_bl (f : Fld) : (k.raise f).bl = k.bl := rfl
@[simp] theorem Chip.raise_mc (f : Fld) : (k.raise f).mc = k.mc := rfl
@[simp] theorem Chip.raise_qt (f : Fld) : (k.raise f).qt = k.qt := rfl
@[simp] theorem Chip.raise_flt (f : Fld) : (k.raise f).flt = k.flt := rfl
@[simp] theorem Chip.raise_ws (f : Fld) : (k.raise f).ws = k.ws := rfl
@[simp] theorem Chip.raise_pwr (f : Fld) : (k.raise f).pwr = k.pwr := rfl
@[simp] theorem Chip.raise_gn (f : Fld) : (k.raise f).gn = k.gn := rfl
@[simp] theorem Chip.raise_start (f : Fld) : (k.raise f).start = k.start := rfl
@[simp] theorem Chip.raise_fl (f : Fld) : (k.raise f).fl = k.fl := rfl
@[simp] theorem Chip.raise_pm (f : Fld) : (k.raise f).pm = k.pm := rfl

/-! ### `bump` -/

@[simp] theorem Chip.bump_mem (f : Fld) (d : Nat) : (k.bump f d).mem = k.mem := rfl
@[simp] theorem Chip.bump_poison (f : Fld) (d : Nat) : (k.bump f d).poison = k.poison := rfl
@[simp] theorem Chip.bump_out (f : Fld) (d : Nat) : (k.bump f d).out = k.out := rfl
@[simp] theorem Chip.bump_free (f : Fld) (d : Nat) : (k.bump f d).free = k.free := rfl
@[simp] theorem Chip.bump_time (f : Fld) (d : Nat) : (k.bump f d).time = k.time := rfl
@[simp] theorem Chip.bump_beat (f : Fld) (d : Nat) : (k.bump f d).beat = k.beat := rfl
@[simp] theorem Chip.bump_re (f : Fld) (d : Nat) : (k.bump f d).re = k.re := rfl
@[simp] theorem Chip.bump_eng (f : Fld) (d : Nat) : (k.bump f d).eng = k.eng := rfl
@[simp] theorem Chip.bump_acc (f : Fld) (d : Nat) : (k.bump f d).acc = k.acc := rfl
@[simp] theorem Chip.bump_hf (f : Fld) (d : Nat) : (k.bump f d).hf = k.hf := rfl
@[simp] theorem Chip.bump_cn (f : Fld) (d : Nat) : (k.bump f d).cn = k.cn := rfl
@[simp] theorem Chip.bump_mq (f : Fld) (d : Nat) : (k.bump f d).mq = k.mq := rfl
@[simp] theorem Chip.bump_harts (f : Fld) (d : Nat) : (k.bump f d).harts = k.harts := rfl
@[simp] theorem Chip.bump_tiles (f : Fld) (d : Nat) : (k.bump f d).tiles = k.tiles := rfl
@[simp] theorem Chip.bump_coh (f : Fld) (d : Nat) : (k.bump f d).coh = k.coh := rfl
@[simp] theorem Chip.bump_noc (f : Fld) (d : Nat) : (k.bump f d).noc = k.noc := rfl
@[simp] theorem Chip.bump_bl (f : Fld) (d : Nat) : (k.bump f d).bl = k.bl := rfl
@[simp] theorem Chip.bump_mc (f : Fld) (d : Nat) : (k.bump f d).mc = k.mc := rfl
@[simp] theorem Chip.bump_qt (f : Fld) (d : Nat) : (k.bump f d).qt = k.qt := rfl
@[simp] theorem Chip.bump_flt (f : Fld) (d : Nat) : (k.bump f d).flt = k.flt := rfl
@[simp] theorem Chip.bump_ws (f : Fld) (d : Nat) : (k.bump f d).ws = k.ws := rfl
@[simp] theorem Chip.bump_pwr (f : Fld) (d : Nat) : (k.bump f d).pwr = k.pwr := rfl
@[simp] theorem Chip.bump_gn (f : Fld) (d : Nat) : (k.bump f d).gn = k.gn := rfl
@[simp] theorem Chip.bump_start (f : Fld) (d : Nat) : (k.bump f d).start = k.start := rfl
@[simp] theorem Chip.bump_fl (f : Fld) (d : Nat) : (k.bump f d).fl = k.fl := rfl
@[simp] theorem Chip.bump_pm (f : Fld) (d : Nat) : (k.bump f d).pm = k.pm := rfl

/-! ### `hold` -/

@[simp] theorem Chip.hold_regs (f : Fld) (v : Nat) : (k.hold f v).regs = k.regs := rfl
@[simp] theorem Chip.hold_mem (f : Fld) (v : Nat) : (k.hold f v).mem = k.mem := rfl
@[simp] theorem Chip.hold_poison (f : Fld) (v : Nat) : (k.hold f v).poison = k.poison := rfl
@[simp] theorem Chip.hold_out (f : Fld) (v : Nat) : (k.hold f v).out = k.out := rfl
@[simp] theorem Chip.hold_free (f : Fld) (v : Nat) : (k.hold f v).free = k.free := rfl
@[simp] theorem Chip.hold_time (f : Fld) (v : Nat) : (k.hold f v).time = k.time := rfl
@[simp] theorem Chip.hold_re (f : Fld) (v : Nat) : (k.hold f v).re = k.re := rfl
@[simp] theorem Chip.hold_eng (f : Fld) (v : Nat) : (k.hold f v).eng = k.eng := rfl
@[simp] theorem Chip.hold_acc (f : Fld) (v : Nat) : (k.hold f v).acc = k.acc := rfl
@[simp] theorem Chip.hold_hf (f : Fld) (v : Nat) : (k.hold f v).hf = k.hf := rfl
@[simp] theorem Chip.hold_cn (f : Fld) (v : Nat) : (k.hold f v).cn = k.cn := rfl
@[simp] theorem Chip.hold_mq (f : Fld) (v : Nat) : (k.hold f v).mq = k.mq := rfl
@[simp] theorem Chip.hold_harts (f : Fld) (v : Nat) : (k.hold f v).harts = k.harts := rfl
@[simp] theorem Chip.hold_tiles (f : Fld) (v : Nat) : (k.hold f v).tiles = k.tiles := rfl
@[simp] theorem Chip.hold_coh (f : Fld) (v : Nat) : (k.hold f v).coh = k.coh := rfl
@[simp] theorem Chip.hold_noc (f : Fld) (v : Nat) : (k.hold f v).noc = k.noc := rfl
@[simp] theorem Chip.hold_bl (f : Fld) (v : Nat) : (k.hold f v).bl = k.bl := rfl
@[simp] theorem Chip.hold_mc (f : Fld) (v : Nat) : (k.hold f v).mc = k.mc := rfl
@[simp] theorem Chip.hold_qt (f : Fld) (v : Nat) : (k.hold f v).qt = k.qt := rfl
@[simp] theorem Chip.hold_flt (f : Fld) (v : Nat) : (k.hold f v).flt = k.flt := rfl
@[simp] theorem Chip.hold_ws (f : Fld) (v : Nat) : (k.hold f v).ws = k.ws := rfl
@[simp] theorem Chip.hold_pwr (f : Fld) (v : Nat) : (k.hold f v).pwr = k.pwr := rfl
@[simp] theorem Chip.hold_gn (f : Fld) (v : Nat) : (k.hold f v).gn = k.gn := rfl
@[simp] theorem Chip.hold_start (f : Fld) (v : Nat) : (k.hold f v).start = k.start := rfl
@[simp] theorem Chip.hold_fl (f : Fld) (v : Nat) : (k.hold f v).fl = k.fl := rfl
@[simp] theorem Chip.hold_pm (f : Fld) (v : Nat) : (k.hold f v).pm = k.pm := rfl

/-! ### `emit` -/

@[simp] theorem Chip.emit_regs (o : Out) : (k.emit o).regs = k.regs := rfl
@[simp] theorem Chip.emit_mem (o : Out) : (k.emit o).mem = k.mem := rfl
@[simp] theorem Chip.emit_poison (o : Out) : (k.emit o).poison = k.poison := rfl
@[simp] theorem Chip.emit_free (o : Out) : (k.emit o).free = k.free := rfl
@[simp] theorem Chip.emit_time (o : Out) : (k.emit o).time = k.time := rfl
@[simp] theorem Chip.emit_beat (o : Out) : (k.emit o).beat = k.beat := rfl
@[simp] theorem Chip.emit_re (o : Out) : (k.emit o).re = k.re := rfl
@[simp] theorem Chip.emit_eng (o : Out) : (k.emit o).eng = k.eng := rfl
@[simp] theorem Chip.emit_acc (o : Out) : (k.emit o).acc = k.acc := rfl
@[simp] theorem Chip.emit_hf (o : Out) : (k.emit o).hf = k.hf := rfl
@[simp] theorem Chip.emit_cn (o : Out) : (k.emit o).cn = k.cn := rfl
@[simp] theorem Chip.emit_mq (o : Out) : (k.emit o).mq = k.mq := rfl
@[simp] theorem Chip.emit_harts (o : Out) : (k.emit o).harts = k.harts := rfl
@[simp] theorem Chip.emit_tiles (o : Out) : (k.emit o).tiles = k.tiles := rfl
@[simp] theorem Chip.emit_coh (o : Out) : (k.emit o).coh = k.coh := rfl
@[simp] theorem Chip.emit_noc (o : Out) : (k.emit o).noc = k.noc := rfl
@[simp] theorem Chip.emit_bl (o : Out) : (k.emit o).bl = k.bl := rfl
@[simp] theorem Chip.emit_mc (o : Out) : (k.emit o).mc = k.mc := rfl
@[simp] theorem Chip.emit_qt (o : Out) : (k.emit o).qt = k.qt := rfl
@[simp] theorem Chip.emit_flt (o : Out) : (k.emit o).flt = k.flt := rfl
@[simp] theorem Chip.emit_ws (o : Out) : (k.emit o).ws = k.ws := rfl
@[simp] theorem Chip.emit_pwr (o : Out) : (k.emit o).pwr = k.pwr := rfl
@[simp] theorem Chip.emit_gn (o : Out) : (k.emit o).gn = k.gn := rfl
@[simp] theorem Chip.emit_start (o : Out) : (k.emit o).start = k.start := rfl
@[simp] theorem Chip.emit_fl (o : Out) : (k.emit o).fl = k.fl := rfl
@[simp] theorem Chip.emit_pm (o : Out) : (k.emit o).pm = k.pm := rfl

/-! ### `setEngine` -/

@[simp] theorem Chip.setEngine_regs (e : Nat) (f : Eng → Eng) : (k.setEngine e f).regs = k.regs := rfl
@[simp] theorem Chip.setEngine_mem (e : Nat) (f : Eng → Eng) : (k.setEngine e f).mem = k.mem := rfl
@[simp] theorem Chip.setEngine_poison (e : Nat) (f : Eng → Eng) : (k.setEngine e f).poison = k.poison := rfl
@[simp] theorem Chip.setEngine_out (e : Nat) (f : Eng → Eng) : (k.setEngine e f).out = k.out := rfl
@[simp] theorem Chip.setEngine_free (e : Nat) (f : Eng → Eng) : (k.setEngine e f).free = k.free := rfl
@[simp] theorem Chip.setEngine_time (e : Nat) (f : Eng → Eng) : (k.setEngine e f).time = k.time := rfl
@[simp] theorem Chip.setEngine_beat (e : Nat) (f : Eng → Eng) : (k.setEngine e f).beat = k.beat := rfl
@[simp] theorem Chip.setEngine_re (e : Nat) (f : Eng → Eng) : (k.setEngine e f).re = k.re := rfl
@[simp] theorem Chip.setEngine_acc (e : Nat) (f : Eng → Eng) : (k.setEngine e f).acc = k.acc := rfl
@[simp] theorem Chip.setEngine_hf (e : Nat) (f : Eng → Eng) : (k.setEngine e f).hf = k.hf := rfl
@[simp] theorem Chip.setEngine_cn (e : Nat) (f : Eng → Eng) : (k.setEngine e f).cn = k.cn := rfl
@[simp] theorem Chip.setEngine_mq (e : Nat) (f : Eng → Eng) : (k.setEngine e f).mq = k.mq := rfl
@[simp] theorem Chip.setEngine_harts (e : Nat) (f : Eng → Eng) : (k.setEngine e f).harts = k.harts := rfl
@[simp] theorem Chip.setEngine_tiles (e : Nat) (f : Eng → Eng) : (k.setEngine e f).tiles = k.tiles := rfl
@[simp] theorem Chip.setEngine_coh (e : Nat) (f : Eng → Eng) : (k.setEngine e f).coh = k.coh := rfl
@[simp] theorem Chip.setEngine_noc (e : Nat) (f : Eng → Eng) : (k.setEngine e f).noc = k.noc := rfl
@[simp] theorem Chip.setEngine_bl (e : Nat) (f : Eng → Eng) : (k.setEngine e f).bl = k.bl := rfl
@[simp] theorem Chip.setEngine_mc (e : Nat) (f : Eng → Eng) : (k.setEngine e f).mc = k.mc := rfl
@[simp] theorem Chip.setEngine_qt (e : Nat) (f : Eng → Eng) : (k.setEngine e f).qt = k.qt := rfl
@[simp] theorem Chip.setEngine_flt (e : Nat) (f : Eng → Eng) : (k.setEngine e f).flt = k.flt := rfl
@[simp] theorem Chip.setEngine_ws (e : Nat) (f : Eng → Eng) : (k.setEngine e f).ws = k.ws := rfl
@[simp] theorem Chip.setEngine_pwr (e : Nat) (f : Eng → Eng) : (k.setEngine e f).pwr = k.pwr := rfl
@[simp] theorem Chip.setEngine_gn (e : Nat) (f : Eng → Eng) : (k.setEngine e f).gn = k.gn := rfl
@[simp] theorem Chip.setEngine_start (e : Nat) (f : Eng → Eng) : (k.setEngine e f).start = k.start := rfl
@[simp] theorem Chip.setEngine_fl (e : Nat) (f : Eng → Eng) : (k.setEngine e f).fl = k.fl := rfl
@[simp] theorem Chip.setEngine_pm (e : Nat) (f : Eng → Eng) : (k.setEngine e f).pm = k.pm := rfl

/-! ### `setRing` -/

@[simp] theorem Chip.setRing_regs (r : Nat) (f : Ring → Ring) : (k.setRing r f).regs = k.regs := rfl
@[simp] theorem Chip.setRing_mem (r : Nat) (f : Ring → Ring) : (k.setRing r f).mem = k.mem := rfl
@[simp] theorem Chip.setRing_poison (r : Nat) (f : Ring → Ring) : (k.setRing r f).poison = k.poison := rfl
@[simp] theorem Chip.setRing_out (r : Nat) (f : Ring → Ring) : (k.setRing r f).out = k.out := rfl
@[simp] theorem Chip.setRing_free (r : Nat) (f : Ring → Ring) : (k.setRing r f).free = k.free := rfl
@[simp] theorem Chip.setRing_time (r : Nat) (f : Ring → Ring) : (k.setRing r f).time = k.time := rfl
@[simp] theorem Chip.setRing_beat (r : Nat) (f : Ring → Ring) : (k.setRing r f).beat = k.beat := rfl
@[simp] theorem Chip.setRing_eng (r : Nat) (f : Ring → Ring) : (k.setRing r f).eng = k.eng := rfl
@[simp] theorem Chip.setRing_acc (r : Nat) (f : Ring → Ring) : (k.setRing r f).acc = k.acc := rfl
@[simp] theorem Chip.setRing_hf (r : Nat) (f : Ring → Ring) : (k.setRing r f).hf = k.hf := rfl
@[simp] theorem Chip.setRing_cn (r : Nat) (f : Ring → Ring) : (k.setRing r f).cn = k.cn := rfl
@[simp] theorem Chip.setRing_mq (r : Nat) (f : Ring → Ring) : (k.setRing r f).mq = k.mq := rfl
@[simp] theorem Chip.setRing_harts (r : Nat) (f : Ring → Ring) : (k.setRing r f).harts = k.harts := rfl
@[simp] theorem Chip.setRing_tiles (r : Nat) (f : Ring → Ring) : (k.setRing r f).tiles = k.tiles := rfl
@[simp] theorem Chip.setRing_coh (r : Nat) (f : Ring → Ring) : (k.setRing r f).coh = k.coh := rfl
@[simp] theorem Chip.setRing_noc (r : Nat) (f : Ring → Ring) : (k.setRing r f).noc = k.noc := rfl
@[simp] theorem Chip.setRing_bl (r : Nat) (f : Ring → Ring) : (k.setRing r f).bl = k.bl := rfl
@[simp] theorem Chip.setRing_mc (r : Nat) (f : Ring → Ring) : (k.setRing r f).mc = k.mc := rfl
@[simp] theorem Chip.setRing_qt (r : Nat) (f : Ring → Ring) : (k.setRing r f).qt = k.qt := rfl
@[simp] theorem Chip.setRing_flt (r : Nat) (f : Ring → Ring) : (k.setRing r f).flt = k.flt := rfl
@[simp] theorem Chip.setRing_ws (r : Nat) (f : Ring → Ring) : (k.setRing r f).ws = k.ws := rfl
@[simp] theorem Chip.setRing_pwr (r : Nat) (f : Ring → Ring) : (k.setRing r f).pwr = k.pwr := rfl
@[simp] theorem Chip.setRing_gn (r : Nat) (f : Ring → Ring) : (k.setRing r f).gn = k.gn := rfl
@[simp] theorem Chip.setRing_start (r : Nat) (f : Ring → Ring) : (k.setRing r f).start = k.start := rfl
@[simp] theorem Chip.setRing_fl (r : Nat) (f : Ring → Ring) : (k.setRing r f).fl = k.fl := rfl
@[simp] theorem Chip.setRing_pm (r : Nat) (f : Ring → Ring) : (k.setRing r f).pm = k.pm := rfl

/-! ### `setFn` -/

@[simp] theorem Chip.setFn_regs (f : Nat) (g : FnCtx → FnCtx) : (k.setFn f g).regs = k.regs := rfl
@[simp] theorem Chip.setFn_mem (f : Nat) (g : FnCtx → FnCtx) : (k.setFn f g).mem = k.mem := rfl
@[simp] theorem Chip.setFn_poison (f : Nat) (g : FnCtx → FnCtx) : (k.setFn f g).poison = k.poison := rfl
@[simp] theorem Chip.setFn_out (f : Nat) (g : FnCtx → FnCtx) : (k.setFn f g).out = k.out := rfl
@[simp] theorem Chip.setFn_free (f : Nat) (g : FnCtx → FnCtx) : (k.setFn f g).free = k.free := rfl
@[simp] theorem Chip.setFn_time (f : Nat) (g : FnCtx → FnCtx) : (k.setFn f g).time = k.time := rfl
@[simp] theorem Chip.setFn_beat (f : Nat) (g : FnCtx → FnCtx) : (k.setFn f g).beat = k.beat := rfl
@[simp] theorem Chip.setFn_eng (f : Nat) (g : FnCtx → FnCtx) : (k.setFn f g).eng = k.eng := rfl
@[simp] theorem Chip.setFn_acc (f : Nat) (g : FnCtx → FnCtx) : (k.setFn f g).acc = k.acc := rfl
@[simp] theorem Chip.setFn_hf (f : Nat) (g : FnCtx → FnCtx) : (k.setFn f g).hf = k.hf := rfl
@[simp] theorem Chip.setFn_cn (f : Nat) (g : FnCtx → FnCtx) : (k.setFn f g).cn = k.cn := rfl
@[simp] theorem Chip.setFn_mq (f : Nat) (g : FnCtx → FnCtx) : (k.setFn f g).mq = k.mq := rfl
@[simp] theorem Chip.setFn_harts (f : Nat) (g : FnCtx → FnCtx) : (k.setFn f g).harts = k.harts := rfl
@[simp] theorem Chip.setFn_tiles (f : Nat) (g : FnCtx → FnCtx) : (k.setFn f g).tiles = k.tiles := rfl
@[simp] theorem Chip.setFn_coh (f : Nat) (g : FnCtx → FnCtx) : (k.setFn f g).coh = k.coh := rfl
@[simp] theorem Chip.setFn_noc (f : Nat) (g : FnCtx → FnCtx) : (k.setFn f g).noc = k.noc := rfl
@[simp] theorem Chip.setFn_bl (f : Nat) (g : FnCtx → FnCtx) : (k.setFn f g).bl = k.bl := rfl
@[simp] theorem Chip.setFn_mc (f : Nat) (g : FnCtx → FnCtx) : (k.setFn f g).mc = k.mc := rfl
@[simp] theorem Chip.setFn_qt (f : Nat) (g : FnCtx → FnCtx) : (k.setFn f g).qt = k.qt := rfl
@[simp] theorem Chip.setFn_flt (f : Nat) (g : FnCtx → FnCtx) : (k.setFn f g).flt = k.flt := rfl
@[simp] theorem Chip.setFn_ws (f : Nat) (g : FnCtx → FnCtx) : (k.setFn f g).ws = k.ws := rfl
@[simp] theorem Chip.setFn_pwr (f : Nat) (g : FnCtx → FnCtx) : (k.setFn f g).pwr = k.pwr := rfl
@[simp] theorem Chip.setFn_gn (f : Nat) (g : FnCtx → FnCtx) : (k.setFn f g).gn = k.gn := rfl
@[simp] theorem Chip.setFn_start (f : Nat) (g : FnCtx → FnCtx) : (k.setFn f g).start = k.start := rfl
@[simp] theorem Chip.setFn_fl (f : Nat) (g : FnCtx → FnCtx) : (k.setFn f g).fl = k.fl := rfl
@[simp] theorem Chip.setFn_pm (f : Nat) (g : FnCtx → FnCtx) : (k.setFn f g).pm = k.pm := rfl

/-! ### `setHostFn` -/

@[simp] theorem Chip.setHostFn_regs (f : Nat) (g : HostFn → HostFn) : (k.setHostFn f g).regs = k.regs := rfl
@[simp] theorem Chip.setHostFn_mem (f : Nat) (g : HostFn → HostFn) : (k.setHostFn f g).mem = k.mem := rfl
@[simp] theorem Chip.setHostFn_poison (f : Nat) (g : HostFn → HostFn) : (k.setHostFn f g).poison = k.poison := rfl
@[simp] theorem Chip.setHostFn_out (f : Nat) (g : HostFn → HostFn) : (k.setHostFn f g).out = k.out := rfl
@[simp] theorem Chip.setHostFn_free (f : Nat) (g : HostFn → HostFn) : (k.setHostFn f g).free = k.free := rfl
@[simp] theorem Chip.setHostFn_time (f : Nat) (g : HostFn → HostFn) : (k.setHostFn f g).time = k.time := rfl
@[simp] theorem Chip.setHostFn_beat (f : Nat) (g : HostFn → HostFn) : (k.setHostFn f g).beat = k.beat := rfl
@[simp] theorem Chip.setHostFn_re (f : Nat) (g : HostFn → HostFn) : (k.setHostFn f g).re = k.re := rfl
@[simp] theorem Chip.setHostFn_eng (f : Nat) (g : HostFn → HostFn) : (k.setHostFn f g).eng = k.eng := rfl
@[simp] theorem Chip.setHostFn_acc (f : Nat) (g : HostFn → HostFn) : (k.setHostFn f g).acc = k.acc := rfl
@[simp] theorem Chip.setHostFn_cn (f : Nat) (g : HostFn → HostFn) : (k.setHostFn f g).cn = k.cn := rfl
@[simp] theorem Chip.setHostFn_mq (f : Nat) (g : HostFn → HostFn) : (k.setHostFn f g).mq = k.mq := rfl
@[simp] theorem Chip.setHostFn_harts (f : Nat) (g : HostFn → HostFn) : (k.setHostFn f g).harts = k.harts := rfl
@[simp] theorem Chip.setHostFn_tiles (f : Nat) (g : HostFn → HostFn) : (k.setHostFn f g).tiles = k.tiles := rfl
@[simp] theorem Chip.setHostFn_coh (f : Nat) (g : HostFn → HostFn) : (k.setHostFn f g).coh = k.coh := rfl
@[simp] theorem Chip.setHostFn_noc (f : Nat) (g : HostFn → HostFn) : (k.setHostFn f g).noc = k.noc := rfl
@[simp] theorem Chip.setHostFn_bl (f : Nat) (g : HostFn → HostFn) : (k.setHostFn f g).bl = k.bl := rfl
@[simp] theorem Chip.setHostFn_mc (f : Nat) (g : HostFn → HostFn) : (k.setHostFn f g).mc = k.mc := rfl
@[simp] theorem Chip.setHostFn_qt (f : Nat) (g : HostFn → HostFn) : (k.setHostFn f g).qt = k.qt := rfl
@[simp] theorem Chip.setHostFn_flt (f : Nat) (g : HostFn → HostFn) : (k.setHostFn f g).flt = k.flt := rfl
@[simp] theorem Chip.setHostFn_ws (f : Nat) (g : HostFn → HostFn) : (k.setHostFn f g).ws = k.ws := rfl
@[simp] theorem Chip.setHostFn_pwr (f : Nat) (g : HostFn → HostFn) : (k.setHostFn f g).pwr = k.pwr := rfl
@[simp] theorem Chip.setHostFn_gn (f : Nat) (g : HostFn → HostFn) : (k.setHostFn f g).gn = k.gn := rfl
@[simp] theorem Chip.setHostFn_start (f : Nat) (g : HostFn → HostFn) : (k.setHostFn f g).start = k.start := rfl
@[simp] theorem Chip.setHostFn_fl (f : Nat) (g : HostFn → HostFn) : (k.setHostFn f g).fl = k.fl := rfl
@[simp] theorem Chip.setHostFn_pm (f : Nat) (g : HostFn → HostFn) : (k.setHostFn f g).pm = k.pm := rfl

/-! ### `setHart` -/

@[simp] theorem Chip.setHart_regs (h : Nat) (f : Hart → Hart) : (k.setHart h f).regs = k.regs := rfl
@[simp] theorem Chip.setHart_mem (h : Nat) (f : Hart → Hart) : (k.setHart h f).mem = k.mem := rfl
@[simp] theorem Chip.setHart_poison (h : Nat) (f : Hart → Hart) : (k.setHart h f).poison = k.poison := rfl
@[simp] theorem Chip.setHart_out (h : Nat) (f : Hart → Hart) : (k.setHart h f).out = k.out := rfl
@[simp] theorem Chip.setHart_free (h : Nat) (f : Hart → Hart) : (k.setHart h f).free = k.free := rfl
@[simp] theorem Chip.setHart_time (h : Nat) (f : Hart → Hart) : (k.setHart h f).time = k.time := rfl
@[simp] theorem Chip.setHart_beat (h : Nat) (f : Hart → Hart) : (k.setHart h f).beat = k.beat := rfl
@[simp] theorem Chip.setHart_re (h : Nat) (f : Hart → Hart) : (k.setHart h f).re = k.re := rfl
@[simp] theorem Chip.setHart_eng (h : Nat) (f : Hart → Hart) : (k.setHart h f).eng = k.eng := rfl
@[simp] theorem Chip.setHart_acc (h : Nat) (f : Hart → Hart) : (k.setHart h f).acc = k.acc := rfl
@[simp] theorem Chip.setHart_hf (h : Nat) (f : Hart → Hart) : (k.setHart h f).hf = k.hf := rfl
@[simp] theorem Chip.setHart_cn (h : Nat) (f : Hart → Hart) : (k.setHart h f).cn = k.cn := rfl
@[simp] theorem Chip.setHart_mq (h : Nat) (f : Hart → Hart) : (k.setHart h f).mq = k.mq := rfl
@[simp] theorem Chip.setHart_tiles (h : Nat) (f : Hart → Hart) : (k.setHart h f).tiles = k.tiles := rfl
@[simp] theorem Chip.setHart_coh (h : Nat) (f : Hart → Hart) : (k.setHart h f).coh = k.coh := rfl
@[simp] theorem Chip.setHart_noc (h : Nat) (f : Hart → Hart) : (k.setHart h f).noc = k.noc := rfl
@[simp] theorem Chip.setHart_bl (h : Nat) (f : Hart → Hart) : (k.setHart h f).bl = k.bl := rfl
@[simp] theorem Chip.setHart_mc (h : Nat) (f : Hart → Hart) : (k.setHart h f).mc = k.mc := rfl
@[simp] theorem Chip.setHart_qt (h : Nat) (f : Hart → Hart) : (k.setHart h f).qt = k.qt := rfl
@[simp] theorem Chip.setHart_flt (h : Nat) (f : Hart → Hart) : (k.setHart h f).flt = k.flt := rfl
@[simp] theorem Chip.setHart_ws (h : Nat) (f : Hart → Hart) : (k.setHart h f).ws = k.ws := rfl
@[simp] theorem Chip.setHart_pwr (h : Nat) (f : Hart → Hart) : (k.setHart h f).pwr = k.pwr := rfl
@[simp] theorem Chip.setHart_gn (h : Nat) (f : Hart → Hart) : (k.setHart h f).gn = k.gn := rfl
@[simp] theorem Chip.setHart_start (h : Nat) (f : Hart → Hart) : (k.setHart h f).start = k.start := rfl
@[simp] theorem Chip.setHart_fl (h : Nat) (f : Hart → Hart) : (k.setHart h f).fl = k.fl := rfl
@[simp] theorem Chip.setHart_pm (h : Nat) (f : Hart → Hart) : (k.setHart h f).pm = k.pm := rfl

/-! ### `setTile` -/

@[simp] theorem Chip.setTile_regs (t : Nat) (f : Tile → Tile) : (k.setTile t f).regs = k.regs := rfl
@[simp] theorem Chip.setTile_mem (t : Nat) (f : Tile → Tile) : (k.setTile t f).mem = k.mem := rfl
@[simp] theorem Chip.setTile_poison (t : Nat) (f : Tile → Tile) : (k.setTile t f).poison = k.poison := rfl
@[simp] theorem Chip.setTile_out (t : Nat) (f : Tile → Tile) : (k.setTile t f).out = k.out := rfl
@[simp] theorem Chip.setTile_free (t : Nat) (f : Tile → Tile) : (k.setTile t f).free = k.free := rfl
@[simp] theorem Chip.setTile_time (t : Nat) (f : Tile → Tile) : (k.setTile t f).time = k.time := rfl
@[simp] theorem Chip.setTile_beat (t : Nat) (f : Tile → Tile) : (k.setTile t f).beat = k.beat := rfl
@[simp] theorem Chip.setTile_re (t : Nat) (f : Tile → Tile) : (k.setTile t f).re = k.re := rfl
@[simp] theorem Chip.setTile_eng (t : Nat) (f : Tile → Tile) : (k.setTile t f).eng = k.eng := rfl
@[simp] theorem Chip.setTile_acc (t : Nat) (f : Tile → Tile) : (k.setTile t f).acc = k.acc := rfl
@[simp] theorem Chip.setTile_hf (t : Nat) (f : Tile → Tile) : (k.setTile t f).hf = k.hf := rfl
@[simp] theorem Chip.setTile_cn (t : Nat) (f : Tile → Tile) : (k.setTile t f).cn = k.cn := rfl
@[simp] theorem Chip.setTile_mq (t : Nat) (f : Tile → Tile) : (k.setTile t f).mq = k.mq := rfl
@[simp] theorem Chip.setTile_harts (t : Nat) (f : Tile → Tile) : (k.setTile t f).harts = k.harts := rfl
@[simp] theorem Chip.setTile_coh (t : Nat) (f : Tile → Tile) : (k.setTile t f).coh = k.coh := rfl
@[simp] theorem Chip.setTile_noc (t : Nat) (f : Tile → Tile) : (k.setTile t f).noc = k.noc := rfl
@[simp] theorem Chip.setTile_bl (t : Nat) (f : Tile → Tile) : (k.setTile t f).bl = k.bl := rfl
@[simp] theorem Chip.setTile_mc (t : Nat) (f : Tile → Tile) : (k.setTile t f).mc = k.mc := rfl
@[simp] theorem Chip.setTile_qt (t : Nat) (f : Tile → Tile) : (k.setTile t f).qt = k.qt := rfl
@[simp] theorem Chip.setTile_flt (t : Nat) (f : Tile → Tile) : (k.setTile t f).flt = k.flt := rfl
@[simp] theorem Chip.setTile_ws (t : Nat) (f : Tile → Tile) : (k.setTile t f).ws = k.ws := rfl
@[simp] theorem Chip.setTile_pwr (t : Nat) (f : Tile → Tile) : (k.setTile t f).pwr = k.pwr := rfl
@[simp] theorem Chip.setTile_gn (t : Nat) (f : Tile → Tile) : (k.setTile t f).gn = k.gn := rfl
@[simp] theorem Chip.setTile_start (t : Nat) (f : Tile → Tile) : (k.setTile t f).start = k.start := rfl
@[simp] theorem Chip.setTile_fl (t : Nat) (f : Tile → Tile) : (k.setTile t f).fl = k.fl := rfl
@[simp] theorem Chip.setTile_pm (t : Nat) (f : Tile → Tile) : (k.setTile t f).pm = k.pm := rfl

/-! ### `setDie` -/

@[simp] theorem Chip.setDie_regs (d : Nat) (f : Die → Die) : (k.setDie d f).regs = k.regs := rfl
@[simp] theorem Chip.setDie_mem (d : Nat) (f : Die → Die) : (k.setDie d f).mem = k.mem := rfl
@[simp] theorem Chip.setDie_poison (d : Nat) (f : Die → Die) : (k.setDie d f).poison = k.poison := rfl
@[simp] theorem Chip.setDie_out (d : Nat) (f : Die → Die) : (k.setDie d f).out = k.out := rfl
@[simp] theorem Chip.setDie_free (d : Nat) (f : Die → Die) : (k.setDie d f).free = k.free := rfl
@[simp] theorem Chip.setDie_time (d : Nat) (f : Die → Die) : (k.setDie d f).time = k.time := rfl
@[simp] theorem Chip.setDie_beat (d : Nat) (f : Die → Die) : (k.setDie d f).beat = k.beat := rfl
@[simp] theorem Chip.setDie_re (d : Nat) (f : Die → Die) : (k.setDie d f).re = k.re := rfl
@[simp] theorem Chip.setDie_eng (d : Nat) (f : Die → Die) : (k.setDie d f).eng = k.eng := rfl
@[simp] theorem Chip.setDie_acc (d : Nat) (f : Die → Die) : (k.setDie d f).acc = k.acc := rfl
@[simp] theorem Chip.setDie_hf (d : Nat) (f : Die → Die) : (k.setDie d f).hf = k.hf := rfl
@[simp] theorem Chip.setDie_cn (d : Nat) (f : Die → Die) : (k.setDie d f).cn = k.cn := rfl
@[simp] theorem Chip.setDie_mq (d : Nat) (f : Die → Die) : (k.setDie d f).mq = k.mq := rfl
@[simp] theorem Chip.setDie_harts (d : Nat) (f : Die → Die) : (k.setDie d f).harts = k.harts := rfl
@[simp] theorem Chip.setDie_tiles (d : Nat) (f : Die → Die) : (k.setDie d f).tiles = k.tiles := rfl
@[simp] theorem Chip.setDie_coh (d : Nat) (f : Die → Die) : (k.setDie d f).coh = k.coh := rfl
@[simp] theorem Chip.setDie_noc (d : Nat) (f : Die → Die) : (k.setDie d f).noc = k.noc := rfl
@[simp] theorem Chip.setDie_bl (d : Nat) (f : Die → Die) : (k.setDie d f).bl = k.bl := rfl
@[simp] theorem Chip.setDie_mc (d : Nat) (f : Die → Die) : (k.setDie d f).mc = k.mc := rfl
@[simp] theorem Chip.setDie_qt (d : Nat) (f : Die → Die) : (k.setDie d f).qt = k.qt := rfl
@[simp] theorem Chip.setDie_ws (d : Nat) (f : Die → Die) : (k.setDie d f).ws = k.ws := rfl
@[simp] theorem Chip.setDie_pwr (d : Nat) (f : Die → Die) : (k.setDie d f).pwr = k.pwr := rfl
@[simp] theorem Chip.setDie_gn (d : Nat) (f : Die → Die) : (k.setDie d f).gn = k.gn := rfl
@[simp] theorem Chip.setDie_start (d : Nat) (f : Die → Die) : (k.setDie d f).start = k.start := rfl
@[simp] theorem Chip.setDie_fl (d : Nat) (f : Die → Die) : (k.setDie d f).fl = k.fl := rfl
@[simp] theorem Chip.setDie_pm (d : Nat) (f : Die → Die) : (k.setDie d f).pm = k.pm := rfl

/-! ### `mark` -/

@[simp] theorem Chip.mark_regs (l : Nat) : (k.mark l).regs = k.regs := rfl
@[simp] theorem Chip.mark_mem (l : Nat) : (k.mark l).mem = k.mem := rfl
@[simp] theorem Chip.mark_out (l : Nat) : (k.mark l).out = k.out := rfl
@[simp] theorem Chip.mark_free (l : Nat) : (k.mark l).free = k.free := rfl
@[simp] theorem Chip.mark_time (l : Nat) : (k.mark l).time = k.time := rfl
@[simp] theorem Chip.mark_beat (l : Nat) : (k.mark l).beat = k.beat := rfl
@[simp] theorem Chip.mark_re (l : Nat) : (k.mark l).re = k.re := rfl
@[simp] theorem Chip.mark_eng (l : Nat) : (k.mark l).eng = k.eng := rfl
@[simp] theorem Chip.mark_acc (l : Nat) : (k.mark l).acc = k.acc := rfl
@[simp] theorem Chip.mark_hf (l : Nat) : (k.mark l).hf = k.hf := rfl
@[simp] theorem Chip.mark_cn (l : Nat) : (k.mark l).cn = k.cn := rfl
@[simp] theorem Chip.mark_mq (l : Nat) : (k.mark l).mq = k.mq := rfl
@[simp] theorem Chip.mark_harts (l : Nat) : (k.mark l).harts = k.harts := rfl
@[simp] theorem Chip.mark_tiles (l : Nat) : (k.mark l).tiles = k.tiles := rfl
@[simp] theorem Chip.mark_coh (l : Nat) : (k.mark l).coh = k.coh := rfl
@[simp] theorem Chip.mark_noc (l : Nat) : (k.mark l).noc = k.noc := rfl
@[simp] theorem Chip.mark_bl (l : Nat) : (k.mark l).bl = k.bl := rfl
@[simp] theorem Chip.mark_mc (l : Nat) : (k.mark l).mc = k.mc := rfl
@[simp] theorem Chip.mark_qt (l : Nat) : (k.mark l).qt = k.qt := rfl
@[simp] theorem Chip.mark_flt (l : Nat) : (k.mark l).flt = k.flt := rfl
@[simp] theorem Chip.mark_ws (l : Nat) : (k.mark l).ws = k.ws := rfl
@[simp] theorem Chip.mark_pwr (l : Nat) : (k.mark l).pwr = k.pwr := rfl
@[simp] theorem Chip.mark_gn (l : Nat) : (k.mark l).gn = k.gn := rfl
@[simp] theorem Chip.mark_start (l : Nat) : (k.mark l).start = k.start := rfl
@[simp] theorem Chip.mark_fl (l : Nat) : (k.mark l).fl = k.fl := rfl
@[simp] theorem Chip.mark_pm (l : Nat) : (k.mark l).pm = k.pm := rfl

/-! ### Own parts of the updates -/

@[simp] theorem Chip.emit_out (o : Out) : (k.emit o).out = o :: k.out := rfl

@[simp] theorem Chip.engine_setEngine (e : Nat) (f : Eng → Eng) : (k.setEngine e f).engine e = f (k.engine e) :=
  Tbl.get_mod_self _ _ _ _

theorem Chip.engine_setEngine_ne {e e' : Nat} (f : Eng → Eng) (h : e' ≠ e) :
    (k.setEngine e f).engine e' = k.engine e' := Tbl.get_mod_ne _ _ _ _ h

@[simp] theorem Chip.ring_setRing (r : Nat) (f : Ring → Ring) : (k.setRing r f).ring r = f (k.ring r) :=
  Tbl.get_mod_self _ _ _ _

theorem Chip.ring_setRing_ne {r r' : Nat} (f : Ring → Ring) (h : r' ≠ r) : (k.setRing r f).ring r' = k.ring r' :=
  Tbl.get_mod_ne _ _ _ _ h

@[simp] theorem Chip.fnCtx_setFn (f : Nat) (g : FnCtx → FnCtx) : (k.setFn f g).fnCtx f = g (k.fnCtx f) :=
  Tbl.get_mod_self _ _ _ _

@[simp] theorem Chip.hostFn_setHostFn (f : Nat) (g : HostFn → HostFn) : (k.setHostFn f g).hostFn f = g (k.hostFn f) :=
  Tbl.get_mod_self _ _ _ _

theorem Chip.hostFn_setHostFn_ne {f f' : Nat} (g : HostFn → HostFn) (h : f' ≠ f) :
    (k.setHostFn f g).hostFn f' = k.hostFn f' := Tbl.get_mod_ne _ _ _ _ h

@[simp] theorem Chip.hart_setHart (h : Nat) (f : Hart → Hart) : (k.setHart h f).hart h = f (k.hart h) :=
  Tbl.get_mod_self _ _ _ _

theorem Chip.hart_setHart_ne {h h' : Nat} (f : Hart → Hart) (hn : h' ≠ h) : (k.setHart h f).hart h' = k.hart h' :=
  Tbl.get_mod_ne _ _ _ _ hn

@[simp] theorem Chip.tile_setTile (t : Nat) (f : Tile → Tile) : (k.setTile t f).tile t = f (k.tile t) :=
  Tbl.get_mod_self _ _ _ _

@[simp] theorem Chip.dieState_setDie (d : Nat) (f : Die → Die) : (k.setDie d f).dieState d = f (k.dieState d) :=
  Tbl.get_mod_self _ _ _ _

/-! ### The status fields shown (R14) -/

/-- Writing a list of fields changes the register store alone. -/
theorem Chip.foldl_wr_eq (l : List (Fld × Nat)) :
    l.foldl (fun k p => k.wr p.1 p.2) k = { k with regs := (l.foldl (fun k p => k.wr p.1 p.2) k).regs } := by
  induction l generalizing k with
  | nil => rfl
  | cons p l ih => rw [List.foldl_cons, ih]; rfl

theorem Chip.refresh_eq : k.refresh = { k with regs := k.refresh.regs } := Chip.foldl_wr_eq k k.shows

/-- A field that no entry of the list names reads as before. -/
theorem Chip.rd_foldl_wr_ne (l : List (Fld × Nat)) (f : Fld) (h : ∀ p ∈ l, f.key ≠ p.1.key) :
    (l.foldl (fun k p => k.wr p.1 p.2) k).rd f = k.rd f := by
  induction l generalizing k with
  | nil => rfl
  | cons p l ih =>
    rw [List.foldl_cons, ih _ fun q hq => h q (List.mem_cons_of_mem _ hq)]
    exact k.rd_wr_ne _ (h p (List.mem_cons_self ..))

/-- With no place named twice, each field of the list reads its value. -/
theorem Chip.rd_foldl_wr_mem (l : List (Fld × Nat)) (hd : (l.map fun p => p.1.key).Nodup) (p : Fld × Nat)
    (hp : p ∈ l) : (l.foldl (fun k p => k.wr p.1 p.2) k).rd p.1 = p.2 % 2 ^ p.1.width := by
  induction l generalizing k with
  | nil => cases hp
  | cons q l ih =>
    rw [List.map_cons, List.nodup_cons] at hd
    rw [List.foldl_cons]
    rcases List.mem_cons.1 hp with rfl | hp
    · rw [Chip.rd_foldl_wr_ne _ _ _ fun r hr he => hd.1 (List.mem_map.2 ⟨r, hr, he.symm⟩), Chip.rd_wr_self]
    · exact ih _ hd.2 hp

theorem Chip.shows_fields : (k.shows.map fun p => p.1) = shownFields := rfl

theorem Chip.shows_keys : (k.shows.map fun p => p.1.key) = shownFields.map Fld.key := by
  rw [← k.shows_fields, List.map_map]
  rfl

theorem shownFields_nodup : (shownFields.map Fld.key).Nodup := by decide +kernel

/-- A field that is no status field reads, after the status fields are brought up to date, as before. -/
theorem Chip.rd_refresh {f : Fld} (h : f.key ∉ shownFields.map Fld.key) : k.refresh.rd f = k.rd f :=
  Chip.rd_foldl_wr_ne k k.shows f fun p hp he => h (by
    rw [← k.shows_keys, he]
    exact List.mem_map_of_mem (f := fun p : Fld × Nat => p.1.key) hp)

/-- A status field reads, after a command, the hardware that it shows. -/
theorem Chip.rd_refresh_shown {p : Fld × Nat} (hp : p ∈ k.shows) : k.refresh.rd p.1 = p.2 % 2 ^ p.1.width :=
  Chip.rd_foldl_wr_mem k k.shows (by rw [Chip.shows_keys]; exact shownFields_nodup) p hp

@[simp] theorem Chip.refresh_mem : k.refresh.mem = k.mem := by rw [Chip.refresh_eq]
@[simp] theorem Chip.refresh_poison : k.refresh.poison = k.poison := by rw [Chip.refresh_eq]
@[simp] theorem Chip.refresh_out : k.refresh.out = k.out := by rw [Chip.refresh_eq]
@[simp] theorem Chip.refresh_free : k.refresh.free = k.free := by rw [Chip.refresh_eq]
@[simp] theorem Chip.refresh_time : k.refresh.time = k.time := by rw [Chip.refresh_eq]
@[simp] theorem Chip.refresh_beat : k.refresh.beat = k.beat := by rw [Chip.refresh_eq]
@[simp] theorem Chip.refresh_re : k.refresh.re = k.re := by rw [Chip.refresh_eq]
@[simp] theorem Chip.refresh_eng : k.refresh.eng = k.eng := by rw [Chip.refresh_eq]
@[simp] theorem Chip.refresh_acc : k.refresh.acc = k.acc := by rw [Chip.refresh_eq]
@[simp] theorem Chip.refresh_hf : k.refresh.hf = k.hf := by rw [Chip.refresh_eq]
@[simp] theorem Chip.refresh_cn : k.refresh.cn = k.cn := by rw [Chip.refresh_eq]
@[simp] theorem Chip.refresh_mq : k.refresh.mq = k.mq := by rw [Chip.refresh_eq]
@[simp] theorem Chip.refresh_harts : k.refresh.harts = k.harts := by rw [Chip.refresh_eq]
@[simp] theorem Chip.refresh_tiles : k.refresh.tiles = k.tiles := by rw [Chip.refresh_eq]
@[simp] theorem Chip.refresh_coh : k.refresh.coh = k.coh := by rw [Chip.refresh_eq]
@[simp] theorem Chip.refresh_noc : k.refresh.noc = k.noc := by rw [Chip.refresh_eq]
@[simp] theorem Chip.refresh_bl : k.refresh.bl = k.bl := by rw [Chip.refresh_eq]
@[simp] theorem Chip.refresh_mc : k.refresh.mc = k.mc := by rw [Chip.refresh_eq]
@[simp] theorem Chip.refresh_qt : k.refresh.qt = k.qt := by rw [Chip.refresh_eq]
@[simp] theorem Chip.refresh_flt : k.refresh.flt = k.flt := by rw [Chip.refresh_eq]
@[simp] theorem Chip.refresh_ws : k.refresh.ws = k.ws := by rw [Chip.refresh_eq]
@[simp] theorem Chip.refresh_pwr : k.refresh.pwr = k.pwr := by rw [Chip.refresh_eq]
@[simp] theorem Chip.refresh_gn : k.refresh.gn = k.gn := by rw [Chip.refresh_eq]
@[simp] theorem Chip.refresh_start : k.refresh.start = k.start := by rw [Chip.refresh_eq]
@[simp] theorem Chip.refresh_fl : k.refresh.fl = k.fl := by rw [Chip.refresh_eq]
@[simp] theorem Chip.refresh_pm : k.refresh.pm = k.pm := by rw [Chip.refresh_eq]

theorem State.commit_eq (s : State) (k : Chip) : s.commit k = .next { s with chip := k.refresh } := rfl

end Sys2Proof.Machine
end

