-- ==== Sys2Proof/Laws/Bytes.lean ====
section
/-!
SUPPORT. Little-endian integers, byte layouts (R6) and the data registers of indirect commands (R94): a read of what was
written.
-/

namespace Sys2Proof.Machine

/-! ### Integers and layouts -/

@[simp] theorem leBytes_length (n w : Nat) : (leBytes n w).length = w := by
  induction w generalizing n with
  | zero => rfl
  | succ w ih => simp [leBytes, ih]

theorem ofLe_leBytes (n w : Nat) : ofLe (leBytes n w) = n % 256 ^ w := by
  induction w generalizing n with
  | zero => simp [leBytes, ofLe, Nat.mod_one]
  | succ w ih =>
    have hb : (BitVec.ofNat 8 n).toNat = n % 256 := rfl
    rw [leBytes, ofLe, ih, hb, Nat.pow_succ', Nat.mod_mul]

theorem leBytes_ofLe (bs : Bytes) : leBytes (ofLe bs) bs.length = bs := by
  induction bs with
  | nil => rfl
  | cons b bs ih =>
    have hb := b.isLt
    simp only [List.length_cons, leBytes, ofLe]
    congr 1
    · apply BitVec.eq_of_toNat_eq
      simp only [BitVec.toNat_ofNat]
      omega
    · rw [show (b.toNat + 256 * ofLe bs) / 256 = ofLe bs by omega, ih]

@[simp] theorem slice_length (bs : Bytes) (o n : Nat) : (slice bs o n).length = n := by
  simp only [slice, List.length_append, List.length_replicate, List.length_take, List.length_drop]
  omega

theorem slice_full (bs : Bytes) (o n : Nat) (h : o + n ≤ bs.length) : slice bs o n = (bs.drop o).take n := by
  unfold slice
  simp only [List.length_take, List.length_drop]
  rw [show n - min n (bs.length - o) = 0 by omega]
  simp

theorem leBytes_leAt (bs : Bytes) (o n : Nat) : leBytes (leAt bs o n) n = slice bs o n := by
  have := leBytes_ofLe (slice bs o n)
  rwa [slice_length] at this

theorem ofLe_lt (bs : Bytes) : ofLe bs < 256 ^ bs.length := by
  induction bs with
  | nil => simp [ofLe]
  | cons b bs ih =>
    have hb := b.isLt
    simp only [ofLe, List.length_cons, Nat.pow_succ]
    omega

theorem leAt_lt (bs : Bytes) (o n : Nat) : leAt bs o n < 256 ^ n := by
  have := ofLe_lt (slice bs o n)
  rwa [slice_length] at this

/-- The field at the front of a layout. -/
theorem leAt_front (n w : Nat) (rest : Bytes) : leAt (leBytes n w ++ rest) 0 w = n % 256 ^ w := by
  rw [leAt, slice_full _ _ _ (by simp), List.drop_zero, List.take_left' (leBytes_length n w), ofLe_leBytes]

/-- A field behind a part of known length. -/
theorem leAt_behind (pre rest : Bytes) (o w : Nat) : leAt (pre ++ rest) (pre.length + o) w = leAt rest o w := by
  rw [leAt, leAt, slice, slice, List.drop_append, List.drop_eq_nil_of_le (by omega), List.nil_append,
    show pre.length + o - pre.length = o by omega]

/-- A field behind the field at the front. -/
theorem leAt_skip (n w : Nat) (rest : Bytes) (o v : Nat) (h : w ≤ o) :
    leAt (leBytes n w ++ rest) o v = leAt rest (o - w) v := by
  have := leAt_behind (leBytes n w) rest (o - w) v
  rwa [leBytes_length, show w + (o - w) = o by omega] at this

/-! ### Data registers of an indirect command -/

theorem Chip.setInd_eq (k : Chip) (data : Nat → Fld) (n : Nat) (bs : Bytes) :
    k.setInd data n bs = { k with regs := (k.setInd data n bs).regs } := by
  unfold Chip.setInd
  induction n with
  | zero => rfl
  | succ n ih =>
    rw [List.range_succ, List.foldl_append, List.foldl_cons, List.foldl_nil, ih]
    rfl

theorem Chip.rd_setInd (k : Chip) {data : Nat → Fld} (hd : ∀ i j, i ≠ j → (data i).key ≠ (data j).key)
    (hw : ∀ i, (data i).width = 64) (bs : Bytes) {n i : Nat} (hi : i < n) :
    (k.setInd data n bs).rd (data i) = leAt bs (8 * i) 8 := by
  unfold Chip.setInd
  induction n with
  | zero => omega
  | succ n ih =>
    rw [List.range_succ, List.foldl_append, List.foldl_cons, List.foldl_nil]
    by_cases h : i = n
    · subst h
      have := leAt_lt bs (8 * i) 8
      rw [Chip.rd_wr_self, hw, Nat.mod_eq_of_lt (by omega)]
    · rw [Chip.rd_wr_ne _ _ (hd _ _ h)]
      exact ih (by omega)

theorem Chip.rd_setInd_ne (k : Chip) {data : Nat → Fld} (bs : Bytes) {n : Nat} {f : Fld}
    (hd : ∀ i < n, f.key ≠ (data i).key) : (k.setInd data n bs).rd f = k.rd f := by
  unfold Chip.setInd
  induction n with
  | zero => rfl
  | succ n ih =>
    rw [List.range_succ, List.foldl_append, List.foldl_cons, List.foldl_nil, Chip.rd_wr_ne _ _ (hd n (by omega))]
    exact ih fun i hi => hd i (by omega)

theorem foldr_words (bs : Bytes) (n : Nat) (rest : Bytes) (h : 8 * n ≤ bs.length) :
    (List.range n).foldr (fun i r => leBytes (leAt bs (8 * i) 8) 8 ++ r) rest = bs.take (8 * n) ++ rest := by
  induction n generalizing rest with
  | zero => simp
  | succ n ih =>
    rw [List.range_succ, List.foldr_append, List.foldr_cons, List.foldr_nil, ih _ (by omega), leBytes_leAt,
      slice_full _ _ _ (by omega), ← List.append_assoc]
    congr 1
    rw [show 8 * (n + 1) = 8 * n + 8 by omega, List.take_add]

/-- Reading data registers gives the bytes that their words spell. -/
theorem Chip.indBytes_eq (k : Chip) {data : Nat → Fld} {n : Nat} {bs : Bytes} (hl : bs.length = 8 * n)
    (h : ∀ i < n, k.rd (data i) = leAt bs (8 * i) 8) : k.indBytes data n = bs := by
  have hc : ∀ l : List Nat, (∀ i ∈ l, i < n) →
      l.foldr (fun i r => leBytes (k.rd (data i)) 8 ++ r) [] = l.foldr (fun i r => leBytes (leAt bs (8 * i) 8) 8 ++ r) [] := by
    intro l hl
    induction l with
    | nil => rfl
    | cons a l ih =>
      rw [List.foldr_cons, List.foldr_cons, h a (hl a (List.mem_cons_self ..)),
        ih fun i hi => hl i (List.mem_cons_of_mem _ hi)]
  rw [Chip.indBytes, hc _ fun i hi => List.mem_range.1 hi, foldr_words bs n [] (by omega), List.append_nil, ← hl,
    List.take_length]

theorem Chip.indDone_eq (k : Chip) (status go : Fld) (v : Nat) :
    k.indDone status go v = { k with regs := (k.indDone status go v).regs } := rfl

@[simp] theorem Chip.setInd_mem (k : Chip) (data : Nat → Fld) (n : Nat) (bs : Bytes) : (k.setInd data n bs).mem = k.mem := by
  rw [Chip.setInd_eq]
@[simp] theorem Chip.indDone_mem (k : Chip) (status go : Fld) (v : Nat) : (k.indDone status go v).mem = k.mem := rfl
@[simp] theorem Chip.setInd_re (k : Chip) (data : Nat → Fld) (n : Nat) (bs : Bytes) : (k.setInd data n bs).re = k.re := by
  rw [Chip.setInd_eq]
@[simp] theorem Chip.indDone_re (k : Chip) (status go : Fld) (v : Nat) : (k.indDone status go v).re = k.re := rfl
@[simp] theorem Chip.setInd_out (k : Chip) (data : Nat → Fld) (n : Nat) (bs : Bytes) : (k.setInd data n bs).out = k.out := by
  rw [Chip.setInd_eq]
@[simp] theorem Chip.indDone_out (k : Chip) (status go : Fld) (v : Nat) : (k.indDone status go v).out = k.out := rfl
@[simp] theorem Chip.setInd_hf (k : Chip) (data : Nat → Fld) (n : Nat) (bs : Bytes) : (k.setInd data n bs).hf = k.hf := by
  rw [Chip.setInd_eq]
@[simp] theorem Chip.indDone_hf (k : Chip) (status go : Fld) (v : Nat) : (k.indDone status go v).hf = k.hf := rfl
@[simp] theorem Chip.setInd_cn (k : Chip) (data : Nat → Fld) (n : Nat) (bs : Bytes) : (k.setInd data n bs).cn = k.cn := by
  rw [Chip.setInd_eq]
@[simp] theorem Chip.indDone_cn (k : Chip) (status go : Fld) (v : Nat) : (k.indDone status go v).cn = k.cn := rfl
@[simp] theorem Chip.setInd_mq (k : Chip) (data : Nat → Fld) (n : Nat) (bs : Bytes) : (k.setInd data n bs).mq = k.mq := by
  rw [Chip.setInd_eq]
@[simp] theorem Chip.indDone_mq (k : Chip) (status go : Fld) (v : Nat) : (k.indDone status go v).mq = k.mq := rfl
@[simp] theorem Chip.setInd_harts (k : Chip) (data : Nat → Fld) (n : Nat) (bs : Bytes) : (k.setInd data n bs).harts = k.harts := by
  rw [Chip.setInd_eq]
@[simp] theorem Chip.indDone_harts (k : Chip) (status go : Fld) (v : Nat) : (k.indDone status go v).harts = k.harts := rfl
@[simp] theorem Chip.setInd_qt (k : Chip) (data : Nat → Fld) (n : Nat) (bs : Bytes) : (k.setInd data n bs).qt = k.qt := by
  rw [Chip.setInd_eq]
@[simp] theorem Chip.indDone_qt (k : Chip) (status go : Fld) (v : Nat) : (k.indDone status go v).qt = k.qt := rfl

theorem Ring.bytes_length (r : Ring) : r.bytes.length = 64 := by simp [Ring.bytes, zeros]

theorem FnCtx.bytes_length (c : FnCtx) (n : Nat) : (c.bytes n).length = 64 := by simp [FnCtx.bytes, zeros]

theorem Window.bytes_length (w : Window) : w.bytes.length = 32 := by simp [Window.bytes, zeros]

theorem Target.bytes_length (t : Target) : t.bytes.length = 32 := by simp [Target.bytes, zeros]

theorem QPair.bytes_length (q : QPair) : q.bytes.length = 32 := by simp [QPair.bytes]

end Sys2Proof.Machine
end

