-- ==== Sys2Proof/Laws/Memory.lean ====
section
/-!
SUPPORT. What the memory operations do: a read after a write, the bytes left alone, and the canonical form that each keeps.
-/

namespace Sys2Proof.Machine

/-! ### The cells of a byte string -/

theorem mem_cells {a : Nat} {bs : Bytes} {c : Host.Cell} (h : c ∈ cells a bs) :
    a ≤ c.1 ∧ c.1 < a + bs.length ∧ c.2 ≠ 0 := by
  induction bs generalizing a with
  | nil => cases h
  | cons b bs ih =>
    rw [cells] at h
    split at h
    · have := ih h
      simp only [List.length_cons]
      exact ⟨by omega, by omega, this.2.2⟩
    · next hb =>
      rcases List.mem_cons.1 h with rfl | h
      · exact ⟨Nat.le_refl _, by simp, hb⟩
      · have := ih h
        simp only [List.length_cons]
        exact ⟨by omega, by omega, this.2.2⟩

theorem cells_rising (a : Nat) (bs : Bytes) : Tbl.rising (cells a bs) = true := by
  induction bs generalizing a with
  | nil => rfl
  | cons b bs ih =>
    rw [cells]
    split
    · exact ih _
    · exact (Tbl.rising_cons _ _).2 ⟨fun e he => by have := mem_cells he; show a < e.1; omega, ih _⟩

theorem find_none_of_ne {α : Type} {t : Tbl α} {x : Nat} (h : ∀ e ∈ t, e.1 ≠ x) : Tbl.find t x = none := by
  induction t with
  | nil => rfl
  | cons e t ih =>
    rw [Tbl.find, if_neg (Ne.symm (h e (List.mem_cons_self ..)))]
    exact ih fun e he => h e (List.mem_cons_of_mem _ he)

theorem find_append {α : Type} (t u : Tbl α) (x : Nat) : Tbl.find (t ++ u) x = (Tbl.find t x).or (Tbl.find u x) := by
  induction t with
  | nil => rfl
  | cons e t ih =>
    rw [List.cons_append, Tbl.find, Tbl.find]
    split
    · rfl
    · exact ih

theorem find_filter {α : Type} (p : Nat → Bool) (t : Tbl α) (x : Nat) :
    Tbl.find (t.filter fun e => p e.1) x = if p x then Tbl.find t x else none := by
  induction t with
  | nil => simp [Tbl.find]
  | cons e t ih =>
    rw [List.filter_cons]
    by_cases hx : x = e.1
    · subst hx
      by_cases hp : p e.1
      · simp [Tbl.find, hp]
      · simp only [hp, Bool.false_eq_true, if_false]
        rw [ih]
        simp [hp]
    · split
      · rw [Tbl.find, if_neg hx, ih, Tbl.find, if_neg hx]
      · rw [ih, Tbl.find, if_neg hx]

theorem get_cells (a : Nat) (bs : Bytes) (i : Nat) (h : i < bs.length) :
    Tbl.get (0 : Byte) (cells a bs) (a + i) = bs[i] := by
  induction bs generalizing a i with
  | nil => simp at h
  | cons b bs ih =>
    cases i with
    | zero =>
      rw [cells]
      split
      · next hb =>
        rw [Tbl.get, find_none_of_ne fun e he => by have := mem_cells he; omega]
        simpa using hb.symm
      · simp [Tbl.get, Tbl.find]
    | succ i =>
      have h' : i < bs.length := by simpa using h
      have e : a + (i + 1) = a + 1 + i := by omega
      rw [cells, e]
      split
      · rw [ih (a + 1) i h']
        rfl
      · rw [Tbl.get, Tbl.find, if_neg (by omega)]
        have := ih (a + 1) i h'
        rw [Tbl.get] at this
        rw [this]
        rfl

/-! ### `memPut` -/

/-- What a byte reads as after a byte string is put at `a`. -/
theorem byteAt_memPut (m : List Host.Cell) (a : Nat) (bs : Bytes) (x : Nat) :
    byteAt (memPut m a bs) x = if h : a ≤ x ∧ x < a + bs.length then bs[x - a] else byteAt m x := by
  have hf : Tbl.find (memPut m a bs) x =
      ((if x < a then Tbl.find m x else none).or (Tbl.find (cells a bs) x)).or
        (if a + bs.length ≤ x then Tbl.find m x else none) := by
    rw [memPut, find_append, find_append, find_filter (fun j => decide (j < a)),
      find_filter (fun j => decide (a + bs.length ≤ j))]
    simp only [decide_eq_true_eq]
  rw [byteAt, Tbl.get, hf]
  by_cases h : a ≤ x ∧ x < a + bs.length
  · have hc := get_cells a bs (x - a) (by omega)
    rw [Tbl.get, show a + (x - a) = x by omega] at hc
    rw [dif_pos h, if_neg (by omega), if_neg (by omega), ← hc]
    cases Tbl.find (cells a bs) x <;> rfl
  · have hn : Tbl.find (cells a bs) x = none := find_none_of_ne fun e he => by have := mem_cells he; omega
    rw [dif_neg h, hn, byteAt, Tbl.get]
    by_cases h1 : x < a
    · rw [if_pos h1, if_neg (by omega)]
      cases Tbl.find m x <;> rfl
    · rw [if_neg h1, if_pos (by omega)]
      rfl

theorem byteAt_memPut_out {m : List Host.Cell} {a : Nat} {bs : Bytes} {x : Nat} (h : x < a ∨ a + bs.length ≤ x) :
    byteAt (memPut m a bs) x = byteAt m x := by
  rw [byteAt_memPut, dif_neg (by omega)]

theorem byteAt_memPut_in {m : List Host.Cell} {a : Nat} {bs : Bytes} {i : Nat} (h : i < bs.length) :
    byteAt (memPut m a bs) (a + i) = bs[i] := by
  rw [byteAt_memPut, dif_pos ⟨by omega, by omega⟩]
  congr 1
  omega

theorem rising_append {α : Type} {t u : Tbl α} (ht : t.rising = true) (hu : u.rising = true)
    (h : ∀ e ∈ t, ∀ f ∈ u, e.1 < f.1) : Tbl.rising (t ++ u) = true := by
  induction t with
  | nil => exact hu
  | cons e t ih =>
    obtain ⟨ha, hr⟩ := (Tbl.rising_cons e t).1 ht
    refine (Tbl.rising_cons _ _).2 ⟨fun x hx => ?_, ih hr fun f hf => h f (List.mem_cons_of_mem _ hf)⟩
    rcases List.mem_append.1 hx with hx | hx
    · exact ha x hx
    · exact h e (List.mem_cons_self ..) x hx

/-- Putting a byte string keeps the canonical form of memory. -/
theorem memPut_wf (m : List Host.Cell) (a : Nat) (bs : Bytes) (h : Memory.wf m = true) :
    Memory.wf (memPut m a bs) = true := by
  obtain ⟨hr, hz⟩ := (Tbl.wf_iff _ _).1 h
  refine (Tbl.wf_iff _ _).2 ⟨?_, ?_⟩
  · refine rising_append (rising_append (Tbl.rising_filter _ _ hr) (cells_rising a bs) ?_) (Tbl.rising_filter _ _ hr) ?_
    · intro e he f hf
      have h1 := (List.mem_filter.1 he).2
      have h2 := mem_cells hf
      simp only [decide_eq_true_eq] at h1
      omega
    · intro e he f hf
      have h2 := (List.mem_filter.1 hf).2
      simp only [decide_eq_true_eq] at h2
      rcases List.mem_append.1 he with he | he
      · have h1 := (List.mem_filter.1 he).2
        simp only [decide_eq_true_eq] at h1
        omega
      · have h1 := mem_cells he
        omega
  · intro e he
    rcases List.mem_append.1 he with he | he
    · rcases List.mem_append.1 he with he | he
      · exact hz e (List.mem_filter.1 he).1
      · exact (mem_cells he).2.2
    · exact hz e (List.mem_filter.1 he).1

/-! ### `recallLine` and `store` -/

theorem Chip.recallLine_mem_wf (k : Chip) (l : Nat) (h : Memory.wf k.mem = true) : Memory.wf (k.recallLine l).mem = true := by
  unfold Chip.recallLine
  simp only [Chip.countLocked, Chip.loseReservations, Chip.bump_mem]
  split
  · exact memPut_wf _ _ _ h
  · exact h

theorem Chip.foldl_recallLine_mem_wf (ls : List Nat) (k : Chip) (h : Memory.wf k.mem = true) :
    Memory.wf (ls.foldl Chip.recallLine k).mem = true := by
  induction ls generalizing k with
  | nil => exact h
  | cons l ls ih => exact ih _ (k.recallLine_mem_wf l h)

/-- A store by an agent without a cache keeps the canonical form of memory. -/
theorem Chip.store_mem_wf (k : Chip) (a : Nat) (bs : Bytes) (h : Memory.wf k.mem = true) :
    Memory.wf (k.store a bs).mem = true := by
  unfold Chip.store
  split
  · exact h
  · exact memPut_wf _ _ _ (Chip.foldl_recallLine_mem_wf _ _ h)

end Sys2Proof.Machine
end

