-- ==== Sys2Proof/Laws/Lines.lean ====
section
/-!
SUPPORT. The operations that change whole lines of memory keep its canonical form.
-/

namespace Sys2Proof.Machine

/-- Dirty data written at its home keeps the canonical form of memory. -/
theorem Chip.homePut_mem_wf (k : Chip) (l : Nat) (data : Option Bytes) (poison : Bool) (h : Memory.wf k.mem = true) :
    Memory.wf (k.homePut l data poison).mem = true := by
  unfold Chip.homePut
  split
  · exact memPut_wf _ _ _ h
  · exact h

/-- A masked write merged at its home keeps the canonical form of memory. -/
theorem Chip.mergeLine_mem_wf (k : Chip) (l : Nat) (bs : Bytes) (mask : Nat) (poison : Bool) (h : Memory.wf k.mem = true) :
    Memory.wf (k.mergeLine l bs mask poison).mem = true := memPut_wf _ _ _ h

/-- A line of free bytes keeps the canonical form of memory. -/
theorem Chip.readDoubtful_mem_wf (k : Chip) (l : Nat) (h : Memory.wf k.mem = true) :
    Memory.wf (k.readDoubtful l).mem = true := memPut_wf _ _ _ h

theorem Chip.emitAll_mem (os : List Out) (k : Chip) : (k.emitAll os).mem = k.mem := by
  unfold Chip.emitAll
  induction os generalizing k with
  | nil => rfl
  | cons o os ih => rw [List.foldl_cons, ih]; rfl

theorem Chip.drainWrites_mem (k : Chip) (c keep : Nat) : (k.drainWrites c keep).mem = k.mem :=
  Chip.emitAll_mem _ _

theorem Chip.count_mem (k : Chip) (set i j n : Nat) : (k.count set i j n).mem = k.mem := by
  unfold Chip.count
  split <;> rfl

theorem Chip.wakeChannel_mem (k : Chip) (c : Nat) : (k.wakeChannel c).mem = k.mem := by
  unfold Chip.wakeChannel
  split <;> rfl

theorem Chip.queueWrite_mem (k : Chip) (c line : Nat) : (k.queueWrite c line).mem = k.mem := by
  unfold Chip.queueWrite
  rw [Chip.drainWrites_mem]
  exact (Chip.count_mem _ _ _ _ _).trans (Chip.wakeChannel_mem _ _)

/-- A line written to DRAM keeps the canonical form of memory. -/
theorem Chip.dramWrite_mem_wf (k : Chip) (c line : Nat) (data : Bytes) (poison : Bool) (h : Memory.wf k.mem = true) :
    Memory.wf (k.dramWrite c line data poison).mem = true := by
  unfold Chip.dramWrite
  simp only
  by_cases h1 : (k.chFenced c && (!k.on (MC_CTRL.MIRROR 0) || k.chFenced (c ^^^ 1))) = true
  · rw [if_pos h1]
    exact h
  · rw [if_neg h1]
    have put : ∀ (k' : Chip) (b : Bool), Memory.wf k'.mem = true →
        Memory.wf (if b = true then k' else k'.queueWrite c line).mem = true := by
      intro k' b h'
      cases b
      · simpa [Chip.queueWrite_mem] using h'
      · exact h'
    exact put _ _ (memPut_wf _ _ _ h)

end Sys2Proof.Machine
end

