-- ==== Sys2Proof/Laws/Log.lean ====
section
/-!
SUPPORT. What a store by an agent without a cache and the report of an event can do: the parts of the machine that they leave as
they were.
-/

namespace Sys2Proof.Machine

/-- `k'` differs from `k` only where a store and the report of an event reach. -/
def Chip.Reported (k k' : Chip) : Prop :=
  k' = { k with
    regs := k'.regs, mem := k'.mem, poison := k'.poison, out := k'.out, harts := k'.harts, coh := k'.coh, gn := k'.gn }

theorem Chip.Reported.refl (k : Chip) : k.Reported k := rfl

theorem Chip.Reported.trans {k k' k'' : Chip} (h : k.Reported k') (h' : k'.Reported k'') : k.Reported k'' := by
  rw [Chip.Reported] at h h' ⊢
  rw [h', h]

theorem Chip.recallLine_reported (k : Chip) (l : Nat) : k.Reported (k.recallLine l) := by
  unfold Chip.recallLine
  split <;> rfl

theorem Chip.foldl_recallLine_reported (ls : List Nat) (k : Chip) : k.Reported (ls.foldl Chip.recallLine k) := by
  induction ls generalizing k with
  | nil => rfl
  | cons l ls ih => exact (k.recallLine_reported l).trans (ih _)

theorem Chip.store_reported (k : Chip) (a : Nat) (bs : Bytes) : k.Reported (k.store a bs) := by
  unfold Chip.store
  split
  · rfl
  · exact (Chip.foldl_recallLine_reported _ k).trans rfl

theorem Chip.errorRing_reported (k : Chip) (seq cls : Nat) (r : Bytes) : k.Reported (k.errorRing seq cls r) := by
  have hp : k.Reported (k.ringPut (k.ringSlot seq) r) := by
    unfold Chip.ringPut
    split
    · exact k.store_reported _ _
    · rfl
  have hs : ∀ k : Chip, k.Reported (k.ringSignal cls) := by
    intro k
    unfold Chip.ringSignal
    split <;> rfl
  unfold Chip.errorRing
  split
  · rfl
  · split
    · rfl
    · exact hp.trans (hs _)

theorem Chip.logNew_reported (k : Chip) (e : Ev) : k.Reported (k.logNew e) := by
  have h : ∀ (g : Gunel) (r : Bytes), k.Reported (Chip.emit { k with gn := g } (.record r)) := fun _ _ => rfl
  unfold Chip.logNew
  exact (h _ _).trans (Chip.errorRing_reported _ _ _ _)

theorem Chip.countLife_reported (k : Chip) (e : Ev) : k.Reported (k.countLife e) := by
  unfold Chip.countLife
  split
  · rfl
  · split <;> rfl

/-- Reporting an event reaches registers, memory with its marks, messages, reservations, copies and Gunel's own record. -/
theorem Chip.log_reported (k : Chip) (e : Ev) : k.Reported (k.log e) := by
  refine (k.countLife_reported e).trans ?_
  unfold Chip.log
  dsimp only
  split
  · split
    · rfl
    · exact Chip.logNew_reported _ e
  · exact Chip.logNew_reported _ e

@[simp] theorem Chip.log_free (k : Chip) (e : Ev) : (k.log e).free = k.free := by rw [Chip.log_reported k e]
@[simp] theorem Chip.log_time (k : Chip) (e : Ev) : (k.log e).time = k.time := by rw [Chip.log_reported k e]
@[simp] theorem Chip.log_beat (k : Chip) (e : Ev) : (k.log e).beat = k.beat := by rw [Chip.log_reported k e]
@[simp] theorem Chip.log_re (k : Chip) (e : Ev) : (k.log e).re = k.re := by rw [Chip.log_reported k e]
@[simp] theorem Chip.log_eng (k : Chip) (e : Ev) : (k.log e).eng = k.eng := by rw [Chip.log_reported k e]
@[simp] theorem Chip.log_acc (k : Chip) (e : Ev) : (k.log e).acc = k.acc := by rw [Chip.log_reported k e]
@[simp] theorem Chip.log_hf (k : Chip) (e : Ev) : (k.log e).hf = k.hf := by rw [Chip.log_reported k e]
@[simp] theorem Chip.log_cn (k : Chip) (e : Ev) : (k.log e).cn = k.cn := by rw [Chip.log_reported k e]
@[simp] theorem Chip.log_mq (k : Chip) (e : Ev) : (k.log e).mq = k.mq := by rw [Chip.log_reported k e]
@[simp] theorem Chip.log_tiles (k : Chip) (e : Ev) : (k.log e).tiles = k.tiles := by rw [Chip.log_reported k e]
@[simp] theorem Chip.log_noc (k : Chip) (e : Ev) : (k.log e).noc = k.noc := by rw [Chip.log_reported k e]
@[simp] theorem Chip.log_bl (k : Chip) (e : Ev) : (k.log e).bl = k.bl := by rw [Chip.log_reported k e]
@[simp] theorem Chip.log_mc (k : Chip) (e : Ev) : (k.log e).mc = k.mc := by rw [Chip.log_reported k e]
@[simp] theorem Chip.log_qt (k : Chip) (e : Ev) : (k.log e).qt = k.qt := by rw [Chip.log_reported k e]
@[simp] theorem Chip.log_flt (k : Chip) (e : Ev) : (k.log e).flt = k.flt := by rw [Chip.log_reported k e]
@[simp] theorem Chip.log_ws (k : Chip) (e : Ev) : (k.log e).ws = k.ws := by rw [Chip.log_reported k e]
@[simp] theorem Chip.log_pwr (k : Chip) (e : Ev) : (k.log e).pwr = k.pwr := by rw [Chip.log_reported k e]
@[simp] theorem Chip.log_start (k : Chip) (e : Ev) : (k.log e).start = k.start := by rw [Chip.log_reported k e]
@[simp] theorem Chip.log_fl (k : Chip) (e : Ev) : (k.log e).fl = k.fl := by rw [Chip.log_reported k e]
@[simp] theorem Chip.log_pm (k : Chip) (e : Ev) : (k.log e).pm = k.pm := by rw [Chip.log_reported k e]

@[simp] theorem Chip.store_free (k : Chip) (a : Nat) (bs : Bytes) : (k.store a bs).free = k.free := by rw [Chip.store_reported k a bs]
@[simp] theorem Chip.store_time (k : Chip) (a : Nat) (bs : Bytes) : (k.store a bs).time = k.time := by rw [Chip.store_reported k a bs]
@[simp] theorem Chip.store_beat (k : Chip) (a : Nat) (bs : Bytes) : (k.store a bs).beat = k.beat := by rw [Chip.store_reported k a bs]
@[simp] theorem Chip.store_re (k : Chip) (a : Nat) (bs : Bytes) : (k.store a bs).re = k.re := by rw [Chip.store_reported k a bs]
@[simp] theorem Chip.store_eng (k : Chip) (a : Nat) (bs : Bytes) : (k.store a bs).eng = k.eng := by rw [Chip.store_reported k a bs]
@[simp] theorem Chip.store_acc (k : Chip) (a : Nat) (bs : Bytes) : (k.store a bs).acc = k.acc := by rw [Chip.store_reported k a bs]
@[simp] theorem Chip.store_hf (k : Chip) (a : Nat) (bs : Bytes) : (k.store a bs).hf = k.hf := by rw [Chip.store_reported k a bs]
@[simp] theorem Chip.store_cn (k : Chip) (a : Nat) (bs : Bytes) : (k.store a bs).cn = k.cn := by rw [Chip.store_reported k a bs]
@[simp] theorem Chip.store_mq (k : Chip) (a : Nat) (bs : Bytes) : (k.store a bs).mq = k.mq := by rw [Chip.store_reported k a bs]
@[simp] theorem Chip.store_tiles (k : Chip) (a : Nat) (bs : Bytes) : (k.store a bs).tiles = k.tiles := by rw [Chip.store_reported k a bs]
@[simp] theorem Chip.store_noc (k : Chip) (a : Nat) (bs : Bytes) : (k.store a bs).noc = k.noc := by rw [Chip.store_reported k a bs]
@[simp] theorem Chip.store_bl (k : Chip) (a : Nat) (bs : Bytes) : (k.store a bs).bl = k.bl := by rw [Chip.store_reported k a bs]
@[simp] theorem Chip.store_mc (k : Chip) (a : Nat) (bs : Bytes) : (k.store a bs).mc = k.mc := by rw [Chip.store_reported k a bs]
@[simp] theorem Chip.store_qt (k : Chip) (a : Nat) (bs : Bytes) : (k.store a bs).qt = k.qt := by rw [Chip.store_reported k a bs]
@[simp] theorem Chip.store_flt (k : Chip) (a : Nat) (bs : Bytes) : (k.store a bs).flt = k.flt := by rw [Chip.store_reported k a bs]
@[simp] theorem Chip.store_ws (k : Chip) (a : Nat) (bs : Bytes) : (k.store a bs).ws = k.ws := by rw [Chip.store_reported k a bs]
@[simp] theorem Chip.store_pwr (k : Chip) (a : Nat) (bs : Bytes) : (k.store a bs).pwr = k.pwr := by rw [Chip.store_reported k a bs]
@[simp] theorem Chip.store_start (k : Chip) (a : Nat) (bs : Bytes) : (k.store a bs).start = k.start := by rw [Chip.store_reported k a bs]
@[simp] theorem Chip.store_fl (k : Chip) (a : Nat) (bs : Bytes) : (k.store a bs).fl = k.fl := by rw [Chip.store_reported k a bs]
@[simp] theorem Chip.store_pm (k : Chip) (a : Nat) (bs : Bytes) : (k.store a bs).pm = k.pm := by rw [Chip.store_reported k a bs]

/-! ### Registers -/

theorem Chip.recallLine_rd (k : Chip) (l : Nat) {f : Fld} (h : f.key ≠ SC_LWI.COUNT.key) :
    (k.recallLine l).rd f = k.rd f := by
  have hb : ∀ (k : Chip) (d : Nat), (k.bump SC_LWI.COUNT d).rd f = k.rd f := fun k d => k.rd_wr_ne _ h
  unfold Chip.recallLine
  split <;> exact hb _ _

theorem Chip.foldl_recallLine_rd (ls : List Nat) (k : Chip) {f : Fld} (h : f.key ≠ SC_LWI.COUNT.key) :
    (ls.foldl Chip.recallLine k).rd f = k.rd f := by
  induction ls generalizing k with
  | nil => rfl
  | cons l ls ih => rw [List.foldl_cons, ih, Chip.recallLine_rd k l h]

/-- A store changes one register, the count of locked lines that it invalidates (R285). -/
theorem Chip.store_rd (k : Chip) (a : Nat) (bs : Bytes) {f : Fld} (h : f.key ≠ SC_LWI.COUNT.key) :
    (k.store a bs).rd f = k.rd f := by
  unfold Chip.store
  split
  · rfl
  · exact (Chip.rd_congr rfl f).trans (Chip.foldl_recallLine_rd _ k h)

theorem Chip.errorRing_rd (k : Chip) (seq cls : Nat) (r : Bytes) {f : Fld} (h : f.key ∉ reportFields.map Fld.key) :
    (k.errorRing seq cls r).rd f = k.rd f := by
  simp only [reportFields, List.map_cons, List.map_nil, List.mem_cons, List.not_mem_nil, or_false, not_or] at h
  obtain ⟨h1, h2, h3, h4, h5⟩ := h
  have hp : (k.ringPut (k.ringSlot seq) r).rd f = k.rd f := by
    unfold Chip.ringPut
    split
    · exact k.store_rd _ _ h5
    · rfl
  have hs : ∀ k : Chip, (k.ringSignal cls).rd f = k.rd f := by
    intro k
    unfold Chip.ringSignal
    split <;> rfl
  unfold Chip.errorRing
  split
  · rfl
  · split
    · rw [Chip.ringRefused, Chip.rd_wr_ne _ _ h4, Chip.rd_wr_ne _ _ h3, Chip.rd_wr_ne _ _ h2, Chip.raise,
        Chip.rd_wr_ne _ _ h1]
    · rw [hs, hp]

/-- Reporting an event leaves every register field but `reportFields` as it was. -/
theorem Chip.log_rd (k : Chip) (e : Ev) {f : Fld} (h : f.key ∉ reportFields.map Fld.key) : (k.log e).rd f = k.rd f := by
  have hc : (k.countLife e).rd f = k.rd f := by
    unfold Chip.countLife
    split
    · rfl
    · split <;> rfl
  have hn : ∀ k : Chip, (k.logNew e).rd f = k.rd f := fun k => by
    rw [Chip.logNew, Chip.errorRing_rd _ _ _ _ h]
    rfl
  unfold Chip.log
  dsimp only
  split
  · split
    · exact hc
    · rw [hn, hc]
  · rw [hn, hc]

/-! ### Canonical memory -/

theorem Chip.errorRing_mem_wf (k : Chip) (seq cls : Nat) (r : Bytes) (h : Memory.wf k.mem = true) :
    Memory.wf (k.errorRing seq cls r).mem = true := by
  have hp : Memory.wf (k.ringPut (k.ringSlot seq) r).mem = true := by
    unfold Chip.ringPut
    split
    · exact k.store_mem_wf _ _ h
    · exact h
  have hs : ∀ k : Chip, (k.ringSignal cls).mem = k.mem := by
    intro k
    unfold Chip.ringSignal
    split <;> rfl
  unfold Chip.errorRing
  split
  · exact h
  · split
    · exact h
    · rw [hs]
      exact hp

theorem Chip.log_mem_wf (k : Chip) (e : Ev) (h : Memory.wf k.mem = true) : Memory.wf (k.log e).mem = true := by
  have hc : (k.countLife e).mem = k.mem := by
    unfold Chip.countLife
    split
    · rfl
    · split <;> rfl
  have hn : Memory.wf ((k.countLife e).logNew e).mem = true := by
    rw [Chip.logNew]
    apply Chip.errorRing_mem_wf
    rw [Chip.emit_mem]
    rw [← hc] at h
    exact h
  rw [← hc] at h
  unfold Chip.log
  dsimp only
  split
  · split
    · exact h
    · exact hn
  · exact hn

end Sys2Proof.Machine
end

