-- ==== Sys2Proof/WellFormed.lean ====
section
/-!
DEFINITION. Well-formed commands: every operand names something that the package has and fits the width its rule gives.
-/

namespace Sys2Proof

/-- The addresses of the package (R7, R565). -/
def paLimit : Nat := 2 ^ 52

/-- The numbers of 64-byte lines of the physical address space. -/
def lineLimit : Nat := 2 ^ 46

/-- The requester of an access (R443, R468). -/
def By.limits (b : By) : List (Nat × Nat) := [(b.source, 16), (b.id, 65536), (b.w, 2)]

/-- An access to a register page (R11). -/
def Access.limits (a : Access) : List (Nat × Nat) := [(a.addr, paLimit), (a.size, 17), (a.value, 2 ^ 64)] ++ a.who.limits

/-- The fields of a Conos frame (R176, R177). -/
def Frame.limits (f : Frame) : List (Nat × Nat) :=
  [(f.kind, 8), (f.vc, 4), (f.op, 16), (f.linkSeq, 65536), (f.linkAck, 65536), (f.dst, 16384), (f.src, 16384),
   (f.window, 1024), (f.ttl, 256), (f.creditVc, 4), (f.credit, 64), (f.flowSeq, 2 ^ 32), (f.arg, 2 ^ 32),
   (f.body.length, 225)]

/-- The fields of a flit (R318, R324). -/
def Flit.limits (f : Flit) : List (Nat × Nat) := [(f.net, 4), (f.vc, 4), (f.src, 4096), (f.dst, 4096), (f.seq, 1024)]

/-- The fields of IDENT (R347). -/
def SbIdent.limits (m : SbIdent) : List (Nat × Nat) :=
  [(m.genMax, 256), (m.genMin, 256), (m.index, 256), (m.port, 256), (m.width, 256), (m.hash, 2 ^ 32)]

/-- A coherence request (R299): 12 is an agent without a cache. -/
def CohMsg.limits (m : CohMsg) : List (Nat × Nat) := [(m.die, 13), (m.line, lineLimit)] ++ m.who.limits

/-- One error of a DRAM access (R375). -/
def DevErr.limits (e : DevErr) : List (Nat × Nat) := [(e.line, lineLimit), (e.rank, 4), (e.sub, 2), (e.device, 10)]

/-- A change of the configuration space of a host function. -/
def FnChange.limits : FnChange → List (Nat × Nat)
  | .vfEnable _ => []
  | .numVfs n => [(n, 256)]
  | .busMaster fn _ => [(fn, 256)]
  | .powerState fn _ => [(fn, 256)]
  | .msixEnable fn _ => [(fn, 256)]
  | .functionMask fn _ => [(fn, 256)]
  | .vectorMask fn v => [(fn, 256), (v, 2048)]
  | .vectorEntry fn v a d => [(fn, 256), (v, 2048), (a, 2 ^ 64), (d, 2 ^ 32)]
  | .readRequestSize fn c => [(fn, 256), (c, 8)]
  | .tenBitTags fn _ => [(fn, 256)]
  | .linkControl a => [(a, 16)]

/-- The target of a stash (R277, R314). -/
def Stash.limits : Stash → List (Nat × Nat)
  | .hart h => [(h, 288)]
  | .die d => [(d, 12)]

@[inherit_doc Stash.limits] def StashWay.limits : StashWay → List (Nat × Nat)
  | .l2 h => [(h, 288)]
  | .open => []
  | .staging e => [(e, 24)]

/-- The unit of a bridge (R330). -/
def BridgeOf.limits : BridgeOf → List (Nat × Nat)
  | .port p => [(p, 24)]
  | .tile t => [(t, 336)]
  | .other => []

/-- What Gunel finds at a start (R511 to R517): the lists have one entry per slot, die, tile or engine. -/
def StartFacts.limits (f : StartFacts) : List (Nat × Nat) :=
  [(f.gunelGood.length, 3), (f.secureGood.length, 3), (f.dieGood.length, 13), (f.tileGood.length, 337),
   (f.engineGood.length, 25), (f.dimms, 3), (f.ranks, 5), (f.gib, 1025), (f.measurement.length, 49), (f.secureTop, 2 ^ 26)]

/-- The values of the operands of a command, each with the first value too large for it. -/
def Instr.limits : Instr → List (Nat × Nat)
  | .beatBoundary _ temps slacks queues => [(temps.length, 113), (slacks.length, 337), (queues.length, 17)]
  | .phaseBoundary _ temps slacks queues => [(temps.length, 113), (slacks.length, 337), (queues.length, 17)]
  | .windowBoundary => []
  | .beatTokenReceived die _ count len inst check _ => [(die, 12), (count, 2 ^ 64), (len, 2), (inst, 2), (check, 256)]
  | .tokenMissing die => [(die, 12)]
  | .beatMasterSelfCheckError b => [(b, 2)]
  | .cmpMismatch => []
  | .registerWrite acc => acc.limits
  | .workPi _ group off width value => [(group, 256), (off, 4096), (width, 9), (value, 2 ^ 64)]
  | .cplCi _ group off width value => [(group, 256), (off, 4096), (width, 9), (value, 2 ^ 64)]
  | .descriptorFetch ring => [(ring, 8192)]
  | .descriptorReadDone ring => [(ring, 8192)]
  | .paramBlockReadDone job => [(job, 16384)]
  | .segmentFinish engine => [(engine, 24)]
  | .coalBeatsExpiry ring => [(ring, 8192)]
  | .msixVectorUnmask fn vector => [(fn, 256), (vector, 2048)]
  | .reIndRead target index => [(target, 2), (index, 8192)]
  | .reIndWriteRing index => [(index, 8192)]
  | .reIndWriteFunction index => [(index, 8192)]
  | .engineReadData engine _ => [(engine, 24)]
  | .accWr engine => [(engine, 24)]
  | .close engine => [(engine, 24)]
  | .signRequest engine => [(engine, 24)]
  | .signatureReturn engine => [(engine, 24)]
  | .accumRegionAllocate => []
  | .accumRestoreDone job => [(job, 16384)]
  | .accumLineUncorrectable job => [(job, 16384)]
  | .cnPortEnable port => [(port, 4)]
  | .conosTrainingStepDone port _ => [(port, 4)]
  | .conosTrainingRetryTimer port => [(port, 4)]
  | .ident port pkg peerPort version _ => [(port, 4), (pkg, 16384), (peerPort, 4), (version, 256)]
  | .conosFrameReceived port frame _ => (port, 4) :: frame.limits
  | .linkNak port ack => [(port, 4), (ack, 65536)]
  | .linkAckTimeout port => [(port, 4)]
  | .write op => op.limits
  | .readReq op => op.limits
  | .readRsp op => op.limits
  | .push op => op.limits
  | .pushAck op => op.limits
  | .opNak op => op.limits
  | .flowAck peer vc seq => [(peer, 16384), (vc, 2), (seq, 2 ^ 32)]
  | .flowNak peer vc seq => [(peer, 16384), (vc, 2), (seq, 2 ^ 32)]
  | .flowAckTimeout peer vc => [(peer, 16384), (vc, 2)]
  | .alignReq port src t1 t2 t3 => [(port, 4), (src, 16384), (t1, 2 ^ 32), (t2, 2 ^ 32), (t3, 2 ^ 32)]
  | .alignRsp t1 t2 t3 t4 len => [(t1, 2 ^ 32), (t2, 2 ^ 32), (t3, 2 ^ 32), (t4, 2 ^ 32), (len, 2)]
  | .alignIntervalExpiry now => [(now, 2 ^ 32)]
  | .conosApertureWrite addr _ who => (addr, paLimit) :: who.limits
  | .conosApertureRead addr len who => (addr, paLimit) :: (len, 4097) :: who.limits
  | .readFailed tag => [(tag, 65536)]
  | .cnWindowWrite index => [(index, 1024)]
  | .cnRouteWrite index => [(index, 16384)]
  | .cnIndRead target index => [(target, 2), (index, 16384)]
  | .winDrained window => [(window, 1024)]
  | .pushFullWaitExpiry tag => [(tag, 2048)]
  | .pushAckTimeout tag => [(tag, 2048)]
  | .cnWakeSend mask => [(mask, 16)]
  | .wakePatternEnd port => [(port, 4)]
  | .wakePatternDetected port => [(port, 4)]
  | .conosLaneLoss port => [(port, 4)]
  | .flr fn => [(fn, 256)]
  | .functionEnableChange change => change.limits
  | .endpointReset => []
  | .hostReadCompletion fn tag off bytes _ => [(fn, 256), (tag, 1024), (off, 4096), (bytes.length, 4097)]
  | .completionTimeout fn tag => [(fn, 256), (tag, 1024)]
  | .barWriteOutside fn off => [(fn, 256), (off, 2 ^ 18)]
  | .completionTimeoutValueWrite fn enc => [(fn, 256), (enc, 16)]
  | .l1IdleExpiry => []
  | .l0sIdleExpiry => []
  | .spdmRequest code => [(code, 256)]
  | .mqTargetWrite index => [(index, 4096)]
  | .mqQpWrite index => [(index, 8192)]
  | .mqIndRead target index => [(target, 2), (index, 8192)]
  | .driveCompletionCapture qp cid status result => [(qp, 8192), (cid, 65536), (status, 65536), (result, 2 ^ 64)]
  | .passSqDoorbell qp tail => [(qp, 8192), (tail, 2 ^ 32)]
  | .passCqDoorbell qp head => [(qp, 8192), (head, 2 ^ 32)]
  | .mediaCommandTimeout _ => []
  | .driveRemoved port => [(port, 32)]
  | .driveAdded port => [(port, 32)]
  | .qfworldWrite hart w pw => [(hart, 288), (w, 2), (pw, 2)]
  | .qfsillageWrite hart _ value => [(hart, 288), (value, 2 ^ 64)]
  | .qfoppWrite hart value => [(hart, 288), (value, 2 ^ 64)]
  | .customCsrIllegal hart csr _ _ value => [(hart, 288), (csr, 4096), (value, 2 ^ 64)]
  | .trapToMMode hart cause mepc mpp _ => [(hart, 288), (cause, 2 ^ 64), (mepc, 2 ^ 64), (mpp, 4)]
  | .mret hart => [(hart, 288)]
  | .hartAccess hart _ addr size _ => [(hart, 288), (addr, paLimit), (size, 65)]
  | .coreFault hart => [(hart, 288)]
  | .hartHangTimeout hart => [(hart, 288)]
  | .takeoverComplete hart => [(hart, 288)]
  | .migrationComplete hart => [(hart, 288)]
  | .msiDelivery addr word who width => (addr, paLimit) :: (word, 2 ^ 32) :: (width, 9) :: who.limits
  | .stagingWayEmpty engine => [(engine, 24)]
  | .accumWaysLocked => []
  | .cacheUncorrectable _ unit _ line => [(unit, 336), (line, lineLimit)]
  | .rdShared msg => msg.limits
  | .rdUnique msg => msg.limits
  | .own msg _ => msg.limits
  | .rdOnce msg => msg.limits
  | .wrLine msg stash => msg.limits ++ (stash.map Stash.limits).getD []
  | .evict msg _ => msg.limits
  | .writeback msg _ => msg.limits
  | .amo msg _ size offset operand => msg.limits ++ [(size, 17), (offset, 64), (operand, 2 ^ 128)]
  | .cmoClean msg => msg.limits
  | .cmoFlush msg => msg.limits
  | .cmoInval msg => msg.limits
  | .snpShared die line => [(die, 12), (line, lineLimit)]
  | .snpUnique die line => [(die, 12), (line, lineLimit)]
  | .snpOnce die line => [(die, 12), (line, lineLimit)]
  | .snpInv die line => [(die, 12), (line, lineLimit)]
  | .snpClean die line => [(die, 12), (line, lineLimit)]
  | .snpStash die line way => [(die, 12), (line, lineLimit)] ++ way.limits
  | .snpResp die line => [(die, 12), (line, lineLimit)]
  | .snpData die line => [(die, 12), (line, lineLimit)]
  | .stashAccept die line => [(die, 12), (line, lineLimit)]
  | .stashDecline die line => [(die, 12), (line, lineLimit)]
  | .comp die line => [(die, 12), (line, lineLimit)]
  | .evcAck die line => [(die, 12), (line, lineLimit)]
  | .compAck die line => [(die, 12), (line, lineLimit)]
  | .data die line victim => [(die, 12), (line, lineLimit)] ++ victim.toList.map fun v => (v, lineLimit)
  | .wbData die line bytes _ => [(die, 12), (line, lineLimit), (bytes.length, 65)]
  | .wrData line bytes mask _ => [(line, lineLimit), (bytes.length, 65), (mask, 2 ^ 64)]
  | .lrSnoopHoldExpiry die line => [(die, 12), (line, lineLimit)]
  | .directoryEntryUncorrectable sector => [(sector, lineLimit / 8)]
  | .directoryWalkComplete die => [(die, 12)]
  | .flitReceived die stop net vc flit _ => (die, 13) :: (stop, 256) :: (net, 4) :: (vc, 4) :: flit.limits
  | .flitDeliver die stop net src => [(die, 13), (stop, 256), (net, 4), (src, 4096)]
  | .nocLinkFail die link => [(die, 13), (link, 256)]
  | .routerFenced die stop => [(die, 13), (stop, 256)]
  | .routeCompileDone die => [(die, 13)]
  | .routeTableInstall die => [(die, 13)]
  | .sbIdent port msg => (port, 24) :: msg.limits
  | .mapAnnounce port width map wh => [(port, 24), (width, 3), (map.length, 34), (wh, 2)]
  | .mapAdopt port hash => [(port, 24), (hash, 2 ^ 32)]
  | .mapReject port wires => (port, 24) :: wires.map fun w => (w, 512)
  | .wireReport port dir wire errs => [(port, 24), (dir, 2), (wire, 272), (errs, 65536)]
  | .testDone port _ => [(port, 24)]
  | .creditInit port => [(port, 24)]
  | .sbMsgTimeout port => [(port, 24)]
  | .bilumFlitReceived port dir grp _ _ cls => [(port, 24), (dir, 2), (grp, 4), (cls, 8)]
  | .bilumReplayTimeout port dir grp => [(port, 24), (dir, 2), (grp, 4)]
  | .creditFrame port dir word => [(port, 24), (dir, 2), (word, 2 ^ 32)]
  | .bilumRecalSlot port delay => [(port, 24), (delay, 65536)]
  | .swapLimitReached port dir wire => [(port, 24), (dir, 2), (wire, 272)]
  | .blockLost port dir block => [(port, 24), (dir, 2), (block, 8)]
  | .bilumPortFail port => [(port, 24)]
  | .bilumRetrainTimer port => [(port, 24)]
  | .retrain port => [(port, 24)]
  | .clkSilent die => [(die, 12)]
  | .refreshDue ch rank _ => [(ch, 16), (rank, 4)]
  | .mr4Read ch rank _ => [(ch, 16), (rank, 4)]
  | .dramRecalSlot ch => [(ch, 16)]
  | .mcRateWrite ch value => [(ch, 16), (value, 4)]
  | .rateChangeComplete failed => failed.map fun c => (c, 16)
  | .dramRead ch line errs partner _ =>
    (ch, 16) :: (line, lineLimit) :: (errs.flatMap DevErr.limits ++ partner.flatMap DevErr.limits)
  | .dramWrite ch line bytes _ => [(ch, 16), (line, lineLimit), (bytes.length, 65)]
  | .mergeBufferWrite ch line bytes mask => [(ch, 16), (line, lineLimit), (bytes.length, 65), (mask, 2 ^ 64)]
  | .channelFence ch => [(ch, 16)]
  | .scrubBurst ch errs => (ch, 16) :: errs.flatMap DevErr.limits
  | .qtReserveWrite value => [(value, 2 ^ 64)]
  | .stopSet => []
  | .stopClear => []
  | .arbiterCycle inst port reqs _ _ _ => (inst, 4) :: (port, 256) :: reqs.map fun r => (r, 8192)
  | .qtIndRead target index => [(target, 2), (index, 8192)]
  | .qtIndWrite target index => [(target, 2), (index, 8192)]
  | .haPairMismatch pair => [(pair, 34)]
  | .reInstanceFailover inst _ => [(inst, 2)]
  | .engineSramUncorrectable engine => [(engine, 24)]
  | .selfTestComplete unitType unit _ => [(unitType, 19), (unit, 336)]
  | .wsSecureTopWrite value who => (value, 2 ^ 64) :: who.limits
  | .wsClaimWrite reg value who => (reg, 7) :: (value, 2 ^ 64) :: who.limits
  | .debugHaltRequest hart => [(hart, 288)]
  | .wsKeyRead slot who => (slot, 16384) :: who.limits
  | .load slot who => (slot, 16384) :: who.limits
  | .clear slot who => (slot, 16384) :: who.limits
  | .signKey who => who.limits
  | .signReady => []
  | .secureWatchdogLapse => []
  | .kick who => who.limits
  | .req who => who.limits
  | .signingSramUncorrectable => []
  | .secureImageLoaded measurement => [(measurement.length, 49)]
  | .done who => who.limits
  | .secureRestartTimeout => []
  | .refclkSysLoss => []
  | .refclkRpLoss => []
  | .epRefclkLoss => []
  | .gunelLapse => []
  | .crystalCountEnd which => [(which, 2)]
  | .pllWaitEnd which => [(which, 256)]
  | .thermalCritical die => [(die, 13)]
  | .droop tile => [(tile, 336)]
  | .droopStretchEnd tile => [(tile, 336)]
  | .run src => [(src, 5)]
  | .quiet src => [(src, 5)]
  | .standby src => [(src, 5)]
  | .drydown src => [(src, 5)]
  | .gate target index src => [(target, 8), (index, 512), (src, 5)]
  | .ungate target index src => [(target, 8), (index, 512), (src, 5)]
  | .wakeSourceFire src facts => (src, 4) :: facts.limits
  | .tileRetentionEntry tile => [(tile, 336)]
  | .tileRetentionWake tile => [(tile, 336)]
  | .gunelWatchdogLapse => []
  | .gunelRestartDone => []
  | .sensorSample readings => (readings.length, 256) :: readings.map fun r => (r, 65536)
  | .lifetimeWrite => []
  | .getInfo _ who => who.limits
  | .readLog _ who => who.limits
  | .readLifetime _ who => who.limits
  | .readSensor _ who => who.limits
  | .queueTest _ who => who.limits
  | .cancelTest _ who => who.limits
  | .power _ who => who.limits
  | .dieReset _ who => who.limits
  | .dieBistDone die tiles engines _ => [(die, 12), (tiles.length, 29), (engines.length, 3)]
  | .setMemcfg _ who => who.limits
  | .hartStarted _ who => who.limits
  | .hartStopped _ who => who.limits
  | .pldmUpdate which _ => [(which, 3)]
  | .activateFirmware which => [(which, 3)]
  | .hubLapse => []
  | .pkgResetRelease facts => facts.limits
  | .startStepTimeout => []
  | .pkgResetAssert => []
  | .mainPgRise => []
  | .cdPgRise => []
  | .powerGoodTimeout => []
  | .railLoss rail => [(rail, 256)]
  | .vflPowerUp => []
  | .flaconSample samples => [(samples.length, 9)]
  | .xtalFStop => []
  | .xtalFReturn => []
  | .flaconCalRise => []
  | .flaconCalibrate ch shunt _ _ => [(ch, 8), (shunt, 2 ^ 32)]
  | .flGetInfo _ => []
  | .getPubkey _ => []
  | .readMeter _ => []
  | .flReadLog _ => []
  | .flMailboxTimeout => []
  | .pmDump => []
  | .pmDumpEntryWritten => []
  | .userCounterRead hart _ csr => [(hart, 288), (csr, 4096)]
  | .pmPartWrite value => [(value, 2 ^ 64)]
  | .userEnableWrite value => [(value, 2 ^ 32)]
  | .pmDumpCiWrite value => [(value, 2 ^ 32)]
  | .reservedAccess addr who _ => (addr, paLimit) :: who.limits
  | .offlinePageAccess acc => acc.limits
  | .linkUp speed width _ => [(speed, 8), (width, 17)]
  | .flrComplete fn => [(fn, 256)]
  | .sbSetFail port set => [(port, 24), (set, 2)]
  | .alertN ch => [(ch, 16)]
  | .controlStopError die => [(die, 12)]
  | .engineControlParity engine => [(engine, 24)]
  | .bridgeParityError die bridge => (die, 13) :: bridge.limits
  | .trackerUncorrectable pair => [(pair, 34)]
  | .romRecovery _ => []

/-- Every operand of the command fits. (DEDUCED, log 96) -/
def Instr.wf (i : Instr) : Bool := i.limits.all fun p => decide (p.1 < p.2)

end Sys2Proof
end

