-- ==== Sys2Proof/Laws/PerInstr.lean ====
section
/-!
SUPPORT. Well-formedness command by command: a command is well formed exactly when every operand lies below its limit.
-/

namespace Sys2Proof.Laws.Wf

/-- The command is well formed exactly when each of its operands is below the first value too large for it. -/
def Statement (i : Instr) : Prop := i.wf = true ↔ ∀ p ∈ i.limits, p.1 < p.2

theorem statement_all (i : Instr) : Statement i := by simp [Statement, Instr.wf]

theorem beatBoundary (power : List Nat) (temps : List Nat) (slacks : List Int) (queues : List (Nat × Nat)) : Statement (.beatBoundary power temps slacks queues) := statement_all _
theorem phaseBoundary (power : List Nat) (temps : List Nat) (slacks : List Int) (queues : List (Nat × Nat)) : Statement (.phaseBoundary power temps slacks queues) := statement_all _
theorem windowBoundary : Statement (.windowBoundary) := statement_all _
theorem beatTokenReceived (die : Nat) (full : Bool) (count : Nat) (len : Nat) (inst : Nat) (check : Nat) (skew : Nat) : Statement (.beatTokenReceived die full count len inst check skew) := statement_all _
theorem tokenMissing (die : Nat) : Statement (.tokenMissing die) := statement_all _
theorem beatMasterSelfCheckError (b : Nat) : Statement (.beatMasterSelfCheckError b) := statement_all _
theorem cmpMismatch : Statement (.cmpMismatch) := statement_all _
theorem registerWrite (acc : Access) : Statement (.registerWrite acc) := statement_all _
theorem workPi (internal : Bool) (group : Nat) (off : Nat) (width : Nat) (value : Nat) : Statement (.workPi internal group off width value) := statement_all _
theorem cplCi (internal : Bool) (group : Nat) (off : Nat) (width : Nat) (value : Nat) : Statement (.cplCi internal group off width value) := statement_all _
theorem descriptorFetch (ring : Nat) : Statement (.descriptorFetch ring) := statement_all _
theorem descriptorReadDone (ring : Nat) : Statement (.descriptorReadDone ring) := statement_all _
theorem paramBlockReadDone (job : Nat) : Statement (.paramBlockReadDone job) := statement_all _
theorem segmentFinish (engine : Nat) : Statement (.segmentFinish engine) := statement_all _
theorem coalBeatsExpiry (ring : Nat) : Statement (.coalBeatsExpiry ring) := statement_all _
theorem msixVectorUnmask (fn : Nat) (vector : Nat) : Statement (.msixVectorUnmask fn vector) := statement_all _
theorem reIndRead (target : Nat) (index : Nat) : Statement (.reIndRead target index) := statement_all _
theorem reIndWriteRing (index : Nat) : Statement (.reIndWriteRing index) := statement_all _
theorem reIndWriteFunction (index : Nat) : Statement (.reIndWriteFunction index) := statement_all _
theorem engineReadData (engine : Nat) (inp : List HostRead) : Statement (.engineReadData engine inp) := statement_all _
theorem accWr (engine : Nat) : Statement (.accWr engine) := statement_all _
theorem close (engine : Nat) : Statement (.close engine) := statement_all _
theorem signRequest (engine : Nat) : Statement (.signRequest engine) := statement_all _
theorem signatureReturn (engine : Nat) : Statement (.signatureReturn engine) := statement_all _
theorem accumRegionAllocate : Statement (.accumRegionAllocate) := statement_all _
theorem accumRestoreDone (job : Nat) : Statement (.accumRestoreDone job) := statement_all _
theorem accumLineUncorrectable (job : Nat) : Statement (.accumLineUncorrectable job) := statement_all _
theorem cnPortEnable (port : Nat) : Statement (.cnPortEnable port) := statement_all _
theorem conosTrainingStepDone (port : Nat) (ok : Bool) : Statement (.conosTrainingStepDone port ok) := statement_all _
theorem conosTrainingRetryTimer (port : Nat) : Statement (.conosTrainingRetryTimer port) := statement_all _
theorem ident (port : Nat) (pkg : Nat) (peerPort : Nat) (version : Nat) (len : Nat) : Statement (.ident port pkg peerPort version len) := statement_all _
theorem conosFrameReceived (port : Nat) (frame : Frame) (crcOk : Bool) : Statement (.conosFrameReceived port frame crcOk) := statement_all _
theorem linkNak (port : Nat) (ack : Nat) : Statement (.linkNak port ack) := statement_all _
theorem linkAckTimeout (port : Nat) : Statement (.linkAckTimeout port) := statement_all _
theorem write (op : Frame) : Statement (.write op) := statement_all _
theorem readReq (op : Frame) : Statement (.readReq op) := statement_all _
theorem readRsp (op : Frame) : Statement (.readRsp op) := statement_all _
theorem push (op : Frame) : Statement (.push op) := statement_all _
theorem pushAck (op : Frame) : Statement (.pushAck op) := statement_all _
theorem opNak (op : Frame) : Statement (.opNak op) := statement_all _
theorem flowAck (peer : Nat) (vc : Nat) (seq : Nat) : Statement (.flowAck peer vc seq) := statement_all _
theorem flowNak (peer : Nat) (vc : Nat) (seq : Nat) : Statement (.flowNak peer vc seq) := statement_all _
theorem flowAckTimeout (peer : Nat) (vc : Nat) : Statement (.flowAckTimeout peer vc) := statement_all _
theorem alignReq (port : Nat) (src : Nat) (t1 : Nat) (t2 : Nat) (t3 : Nat) : Statement (.alignReq port src t1 t2 t3) := statement_all _
theorem alignRsp (t1 : Nat) (t2 : Nat) (t3 : Nat) (t4 : Nat) (len : Nat) : Statement (.alignRsp t1 t2 t3 t4 len) := statement_all _
theorem alignIntervalExpiry (now : Nat) : Statement (.alignIntervalExpiry now) := statement_all _
theorem conosApertureWrite (addr : Nat) (data : Bytes) (who : By) : Statement (.conosApertureWrite addr data who) := statement_all _
theorem conosApertureRead (addr : Nat) (len : Nat) (who : By) : Statement (.conosApertureRead addr len who) := statement_all _
theorem readFailed (tag : Nat) : Statement (.readFailed tag) := statement_all _
theorem cnWindowWrite (index : Nat) : Statement (.cnWindowWrite index) := statement_all _
theorem cnRouteWrite (index : Nat) : Statement (.cnRouteWrite index) := statement_all _
theorem cnIndRead (target : Nat) (index : Nat) : Statement (.cnIndRead target index) := statement_all _
theorem winDrained (window : Nat) : Statement (.winDrained window) := statement_all _
theorem pushFullWaitExpiry (tag : Nat) : Statement (.pushFullWaitExpiry tag) := statement_all _
theorem pushAckTimeout (tag : Nat) : Statement (.pushAckTimeout tag) := statement_all _
theorem cnWakeSend (mask : Nat) : Statement (.cnWakeSend mask) := statement_all _
theorem wakePatternEnd (port : Nat) : Statement (.wakePatternEnd port) := statement_all _
theorem wakePatternDetected (port : Nat) : Statement (.wakePatternDetected port) := statement_all _
theorem conosLaneLoss (port : Nat) : Statement (.conosLaneLoss port) := statement_all _
theorem flr (fn : Nat) : Statement (.flr fn) := statement_all _
theorem functionEnableChange (change : FnChange) : Statement (.functionEnableChange change) := statement_all _
theorem endpointReset : Statement (.endpointReset) := statement_all _
theorem hostReadCompletion (fn : Nat) (tag : Nat) (off : Nat) (data : Bytes) (poisoned : Bool) : Statement (.hostReadCompletion fn tag off data poisoned) := statement_all _
theorem completionTimeout (fn : Nat) (tag : Nat) : Statement (.completionTimeout fn tag) := statement_all _
theorem barWriteOutside (fn : Nat) (off : Nat) : Statement (.barWriteOutside fn off) := statement_all _
theorem completionTimeoutValueWrite (fn : Nat) (enc : Nat) : Statement (.completionTimeoutValueWrite fn enc) := statement_all _
theorem l1IdleExpiry : Statement (.l1IdleExpiry) := statement_all _
theorem l0sIdleExpiry : Statement (.l0sIdleExpiry) := statement_all _
theorem spdmRequest (code : Nat) : Statement (.spdmRequest code) := statement_all _
theorem mqTargetWrite (index : Nat) : Statement (.mqTargetWrite index) := statement_all _
theorem mqQpWrite (index : Nat) : Statement (.mqQpWrite index) := statement_all _
theorem mqIndRead (target : Nat) (index : Nat) : Statement (.mqIndRead target index) := statement_all _
theorem driveCompletionCapture (qp : Nat) (cid : Nat) (status : Nat) (result : Nat) : Statement (.driveCompletionCapture qp cid status result) := statement_all _
theorem passSqDoorbell (qp : Nat) (tail : Nat) : Statement (.passSqDoorbell qp tail) := statement_all _
theorem passCqDoorbell (qp : Nat) (head : Nat) : Statement (.passCqDoorbell qp head) := statement_all _
theorem mediaCommandTimeout (cmd : Nat) : Statement (.mediaCommandTimeout cmd) := statement_all _
theorem driveRemoved (port : Nat) : Statement (.driveRemoved port) := statement_all _
theorem driveAdded (port : Nat) : Statement (.driveAdded port) := statement_all _
theorem qfworldWrite (hart : Nat) (w : Nat) (pw : Nat) : Statement (.qfworldWrite hart w pw) := statement_all _
theorem qfsillageWrite (hart : Nat) (mode : Mode) (value : Nat) : Statement (.qfsillageWrite hart mode value) := statement_all _
theorem qfoppWrite (hart : Nat) (value : Nat) : Statement (.qfoppWrite hart value) := statement_all _
theorem customCsrIllegal (hart : Nat) (csr : Nat) (mode : Mode) (isWrite : Bool) (value : Nat) : Statement (.customCsrIllegal hart csr mode isWrite value) := statement_all _
theorem trapToMMode (hart : Nat) (cause : Nat) (mepc : Nat) (mpp : Nat) (mpv : Bool) : Statement (.trapToMMode hart cause mepc mpp mpv) := statement_all _
theorem mret (hart : Nat) : Statement (.mret hart) := statement_all _
theorem hartAccess (hart : Nat) (kind : HartOp) (addr : Nat) (size : Nat) (data : Bytes) : Statement (.hartAccess hart kind addr size data) := statement_all _
theorem coreFault (hart : Nat) : Statement (.coreFault hart) := statement_all _
theorem hartHangTimeout (hart : Nat) : Statement (.hartHangTimeout hart) := statement_all _
theorem takeoverComplete (hart : Nat) : Statement (.takeoverComplete hart) := statement_all _
theorem migrationComplete (hart : Nat) : Statement (.migrationComplete hart) := statement_all _
theorem msiDelivery (addr : Nat) (data : Nat) (who : By) (width : Nat) : Statement (.msiDelivery addr data who width) := statement_all _
theorem stagingWayEmpty (engine : Nat) : Statement (.stagingWayEmpty engine) := statement_all _
theorem accumWaysLocked : Statement (.accumWaysLocked) := statement_all _
theorem cacheUncorrectable (place : CachePlace) (unit : Nat) (kind : LineKind) (line : Nat) : Statement (.cacheUncorrectable place unit kind line) := statement_all _
theorem rdShared (msg : CohMsg) : Statement (.rdShared msg) := statement_all _
theorem rdUnique (msg : CohMsg) : Statement (.rdUnique msg) := statement_all _
theorem own (msg : CohMsg) (zero : Bool) : Statement (.own msg zero) := statement_all _
theorem rdOnce (msg : CohMsg) : Statement (.rdOnce msg) := statement_all _
theorem wrLine (msg : CohMsg) (stash : Option Stash) : Statement (.wrLine msg stash) := statement_all _
theorem evict (msg : CohMsg) (empty : Bool) : Statement (.evict msg empty) := statement_all _
theorem writeback (msg : CohMsg) (empty : Bool) : Statement (.writeback msg empty) := statement_all _
theorem amo (msg : CohMsg) (op : AmoOp) (size : Nat) (offset : Nat) (operand : Nat) : Statement (.amo msg op size offset operand) := statement_all _
theorem cmoClean (msg : CohMsg) : Statement (.cmoClean msg) := statement_all _
theorem cmoFlush (msg : CohMsg) : Statement (.cmoFlush msg) := statement_all _
theorem cmoInval (msg : CohMsg) : Statement (.cmoInval msg) := statement_all _
theorem snpShared (die : Nat) (line : Nat) : Statement (.snpShared die line) := statement_all _
theorem snpUnique (die : Nat) (line : Nat) : Statement (.snpUnique die line) := statement_all _
theorem snpOnce (die : Nat) (line : Nat) : Statement (.snpOnce die line) := statement_all _
theorem snpInv (die : Nat) (line : Nat) : Statement (.snpInv die line) := statement_all _
theorem snpClean (die : Nat) (line : Nat) : Statement (.snpClean die line) := statement_all _
theorem snpStash (die : Nat) (line : Nat) (way : StashWay) : Statement (.snpStash die line way) := statement_all _
theorem snpResp (die : Nat) (line : Nat) : Statement (.snpResp die line) := statement_all _
theorem snpData (die : Nat) (line : Nat) : Statement (.snpData die line) := statement_all _
theorem stashAccept (die : Nat) (line : Nat) : Statement (.stashAccept die line) := statement_all _
theorem stashDecline (die : Nat) (line : Nat) : Statement (.stashDecline die line) := statement_all _
theorem comp (die : Nat) (line : Nat) : Statement (.comp die line) := statement_all _
theorem evcAck (die : Nat) (line : Nat) : Statement (.evcAck die line) := statement_all _
theorem compAck (die : Nat) (line : Nat) : Statement (.compAck die line) := statement_all _
theorem data (die : Nat) (line : Nat) (victim : Option Nat) : Statement (.data die line victim) := statement_all _
theorem wbData (die : Nat) (line : Nat) (bytes : Bytes) (poison : Bool) : Statement (.wbData die line bytes poison) := statement_all _
theorem wrData (line : Nat) (bytes : Bytes) (mask : Nat) (poison : Bool) : Statement (.wrData line bytes mask poison) := statement_all _
theorem lrSnoopHoldExpiry (die : Nat) (line : Nat) : Statement (.lrSnoopHoldExpiry die line) := statement_all _
theorem directoryEntryUncorrectable (sector : Nat) : Statement (.directoryEntryUncorrectable sector) := statement_all _
theorem directoryWalkComplete (die : Nat) : Statement (.directoryWalkComplete die) := statement_all _
theorem flitReceived (die : Nat) (stop : Nat) (net : Nat) (vc : Nat) (flit : Flit) (crcOk : Bool) : Statement (.flitReceived die stop net vc flit crcOk) := statement_all _
theorem flitDeliver (die : Nat) (stop : Nat) (net : Nat) (src : Nat) : Statement (.flitDeliver die stop net src) := statement_all _
theorem nocLinkFail (die : Nat) (link : Nat) : Statement (.nocLinkFail die link) := statement_all _
theorem routerFenced (die : Nat) (stop : Nat) : Statement (.routerFenced die stop) := statement_all _
theorem routeCompileDone (die : Nat) : Statement (.routeCompileDone die) := statement_all _
theorem routeTableInstall (die : Nat) : Statement (.routeTableInstall die) := statement_all _
theorem sbIdent (port : Nat) (msg : SbIdent) : Statement (.sbIdent port msg) := statement_all _
theorem mapAnnounce (port : Nat) (width : Nat) (map : List Nat) (wh : Nat) : Statement (.mapAnnounce port width map wh) := statement_all _
theorem mapAdopt (port : Nat) (hash : Nat) : Statement (.mapAdopt port hash) := statement_all _
theorem mapReject (port : Nat) (wires : List Nat) : Statement (.mapReject port wires) := statement_all _
theorem wireReport (port : Nat) (dir : Nat) (wire : Nat) (errs : Nat) : Statement (.wireReport port dir wire errs) := statement_all _
theorem testDone (port : Nat) (ok : Bool) : Statement (.testDone port ok) := statement_all _
theorem creditInit (port : Nat) : Statement (.creditInit port) := statement_all _
theorem sbMsgTimeout (port : Nat) : Statement (.sbMsgTimeout port) := statement_all _
theorem bilumFlitReceived (port : Nat) (dir : Nat) (grp : Nat) (crcOk : Bool) (idle : Bool) (cls : Nat) : Statement (.bilumFlitReceived port dir grp crcOk idle cls) := statement_all _
theorem bilumReplayTimeout (port : Nat) (dir : Nat) (grp : Nat) : Statement (.bilumReplayTimeout port dir grp) := statement_all _
theorem creditFrame (port : Nat) (dir : Nat) (word : Nat) : Statement (.creditFrame port dir word) := statement_all _
theorem bilumRecalSlot (port : Nat) (delay : Nat) : Statement (.bilumRecalSlot port delay) := statement_all _
theorem swapLimitReached (port : Nat) (dir : Nat) (wire : Nat) : Statement (.swapLimitReached port dir wire) := statement_all _
theorem blockLost (port : Nat) (dir : Nat) (block : Nat) : Statement (.blockLost port dir block) := statement_all _
theorem bilumPortFail (port : Nat) : Statement (.bilumPortFail port) := statement_all _
theorem bilumRetrainTimer (port : Nat) : Statement (.bilumRetrainTimer port) := statement_all _
theorem retrain (port : Nat) : Statement (.retrain port) := statement_all _
theorem clkSilent (die : Nat) : Statement (.clkSilent die) := statement_all _
theorem refreshDue (ch : Nat) (rank : Nat) (busy : Bool) : Statement (.refreshDue ch rank busy) := statement_all _
theorem mr4Read (ch : Nat) (rank : Nat) (twice : Bool) : Statement (.mr4Read ch rank twice) := statement_all _
theorem dramRecalSlot (ch : Nat) : Statement (.dramRecalSlot ch) := statement_all _
theorem mcRateWrite (ch : Nat) (value : Nat) : Statement (.mcRateWrite ch value) := statement_all _
theorem rateChangeComplete (failed : List Nat) : Statement (.rateChangeComplete failed) := statement_all _
theorem dramRead (ch : Nat) (line : Nat) (errs : List DevErr) (partner : List DevErr) (deadline : Option Nat) : Statement (.dramRead ch line errs partner deadline) := statement_all _
theorem dramWrite (ch : Nat) (line : Nat) (data : Bytes) (poison : Bool) : Statement (.dramWrite ch line data poison) := statement_all _
theorem mergeBufferWrite (ch : Nat) (line : Nat) (data : Bytes) (mask : Nat) : Statement (.mergeBufferWrite ch line data mask) := statement_all _
theorem channelFence (ch : Nat) : Statement (.channelFence ch) := statement_all _
theorem scrubBurst (ch : Nat) (errs : List DevErr) : Statement (.scrubBurst ch errs) := statement_all _
theorem qtReserveWrite (value : Nat) : Statement (.qtReserveWrite value) := statement_all _
theorem stopSet : Statement (.stopSet) := statement_all _
theorem stopClear : Statement (.stopClear) := statement_all _
theorem arbiterCycle (inst : Nat) (port : Nat) (reqs : List Nat) (still : Bool) (unitEnd : Bool) (last : Bool) : Statement (.arbiterCycle inst port reqs still unitEnd last) := statement_all _
theorem qtIndRead (target : Nat) (index : Nat) : Statement (.qtIndRead target index) := statement_all _
theorem qtIndWrite (target : Nat) (index : Nat) : Statement (.qtIndWrite target index) := statement_all _
theorem haPairMismatch (pair : Nat) : Statement (.haPairMismatch pair) := statement_all _
theorem reInstanceFailover (inst : Nat) (selfCheck : Bool) : Statement (.reInstanceFailover inst selfCheck) := statement_all _
theorem engineSramUncorrectable (engine : Nat) : Statement (.engineSramUncorrectable engine) := statement_all _
theorem selfTestComplete (unitType : Nat) (unit : Nat) (pass : Bool) : Statement (.selfTestComplete unitType unit pass) := statement_all _
theorem wsSecureTopWrite (value : Nat) (who : By) : Statement (.wsSecureTopWrite value who) := statement_all _
theorem wsClaimWrite (reg : Nat) (value : Nat) (who : By) : Statement (.wsClaimWrite reg value who) := statement_all _
theorem debugHaltRequest (hart : Nat) : Statement (.debugHaltRequest hart) := statement_all _
theorem wsKeyRead (slot : Nat) (who : By) : Statement (.wsKeyRead slot who) := statement_all _
theorem load (slot : Nat) (who : By) : Statement (.load slot who) := statement_all _
theorem clear (slot : Nat) (who : By) : Statement (.clear slot who) := statement_all _
theorem signKey (who : By) : Statement (.signKey who) := statement_all _
theorem signReady : Statement (.signReady) := statement_all _
theorem secureWatchdogLapse : Statement (.secureWatchdogLapse) := statement_all _
theorem kick (who : By) : Statement (.kick who) := statement_all _
theorem req (who : By) : Statement (.req who) := statement_all _
theorem signingSramUncorrectable : Statement (.signingSramUncorrectable) := statement_all _
theorem secureImageLoaded (measurement : Bytes) : Statement (.secureImageLoaded measurement) := statement_all _
theorem done (who : By) : Statement (.done who) := statement_all _
theorem secureRestartTimeout : Statement (.secureRestartTimeout) := statement_all _
theorem refclkSysLoss : Statement (.refclkSysLoss) := statement_all _
theorem refclkRpLoss : Statement (.refclkRpLoss) := statement_all _
theorem epRefclkLoss : Statement (.epRefclkLoss) := statement_all _
theorem gunelLapse : Statement (.gunelLapse) := statement_all _
theorem crystalCountEnd (which : Nat) : Statement (.crystalCountEnd which) := statement_all _
theorem pllWaitEnd (which : Nat) : Statement (.pllWaitEnd which) := statement_all _
theorem thermalCritical (die : Nat) : Statement (.thermalCritical die) := statement_all _
theorem droop (tile : Nat) : Statement (.droop tile) := statement_all _
theorem droopStretchEnd (tile : Nat) : Statement (.droopStretchEnd tile) := statement_all _
theorem run (src : Nat) : Statement (.run src) := statement_all _
theorem quiet (src : Nat) : Statement (.quiet src) := statement_all _
theorem standby (src : Nat) : Statement (.standby src) := statement_all _
theorem drydown (src : Nat) : Statement (.drydown src) := statement_all _
theorem gate (target : Nat) (index : Nat) (src : Nat) : Statement (.gate target index src) := statement_all _
theorem ungate (target : Nat) (index : Nat) (src : Nat) : Statement (.ungate target index src) := statement_all _
theorem wakeSourceFire (src : Nat) (facts : StartFacts) : Statement (.wakeSourceFire src facts) := statement_all _
theorem tileRetentionEntry (tile : Nat) : Statement (.tileRetentionEntry tile) := statement_all _
theorem tileRetentionWake (tile : Nat) : Statement (.tileRetentionWake tile) := statement_all _
theorem gunelWatchdogLapse : Statement (.gunelWatchdogLapse) := statement_all _
theorem gunelRestartDone : Statement (.gunelRestartDone) := statement_all _
theorem sensorSample (readings : List Nat) : Statement (.sensorSample readings) := statement_all _
theorem lifetimeWrite : Statement (.lifetimeWrite) := statement_all _
theorem getInfo (secure : Bool) (who : By) : Statement (.getInfo secure who) := statement_all _
theorem readLog (secure : Bool) (who : By) : Statement (.readLog secure who) := statement_all _
theorem readLifetime (secure : Bool) (who : By) : Statement (.readLifetime secure who) := statement_all _
theorem readSensor (secure : Bool) (who : By) : Statement (.readSensor secure who) := statement_all _
theorem queueTest (secure : Bool) (who : By) : Statement (.queueTest secure who) := statement_all _
theorem cancelTest (secure : Bool) (who : By) : Statement (.cancelTest secure who) := statement_all _
theorem power (secure : Bool) (who : By) : Statement (.power secure who) := statement_all _
theorem dieReset (secure : Bool) (who : By) : Statement (.dieReset secure who) := statement_all _
theorem dieBistDone (die : Nat) (tiles : List Bool) (engines : List Bool) (linkOk : Bool) : Statement (.dieBistDone die tiles engines linkOk) := statement_all _
theorem setMemcfg (secure : Bool) (who : By) : Statement (.setMemcfg secure who) := statement_all _
theorem hartStarted (secure : Bool) (who : By) : Statement (.hartStarted secure who) := statement_all _
theorem hartStopped (secure : Bool) (who : By) : Statement (.hartStopped secure who) := statement_all _
theorem pldmUpdate (comp : Nat) (image : Bytes) : Statement (.pldmUpdate comp image) := statement_all _
theorem activateFirmware (comp : Nat) : Statement (.activateFirmware comp) := statement_all _
theorem hubLapse : Statement (.hubLapse) := statement_all _
theorem pkgResetRelease (facts : StartFacts) : Statement (.pkgResetRelease facts) := statement_all _
theorem startStepTimeout : Statement (.startStepTimeout) := statement_all _
theorem pkgResetAssert : Statement (.pkgResetAssert) := statement_all _
theorem mainPgRise : Statement (.mainPgRise) := statement_all _
theorem cdPgRise : Statement (.cdPgRise) := statement_all _
theorem powerGoodTimeout : Statement (.powerGoodTimeout) := statement_all _
theorem railLoss (rail : Nat) : Statement (.railLoss rail) := statement_all _
theorem vflPowerUp : Statement (.vflPowerUp) := statement_all _
theorem flaconSample (samples : List (Int × Int)) : Statement (.flaconSample samples) := statement_all _
theorem xtalFStop : Statement (.xtalFStop) := statement_all _
theorem xtalFReturn : Statement (.xtalFReturn) := statement_all _
theorem flaconCalRise : Statement (.flaconCalRise) := statement_all _
theorem flaconCalibrate (ch : Nat) (shunt : Nat) (gain : Int) (offset : Int) : Statement (.flaconCalibrate ch shunt gain offset) := statement_all _
theorem flGetInfo (viaI3c : Bool) : Statement (.flGetInfo viaI3c) := statement_all _
theorem getPubkey (viaI3c : Bool) : Statement (.getPubkey viaI3c) := statement_all _
theorem readMeter (viaI3c : Bool) : Statement (.readMeter viaI3c) := statement_all _
theorem flReadLog (viaI3c : Bool) : Statement (.flReadLog viaI3c) := statement_all _
theorem flMailboxTimeout : Statement (.flMailboxTimeout) := statement_all _
theorem pmDump : Statement (.pmDump) := statement_all _
theorem pmDumpEntryWritten : Statement (.pmDumpEntryWritten) := statement_all _
theorem userCounterRead (hart : Nat) (mode : Mode) (csr : Nat) : Statement (.userCounterRead hart mode csr) := statement_all _
theorem pmPartWrite (value : Nat) : Statement (.pmPartWrite value) := statement_all _
theorem userEnableWrite (value : Nat) : Statement (.userEnableWrite value) := statement_all _
theorem pmDumpCiWrite (value : Nat) : Statement (.pmDumpCiWrite value) := statement_all _
theorem reservedAccess (addr : Nat) (who : By) (isRead : Bool) : Statement (.reservedAccess addr who isRead) := statement_all _
theorem offlinePageAccess (acc : Access) : Statement (.offlinePageAccess acc) := statement_all _
theorem linkUp (speed : Nat) (width : Nat) (flit : Bool) : Statement (.linkUp speed width flit) := statement_all _
theorem flrComplete (fn : Nat) : Statement (.flrComplete fn) := statement_all _
theorem sbSetFail (port : Nat) (set : Nat) : Statement (.sbSetFail port set) := statement_all _
theorem alertN (ch : Nat) : Statement (.alertN ch) := statement_all _
theorem controlStopError (die : Nat) : Statement (.controlStopError die) := statement_all _
theorem engineControlParity (engine : Nat) : Statement (.engineControlParity engine) := statement_all _
theorem bridgeParityError (die : Nat) (bridge : BridgeOf) : Statement (.bridgeParityError die bridge) := statement_all _
theorem trackerUncorrectable (pair : Nat) : Statement (.trackerUncorrectable pair) := statement_all _
theorem romRecovery (image : Bytes) : Statement (.romRecovery image) := statement_all _

end Sys2Proof.Laws.Wf
end

