-- ==== Sys2Proof/Laws/Step.lean ====
section
/-!
SUPPORT. What exec and step do to any state, said once: every command answers with the block changed and its status fields
showing, the queue as it was.
-/

namespace Sys2Proof.Machine

/-- Every command answers a next state, which holds its effect on the block and the same queue. -/
theorem exec_after (c : Instr) (s : State) : ∃ k, exec c s = .next (s.after k) := by
  cases c <;> exact ⟨_, rfl⟩

@[simp] theorem State.after_chip (s : State) (k : Chip) : (s.after k).chip = k.refresh := rfl

@[simp] theorem State.after_pending (s : State) (k : Chip) : (s.after k).pending = s.pending := rfl

theorem State.commit_after (s : State) (k : Chip) : s.commit k = .next (s.after k) := rfl

theorem step_nil (s : State) (h : s.pending = []) : step s = .next s := by
  rw [step, h]

theorem step_cons (s : State) (c : Instr) (rest : List Instr) (h : s.pending = c :: rest) :
    step s = exec c { s with pending := rest } := by
  rw [step, h]

/-! ### Reads through the status fields brought up to date -/

@[simp] theorem Chip.engine_refresh (k : Chip) (e : Nat) : k.refresh.engine e = k.engine e := by rw [Chip.engine, Chip.refresh_eng]
@[simp] theorem Chip.ring_refresh (k : Chip) (r : Nat) : k.refresh.ring r = k.ring r := by rw [Chip.ring, Chip.refresh_re]
@[simp] theorem Chip.fnCtx_refresh (k : Chip) (f : Nat) : k.refresh.fnCtx f = k.fnCtx f := by rw [Chip.fnCtx, Chip.refresh_re]
@[simp] theorem Chip.hostFn_refresh (k : Chip) (f : Nat) : k.refresh.hostFn f = k.hostFn f := by rw [Chip.hostFn, Chip.refresh_hf]
@[simp] theorem Chip.hart_refresh (k : Chip) (h : Nat) : k.refresh.hart h = k.hart h := by rw [Chip.hart, Chip.refresh_harts]
@[simp] theorem Chip.tile_refresh (k : Chip) (t : Nat) : k.refresh.tile t = k.tile t := by rw [Chip.tile, Chip.refresh_tiles]
@[simp] theorem Chip.dieState_refresh (k : Chip) (d : Nat) : k.refresh.dieState d = k.dieState d := by rw [Chip.dieState, Chip.refresh_flt]

@[simp] theorem Chip.sameMemory_refresh (k k' : Chip) : k.SameMemory k'.refresh ↔ k.SameMemory k' := by
  simp only [Chip.SameMemory, Chip.refresh_mem]

theorem Chip.SameMemory.of_eq {k k' : Chip} (h : k'.mem = k.mem) : k.SameMemory k' := fun a => by rw [h]

theorem Chip.SameRegs.refresh {fs : List Fld} {k k' : Chip}
    (h : ∀ f : Fld, f.key ∉ fs.map Fld.key → k'.rd f = k.rd f) : k.SameRegs fs k'.refresh := fun f hf hs => by
  rw [Chip.rd_refresh _ hs, h f hf]

theorem Chip.SameRegs.of_eq {fs : List Fld} {k k' : Chip} (h : k'.regs = k.regs) : k.SameRegs fs k'.refresh :=
  Chip.SameRegs.refresh fun f _ => Chip.rd_congr h f

end Sys2Proof.Machine
end

