-- ==== Sys2Proof/Tests/Slice0.lean ====
section
/-!
SUPPORT. Tests: a state and operands that meet the hypotheses of every statement, clause by clause; an ill-formed command
for every check of `Instr.wf`; and single steps whose results the spec writes out.
-/

set_option Elab.async false

namespace Sys2Proof.Machine

/-- A machine whose registers hold the listed values, the others their reset values. -/
def chipOf (fs : List (Fld × Nat)) : Chip := fs.foldl (fun k p => k.wr p.1 p.2) {}

theorem witness_StepRunsTheQueue :
    (∃ (s : State) (c : Instr) (rest : List Instr), s.pending = c :: rest) ∧
    (∃ (s : State), s.pending = []) :=
  ⟨⟨{ pending := [.windowBoundary, .tokenMissing 3] }, .windowBoundary, [.tokenMissing 3], by decide +kernel⟩,
   ⟨{}, by decide +kernel⟩⟩

theorem witness_StepKeepsStatusShowing :
    ∃ (s : State) (t : State), s.chip.Showing ∧ step s = .next t :=
  ⟨{ pending := [.windowBoundary] }, _, by unfold Chip.Showing; decide +kernel, rfl⟩

theorem witness_TokenEdgeCountsTheBeat :
    ∃ (k : Chip), k.on CN_ALIGN.ROOT = false :=
  ⟨chipOf [(CN_ALIGN.ROOT, 0)], by decide +kernel⟩

theorem witness_BoundariesRunTheirSteps :
    (∃ (s : State), s.chip.ticking = true ∧ s.chip.beat.windowDue = false) ∧
    (∃ (s : State), s.chip.ticking = true ∧ s.chip.beat.windowDue = true) ∧
    (∃ (s : State), s.chip.ticking = true ∧ s.chip.beat.phase < 7) ∧
    (∃ (s : State), s.chip.ticking = false) :=
  ⟨⟨{ chip := { pwr := { pkg := .run } } }, by decide +kernel⟩,
   ⟨{ chip := { pwr := { pkg := .run }, beat := { windowDue := true } } }, by decide +kernel⟩,
   ⟨{ chip := { pwr := { pkg := .run }, beat := { phase := 6 } } }, by decide +kernel⟩,
   ⟨{}, by decide +kernel⟩⟩

theorem witness_TokensAndAlignment :
    (∃ (s : State) (d : Nat) (skew : Nat), s.chip.dieUp d = true ∧ skew ≤ 10 ∧
      (Tbl.get {} s.chip.beat.dies d).fullDue = true) ∧
    (∃ (s : State) (d : Nat) (skew : Nat), s.chip.dieUp d = true ∧ skew ≤ 10 ∧
      (Tbl.get {} s.chip.beat.dies d).fullDue = false ∧ (Tbl.get {} s.chip.beat.dies d).count < 2 ^ 64 - 1) ∧
    (∃ (s : State) (d : Nat) (count : Nat) (len : Nat) (inst : Nat) (check : Nat) (full : Bool),
      s.chip.dieUp d = true ∧ crc8Bits (tokenBits full count len inst) ≠ check) ∧
    (∃ (s : State) (d : Nat), s.chip.dieUp d = true ∧ (Tbl.get {} s.chip.beat.dies d).misses = 0) ∧
    (∃ (s : State) (p : Nat), p < 4 ∧ s.chip.cnState p = 2) ∧
    (∃ (s : State) (t1 : Nat) (t2 : Nat) (t3 : Nat) (t4 : Nat), s.chip.on CN_ALIGN.ROOT = false ∧
      s.chip.on BT_CTRL.ALIGN_EN = true ∧ (beatDiff t2 t1 s.chip.beatNs - beatDiff t4 t3 s.chip.beatNs) % 2 = 0) ∧
    (∃ (s : State) (n : Nat), s.chip.on CN_ALIGN.ROOT = false ∧ s.chip.on BT_CTRL.ALIGN_EN = true ∧
      n = s.chip.rd CN_ALIGN.PARENT_PORT ∧ s.chip.cnState n = 2 ∧ s.chip.beat.alignMissed < 8) :=
  ⟨⟨{ chip := { flt := { dies := [(11, { inService := true })] } } }, 11, 10, by decide +kernel⟩,
   ⟨{ chip := { flt := { dies := [(11, { inService := true })] }, beat := { dies := [(11, { count := 2 ^ 64 - 2, fullDue := false })] } } },
     11, 10, by decide +kernel⟩,
   ⟨{ chip := { flt := { dies := [(0, { inService := true })] } } }, 0, 1, 0, 0, 256, true, by decide +kernel⟩,
   ⟨{ chip := { flt := { dies := [(0, { inService := true })] } } }, 0, by decide +kernel⟩,
   ⟨{ chip := chipOf [(CN_PORT_STATUS.STATE 3, 2)] }, 3, by decide +kernel⟩,
   ⟨{ chip := chipOf [(CN_ALIGN.ROOT, 0), (BT_CTRL.ALIGN_EN, 1)] }, 0, 4, 8, 8, by decide +kernel⟩,
   ⟨{ chip := chipOf [(CN_ALIGN.ROOT, 0), (BT_CTRL.ALIGN_EN, 1), (CN_ALIGN.PARENT_PORT, 3), (CN_PORT_STATUS.STATE 3, 2)] },
     3, by decide +kernel⟩⟩

theorem witness_BeatMasterFencing :
    (∃ (s : State) (b : Nat), s.chip.masterFenced 0 = false ∧ s.chip.masterFenced 1 = false ∧
      s.chip.rd BT_STATUS.ACTIVE < 2 ∧ b < 2) ∧
    (∃ (s : State), s.chip.masterFenced 0 = false ∧ s.chip.masterFenced 1 = false ∧ s.chip.rd BT_STATUS.ACTIVE < 2) :=
  ⟨⟨{}, 1, by decide +kernel⟩,
   ⟨{ chip := chipOf [(BT_STATUS.ACTIVE, 1)] }, by decide +kernel⟩⟩

/-- An internal ring that runs, with 16 entries in each of its rings. -/
def runningRing (r : Nat) (g : Ring) : Chip :=
  { re := { rings := [(r, { g with state := 1, flags := 2, wrLog2 := 4, crLog2 := 4 })] } }

/-- A host ring that runs, with 16 entries in each of its rings. -/
def runningHostRing (r : Nat) (g : Ring) : Chip :=
  { re := { rings := [(r, { g with state := 1, wrLog2 := 4, crLog2 := 4 })] } }

theorem witness_RingRegisters :
    (∃ (s : State) (internal : Bool) (group : Nat) (off : Nat) (value : Nat) (g : Ring), group < 256 ∧ off < 256 ∧
      off % 4 = 0 ∧ g = s.chip.ring (32 * group + off / 8) ∧ g.state = 1 ∧ g.internal = internal ∧
      (internal = false → (s.chip.hostFn group).inFlr = false) ∧ wrapSub value g.wrPi 32 ≤ g.room) ∧
    (∃ (s : State) (group : Nat) (off : Nat) (value : Nat) (g : Ring), group < 256 ∧ off < 256 ∧ off % 4 = 0 ∧
      g = s.chip.ring (32 * group + off / 8) ∧ g.state = 1 ∧ g.internal = true ∧ g.room < wrapSub value g.wrPi 32) ∧
    (∃ (group : Nat) (off : Nat) (width : Nat), group < 256 ∧ off < 256 ∧ (width ≠ 4 ∨ off % 4 ≠ 0)) ∧
    (∃ (r : Nat), r < 8192) ∧
    (∃ (f : Nat), f < 256) ∧
    (∃ (s : State) (r : Nat) (b : Bytes), r < 8192 ∧ b = s.chip.indBytes RE_IND_DATA.DATA 8 ∧
      ringValuesGood b = true ∧ (s.chip.ring r).inProgress = 0 ∧ (s.chip.ring r).fetching = false) ∧
    (∃ (s : State) (f : Nat) (b : Bytes), f < 256 ∧ b = s.chip.indBytes RE_IND_DATA.DATA 8 ∧
      leAt b 2 1 ≤ leAt b 4 1 ∧ leAt b 4 1 ≤ leAt b 3 1 ∧ leAt b 1 1 ≤ 64) :=
  ⟨⟨{ chip := runningHostRing 8191 {} }, false, 255, 252, 16, _, by decide +kernel, by decide +kernel,
    by decide +kernel, rfl, by decide +kernel⟩,
   ⟨{ chip := runningRing 0 {} }, 0, 0, 17, _, by decide +kernel, by decide +kernel, by decide +kernel, rfl,
     by decide +kernel⟩,
   ⟨255, 255, 8, by decide +kernel⟩,
   ⟨8191, by decide +kernel⟩,
   ⟨255, by decide +kernel⟩,
   ⟨{ chip := chipOf [(RE_IND_DATA.DATA 2, 0x404)] }, 8191, _, by decide +kernel, rfl, by decide +kernel⟩,
   ⟨{}, 255, _, by decide +kernel, rfl, by decide +kernel⟩⟩

theorem witness_CplCiMovesTheConsumerIndex :
    (∃ (s : State) (internal : Bool) (group : Nat) (off : Nat) (value : Nat) (g : Ring), group < 256 ∧ off < 256 ∧
      off % 4 = 0 ∧ g = s.chip.ring (32 * group + off / 8) ∧ g.state = 1 ∧ g.internal = internal ∧
      (internal = false → (s.chip.hostFn group).inFlr = false) ∧ wrapSub value g.crCi 32 ≤ wrapSub g.crPi g.crCi 32) ∧
    (∃ (s : State) (internal : Bool) (group : Nat) (off : Nat) (value : Nat) (g : Ring), group < 256 ∧ off < 256 ∧
      off % 4 = 0 ∧ g = s.chip.ring (32 * group + off / 8) ∧ g.state = 1 ∧ g.internal = internal ∧
      (internal = false → (s.chip.hostFn group).inFlr = false) ∧
      wrapSub g.crPi g.crCi 32 < wrapSub value g.crCi 32) :=
  ⟨⟨{ chip := runningHostRing 8191 { crPi := 3 } }, false, 255, 252, 3, _, by decide +kernel, by decide +kernel,
    by decide +kernel, rfl, by decide +kernel⟩,
   ⟨{ chip := runningHostRing 8191 { crPi := 3 } }, false, 255, 252, 4, _, by decide +kernel, by decide +kernel,
     by decide +kernel, rfl, by decide +kernel⟩⟩

/-- A descriptor of a recall without stages. -/
def aRecall : Desc := { opcode := 2, dst := 2 ^ 31, length := 1, param := 2 ^ 30 + 64, dstLimit := 2 ^ 31 + 4096 }

/-- A parameter block for it. -/
def aParams : Bytes := zeros 44 ++ [1] ++ zeros 83

/-- The machine with internal ring 32, whose descriptor at 2³⁰ waits, and the IOMMU in Bare mode. -/
def ringChip (g : Ring) : Chip :=
  { chipOf [(RE_CTRL.RUN, 1)] with
    mem := memPut [] (2 ^ 30) (aRecall.bytes ++ aParams)
    ws := { iommu := [(16, 1)] }
    re := { rings := [(32, { g with state := 1, flags := 2, wrLog2 := 4, crLog2 := 4, wrBase := 2 ^ 30 })] } }

theorem witness_FetchingAndSignalling :
    (∃ (s : State) (r : Nat), (s.chip.ring r).internal = true ∧ s.chip.mayFetch r = true ∧
      s.chip.isHost (s.chip.ringDev r) (s.chip.ring r).fetchAt 64 = false) ∧
    (∃ (s : State) (r : Nat) (b : Bytes), (s.chip.ring r).fetching = true ∧
      s.chip.arrivedAll (.descriptor r) = true ∧
      s.chip.contextFree (if (s.chip.ring r).internal then 256 else r / 32) = true ∧
      s.chip.dmaRead (joinReads (s.chip.answers (.descriptor r)).reverse) (s.chip.ringDev r) (s.chip.ring r).fetchAt 64 = .bytes b ∧
      (Desc.ofBytes b).opcode ≠ 6 ∧ s.chip.descRefused r (Desc.ofBytes b) = none ∧
      s.chip.isHost (s.chip.ringDev r) (Desc.ofBytes b).param 128 = false) ∧
    (∃ (s : State) (c : Nat) (p : Bytes) (j : Job), j = s.chip.job c ∧ s.chip.jobUsed c = true ∧
      j.state = .paramRead ∧ s.chip.arrivedAll (.param c) = true ∧ j.desc.opcode = 2 ∧ j.desc.encrypt = false ∧
      s.chip.dmaRead (joinReads (s.chip.answers (.param c)).reverse) (s.chip.devOfRing j.ring j.internal) j.desc.param 128 = .bytes p ∧
      j.desc.paramInvalid p (s.chip.on BT_CTRL.LEN) = none) ∧
    (∃ (s : State) (r : Nat), (s.chip.ring r).coalBeats ≠ 0 ∧ (s.chip.ring r).sinceIrq ≠ 0 ∧
      (s.chip.ring r).oldest + (s.chip.ring r).coalBeats ≤ s.chip.now ∧ (s.chip.ring r).internal = true) :=
  ⟨⟨{ chip := ringChip { wrPi := 1 } }, 32, by decide +kernel⟩,
   ⟨{ chip := ringChip { wrPi := 1, fetching := true } }, 32, aRecall.bytes, by decide +kernel⟩,
   ⟨{ chip := { ringChip {} with re := { jobs := [(0, { ring := 32, internal := true, desc := aRecall })] } } }, 0,
     aParams, _, rfl, by decide +kernel⟩,
   ⟨{ chip := { runningRing 0 { coalBeats := 5, sinceIrq := 1 } with regs := (chipOf [(BT_COUNT.COUNT, 5)]).regs } },
     0, by decide +kernel⟩⟩

theorem witness_WindowPlans :
    (∃ (n : Nat), 0 < n) ∧
    (∃ (k : Chip), k.takeWindow.enabledFns ≠ []) ∧
    (∃ (k : Chip) (p : Nat × Nat × Nat), p ∈ k.planBeat.re.plan) :=
  ⟨⟨1, by decide +kernel⟩,
   ⟨{ chipOf [(HF_FN_CTRL.ALLOW 0, 1)] with hf := { fns := [(0, { busMaster := true })] } }, by decide +kernel⟩,
   ⟨{ re := { e := 24, v := 6, jobs := [(0, { state := .waiting, internal := true })] }, pwr := { pkg := .run } },
     (0, 0, 0), by decide +kernel⟩⟩

/-- A copy of 100 bytes by an internal job. -/
def aCopy : Job :=
  { internal := true, state := .running, desc := { opcode := 6, src := 2 ^ 30, dst := 2 ^ 31, length := 100, dstLimit := 2 ^ 31 + 100 } }

/-- Engine 23 with a segment of it. -/
def segChip (sg : Seg) (g : Region) : Chip :=
  { eng := [(23, { seg := some sg })], ws := { iommu := [(16, 1)] }, re := { jobs := [(0, { aCopy with region := some 5 })] },
    acc := [(5, g)] }

theorem witness_SegmentsRunAndClose :
    (∃ (s : State) (e : Nat) (n : Nat) (sg : Seg) (j : Job) (inp : List HostRead) (b : Bytes) (k' : Chip),
      (s.chip.engine e).seg = some sg ∧ sg.ran = false ∧ j = s.chip.job sg.job ∧ j.desc.opcode = 6 ∧
      n = min s.chip.segmentSize (j.desc.length - j.ck.pos) ∧
      s.chip.dmaRead (inp ++ sg.ahead) (s.chip.devOfRing j.ring j.internal) (j.desc.src + j.ck.pos) n = .bytes b ∧
      b ≠ [] ∧ j.ck.pos + b.length ≤ j.desc.dstLimit ∧
      s.chip.dmaWrite (s.chip.devOfRing j.ring j.internal) (j.desc.dst + j.ck.pos) b false (some sg.job) = (k',
      true)) ∧
    (∃ (s : State) (e : Nat) (a : Nat) (off : Nat) (stripe : Nat) (col : Nat) (pos : Nat) (data : Bytes) (rest : List OutItem) (sg : Seg) (j : Job) (k' : Chip),
      (s.chip.engine e).seg = some sg ∧ sg.items = .fold (some a) data off stripe col pos :: rest ∧
      s.chip.foldsHeld sg.job = false ∧ j = s.chip.job sg.job ∧
      k' = (s.chip.dmaWrite (s.chip.devOfRing j.ring j.internal) a data false (some sg.job)).1) ∧
    (∃ (s : State) (e : Nat) (stripe : Nat) (cols : Nat) (ps : List (Nat × Option Nat × Bytes)) (rest : List OutItem) (sg : Seg) (j : Job),
      (s.chip.engine e).seg = some sg ∧ sg.items = .close stripe cols ps :: rest ∧ s.chip.foldsHeld sg.job = false ∧
      j = s.chip.job sg.job) ∧
    (∃ (s : State) (e : Nat) (sg : Seg), (s.chip.engine e).seg = some sg ∧ sg.ran = true ∧ sg.items = [] ∧
      sg.signWait = false ∧ s.chip.writesDone sg.job = true) :=
  ⟨⟨{ chip := segChip {} {} }, 23, 100, {}, { aCopy with region := some 5 }, [], zeros 100,
    ((segChip {} {}).dmaWrite 0 (2 ^ 31) (zeros 100) false (some 0)).1, by decide +kernel⟩,
   ⟨{ chip := segChip { items := [.fold (some (2 ^ 31)) [7] 0 0 0 0] } {} }, 23, 2 ^ 31, 0, 0, 0, 0, [7], [],
     { items := [.fold (some (2 ^ 31)) [7] 0 0 0 0] }, _, _, by decide +kernel, by decide +kernel, by decide +kernel,
     rfl, rfl⟩,
   ⟨{ chip := segChip { items := [.close 0 1 []] } {} }, 23, 0, 1, [], [], { items := [.close 0 1 []] }, _,
     by decide +kernel, by decide +kernel, by decide +kernel, rfl⟩,
   ⟨{ chip := segChip { ran := true } {} }, 23, { ran := true }, by decide +kernel⟩⟩

theorem witness_FoldsCancelAndCommute :
    (∃ (off : Nat) (acc : List Bytes) (bs : Bytes), (∀ row ∈ acc, row.length % 2 = 0 ∧
      off + bs.length ≤ row.length)) ∧
    (∃ (off : Nat) (off' : Nat) (acc : List Bytes) (bs : Bytes) (bs' : Bytes), (∀ row ∈ acc, row.length % 2 = 0 ∧
      off + bs.length ≤ row.length ∧ off' + bs'.length ≤ row.length)) :=
  ⟨⟨0, [zeros 4], [1, 2], by decide +kernel⟩,
   ⟨0, 2, [zeros 4], [1, 2], [3, 4], by decide +kernel⟩⟩

theorem witness_SigningAndRegions :
    (∃ (s : State) (e : Nat) (sg : Seg) (m : Bytes) (rest : List OutItem), (s.chip.engine e).seg = some sg ∧
      sg.items = .sign m :: rest ∧ s.chip.signs = true ∧ sg.signWait = true) ∧
    (∃ (s : State) (e : Nat) (sg : Seg) (m : Bytes) (rest : List OutItem), (s.chip.engine e).seg = some sg ∧
      sg.items = .sign m :: rest ∧ s.chip.signs = true) ∧
    (∃ (s : State) (c : Nat), s.chip.re.regionQueue = [c] ∧ s.chip.jobUsed c = true ∧
      s.chip.lockUsed + (s.chip.job c).footprint ≤ s.chip.lockLimit) ∧
    (∃ (s : State) (c : Nat) (cs : List Nat), s.chip.re.regionQueue = c :: cs ∧
      s.chip.lockLimit < s.chip.lockUsed + (s.chip.job c).footprint) ∧
    (∃ (s : State) (c : Nat) (g : Region), s.chip.region c = some g ∧ g.restoring = true) ∧
    (∃ (s : State) (c : Nat) (g : Region), s.chip.region c = some g) :=
  ⟨⟨{ chip := { segChip { items := [.sign []], signWait := true } {} with ws := { signKey := some 1 } } }, 23,
    { items := [.sign []], signWait := true }, [], [], by decide +kernel⟩,
   ⟨{ chip := { segChip { items := [.sign []] } {} with ws := { signKey := some 1 } } }, 23, { items := [.sign []] },
     [], [], by decide +kernel⟩,
   ⟨{ chip := { re := { regionQueue := [0], jobs := [(0, aCopy)] } } }, 0, by decide +kernel⟩,
   ⟨{ chip := { chipOf [(SC_LOCK.ACCUM_WAYS, 0)] with re := { regionQueue := [0], jobs := [(0, { aCopy with desc := { opcode := 4, stages := 64 }, params := leBytes (2 ^ 20) 4 ++ leBytes 1 2 ++ [1, 0] })] } } },
     0, [], by decide +kernel⟩,
   ⟨{ chip := segChip {} { restoring := true } }, 0, { restoring := true }, by decide +kernel⟩,
   ⟨{ chip := segChip {} {} }, 0, {}, by decide +kernel⟩⟩

theorem witness_PortsTrainAndWake :
    (∃ (s : State) (p : Nat), p < 4 ∧ (s.chip.cnState p = 0 ∨ s.chip.cnState p = 4)) ∧
    (∃ (s : State) (p : Nat) (step : Nat), p < 4 ∧ s.chip.cnTraining p = true ∧ (s.chip.port p).timer = false ∧
      step = s.chip.rd (CN_PORT_STATUS.STEP p) ∧ step < 6 ∧ step ≠ 3 ∧ (step = 4 →
      (s.chip.port p).identHeld = false)) ∧
    (∃ (s : State) (p : Nat), p < 4 ∧ (s.chip.port p).timer = true) ∧
    (∃ (s : State) (p : Nat) (pkg : Nat), p < 4 ∧ s.chip.cnTraining p = true ∧
      s.chip.rd (CN_PORT_STATUS.STEP p) = 4 ∧ (s.chip.port p).timer = false ∧ pkg ≠ s.chip.rd CN_ID.PKG_ID) ∧
    (∃ (s : State) (p : Nat), p < 4 ∧ (s.chip.cnState p = 0 ∨ s.chip.cnState p = 4)) ∧
    (∃ (s : State) (p : Nat), p < 4 ∧ (s.chip.port p).pattern = true) ∧
    (∃ (s : State) (p : Nat), p < 4 ∧ s.chip.pwr.pkg = .run) ∧
    (∃ (p : Nat), p < 4) :=
  ⟨⟨{}, 3, by decide +kernel⟩,
   ⟨{ chip := chipOf [(CN_PORT_STATUS.STATE 3, 1), (CN_PORT_STATUS.STEP 3, 5)] }, 3, 5, by decide +kernel⟩,
   ⟨{ chip := { cn := { ports := [(3, { timer := true })] } } }, 3, by decide +kernel⟩,
   ⟨{ chip := chipOf [(CN_PORT_STATUS.STATE 3, 3), (CN_PORT_STATUS.STEP 3, 4)] }, 3, 7, by decide +kernel⟩,
   ⟨{ chip := chipOf [(CN_PORT_STATUS.STATE 3, 4)] }, 3, by decide +kernel⟩,
   ⟨{ chip := { cn := { ports := [(3, { pattern := true })] } } }, 3, by decide +kernel⟩,
   ⟨{ chip := { pwr := { pkg := .run } } }, 3, by decide +kernel⟩,
   ⟨3, by decide +kernel⟩⟩

/-- A frame with nothing set. -/
def frame0 : Frame :=
  { kind := 0, vc := 0, op := 0, linkSeq := 0, linkAck := 0, last := false, poison := false, sync := false, nak := false,
    dst := 0, src := 0, window := 0, ttl := 0, creditVc := 0, credit := 0, flowSeq := 0, arg := 0, body := [] }

theorem witness_ConosRetransmission :
    (∃ (s : State) (p : Nat) (f : Frame), p < 4 ∧ s.chip.cnState p = 2 ∧ f.nak = false ∧ f.kind ≠ 0 ∧
      (s.chip.port p).waiting = [] ∧ f.linkSeq = (s.chip.port p).rxSeq ∧ f.dst = s.chip.rd CN_ID.PKG_ID) ∧
    (∃ (s : State) (p : Nat), p < 4 ∧ s.chip.cnState p = 2) ∧
    (∃ (s : State) (p : Nat), p < 4 ∧ s.chip.cnState p = 2 ∧ (s.chip.port p).replay ≠ [] ∧
      (s.chip.port p).resends < 8) ∧
    (∃ (s : State) (p : Nat), p < 4 ∧ s.chip.cnState p = 2 ∧ (s.chip.port p).replay ≠ [] ∧
      8 ≤ (s.chip.port p).resends) ∧
    (∃ (s : State) (p : Nat) (ack : Nat) (left : List Frame), p < 4 ∧ s.chip.cnState p = 2 ∧
      left = (s.chip.port p).replay.filter (fun x => !serialLe x.linkSeq ack 16) ∧ left ≠ [] ∧
      left.length < (s.chip.port p).replay.length) ∧
    (∃ (s : State) (peer : Nat) (vc : Nat) (seq : Nat) (left : List Frame), vc < 2 ∧
      (s.chip.flow peer vc).unacked.length ≤ 1024 ∧
      left = (s.chip.flow peer vc).unacked.filter (fun f => !serialLe f.flowSeq seq 32) ∧
      left.length < (s.chip.flow peer vc).unacked.length) ∧
    (∃ (s : State) (peer : Nat) (vc : Nat), vc < 2 ∧ (s.chip.flow peer vc).unacked ≠ [] ∧ s.chip.flt.fatal = false ∧
      (s.chip.flow peer vc).resends < 8) ∧
    (∃ (s : State) (peer : Nat) (vc : Nat) (seq : Nat), vc < 2 ∧ (s.chip.flow peer vc).unacked ≠ [] ∧
      s.chip.flt.fatal = false ∧ (s.chip.flow peer vc).resends < 8 ∧ (∀ f ∈ (s.chip.flow peer vc).unacked,
      serialLe f.flowSeq (wrapSub seq 1 32) 32 = false)) :=
  ⟨⟨{ chip := chipOf [(CN_PORT_STATUS.STATE 3, 2), (CN_ID.PKG_ID, 5)] }, 3, { frame0 with kind := 1, dst := 5 },
    by decide +kernel⟩,
   ⟨{ chip := chipOf [(CN_PORT_STATUS.STATE 3, 2)] }, 3, by decide +kernel⟩,
   ⟨{ chip := { chipOf [(CN_PORT_STATUS.STATE 3, 2)] with cn := { ports := [(3, { replay := [frame0], resends := 7 })] } } },
     3, by decide +kernel⟩,
   ⟨{ chip := { chipOf [(CN_PORT_STATUS.STATE 3, 2)] with cn := { ports := [(3, { replay := [frame0], resends := 8 })] } } },
     3, by decide +kernel⟩,
   ⟨{ chip := { chipOf [(CN_PORT_STATUS.STATE 3, 2)] with cn := { ports := [(3, { replay := [{ frame0 with linkSeq := 65535 }, frame0] })] } } },
     3, 65535, _, by decide +kernel, by decide +kernel, rfl, by decide +kernel⟩,
   ⟨{ chip := { cn := { flows := [(flowKey 16383 1, { unacked := [{ frame0 with flowSeq := 2 ^ 32 - 1 }, frame0] })] } } },
     16383, 1, 2 ^ 32 - 1, _, by decide +kernel, by decide +kernel, rfl, by decide +kernel⟩,
   ⟨{ chip := { cn := { flows := [(flowKey 16383 1, { unacked := [frame0], resends := 7 })] } } }, 16383, 1,
     by decide +kernel⟩,
   ⟨{ chip := { cn := { flows := [(flowKey 16383 1, { unacked := [frame0], resends := 7 })] } } }, 16383, 1, 0,
     by decide +kernel⟩⟩

/-- The machine with Conos enabled, the IOMMU in Bare mode, and window 7 open at 2³⁰ to every peer. -/
def cnChip (w : WinEntry) (rs : Tbl RemoteRead) (ps : Tbl Push) : Chip :=
  { chipOf [(CN_CTRL.ENABLE, 1)] with
    ws := { iommu := [(16, 1)] }
    cn := { windows := [(7, { entry := { w with base := 2 ^ 30, peerHi := 16383 } })], reads := rs, pushes := ps } }

/-- A frame of peer 3 to window 7, the first of its flow. -/
def frame7 : Frame := { frame0 with src := 3, window := 7 }

theorem witness_ConosOperations :
    (∃ (s : State) (f : Frame) (k1 : Chip) (k2 : Chip) (e : WinEntry), s.chip.flowArrives f = (k1, true) ∧
      (k1.flow f.src f.vc).refused = false ∧ (k1.window (k1.stampOp f).1).mapping (k1.stampOp f).2.1 = some e ∧
      e.denies f.src 1 3 (f.arg % 2 ^ 26) f.body.length = false ∧
      k1.dmaWrite e.deviceId (e.base + f.arg % 2 ^ 26) f.body f.poison = (k2, true)) ∧
    (∃ (s : State) (f : Frame) (k1 : Chip) (e : WinEntry), s.chip.flowArrives f = (k1, true) ∧
      (k1.flow f.src f.vc).refused = false ∧ (k1.window (k1.stampOp f).1).mapping (k1.stampOp f).2.1 = some e ∧
      e.denies f.src 1 3 (f.arg % 2 ^ 26) f.body.length = true) ∧
    (∃ (s : State) (f : Frame) (k1 : Chip) (e : WinEntry) (b : Bytes), s.chip.flowArrives f = (k1, true) ∧
      e = (k1.window f.window).entry ∧ 0 < leAt f.body 0 4 ∧ leAt f.body 0 4 ≤ 4096 ∧
      e.denies f.src 1 2 (leAt f.body 4 4) (leAt f.body 0 4) = false ∧
      (k1.ackFlow f).dmaRead [] e.deviceId (e.base + leAt f.body 4 4) (leAt f.body 0 4) = .bytes b) ∧
    (∃ (s : State) (f : Frame) (k1 : Chip) (k2 : Chip) (e : WinEntry) (sl : Nat), s.chip.flowArrives f = (k1, true) ∧
      (k1.flow f.src f.vc).refused = false ∧ f.arg % 2 ^ 21 = 0 ∧ f.last = false ∧
      k1.cn.landings.find (2048 * f.src + f.arg / 2 ^ 21 % 2048) = none ∧
      (k1.window (k1.stampOp f).1).mapping (k1.stampOp f).2.1 = some e ∧
      e.denies f.src 2 0 0 (64 + leAt f.body 32 4) = false ∧ (k1.window (k1.stampOp f).1).freeSlot e = some sl ∧
      k1.dmaWrite e.deviceId (e.base + sl * 2 ^ e.slotLog2 + f.arg % 2 ^ 21) f.body f.poison = (k2, true)) ∧
    (∃ (s : State) (f : Frame) (k1 : Chip) (r : RemoteRead) (h : Nat), s.chip.flowArrives f = (k1, true) ∧
      (k1.ackFlow f).cn.reads.find (f.arg % 65536) = some r ∧ r.peer = f.src ∧ r.got = [] ∧ f.arg / 65536 = 0 ∧
      r.poisoned = false ∧ f.poison = false ∧ 0 < r.len ∧ r.len ≤ 224 ∧ r.hart = some h) ∧
    (∃ (s : State) (f : Frame) (k1 : Chip) (u : Push), s.chip.flowArrives f = (k1, true) ∧
      (k1.ackFlow f).cn.pushes.find (f.arg % 2048) = some u ∧ u.peer = f.src) ∧
    (∃ (s : State) (f : Frame) (k1 : Chip) (tag : Nat) (r : RemoteRead), s.chip.flowArrives f = (k1, true) ∧
      (k1.ackFlow f).cn.pushes.find? (fun e => e.2.peer == f.src && e.2.flowSeq == f.arg) = none ∧
      (k1.ackFlow f).cn.reads.find? (fun e => e.2.peer == f.src && e.2.flowSeq == f.arg) = some (tag, r) ∧
      leAt f.body 0 2 = 2) ∧
    (∃ (s : State) (tag : Nat) (r : RemoteRead), s.chip.cn.reads.find tag = some r ∧ r.hart = none) ∧
    (∃ (s : State) (tag : Nat) (u : Push), s.chip.cn.pushes.find tag = some u ∧ u.job = none ∧
      s.chip.cn.pushQueue = [] ∧ u.fullSince.isSome = true) ∧
    (∃ (s : State) (tag : Nat) (u : Push), s.chip.cn.pushes.find tag = some u ∧ u.job = none ∧
      s.chip.cn.pushQueue = []) :=
  ⟨⟨{ chip := cnChip { kind := 9, sizeLog2 := 12 } [] [] }, { frame7 with body := [1] },
    ((cnChip { kind := 9, sizeLog2 := 12 } [] []).flowArrives { frame7 with body := [1] }).1,
    (((cnChip { kind := 9, sizeLog2 := 12 } [] []).flowArrives { frame7 with body := [1] }).1.dmaWrite 0 (2 ^ 30) [1] false).1,
    { kind := 9, sizeLog2 := 12, base := 2 ^ 30, peerHi := 16383 }, by decide +kernel⟩,
   ⟨{ chip := cnChip { kind := 5, sizeLog2 := 12 } [] [] }, frame7,
     ((cnChip { kind := 5, sizeLog2 := 12 } [] []).flowArrives frame7).1,
     { kind := 5, sizeLog2 := 12, base := 2 ^ 30, peerHi := 16383 }, by decide +kernel⟩,
   ⟨{ chip := cnChip { kind := 5, sizeLog2 := 12 } [] [] }, { frame7 with body := leBytes 1 4 ++ zeros 4 },
     ((cnChip { kind := 5, sizeLog2 := 12 } [] []).flowArrives { frame7 with body := leBytes 1 4 ++ zeros 4 }).1, _,
     [0], by decide +kernel, rfl, by decide +kernel⟩,
   ⟨{ chip := cnChip { kind := 2, sizeLog2 := 13, slotLog2 := 13 } [] [] }, { frame7 with body := [1] },
     ((cnChip { kind := 2, sizeLog2 := 13, slotLog2 := 13 } [] []).flowArrives { frame7 with body := [1] }).1,
     (((cnChip { kind := 2, sizeLog2 := 13, slotLog2 := 13 } [] []).flowArrives { frame7 with body := [1] }).1.dmaWrite 0 (2 ^ 30) [1] false).1,
     { kind := 2, sizeLog2 := 13, slotLog2 := 13, base := 2 ^ 30, peerHi := 16383 }, 0, by decide +kernel⟩,
   ⟨{ chip := cnChip {} [(0, { peer := 3, len := 224, hart := some 287 })] [] }, frame7,
     ((cnChip {} [(0, { peer := 3, len := 224, hart := some 287 })] []).flowArrives frame7).1,
     { peer := 3, len := 224, hart := some 287 }, 287, by decide +kernel⟩,
   ⟨{ chip := cnChip {} [] [(0, { peer := 3 })] }, frame7,
     ((cnChip {} [] [(0, { peer := 3 })]).flowArrives frame7).1, { peer := 3 }, by decide +kernel⟩,
   ⟨{ chip := cnChip {} [(9, { peer := 3 })] [] }, { frame7 with body := [2, 0] },
     ((cnChip {} [(9, { peer := 3 })] []).flowArrives { frame7 with body := [2, 0] }).1, 9, { peer := 3 },
     by decide +kernel⟩,
   ⟨{ chip := cnChip {} [(9, { peer := 3 })] [] }, 9, { peer := 3 }, by decide +kernel⟩,
   ⟨{ chip := cnChip {} [] [(9, { peer := 3, fullSince := some 0 })] }, 9, { peer := 3, fullSince := some 0 },
     by decide +kernel⟩,
   ⟨{ chip := cnChip {} [] [(9, { peer := 3 })] }, 9, { peer := 3 }, by decide +kernel⟩⟩

theorem witness_ApertureAndTables :
    (∃ (s : State) (addr : Nat) (bs : Bytes), inAperture addr = true ∧ s.chip.on CN_CTRL.ENABLE = true ∧
      s.chip.flt.fatal = false ∧ (apertureParts addr).1 = s.chip.rd CN_ID.PKG_ID ∧ bs ≠ [] ∧ bs.length ≤ 224) ∧
    (∃ (s : State) (addr : Nat) (who : By), inAperture addr = true ∧ s.chip.reachable (apertureParts addr).1 = true ∧
      who.source ≠ 0) ∧
    (∃ (s : State) (w : Nat) (e : WinEntry), w < 1024 ∧ e = WinEntry.ofBytes (s.chip.indBytes CN_IND_DATA.DATA 4) ∧
      e.valid = true) ∧
    (∃ (p : Nat), p < 16384) ∧
    (∃ (w : Nat), w < 1024) ∧
    (∃ (s : State) (w : Nat), w < 1024 ∧ (s.chip.window w).draining = true ∧ s.chip.olderInFlight w = false) :=
  ⟨⟨{ chip := cnChip {} [] [] }, 2 ^ 51, [1], by decide +kernel⟩,
   ⟨{ chip := cnChip {} [] [] }, 2 ^ 51, { source := 8, id := 0, w := 0 }, by decide +kernel⟩,
   ⟨{ chip := chipOf [(CN_IND_DATA.DATA 1, 0x010C)] }, 1023, _, by decide +kernel, rfl, by decide +kernel⟩,
   ⟨16383, by decide +kernel⟩,
   ⟨1023, by decide +kernel⟩,
   ⟨{ chip := { cn := { windows := [(1023, { draining := true, gen := 1, old := [(0, {}, 0)] })] } } }, 1023,
     by decide +kernel⟩⟩

theorem witness_FunctionService :
    (∃ (s : State) (f : Nat), f < 256 ∧ s.chip.fnEnabled f = true) ∧
    (∃ (s : State) (speed : Nat) (width : Nat), s.chip.on HF_CTRL.LINK_EN = true ∧ s.chip.pwr.gatedEndpoint = false ∧
      s.chip.pwr.pkg.powered = true ∧ s.chip.rd HF_CTRL.TARGET_SPEED = 0 ∧ speed ≤ 6 ∧ width ≤ 16) :=
  ⟨⟨{ chip := { chipOf [(HF_FN_CTRL.ALLOW 255, 1)] with hf := { vfEnable := true, numVfs := 255, fns := [(255, { busMaster := true })] } } },
    255, by decide +kernel⟩,
   ⟨{ chip := { chipOf [(HF_CTRL.LINK_EN, 1), (HF_CTRL.TARGET_SPEED, 0)] with pwr := { pkg := .run } } }, 6, 16,
     by decide +kernel⟩⟩

theorem witness_HostReadsAndMessages :
    (∃ (s : State) (fn : Nat) (tag : Nat) (g : HostTag) (data : Bytes),
      s.chip.hf.tags.find (tagKey' fn tag) = some g ∧ g.got = [] ∧ g.quarantined = false ∧ g.use ≠ .dropped ∧
      g.poisoned = false ∧ data.length = g.len ∧ s.chip.hf.queue = []) ∧
    (∃ (s : State) (fn : Nat) (tag : Nat), s.chip.hf.tags.find (tagKey' fn tag) = none) ∧
    (∃ (s : State) (fn : Nat) (tag : Nat) (g : HostTag), s.chip.hf.tags.find (tagKey' fn tag) = some g ∧
      s.chip.hf.queue = [] ∧ g.quarantined = true) ∧
    (∃ (s : State) (fn : Nat) (tag : Nat) (g : HostTag) (c : Nat), s.chip.hf.tags.find (tagKey' fn tag) = some g ∧
      s.chip.hf.queue = [] ∧ g.quarantined = false ∧ g.use = .readAhead c) ∧
    (∃ (s : State) (fn : Nat) (v : Nat) (e : Vector), (s.chip.hostFn fn).msixOn = true ∧
      (s.chip.hostFn fn).mask = false ∧ e = Tbl.get {} (s.chip.hostFn fn).vectors v ∧ e.pending = true) ∧
    (∃ (fn : Nat) (off : Nat), barDefined fn off = false) ∧
    (∃ (s : State) (fn : Nat) (off : Nat), off < 256 ∧ (s.chip.ring (32 * fn + off / 8)).internal = true) ∧
    (∃ (s : State), s.chip.rd HF_PM.L1_IDLE ≠ 0 ∧ s.chip.on HF_STATUS.LINK_UP = true ∧ bit s.chip.hf.aspm 1 = true ∧
      s.chip.hf.queue = [] ∧ s.chip.hf.tags = [] ∧ s.chip.noHostSegment = true ∧ s.chip.rd HF_STATUS.LSTATE < 2) ∧
    (∃ (s : State), s.chip.on HF_STATUS.LINK_UP = true ∧ s.chip.on HF_STATUS.FLIT = false ∧
      bit s.chip.hf.aspm 0 = true ∧ s.chip.hf.queue = [] ∧ s.chip.rd HF_STATUS.LSTATE = 0) :=
  ⟨⟨{ chip := { hf := { tags := [(tagKey' 255 767, { fn := 255, use := .param 0, len := 1 })] } } }, 255, 767,
    { fn := 255, use := .param 0, len := 1 }, [9], by decide +kernel⟩,
   ⟨{}, 255, 1023, by decide +kernel⟩,
   ⟨{ chip := { hf := { tags := [(tagKey' 255 767, { quarantined := true })] } } }, 255, 767,
     { quarantined := true }, by decide +kernel⟩,
   ⟨{ chip := { hf := { tags := [(tagKey' 255 767, { use := .readAhead 4 })] } } }, 255, 767,
     { use := .readAhead 4 }, 4, by decide +kernel⟩,
   ⟨{ chip := { hf := { fns := [(255, { msixOn := true, vectors := [(2047, { pending := true })] })] } } }, 255,
     2047, _, by decide +kernel, by decide +kernel, rfl, by decide +kernel⟩,
   ⟨255, 256, by decide +kernel⟩,
   ⟨{ chip := { re := { rings := [(8191, { flags := 2 })] } } }, 255, 255, by decide +kernel⟩,
   ⟨{ chip := { chipOf [(HF_PM.L1_IDLE, 1), (HF_STATUS.LINK_UP, 1), (HF_STATUS.LSTATE, 1)] with hf := { aspm := 2 } } },
     by decide +kernel⟩,
   ⟨{ chip := { chipOf [(HF_STATUS.LINK_UP, 1), (HF_STATUS.LSTATE, 0)] with hf := { aspm := 1 } } },
     by decide +kernel⟩⟩

/-- The machine with the table data `b` and the target entry `t` at 4,095. -/
def mqChip (b : Bytes) (t : Target) (cs : Tbl MediaCmd) : Chip :=
  { chipOf [(MQ_CTRL.ENABLE, 1), (MQ_TIMEOUT.RETRIES, 1), (MQ_IND_DATA.DATA 0, leAt b 0 8), (MQ_IND_DATA.DATA 1, leAt b 8 8),
      (MQ_IND_DATA.DATA 2, leAt b 16 8), (MQ_IND_DATA.DATA 3, leAt b 24 8)] with
    mq := { targets := [(4095, t)], cmds := cs } }

theorem witness_MediaTablesAndDrives :
    (∃ (s : State) (i : Nat) (b : Bytes) (g : Target), i < 4096 ∧ b = s.chip.indBytes MQ_IND_DATA.DATA 4 ∧
      targetValuesGood b = true ∧ g = s.chip.target i ∧ g.state = 0 ∧ (g.written b).enabled = false) ∧
    (∃ (s : State) (i : Nat) (b : Bytes) (g : Target), i < 4096 ∧ b = s.chip.indBytes MQ_IND_DATA.DATA 4 ∧
      targetValuesGood b = true ∧ g = s.chip.target i ∧ g.state = 0 ∧ (g.written b).enabled = true ∧
      g.enabled = false ∧ s.chip.on MQ_CTRL.ENABLE = true) ∧
    (∃ (s : State) (i : Nat) (b : Bytes) (q : QPair), i < 8192 ∧ b = s.chip.indBytes MQ_IND_DATA.DATA 4 ∧
      qpairValuesGood b = true ∧ q = s.chip.qpair i ∧ (s.chip.target q.target).active = false) ∧
    (∃ (i : Nat), i < 4096) ∧
    (∃ (s : State) (n : Nat) (c : MediaCmd) (ps : List Nat) (k : Chip), s.chip.mq.cmds.find n = some c ∧
      c.use = .flush ps ∧ c.retries < s.chip.rd MQ_TIMEOUT.RETRIES ∧
      k = s.chip.mqEvent MQ_EVENT.TIMEOUT c.target (s.chip.target c.target).port 0) ∧
    (∃ (s : State) (n : Nat) (m : Nat) (c : MediaCmd), s.chip.mq.cmds.find n = some c ∧ c.use = .abort m) ∧
    (∃ (port : Nat), port < 32) ∧
    (∃ (port : Nat), port < 32) :=
  ⟨⟨{ chip := mqChip (zeros 8 ++ [9, 0, 0, 0, 1] ++ zeros 19) { rr := 1 } [] }, 4095, _, _, by decide +kernel, rfl,
    by decide +kernel, rfl, by decide +kernel⟩,
   ⟨{ chip := mqChip ([31, 7] ++ zeros 6 ++ [12, 16, 0xF7, 0x1F, 8] ++ zeros 19) {} [] }, 4095, _, _,
     by decide +kernel, rfl, by decide +kernel, rfl, by decide +kernel⟩,
   ⟨{ chip := mqChip (zeros 16 ++ [12, 7, 0xFF, 0x0F] ++ zeros 12) {} [] }, 8191, _, _, by decide +kernel, rfl,
     by decide +kernel, rfl, by decide +kernel⟩,
   ⟨4095, by decide +kernel⟩,
   ⟨{ chip := mqChip [] {} [(4, { use := .flush [2] })] }, 4, { use := .flush [2] }, [2], _, by decide +kernel,
     by decide +kernel, by decide +kernel, rfl⟩,
   ⟨{ chip := mqChip [] {} [(4, { use := .abort 2 })] }, 4, 2, { use := .abort 2 }, by decide +kernel⟩,
   ⟨31, by decide +kernel⟩,
   ⟨31, by decide +kernel⟩⟩

theorem witness_QueuePairs :
    (∃ (s : State) (p : Nat) (cid : Nat) (n : Nat) (c' : Nat) (c : MediaCmd), bit (s.chip.qpair p).flags 1 = true ∧
      s.chip.mq.cmds.find? (fun e => e.2.qp == p && e.2.cid == cid) = some (n, c) ∧ c.use = .pass c') ∧
    (∃ (s : State) (p : Nat) (cid : Nat) (n : Nat) (c : MediaCmd) (ps : List Nat) (k : Chip),
      bit (s.chip.qpair p).flags 1 = false ∧ s.chip.mq.cmds.find? (fun e => e.2.qp == p && e.2.cid == cid) = some (n,
      c) ∧ c.use = .flush ps ∧
      k = (s.chip.setQpair p fun q => { q with cqHead := (q.cqHead + 1) % 2 ^ q.qlog2 }).emit (.driveDoorbell p true (((s.chip.qpair p).cqHead + 1) % 2 ^ (s.chip.qpair p).qlog2))) ∧
    (∃ (s : State) (p : Nat) (q : QPair) (e : Bytes), q = s.chip.qpair p ∧ bit q.flags 1 = true ∧
      bit q.flags 0 = true ∧ s.chip.on MQ_CTRL.ENABLE = true ∧ 0 < q.qlog2 ∧
      e = s.chip.load (q.sqBase + 64 * (q.sqTail % 2 ^ q.qlog2)) 64) ∧
    (∃ (s : State) (p : Nat) (q : QPair), q = s.chip.qpair p ∧ bit q.flags 1 = true ∧ bit q.flags 0 = true ∧
      s.chip.on MQ_CTRL.ENABLE = true) :=
  ⟨⟨{ chip := { mq := { qps := [(8191, { flags := 3, qlog2 := 4 })], cmds := [(4, { qp := 8191, cid := 2, use := .pass 6 })] } } },
    8191, 2, 4, 6, { qp := 8191, cid := 2, use := .pass 6 }, by decide +kernel⟩,
   ⟨{ chip := { mq := { qps := [(8191, { flags := 1, qlog2 := 4 })], cmds := [(4, { qp := 8191, cid := 2 })] } } },
     8191, 2, 4, { qp := 8191, cid := 2 }, [], _, by decide +kernel, by decide +kernel, by decide +kernel, rfl⟩,
   ⟨{ chip := { chipOf [(MQ_CTRL.ENABLE, 1)] with mq := { qps := [(8191, { flags := 3, qlog2 := 12 })] } } }, 8191,
     _, _, rfl, by decide +kernel, by decide +kernel, by decide +kernel, by decide +kernel, rfl⟩,
   ⟨{ chip := { chipOf [(MQ_CTRL.ENABLE, 1)] with mq := { qps := [(8191, { flags := 3, qlog2 := 12 })] } } }, 8191,
     _, rfl, by decide +kernel⟩⟩

theorem witness_KloeskRegistersAndTraps :
    (∃ (s : State) (h : Nat), (s.chip.hart h).haltPending = false) ∧
    (∃ (s : State) (h : Nat) (value : Nat) (mode : Mode), (mode = .m ∨ (mode = .s ∧
      (s.chip.hart h).tagLo ≤ value % 256 ∧ value % 256 ≤ (s.chip.hart h).tagHi))) ∧
    (∃ (s : State) (h : Nat) (value : Nat), (value % 256 < (s.chip.hart h).tagLo ∨
      (s.chip.hart h).tagHi < value % 256)) ∧
    (∃ (csr : Nat) (mode : Mode) (isWrite : Bool), csrAllowed csr mode isWrite = false) ∧
    (∃ (s : State), s.chip.stubInForce = false) ∧
    (∃ (s : State) (h : Nat), (s.chip.hart h).haltPending = false) ∧
    (∃ (g : Hart) (cause : Nat) (mepc : Nat) (tval : Nat) (nid : Bool) (r : Hart), g.haltPending = false ∧
      r = (g.trap cause mepc (modeBits g.mode).1 (modeBits g.mode).2 tval).mret nid ∧ g.w = 1) ∧
    (∃ (g : Hart) (cause : Nat) (mepc : Nat) (tval : Nat) (nid : Bool) (r : Hart), g.haltPending = false ∧
      r = (g.trap cause mepc (modeBits g.mode).1 (modeBits g.mode).2 tval).mret nid) :=
  ⟨⟨{}, 287, by decide +kernel⟩,
   ⟨{ chip := { harts := [(287, { tagLo := 3, tagHi := 9 })] } }, 287, 9, .s, by decide +kernel⟩,
   ⟨{ chip := { harts := [(287, { tagLo := 3, tagHi := 9 })] } }, 287, 10, by decide +kernel⟩,
   ⟨0x7C0, .s, true, by decide +kernel⟩,
   ⟨{}, by decide +kernel⟩,
   ⟨{}, 287, by decide +kernel⟩,
   ⟨{ w := 1, mode := .u }, 8, 16, 0, true, _, by decide +kernel, rfl, by decide +kernel⟩,
   ⟨{ mode := .vs }, 8, 16, 0, true, _, by decide +kernel, rfl⟩⟩

/-- The machine with hart 287 online on C-die 11, and line 2²⁴ there in state `x`. -/
def hartChip (x : Line) : Chip :=
  { harts := [(287, { online := true })], flt := { dies := [(11, { inService := true })] },
    coh := { die := Tbl.set {} [] (cohKey (2 ^ 24) 11) { st := x } } }

theorem witness_HartAccesses :
    (∃ (s : State) (h : Nat), (s.chip.hart h).online = false) ∧
    (∃ (s : State) (h : Nat) (addr : Nat), (s.chip.hart h).online = true ∧ (s.chip.hart h).w = 1 ∧
      addr < s.chip.secureTop) ∧
    (∃ (s : State) (h : Nat) (addr : Nat) (size : Nat) (l : Nat) (d : Nat), (s.chip.hart h).online = true ∧
      ((s.chip.hart h).w ≠ 1 ∨ s.chip.secureTop ≤ addr) ∧ addr + size ≤ s.chip.dramSize ∧ 0 < size ∧
      addr % 64 + size ≤ 64 ∧ l = addr / 64 ∧ d = s.chip.hartDie h ∧ s.chip.coh.waits.find (cohKey l d) = none ∧
      s.chip.coh.evict.find (cohKey l d) = none ∧ s.chip.coh.heldSnoops = [] ∧ (s.chip.dieLine l d).st ≠ .i ∧
      s.chip.diePoison l d = false) ∧
    (∃ (s : State) (h : Nat) (addr : Nat) (size : Nat) (l : Nat) (d : Nat), (s.chip.hart h).online = true ∧
      ((s.chip.hart h).w ≠ 1 ∨ s.chip.secureTop ≤ addr) ∧ addr + size ≤ s.chip.dramSize ∧ 0 < size ∧
      addr % 64 + size ≤ 64 ∧ l = addr / 64 ∧ d = s.chip.hartDie h ∧ s.chip.coh.waits.find (cohKey l d) = none ∧
      s.chip.coh.evict.find (cohKey l d) = none ∧ s.chip.coh.heldSnoops = [] ∧ (s.chip.dieLine l d).st = .i) ∧
    (∃ (s : State) (h : Nat) (addr : Nat) (size : Nat) (l : Nat) (d : Nat) (data : Bytes),
      (s.chip.hart h).online = true ∧ ((s.chip.hart h).w ≠ 1 ∨ s.chip.secureTop ≤ addr) ∧
      addr + size ≤ s.chip.dramSize ∧ 0 < size ∧ addr % 64 + size ≤ 64 ∧ l = addr / 64 ∧ d = s.chip.hartDie h ∧
      s.chip.coh.waits.find (cohKey l d) = none ∧ s.chip.coh.evict.find (cohKey l d) = none ∧
      s.chip.coh.heldSnoops = [] ∧ ((s.chip.dieLine l d).st = .m ∨ (s.chip.dieLine l d).st = .e) ∧
      data.length = size ∧ (s.chip.dieBytes l d).length = 64) ∧
    (∃ (s : State) (h : Nat) (addr : Nat) (size : Nat), (s.chip.hart h).online = true ∧ ((s.chip.hart h).w ≠ 1 ∨
      s.chip.secureTop ≤ addr) ∧ s.chip.area addr = .imsic ∧ size = 4 ∧ addr % 4 = 0) :=
  ⟨⟨{}, 287, by decide +kernel⟩,
   ⟨{ chip := { chipOf [(WS_SECURE_TOP.TOP, 1)] with harts := [(287, { online := true, w := 1 })] } }, 287,
     2 ^ 26 - 1, by decide +kernel⟩,
   ⟨{ chip := hartChip .s }, 287, 2 ^ 30 + 56, 8, _, _, by decide +kernel, by decide +kernel, by decide +kernel,
     by decide +kernel, by decide +kernel, rfl, rfl, by decide +kernel⟩,
   ⟨{ chip := hartChip .i }, 287, 2 ^ 30 + 56, 8, _, _, by decide +kernel, by decide +kernel, by decide +kernel,
     by decide +kernel, by decide +kernel, rfl, rfl, by decide +kernel⟩,
   ⟨{ chip := hartChip .e }, 287, 2 ^ 30 + 63, 1, _, _, [7], by decide +kernel, by decide +kernel, by decide +kernel,
     by decide +kernel, by decide +kernel, rfl, rfl, by decide +kernel⟩,
   ⟨{ chip := hartChip .i }, 287, 0xF_D100_008F_FFFC, 4, by decide +kernel⟩⟩

theorem witness_MsisAndMoves :
    (∃ (s : State) (addr : Nat) (data : Nat) (h : Nat) (f : Nat) (who : By), fileOf addr = some (h, f) ∧ (f ≠ 0 ∨
      who.w ≠ 1) ∧ addr % 4096 = 0 ∧ 1 ≤ data ∧ data ≤ 2047 ∧ f ≤ 8 ∧ (s.chip.hart h).moving = none ∧
      (s.chip.hart h).online = true) ∧
    (∃ (s : State) (addr : Nat) (h : Nat) (f : Nat) (who : By) (moving : Nat × Nat), fileOf addr = some (h, f) ∧
      (f ≠ 0 ∨ who.w ≠ 1) ∧ addr % 4096 = 0 ∧ (s.chip.hart h).moving = some moving) ∧
    (∃ (addr : Nat) (h : Nat) (who : By), fileOf addr = some (h, 0) ∧ who.w = 1) ∧
    (∃ (s : State) (h : Nat) (tl : Nat) (c : Instr), (c = .coreFault h ∨ c = .hartHangTimeout h) ∧
      (s.chip.hart h).online = true ∧ (s.chip.hart h).ptile = some tl) ∧
    (∃ (s : State) (h : Nat) (tl : Nat) (reason : Nat), (s.chip.hart h).moving = some (tl, reason) ∧ reason ≤ 2) ∧
    (∃ (s : State) (h : Nat) (tl : Nat) (reason : Nat), (s.chip.hart h).moving = some (tl, reason) ∧ 2 < reason ∧
      (s.chip.hart h).heldMsis = []) :=
  ⟨⟨{ chip := hartChip .i }, 0xF_D100_008F_F000, 2047, 287, 8, { source := 0, id := 287, w := 1 }, by decide +kernel⟩,
   ⟨{ chip := { harts := [(0, { moving := some (0, 1) })] } }, 0xF_D000_0000_0000, 0, 0,
     { source := 0, id := 0, w := 0 }, (0, 1), by decide +kernel⟩,
   ⟨0xF_D000_0011_F000, 287, { source := 0, id := 0, w := 1 }, by decide +kernel⟩,
   ⟨{ chip := { harts := [(287, { online := true, ptile := some 335 })] } }, 287, 335, .coreFault 287,
     by decide +kernel⟩,
   ⟨{ chip := { harts := [(287, { moving := some (335, 2) })] } }, 287, 335, 2, by decide +kernel⟩,
   ⟨{ chip := { harts := [(287, { moving := some (335, 3) })] } }, 287, 335, 3, by decide +kernel⟩⟩

theorem witness_CacheEvents :
    ∃ (s : State) (unit : Nat) (line : Nat) (b : Bytes), (s.chip.dieLine line (unit / 28)).st ≠ .i ∧
      b = s.chip.dieBytes line (unit / 28) :=
  ⟨{ chip := hartChip .m }, 335, 2 ^ 24, _, by decide +kernel, rfl⟩

/-- A request of C-die 11 for line 2²⁴, which the normal world sends. -/
def msg11 : CohMsg := { die := 11, line := 2 ^ 24, who := { source := 0, id := 287, w := 1 }, exclOk := true }

/-- The machine with C-die 11 in service and the home of that line as given. -/
def homeChip (h : Tbl HomeLine) (present : List Nat) (x : DieLine) : Chip :=
  { chipOf [(HA_CTRL.AMO_MODE, 2)] with
    flt := { dies := [(11, { inService := true })] }
    coh := { die := Tbl.set {} [] (cohKey (2 ^ 24) 11) x, dir := Tbl.set {} [] (2 ^ 21) { present := present, lines := h } } }

theorem witness_HomeGrantsFreeLines :
    (∃ (s : State) (m : CohMsg) (excl : Bool), s.chip.HomeQuiet ∧ s.chip.Serves m ∧ s.chip.homeLine m.line = .none ∧
      s.chip.presentDies m.line = [] ∧ s.chip.coh.wrData = [] ∧ excl = (m.exclOk && s.chip.on HA_CTRL.EXCL_READ)) ∧
    (∃ (s : State) (m : CohMsg), s.chip.HomeQuiet ∧ s.chip.Serves m ∧ s.chip.homeLine m.line = .none ∧
      s.chip.presentDies m.line = [] ∧ s.chip.coh.wrData = []) ∧
    (∃ (s : State) (m : CohMsg) (op : AmoOp) (size : Nat) (off : Nat) (old : Nat), s.chip.HomeQuiet ∧
      s.chip.Serves m ∧ s.chip.homeLine m.line = .none ∧ s.chip.presentDies m.line = [] ∧ s.chip.coh.wrData = [] ∧
      s.chip.rd HA_CTRL.AMO_MODE = 2 ∧ amoNear op size = false ∧ s.chip.linePoison m.line = false ∧
      old = leAt (memBytes s.chip.mem (64 * m.line) 64) off size) ∧
    (∃ (s : State) (m : CohMsg) (c : Instr), s.chip.HomeQuiet ∧ s.chip.Serves m ∧ s.chip.homeLine m.line = .none ∧
      s.chip.presentDies m.line = [] ∧ s.chip.coh.wrData = [] ∧ (c = .cmoClean m ∨ c = .cmoFlush m ∨
      c = .cmoInval m)) ∧
    (∃ (s : State) (m : CohMsg), s.chip.HomeQuiet ∧ s.chip.Serves m ∧ s.chip.homeLine m.line = .none ∧
      s.chip.presentDies m.line = [] ∧ s.chip.coh.wrData = []) :=
  ⟨⟨{ chip := homeChip [] [] {} }, msg11, _, by unfold Chip.HomeQuiet; decide +kernel,
    by unfold Chip.Serves; decide +kernel, by decide +kernel, by decide +kernel, by decide +kernel, rfl⟩,
   ⟨{ chip := homeChip [] [] {} }, msg11, by unfold Chip.HomeQuiet; decide +kernel,
     by unfold Chip.Serves; decide +kernel, by decide +kernel⟩,
   ⟨{ chip := homeChip [] [] {} }, msg11, .add, 8, 56, _, by unfold Chip.HomeQuiet; decide +kernel,
     by unfold Chip.Serves; decide +kernel, by decide +kernel, by decide +kernel, by decide +kernel,
     by decide +kernel, by decide +kernel, by decide +kernel, rfl⟩,
   ⟨{ chip := homeChip [] [] {} }, msg11, .cmoClean msg11, by unfold Chip.HomeQuiet; decide +kernel,
     by unfold Chip.Serves; decide +kernel, by decide +kernel⟩,
   ⟨{ chip := homeChip [] [] {} }, msg11, by unfold Chip.HomeQuiet; decide +kernel,
     by unfold Chip.Serves; decide +kernel, by decide +kernel⟩⟩

theorem witness_HomeSnoopsAndEvictions :
    (∃ (s : State) (m : CohMsg) (x : Nat) (c : Instr) (sn : Snoop) (req : HomeReq), s.chip.HomeQuiet ∧
      s.chip.Serves m ∧ x ≠ m.die ∧ s.chip.homeLine m.line = .owned x ∧ s.chip.presentDies m.line = [x] ∧
      ((c = .rdShared m ∧ sn = .shared ∧ req = .rdShared m.exclOk) ∨ (c = .rdUnique m ∧ sn = .unique ∧
      req = .rdUnique) ∨ (c = .rdOnce m ∧ sn = .once ∧ req = .rdOnce) ∨ (c = .own m true ∧ sn = .inv ∧
      req = .own true) ∨ (c = .own m false ∧ sn = .unique ∧ req = .rdUnique) ∨ (c = .cmoClean m ∧ sn = .clean ∧
      req = .cmo 0) ∨ (c = .cmoFlush m ∧ sn = .inv ∧ req = .cmo 1) ∨ (c = .cmoInval m ∧ sn = .inv ∧ req = .cmo 2))) ∧
    (∃ (s : State) (m : CohMsg) (x : Nat), s.chip.HomeQuiet ∧ s.chip.Serves m ∧ x ≠ m.die ∧
      s.chip.homeLine m.line = .shared ∧ s.chip.presentDies m.line = [m.die]) ∧
    (∃ (s : State) (m : CohMsg), s.chip.HomeQuiet ∧ s.chip.Serves m ∧ s.chip.homeLine m.line = .shared ∧
      (s.chip.dieLine m.line m.die).st = .s ∧ (s.chip.dieLine m.line m.die).locked = none ∧
      s.chip.coh.evict.find (cohKey m.line m.die) = none ∧ s.chip.coh.waits.find (cohKey m.line m.die) = none) ∧
    (∃ (s : State) (m : CohMsg) (b : Bytes), s.chip.HomeQuiet ∧ s.chip.Serves m ∧
      s.chip.homeLine m.line = .owned m.die ∧ (s.chip.dieLine m.line m.die).st = .m ∧
      (s.chip.dieLine m.line m.die).data = some b ∧ b.length = 64 ∧ (s.chip.dieLine m.line m.die).locked = none ∧
      s.chip.coh.evict.find (cohKey m.line m.die) = none ∧ s.chip.coh.waits.find (cohKey m.line m.die) = none) ∧
    (∃ (s : State) (d : Nat) (l : Nat), s.chip.coh.waits.find (cohKey l d) = none ∧ s.chip.coh.heldSnoops = []) :=
  ⟨⟨{ chip := homeChip [(0, .owned 0)] [0] {} }, msg11, 0, .own msg11 false, .unique, .rdUnique,
    by unfold Chip.HomeQuiet; decide +kernel, by unfold Chip.Serves; decide +kernel, by decide +kernel⟩,
   ⟨{ chip := homeChip [(0, .shared)] [11] {} }, msg11, 0, by unfold Chip.HomeQuiet; decide +kernel,
     by unfold Chip.Serves; decide +kernel, by decide +kernel⟩,
   ⟨{ chip := homeChip [(0, .shared)] [11] { st := .s } }, msg11, by unfold Chip.HomeQuiet; decide +kernel,
     by unfold Chip.Serves; decide +kernel, by decide +kernel⟩,
   ⟨{ chip := homeChip [(0, .owned 11)] [11] { st := .m, data := some (zeros 64) } }, msg11, zeros 64,
     by unfold Chip.HomeQuiet; decide +kernel, by unfold Chip.Serves; decide +kernel, by decide +kernel⟩,
   ⟨{}, 11, 2 ^ 37 - 1, by decide +kernel⟩⟩

theorem witness_SnoopsFollowTheTable :
    ∃ (s : State) (d : Nat) (l : Nat) (c : Instr) (sn : Snoop) (st : Line) (data : Bool), ((c = .snpShared d l ∧
      sn = .shared) ∨ (c = .snpUnique d l ∧ sn = .unique) ∨ (c = .snpOnce d l ∧ sn = .once) ∨ (c = .snpInv d l ∧
      sn = .inv) ∨ (c = .snpClean d l ∧ sn = .clean)) ∧ s.chip.dieUp d = true ∧
      s.chip.coh.grants.find (cohKey l d) = none ∧ s.chip.coh.evict.find (cohKey l d) = none ∧
      (s.chip.dieLine l d).lrHold = none ∧ s.chip.coh.heldSnoops = [] ∧ snoopTable sn (s.chip.dieLine l d).st = (st,
      data) :=
  ⟨{ chip := homeChip [] [] { st := .m } }, 11, 2 ^ 24, .snpUnique 11 (2 ^ 24), .unique, .i, true, by decide +kernel⟩

/-- The machine with an answer and a grant for line 5 under way between its home, which serves a request, and C-die 11. -/
def talkChip (a : SnpAns) (b : Busy) (g : Grant) : Chip :=
  { coh := { answers := Tbl.set {} [] (cohKey 5 11) a, busy := [(5, b)], grants := Tbl.set {} [] (cohKey 5 11) g } }

/-- A read for ownership of C-die 11 that awaits the dies `ds`. -/
def busyWith (ds : List Nat) : Busy := { item := { die := 11, who := { source := 0, id := 0, w := 0 }, req := .rdUnique }, awaiting := ds }

theorem witness_AnswersAndGrants :
    (∃ (s : State) (d : Nat) (l : Nat) (a : SnpAns) (b : Busy) (c : Instr), (c = .snpResp d l ∨ c = .snpData d l) ∧
      s.chip.coh.answers.find (cohKey l d) = some a ∧ a.empty = false ∧ a.dirty = false ∧
      s.chip.coh.busy = [(l, b)] ∧ b.blocked = none ∧ b.granted = false ∧ b.awaiting.filter (· != d) ≠ []) ∧
    (∃ (s : State) (d : Nat) (l : Nat) (a : SnpAns) (b : Busy) (c : Instr), (c = .snpResp d l ∨ c = .snpData d l) ∧
      s.chip.coh.answers.find (cohKey l d) = some a ∧ a.empty = false ∧ a.superseded = false ∧
      s.chip.coh.busy = [(l, b)] ∧ b.blocked = none ∧ b.granted = false ∧ b.needData = false ∧ b.awaiting = [d] ∧
      b.item.req = .rdUnique ∧ b.dirty = false ∧ b.data = none ∧ b.poison = false) ∧
    (∃ (s : State) (d : Nat) (l : Nat) (b : Busy), s.chip.coh.busy = [(l, b)] ∧ b.granted = true ∧ b.item.die = d ∧
      b.waiting = []) ∧
    (∃ (s : State) (d : Nat) (l : Nat) (g : Grant), s.chip.coh.grants.find (cohKey l d) = some g ∧ g.st ≠ .i ∧
      s.chip.coh.waits.find (cohKey l d) = none ∧ s.chip.coh.heldSnoops = [] ∧ g.comp = true) ∧
    (∃ (s : State) (d : Nat) (l : Nat) (g : Grant), s.chip.coh.grants.find (cohKey l d) = some g ∧ g.st ≠ .i ∧
      s.chip.coh.waits.find (cohKey l d) = none ∧ s.chip.coh.heldSnoops = [] ∧ g.comp = false) ∧
    (∃ (s : State) (d : Nat) (l : Nat) (way : StashWay), s.chip.stashFits l d way = false) ∧
    (∃ (s : State) (d : Nat) (l : Nat), s.chip.stashFits l d .open = true) ∧
    (∃ (s : State) (l : Nat), s.chip.HomeQuiet ∧ s.chip.homeLine l = .none) ∧
    (∃ (s : State) (d : Nat) (l : Nat), (s.chip.coh.heldSnoops.find (cohKey l d)) = none) ∧
    (∃ (s : State) (x : Nat), s.chip.HomeQuiet ∧ x < 12 ∧ s.chip.dieUp x = true) :=
  ⟨⟨{ chip := talkChip { st := .s } (busyWith [0, 11]) {} }, 11, 5, { st := .s }, busyWith [0, 11], .snpData 11 5,
    by decide +kernel⟩,
   ⟨{ chip := talkChip { st := .s } (busyWith [11]) {} }, 11, 5, { st := .s }, busyWith [11], .snpResp 11 5,
     by decide +kernel⟩,
   ⟨{ chip := talkChip {} { busyWith [] with granted := true } {} }, 11, 5, { busyWith [] with granted := true },
     by decide +kernel⟩,
   ⟨{ chip := talkChip {} (busyWith []) { st := .m, comp := true } }, 11, 5, { st := .m, comp := true },
     by decide +kernel⟩,
   ⟨{ chip := talkChip {} (busyWith []) { st := .e } }, 11, 5, { st := .e }, by decide +kernel⟩,
   ⟨{}, 11, 5, .staging 23, by decide +kernel⟩,
   ⟨{ chip := homeChip [] [] {} }, 11, 5, by decide +kernel⟩,
   ⟨{}, 5, by unfold Chip.HomeQuiet; decide +kernel, by decide +kernel⟩,
   ⟨{}, 11, 5, by decide +kernel⟩,
   ⟨{ chip := homeChip [] [] {} }, 11, by unfold Chip.HomeQuiet; decide +kernel, by decide +kernel⟩⟩

theorem witness_MeshRoutesShorten :
    ∃ (w : Nat) (at_ : Nat) (dst : Nat) (n : Nat) (l : Nat), 0 < w ∧ at_ ≠ dst ∧ meshNext w false at_ dst = (n, l) :=
  ⟨5, 0, 34, 1, 0, by decide +kernel⟩

/-- A flit for the stop with number `dst`. -/
def flitTo (dst : Nat) : Flit := { net := 0, vc := 0, src := 0, dst := dst, seq := 0, route := [], data := 0 }

theorem witness_NetworkFlits :
    (∃ (s : State) (d : Nat) (stop : Nat) (n : Nat) (link : Option Nat) (f : Flit), d < 13 ∧ stop < 256 ∧
      f.route = [] ∧ f.dst ≠ 256 * d + stop ∧ s.chip.nextHop (256 * d + stop) f.src f.dst = some (n, link) ∧
      (s.chip.nocDie d).links = [] ∧ (s.chip.nocDie d).routers = []) ∧
    (∃ (s : State) (d : Nat) (stop : Nat) (net : Nat) (f : Flit), d < 13 ∧ stop < 256 ∧ f.dst = 256 * d + stop ∧
      f.seq % 1024 = (Tbl.get {} s.chip.noc.nis (niKey (256 * d + stop) net f.src)).expect) ∧
    (∃ (s : State) (d : Nat) (stop : Nat) (net : Nat) (src : Nat) (q : Nat) (f : Flit), d < 13 ∧ stop < 256 ∧
      Tbl.get {} s.chip.noc.nis (niKey (256 * d + stop) net src) = { expect := q, holding := [(q, some f)] } ∧
      (Tbl.get {} s.chip.noc.routers (256 * d + stop)).queue = []) ∧
    (∃ (d : Nat), d < 13) ∧
    (∃ (s : State) (d : Nat) (link : Nat), link ∉ (s.chip.nocDie d).links ∧ s.chip.noc.routers = []) ∧
    (∃ (s : State) (d : Nat) (stop : Nat), stop ∉ (s.chip.nocDie d).routers ∧ s.chip.noc.routers = []) ∧
    (∃ (s : State) (d : Nat), d < 13 ∧ (s.chip.nocDie d).holding = true) ∧
    (∃ (s : State) (tl : Nat), (s.chip.tile tl).hart = none) :=
  ⟨⟨{}, 12, 0, 256 * 12 + 1, some 0, flitTo (256 * 12 + 1), by decide +kernel⟩,
   ⟨{}, 12, 255, 3, flitTo (256 * 12 + 255), by decide +kernel⟩,
   ⟨{ chip := { noc := { nis := [(niKey (256 * 12 + 255) 3 9, { expect := 1023, holding := [(1023, some (flitTo 0))] })] } } },
     12, 255, 3, 9, 1023, flitTo 0, by decide +kernel⟩,
   ⟨12, by decide +kernel⟩,
   ⟨{}, 12, 59, by decide +kernel⟩,
   ⟨{}, 12, 255, by decide +kernel⟩,
   ⟨{ chip := { noc := { dies := [(12, { holding := true })] } } }, 12, by decide +kernel⟩,
   ⟨{}, 335, by decide +kernel⟩⟩

/-- The machine with Bilum port 23 enabled and in STATE `st`. -/
def blChip (st : Nat) : Chip := chipOf [(BL_STATUS.STATE 23, st), (BL_CTRL.ENABLE 23, 1)]

/-- The IDENT of the C-die at port 23. -/
def ident23 : SbIdent :=
  { fromDie := true, genMax := 1, genMin := 1, index := 11, port := 1, width := 0, retained := false, hash := 0 }

theorem witness_BilumLinkStarts :
    (∃ (s : State) (p : Nat) (m : SbIdent), p < 24 ∧ s.chip.linkStarting p = true ∧ m.fromDie = true ∧ m.genMax = 1 ∧
      m.genMin ≤ 1) ∧
    (∃ (s : State) (p : Nat) (m : SbIdent), p < 24 ∧ s.chip.linkStarting p = true ∧ linkGeneration m = none) ∧
    (∃ (s : State) (p : Nat), p < 24 ∧ s.chip.linkStarting p = true) ∧
    (∃ (s : State) (p : Nat) (hash : Nat), p < 24 ∧ hash % 2 ^ 32 = s.chip.rd (BL_HASH.HUB p) ∧
      (s.chip.linkStarting p = true → s.chip.rd (BL_HASH.DIE p) = s.chip.rd (BL_HASH.HUB p))) ∧
    (∃ (s : State) (p : Nat) (hash : Nat), p < 24 ∧ hash % 2 ^ 32 ≠ s.chip.rd (BL_HASH.HUB p)) ∧
    (∃ (s : State) (p : Nat), p < 24 ∧ s.chip.on (BL_CTRL.ENABLE p) = true) ∧
    (∃ (s : State) (p : Nat), p < 24 ∧ s.chip.linkStarting p = true) ∧
    (∃ (s : State) (p : Nat), p < 24 ∧ s.chip.linkStarting p = true ∧ (s.chip.bport p).width = 0) ∧
    (∃ (s : State) (p : Nat), p < 24 ∧ (s.chip.bport p).tries < 8) :=
  ⟨⟨{ chip := blChip 2 }, 23, ident23, by decide +kernel⟩,
   ⟨{ chip := blChip 1 }, 23, { ident23 with genMax := 3, genMin := 2 }, by decide +kernel⟩,
   ⟨{ chip := blChip 1 }, 23, by decide +kernel⟩,
   ⟨{ chip := blChip 1 }, 23, 2 ^ 32, by decide +kernel⟩,
   ⟨{ chip := blChip 1 }, 23, 1, by decide +kernel⟩,
   ⟨{ chip := blChip 3 }, 23, by decide +kernel⟩,
   ⟨{ chip := blChip 1 }, 23, by decide +kernel⟩,
   ⟨{ chip := blChip 1 }, 23, by decide +kernel⟩,
   ⟨{ chip := { bl := { ports := [(23, { tries := 7 })] } } }, 23, by decide +kernel⟩⟩

theorem witness_BilumRetransmissionAndRepair :
    (∃ (s : State) (p : Nat) (dir : Nat) (net : Nat) (g : BGroup), p < 24 ∧
      g = Tbl.get {} s.chip.bl.groups (groupKey p dir net)) ∧
    (∃ (s : State) (p : Nat) (dir : Nat) (net : Nat) (g : BGroup), p < 24 ∧
      g = Tbl.get {} s.chip.bl.groups (groupKey p dir net)) ∧
    (∃ (s : State) (p : Nat) (dir : Nat) (net : Nat) (g : BGroup), p < 24 ∧
      g = Tbl.get {} s.chip.bl.groups (groupKey p dir net) ∧ wrapSub g.sent g.acked 8 ≠ 0 ∧ g.resends < 8) ∧
    (∃ (s : State) (p : Nat) (dir : Nat) (net : Nat) (g : BGroup) (word : Nat), p < 24 ∧
      g = Tbl.get {} s.chip.bl.groups (groupKey p dir net) ∧ crc6 (bits word 0 26) = bits word 26 6 ∧
      bit word 25 = false ∧ bits word 0 2 = net ∧ net < 4) ∧
    (∃ (s : State) (p : Nat) (dir : Nat) (net : Nat) (g : BGroup) (word : Nat), p < 24 ∧
      g = Tbl.get {} s.chip.bl.groups (groupKey p dir net) ∧ crc6 (bits word 0 26) ≠ bits word 26 6 ∧
      Tbl.get 0 s.chip.bl.badCredit (2 * p + dir % 2) < 15) ∧
    (∃ (s : State) (p : Nat), p < 24 ∧ s.chip.portUp p = true) ∧
    (∃ (p : Nat), p < 24) ∧
    (∃ (s : State) (p : Nat) (errs : Nat), p < 24 ∧ s.chip.rd (BL_STATUS.STATE p) = 1 ∧ 0 < errs) ∧
    (∃ (p : Nat), p < 24) ∧
    (∃ (s : State) (p : Nat), p < 24 ∧ s.chip.rd (BL_STATUS.STATE p) ≠ 4 ∧
      s.chip.rd (BL_STATUS.STATE (otherPort p)) ≠ 4) ∧
    (∃ (s : State) (p : Nat), p < 24 ∧ (s.chip.bport p).timer = true ∧ s.chip.rd (BL_STATUS.STATE p) = 4 ∧
      s.chip.on (BL_CTRL.ENABLE p) = true) ∧
    (∃ (s : State) (p : Nat), p < 24 ∧ s.chip.portUp (otherPort p) = true) ∧
    (∃ (s : State) (p : Nat) (d : Nat), p < 24 ∧ p = 2 * d ∧ (s.chip.dieState d).inService = true ∧
      (s.chip.dieState d).lost = false) ∧
    (∃ (s : State) (p : Nat), p < 24 ∧ (s.chip.bport p).setFail = []) :=
  ⟨⟨{}, 23, 1, 3, _, by decide +kernel, rfl⟩,
   ⟨{}, 23, 1, 3, _, by decide +kernel, rfl⟩,
   ⟨{ chip := { bl := { groups := [(groupKey 23 1 3, { sent := 0, acked := 255, resends := 7 })] } } }, 23, 1, 3, _,
     by decide +kernel, rfl, by decide +kernel⟩,
   ⟨{}, 23, 1, 0, _, 0, by decide +kernel, rfl, by decide +kernel⟩,
   ⟨{ chip := { bl := { badCredit := [(47, 14)] } } }, 23, 1, 0, _, 1, by decide +kernel, rfl, by decide +kernel⟩,
   ⟨{ chip := blChip 3 }, 23, by decide +kernel⟩,
   ⟨23, by decide +kernel⟩,
   ⟨{ chip := blChip 1 }, 23, 1, by decide +kernel⟩,
   ⟨23, by decide +kernel⟩,
   ⟨{ chip := blChip 3 }, 23, by decide +kernel⟩,
   ⟨{ chip := { blChip 4 with bl := { ports := [(23, { timer := true })] } } }, 23, by decide +kernel⟩,
   ⟨{ chip := blChip 3 }, 22, by decide +kernel⟩,
   ⟨{ chip := homeChip [] [] {} }, 22, 11, by decide +kernel⟩,
   ⟨{}, 23, by decide +kernel⟩⟩

theorem witness_ChannelsShareOutTheLines :
    ∃ (k : Chip) (c : Nat), k.on (MC_CTRL.MIRROR 0) = false ∧ c < 16 :=
  ⟨{}, 15, by decide +kernel⟩

theorem witness_DramAccesses :
    (∃ (s : State) (c : Nat) (line : Nat), c < 16 ∧ s.chip.chFenced c = false ∧ c ∉ s.chip.pwr.gatedChannels ∧
      s.chip.linePoison (s.chip.lineAt c line) = false) ∧
    (∃ (s : State) (c : Nat) (errs : List DevErr) (a : Nat) (b : Nat), c < 16 ∧ s.chip.chFenced c = false ∧
      s.chip.on (MC_CTRL.MIRROR 0) = false ∧ (errs.map (·.device)).eraseDups = [a, b] ∧ (∀ e ∈ errs.head?,
      s.chip.markedDevice c e.rank e.sub = none)) ∧
    (∃ (s : State) (c : Nat), c < 16 ∧ s.chip.chFenced c = true ∧ s.chip.on (MC_CTRL.MIRROR 0) = false) ∧
    (∃ (s : State) (c : Nat), c < 16 ∧ s.chip.chFenced c = false ∧ c ∉ s.chip.pwr.gatedChannels ∧
      (Tbl.get {} s.chip.mc.ch c).writes.length < 16) ∧
    (∃ (s : State) (c : Nat) (line : Nat) (l : Nat), c < 16 ∧ s.chip.chFenced c = false ∧ l = s.chip.lineAt c line ∧
      c ∉ s.chip.pwr.gatedChannels) :=
  ⟨⟨{}, 15, 0, by decide +kernel⟩,
   ⟨{}, 15,
     [{ line := 0, rank := 0, sub := 1, device := 3, corrected := false }, { line := 0, rank := 0, sub := 1, device := 9, corrected := false }],
     3, 9, by decide +kernel⟩,
   ⟨{ chip := chipOf [(MC_STATUS.STATE 15, 5)] }, 15, by decide +kernel⟩,
   ⟨{ chip := { mc := { ch := [(15, { writes := List.range 15 })] } } }, 15, by decide +kernel⟩,
   ⟨{}, 15, 0, _, by decide +kernel, by decide +kernel, rfl, by decide +kernel⟩⟩

/-- The machine with channel 15 in STATE `st` and what it has beside its registers. -/
def mcChip (st : Nat) (x : Channel) : Chip :=
  { chipOf [(MC_STATUS.STATE 15, st), (MC_REFRESH.POSTPONE_MAX 15, 4), (MC_STATUS.SIZE 15, 1)] with
    mc := { ch := [(15, x)] }, pwr := { pkg := .run } }

theorem witness_DramMaintenance :
    (∃ (s : State) (c : Nat) (r : Nat) (busy : Bool), c < 16 ∧ s.chip.rd (MC_STATUS.STATE c) = 2 ∧ (busy = false ∨
      s.chip.postponeMax c ≤ (Tbl.get {} (Tbl.get {} s.chip.mc.ch c).ranks r).postponed)) ∧
    (∃ (s : State) (c : Nat) (r : Nat), c < 16 ∧ s.chip.rd (MC_STATUS.STATE c) = 2 ∧
      (Tbl.get {} (Tbl.get {} s.chip.mc.ch c).ranks r).postponed < s.chip.postponeMax c) ∧
    (∃ (c : Nat), c < 16) ∧
    (∃ (s : State) (c : Nat) (r : Nat), c < 16 ∧ s.chip.rd (MC_STATUS.STATE c) = 2 ∧
      r = (Tbl.get {} s.chip.mc.ch c).nextRank % s.chip.ranksOf c) ∧
    (∃ (s : State) (c : Nat) (v : Nat), c < 16 ∧ v < 3 ∧ v ≠ s.chip.rd (MC_CTRL.RATE 0) ∧ s.chip.trained v = true ∧
      s.chip.mc.change = none ∧ v ≠ s.chip.rd (MC_STATUS.RATE 0)) ∧
    (∃ (s : State) (c : Nat) (v : Nat), c < 16 ∧ v < 3 ∧ v ≠ s.chip.rd (MC_CTRL.RATE 0) ∧ s.chip.trained v = false) ∧
    (∃ (s : State) (c : Nat) (x : RateChange), c < 16 ∧ s.chip.mc.change = some x ∧ x.running = true ∧ x.target < 4 ∧
      s.chip.rd (MC_STATUS.STATE c) = 4) ∧
    (∃ (s : State) (c : Nat), c < 16 ∧ s.chip.chFenced c = false ∧ s.chip.on (MC_CTRL.MIRROR 0) = false) ∧
    (∃ (s : State) (c : Nat), c < 16 ∧ s.chip.rd (MC_STATUS.STATE c) = 2 ∧ s.chip.pwr.pkg.up = true ∧
      s.chip.poison = [] ∧ 8 * 2 ^ 32 ≤ (Tbl.get {} s.chip.mc.ch c).scrubCredit ∧
      s.chip.rd (MC_SCRUB_POS.LINE c) + 8 < s.chip.chLines c ∧
      s.chip.rd (MC_SCRUB_POS.LINE c) + 8 < 2 ^ (MC_SCRUB_POS.LINE c).width) ∧
    (∃ (s : State) (c : Nat), c < 16 ∧ s.chip.chFenced c = false ∧ (Tbl.get {} s.chip.mc.ch c).retries < 3) :=
  ⟨⟨{ chip := mcChip 2 { ranks := [(3, { postponed := 8 })] } }, 15, 3, true, by decide +kernel⟩,
   ⟨{ chip := mcChip 2 { ranks := [(3, { postponed := 3 })] } }, 15, 3, by decide +kernel⟩,
   ⟨15, by decide +kernel⟩,
   ⟨{ chip := mcChip 2 { nextRank := 0 } }, 15, 0, by decide +kernel⟩,
   ⟨{}, 15, 2, by decide +kernel⟩,
   ⟨{ chip := { mc := { untrained := [2] } } }, 15, 2, by decide +kernel⟩,
   ⟨{ chip := { mcChip 4 {} with mc := { change := some { target := 3, running := true } } } }, 15,
     { target := 3, running := true }, by decide +kernel⟩,
   ⟨{}, 15, by decide +kernel⟩,
   ⟨{ chip := mcChip 2 { scrubCredit := 8 * 2 ^ 32 } }, 15, by decide +kernel⟩,
   ⟨{ chip := mcChip 2 { retries := 2 } }, 15, by decide +kernel⟩⟩

theorem witness_TrafficRegisters :
    (∃ (s : State) (v : Nat), bits v 0 16 + bits v 16 16 + bits v 32 16 ≤ s.chip.rd QT_CAP.CAP ∧
      s.chip.rd QT_RESERVE.HP ≠ bits v 0 16) ∧
    (∃ (s : State) (v : Nat), s.chip.rd QT_CAP.CAP < bits v 0 16 + bits v 16 16 + bits v 32 16 ∧
      s.chip.rd QT_RESERVE.HP ≠ bits v 0 16) ∧
    (∃ (i : Nat), i < 256) ∧
    (∃ (i : Nat), i < 256) :=
  ⟨⟨{ chip := chipOf [(QT_CAP.CAP, 3), (QT_RESERVE.HP, 0)] }, 1 + 2 ^ 16 + 2 ^ 32, by decide +kernel⟩,
   ⟨{ chip := chipOf [(QT_CAP.CAP, 2), (QT_RESERVE.HP, 0)] }, 1 + 2 ^ 16 + 2 ^ 32, by decide +kernel⟩,
   ⟨255, by decide +kernel⟩,
   ⟨255, by decide +kernel⟩⟩

theorem witness_ArbitersGrantTheHighestClass :
    (∃ (s : State) (inst : Nat) (port : Nat), inst < 4 ∧
      (Tbl.get {} s.chip.qt.arbs (256 * inst + port)).grant = none) ∧
    (∃ (a : Arb) (b : Arb) (cls : Nat → Nat) (limit : Nat) (e : List Nat), e ≠ [] ∧ b = a.decide cls limit e) :=
  ⟨⟨{}, 3, 255, by decide +kernel⟩,
   ⟨{}, _, fun _ => 0, 3, [5], by decide +kernel, rfl⟩⟩

theorem witness_UnitsFailOver :
    (∃ (s : State) (n : Nat) (c : Instr), (c = .haPairMismatch n ∨ c = .trackerUncorrectable n) ∧
      (s.chip.pair n).failed = false ∧ (s.chip.pair n).failing = false ∧ s.chip.pairServes n = true ∧
      s.chip.sparesLeft ≠ 0) ∧
    (∃ (s : State) (n : Nat) (c : Instr), (c = .haPairMismatch n ∨ c = .trackerUncorrectable n) ∧
      (s.chip.pair n).failed = false ∧ (s.chip.pair n).failing = false ∧ s.chip.pairServes n = true ∧
      s.chip.sparesLeft = 0) ∧
    (∃ (s : State) (i : Nat), s.chip.re.fencedOther = false ∧ i < 2) ∧
    (∃ (s : State) (e : Nat) (sg : Seg) (j : Job), e < 24 ∧ (s.chip.engine e).seg = some sg ∧
      s.chip.re.jobs.find sg.job = some j ∧ (s.chip.engine e).sramError = none) ∧
    (∃ (s : State) (e : Nat) (sg : Seg) (j : Job) (b : Nat), e < 24 ∧ (s.chip.engine e).seg = some sg ∧
      s.chip.re.jobs.find sg.job = some j ∧ (s.chip.engine e).sramError = some b ∧ s.chip.now < b + 256 ∧
      (s.chip.engine e).failed = false) ∧
    (∃ (s : State) (e : Nat) (sg : Seg) (j : Job), e < 24 ∧ (s.chip.engine e).seg = some sg ∧
      s.chip.re.jobs.find sg.job = some j ∧ (s.chip.engine e).failed = false) ∧
    (∃ (s : State) (d : Nat), d < 12 ∧ (s.chip.dieState d).inService = true ∧ (s.chip.dieState d).lost = false) ∧
    (∃ (s : State) (e : Nat) (x : Test), e < 24 ∧ s.chip.gn.tests = [x] ∧ x.running = true ∧ x.unitType = 1 ∧
      x.unit = e) :=
  ⟨⟨{}, 31, .trackerUncorrectable 31, by decide +kernel⟩,
   ⟨{ chip := { coh := { pairs := [(32, { failed := true }), (33, { failed := true })] } } }, 31, .haPairMismatch 31,
     by decide +kernel⟩,
   ⟨{}, 1, by decide +kernel⟩,
   ⟨{ chip := segChip {} {} }, 23, {}, { aCopy with region := some 5 }, by decide +kernel⟩,
   ⟨{ chip := { segChip {} {} with eng := [(23, { seg := some {}, sramError := some 0 })], regs := (chipOf [(BT_COUNT.COUNT, 255)]).regs } },
     23, {}, { aCopy with region := some 5 }, 0, by decide +kernel⟩,
   ⟨{ chip := segChip {} {} }, 23, {}, { aCopy with region := some 5 }, by decide +kernel⟩,
   ⟨{ chip := { flt := { dies := [(11, { inService := true })] } } }, 11, by decide +kernel⟩,
   ⟨{ chip := { gn := { tests := [{ unitType := 1, unit := 23, running := true }] } } }, 23,
     { unitType := 1, unit := 23, running := true }, by decide +kernel⟩⟩

/-- A hart of the normal world. -/
def normal0 : By := { source := 0, id := 0, w := 1 }

theorem witness_NormalWorldLeavesTheSecureState :
    ∃ (c : Instr) (who : By), who.w ≠ 0 ∧ ((∃ value, c = .wsSecureTopWrite value who) ∨ (∃ reg value,
      c = .wsClaimWrite reg value who) ∨ (∃ slot, c = .wsKeyRead slot who) ∨ (∃ slot, c = .load slot who) ∨ (∃ slot,
      c = .clear slot who) ∨ c = .signKey who ∨ c = .kick who ∨ c = .req who ∨ c = .done who) :=
  ⟨.kick normal0, normal0, by decide +kernel, by simp⟩

theorem witness_SecureWorldCommands :
    (∃ (s : State) (value : Nat), s.chip.on WS_LOCK.TOP_LOCK = false ∧
      bits value 26 26 ≠ s.chip.rd WS_SECURE_TOP.TOP ∧ bits value 26 26 * 2 ^ 26 ≤ s.chip.dramSize) ∧
    (∃ (s : State), s.chip.on WS_LOCK.TOP_LOCK = true) ∧
    (∃ (i : Nat), i < 6) ∧
    (∃ (s : State) (slot : Nat) (source : Nat) (id : Nat) (x : KeySlot) (c : Instr),
      s.chip.on WS_STATUS.RESTARTING = false ∧ slot < 16384 ∧
      c = .wsKeyRead slot { source := source, id := id, w := 0 } ∧ x = s.chip.keySlot slot) ∧
    (∃ (s : State) (slot : Nat) (data : Bytes), s.chip.on WS_STATUS.RESTARTING = false ∧ slot < 16384 ∧
      data = s.chip.indBytes WS_KEY_DATA.KEY 8 ∧ (s.chip.rd WS_KEY_META.TYPE = 1 ∨ (s.chip.rd WS_KEY_META.TYPE = 2 ∧
      data.take 32 ≠ data.drop 32))) ∧
    (∃ (s : State) (slot : Nat), s.chip.on WS_STATUS.RESTARTING = false ∧ slot < 16384 ∧
      s.chip.rd WS_KEY_META.TYPE ∈ [0, 3]) ∧
    (∃ (s : State) (slot : Nat), s.chip.on WS_STATUS.RESTARTING = false ∧ slot < 16384) ∧
    (∃ (s : State) (slot : Nat) (source : Nat) (id : Nat) (who : By) (c : Instr),
      who = { source := source, id := id, w := 0 } ∧
      c ∈ [.wsKeyRead slot who, .load slot who, .clear slot who, .signKey who] ∧
      s.chip.on WS_STATUS.RESTARTING = true) ∧
    (∃ (s : State) (d : Nat), s.chip.on WS_STATUS.RESTARTING = false ∧ s.chip.rd WS_KEY_CMD.SLOT < 16384 ∧
      d = ofBe (s.chip.indBytes WS_KEY_DATA.KEY 6) ∧ 0 < d ∧ d < p384N) ∧
    (∃ (s : State) (d : Nat), s.chip.ws.signKey = some d ∧ s.chip.ws.signPending = true) :=
  ⟨⟨{}, 2 ^ 26, by decide +kernel⟩,
   ⟨{ chip := chipOf [(WS_LOCK.TOP_LOCK, 1)] }, by decide +kernel⟩,
   ⟨5, by decide +kernel⟩,
   ⟨{}, 16383, 0, 287, _, .wsKeyRead 16383 { source := 0, id := 287, w := 0 }, by decide +kernel, by decide +kernel,
     by decide +kernel, rfl⟩,
   ⟨{ chip := chipOf [(WS_KEY_META.TYPE, 2), (WS_KEY_DATA.KEY 7, 1)] }, 16383, _, by decide +kernel,
     by decide +kernel, rfl, by decide +kernel⟩,
   ⟨{ chip := chipOf [(WS_KEY_META.TYPE, 3)] }, 16383, by decide +kernel⟩,
   ⟨{}, 16383, by decide +kernel⟩,
   ⟨{ chip := chipOf [(WS_STATUS.RESTARTING, 1)] }, 16383, 0, 287, _,
     .clear 16383 { source := 0, id := 287, w := 0 }, rfl, by decide +kernel⟩,
   ⟨{ chip := chipOf [(WS_KEY_CMD.SLOT, 16383), (WS_KEY_DATA.KEY 5, 2 ^ 56)] }, _, by decide +kernel,
     by decide +kernel, rfl, by decide +kernel⟩,
   ⟨{ chip := { ws := { signKey := some 7, signPending := true } } }, 7, by decide +kernel⟩⟩

theorem witness_SecureRestart :
    (∃ (s : State) (c : Instr) (cause : Nat) (source : Nat) (id : Nat), s.chip.on WS_STATUS.RESTARTING = false ∧
      ((c = .secureWatchdogLapse ∧ s.chip.ws.watchdog = true ∧ s.chip.rd WS_WDOG.PERIOD ≠ 0 ∧ cause = 1) ∨
      (c = .req { source := source, id := id, w := 0 } ∧ cause = 2) ∨ (c = .signingSramUncorrectable ∧ cause = 4))) ∧
    (∃ (g : Hart) (mepc : Nat) (mpp : Nat) (cause : Nat) (mpv : Bool), g.entry = some (mepc, mpp, mpv, cause)) ∧
    (∃ (s : State) (h : Nat) (id : Nat), s.chip.on WS_STATUS.RESTARTING = true ∧ s.chip.ws.gaveUp = false ∧
      s.chip.ws.restartStep < 4 ∧ id = orDefault (s.chip.rd WS_RESTART.IDENTITY) 1 ∧ Tbl.wf {} s.chip.harts = true ∧
      h < 288 ∧ (s.chip.hart h).moving = none ∧ (s.chip.hart h).online = true) ∧
    (∃ (s : State), s.chip.on WS_STATUS.RESTARTING = true ∧ s.chip.ws.gaveUp = false ∧ s.chip.ws.restartStep = 4) ∧
    (∃ (s : State), s.chip.on WS_STATUS.RESTARTING = true ∧ s.chip.ws.gaveUp = false ∧
      s.chip.rd WS_STATUS.FAILS < 2) ∧
    (∃ (s : State), s.chip.on WS_STATUS.RESTARTING = true ∧ s.chip.ws.gaveUp = false ∧
      2 ≤ s.chip.rd WS_STATUS.FAILS) :=
  ⟨⟨{ chip := { chipOf [(WS_WDOG.PERIOD, 1)] with ws := { watchdog := true } } }, .secureWatchdogLapse, 1, 0, 0,
    by decide +kernel⟩,
   ⟨{ entry := some (16, 3, true, 8) }, 16, 3, 8, true, by decide +kernel⟩,
   ⟨{ chip := { chipOf [(WS_STATUS.RESTARTING, 1)] with ws := { restartStep := 3 }, harts := [(287, { online := true })] } },
     287, _, by decide +kernel, by decide +kernel, by decide +kernel, rfl, by decide +kernel⟩,
   ⟨{ chip := { chipOf [(WS_STATUS.RESTARTING, 1)] with ws := { restartStep := 4 } } }, by decide +kernel⟩,
   ⟨{ chip := chipOf [(WS_STATUS.RESTARTING, 1), (WS_STATUS.FAILS, 1)] }, by decide +kernel⟩,
   ⟨{ chip := chipOf [(WS_STATUS.RESTARTING, 1), (WS_STATUS.FAILS, 2)] }, by decide +kernel⟩⟩

/-- The machine in power state `p` with Gunel up and the request `rs` waiting. -/
def pwrChip (p : PkgState) (rs : List PwrReq) : Chip :=
  { chipOf [(GN_STATUS.RUNNING, 1), (CLK_STATUS.GUNEL_HB, 1), (CN_CTRL.ENABLE, 0), (RE_CTRL.RUN, 0), (MC_STATUS.STATE 15, 2)] with
    pwr := { pkg := p, requests := rs } }

theorem witness_PowerRequests :
    (∃ (s : State) (c : Instr) (op : Nat) (target : Nat) (index : Nat) (src : Nat), src < 2 ∧ ((c = .run src ∧
      op = 0 ∧ target = 0 ∧ index = 0) ∨ (c = .quiet src ∧ op = 1 ∧ target = 0 ∧ index = 0) ∨ (c = .standby src ∧
      op = 2 ∧ target = 0 ∧ index = 0) ∨ (c = .drydown src ∧ op = 3 ∧ target = 0 ∧ index = 0) ∨
      (c = .gate target index src ∧ op = 4 ∧ target < 8 ∧ index < 512) ∨ (c = .ungate target index src ∧ op = 5 ∧
      target < 8 ∧ index < 512)) ∧ s.chip.on PWR_CMD.GO = true) ∧
    (∃ (s : State) (c : Instr) (op : Nat) (target : Nat) (index : Nat) (src : Nat) (k : Chip) (r : PwrReq), src < 2 ∧
      ((c = .run src ∧ op = 0 ∧ target = 0 ∧ index = 0) ∨ (c = .quiet src ∧ op = 1 ∧ target = 0 ∧ index = 0) ∨
      (c = .standby src ∧ op = 2 ∧ target = 0 ∧ index = 0) ∨ (c = .drydown src ∧ op = 3 ∧ target = 0 ∧ index = 0) ∨
      (c = .gate target index src ∧ op = 4 ∧ target < 8 ∧ index < 512) ∨ (c = .ungate target index src ∧ op = 5 ∧
      target < 8 ∧ index < 512)) ∧ s.chip.on PWR_CMD.GO = false ∧
      r = { op := op, target := target, index := index, src := src } ∧
      k = (((s.chip.wr PWR_CMD.OP op).wr PWR_CMD.TARGET target).wr PWR_CMD.INDEX index).wr PWR_CMD.GO 1 ∧
      r.shaped = false) ∧
    (∃ (s : State) (c : Instr) (op : Nat) (target : Nat) (index : Nat) (src : Nat) (k : Chip) (r : PwrReq), src < 2 ∧
      ((c = .run src ∧ op = 0 ∧ target = 0 ∧ index = 0) ∨ (c = .quiet src ∧ op = 1 ∧ target = 0 ∧ index = 0) ∨
      (c = .standby src ∧ op = 2 ∧ target = 0 ∧ index = 0) ∨ (c = .drydown src ∧ op = 3 ∧ target = 0 ∧ index = 0) ∨
      (c = .gate target index src ∧ op = 4 ∧ target < 8 ∧ index < 512) ∨ (c = .ungate target index src ∧ op = 5 ∧
      target < 8 ∧ index < 512)) ∧ s.chip.on PWR_CMD.GO = false ∧
      r = { op := op, target := target, index := index, src := src } ∧
      k = (((s.chip.wr PWR_CMD.OP op).wr PWR_CMD.TARGET target).wr PWR_CMD.INDEX index).wr PWR_CMD.GO 1 ∧
      r.shaped = true ∧ (s.chip.pwr.pkg.moving = true ∨ s.chip.gunelUp = false)) ∧
    (∃ (s : State) (c : Instr) (op : Nat) (target : Nat) (index : Nat) (src : Nat) (k : Chip) (r : PwrReq), src < 2 ∧
      ((c = .run src ∧ op = 0 ∧ target = 0 ∧ index = 0) ∨ (c = .quiet src ∧ op = 1 ∧ target = 0 ∧ index = 0) ∨
      (c = .standby src ∧ op = 2 ∧ target = 0 ∧ index = 0) ∨ (c = .drydown src ∧ op = 3 ∧ target = 0 ∧ index = 0) ∨
      (c = .gate target index src ∧ op = 4 ∧ target < 8 ∧ index < 512) ∨ (c = .ungate target index src ∧ op = 5 ∧
      target < 8 ∧ index < 512)) ∧ s.chip.on PWR_CMD.GO = false ∧
      r = { op := op, target := target, index := index, src := src } ∧
      k = (((s.chip.wr PWR_CMD.OP op).wr PWR_CMD.TARGET target).wr PWR_CMD.INDEX index).wr PWR_CMD.GO 1 ∧
      r.shaped = true ∧ (s.chip.pwr.pkg = .run ∨ s.chip.pwr.pkg = .quiet) ∧ s.chip.gunelUp = true) ∧
    (∃ (s : State) (c : Instr) (op : Nat) (target : Nat) (index : Nat) (src : Nat) (k : Chip) (r : PwrReq), src < 2 ∧
      ((c = .run src ∧ op = 0 ∧ target = 0 ∧ index = 0) ∨ (c = .quiet src ∧ op = 1 ∧ target = 0 ∧ index = 0) ∨
      (c = .standby src ∧ op = 2 ∧ target = 0 ∧ index = 0) ∨ (c = .drydown src ∧ op = 3 ∧ target = 0 ∧ index = 0) ∨
      (c = .gate target index src ∧ op = 4 ∧ target < 8 ∧ index < 512) ∨ (c = .ungate target index src ∧ op = 5 ∧
      target < 8 ∧ index < 512)) ∧ s.chip.on PWR_CMD.GO = false ∧
      r = { op := op, target := target, index := index, src := src } ∧
      k = (((s.chip.wr PWR_CMD.OP op).wr PWR_CMD.TARGET target).wr PWR_CMD.INDEX index).wr PWR_CMD.GO 1 ∧
      r.shaped = true ∧ (s.chip.pwr.pkg = .standby ∨ s.chip.pwr.pkg = .drydown) ∧ s.chip.gunelUp = true) ∧
    (∃ (k : Chip) (r : PwrReq), k.pwr.requests = [r] ∧ k.pwr.pkg = .run ∧ k.gunelUp = true ∧ r.src < 2 ∧ r.op = 2 ∧
      r.target = 0 ∧ k.quiesced = false) ∧
    (∃ (k : Chip) (r : PwrReq), k.pwr.requests = [r] ∧ k.pwr.pkg = .run ∧ k.gunelUp = true ∧ r.src < 2 ∧ r.op = 2 ∧
      r.target = 0 ∧ k.quiesced = true ∧ r.src = 0 ∧ k.claims ≠ []) ∧
    (∃ (k : Chip) (r : PwrReq), k.pwr.requests = [r] ∧ k.pwr.pkg = .run ∧ k.gunelUp = true ∧ r.src < 2 ∧ r.op = 2 ∧
      r.target = 0 ∧ k.quiesced = true ∧ (r.src = 1 ∨ k.claims = [])) ∧
    (∃ (k : Chip) (r : PwrReq), k.pwr.requests = [r] ∧ k.pwr.pkg = .run ∧ k.gunelUp = true ∧ r.src < 2 ∧ r.op = 1 ∧
      r.target = 0 ∧ k.trained k.quietRate = true ∧ k.mc.change = none ∧ k.rd (MC_STATUS.RATE 0) = k.quietRate) ∧
    (∃ (k : Chip) (r : PwrReq), k.pwr.requests = [r] ∧ k.pwr.pkg = .run ∧ k.gunelUp = true ∧ r.src < 2 ∧ r.op = 1 ∧
      r.target = 0 ∧ k.trained k.quietRate = true ∧ k.mc.change = none ∧ k.rd (MC_STATUS.RATE 0) ≠ k.quietRate) ∧
    (∃ (k : Chip) (r : PwrReq), k.pwr.requests = [r] ∧ k.pwr.pkg = .run ∧ k.gunelUp = true ∧ r.src < 2 ∧ r.op = 4 ∧
      r.target = 1 ∧ k.tileRuns r.index = false ∧ (r.src = 1 ∨ k.claimsOf 1 r.index = [])) ∧
    (∃ (k : Chip) (r : PwrReq), k.pwr.requests = [r] ∧ k.pwr.pkg = .run ∧ k.gunelUp = true ∧ r.src < 2 ∧ r.op = 4 ∧
      r.target = 3 ∧ (r.src = 1 ∨ k.claimsOf 3 r.index = []) ∧ k.rd (MC_STATUS.STATE r.index) = 2 ∧ r.index < 16) ∧
    (∃ (k : Chip) (r : PwrReq), k.pwr.requests = [r] ∧ k.pwr.pkg = .run ∧ k.gunelUp = true ∧ r.src < 2 ∧ r.op = 4 ∧
      r.target = 4 ∧ (r.src = 1 ∨ k.claimsOf 4 r.index = [])) ∧
    (∃ (k : Chip) (r : PwrReq), k.pwr.requests = [r] ∧ k.pwr.pkg = .run ∧ k.gunelUp = true ∧ r.src < 2 ∧ r.op = 5 ∧
      r.target = 1) ∧
    (∃ (k : Chip) (r : PwrReq), k.pwr.requests = [r] ∧ k.pwr.pkg = .run ∧ k.gunelUp = true ∧ r.src < 2) :=
  ⟨⟨{ chip := { pwrChip .run [] with regs := (chipOf [(PWR_CMD.GO, 1)]).regs } }, .gate 7 511 1, 4, 7, 511, 1,
    by decide +kernel⟩,
   ⟨{ chip := pwrChip .run [] }, .ungate 7 0 1, 5, 7, 0, 1, _, _, by decide +kernel, by decide +kernel,
     by decide +kernel, rfl, rfl, by decide +kernel⟩,
   ⟨{ chip := pwrChip .starting [] }, .gate 1 335 0, 4, 1, 335, 0, _, _, by decide +kernel, by decide +kernel,
     by decide +kernel, rfl, rfl, by decide +kernel⟩,
   ⟨{ chip := pwrChip .quiet [] }, .run 0, 0, 0, 0, 0, _, _, by decide +kernel, by decide +kernel, by decide +kernel,
     rfl, rfl, by decide +kernel⟩,
   ⟨{ chip := pwrChip .drydown [] }, .drydown 1, 3, 0, 0, 1, _, _, by decide +kernel, by decide +kernel,
     by decide +kernel, rfl, rfl, by decide +kernel⟩,
   ⟨{ pwrChip .run [{ op := 2, target := 0, index := 0, src := 1 }] with re := { jobs := [(0, {})] } },
     { op := 2, target := 0, index := 0, src := 1 }, by decide +kernel⟩,
   ⟨{ pwrChip .run [{ op := 2, target := 0, index := 0, src := 0 }] with regs := (chipOf [(GN_STATUS.RUNNING, 1), (CLK_STATUS.GUNEL_HB, 1), (CN_CTRL.ENABLE, 0), (RE_CTRL.RUN, 0), (WS_CLAIM_TILE.TILE 5, 2 ^ 15)]).regs },
     { op := 2, target := 0, index := 0, src := 0 }, by decide +kernel⟩,
   ⟨pwrChip .run [{ op := 2, target := 0, index := 0, src := 0 }], { op := 2, target := 0, index := 0, src := 0 },
     by decide +kernel⟩,
   ⟨{ pwrChip .run [{ op := 1, target := 0, index := 0, src := 0 }] with regs := (chipOf [(GN_STATUS.RUNNING, 1), (CLK_STATUS.GUNEL_HB, 1), (MC_STATUS.RATE 0, 1), (PWR_CTRL.QUIET_RATE, 0)]).regs },
     { op := 1, target := 0, index := 0, src := 0 }, by decide +kernel⟩,
   ⟨pwrChip .run [{ op := 1, target := 0, index := 0, src := 0 }], { op := 1, target := 0, index := 0, src := 0 },
     by decide +kernel⟩,
   ⟨pwrChip .run [{ op := 4, target := 1, index := 335, src := 0 }],
     { op := 4, target := 1, index := 335, src := 0 }, by decide +kernel⟩,
   ⟨pwrChip .run [{ op := 4, target := 3, index := 15, src := 0 }], { op := 4, target := 3, index := 15, src := 0 },
     by decide +kernel⟩,
   ⟨pwrChip .run [{ op := 4, target := 4, index := 0, src := 0 }], { op := 4, target := 4, index := 0, src := 0 },
     by decide +kernel⟩,
   ⟨pwrChip .run [{ op := 5, target := 1, index := 335, src := 0 }],
     { op := 5, target := 1, index := 335, src := 0 }, by decide +kernel⟩,
   ⟨pwrChip .run [{ op := 0, target := 0, index := 0, src := 0 }], { op := 0, target := 0, index := 0, src := 0 },
     by decide +kernel⟩⟩

theorem witness_WakeSourcesAndClocks :
    (∃ (s : State) (src : Nat), bit (s.chip.rd PWR_WAKE.EN) src = false) ∧
    (∃ (s : State) (src : Nat), bit (s.chip.rd PWR_WAKE.EN) src = true ∧ src < 4 ∧ (s.chip.pwr.pkg = .standby ∨
      s.chip.pwr.pkg = .drydown)) ∧
    (∃ (s : State) (src : Nat), bit (s.chip.rd PWR_WAKE.EN) src = true ∧ src < 4 ∧ (s.chip.pwr.pkg = .enterStandby ∨
      s.chip.pwr.pkg = .enterDrydown) ∧ s.chip.pwr.wake = none) ∧
    (∃ (s : State), s.chip.mq.present = []) ∧
    (∃ (s : State) (port : Nat), s.chip.mq.present = [port]) ∧
    (∃ (s : State), s.chip.start.reset = true) ∧
    (∃ (s : State), s.chip.start.reset = false ∧ s.chip.start.step = 1 ∧ s.chip.on CLK_STATUS.XTAL_G_OK = true ∧
      s.chip.start.facts.gunelGood.getD s.chip.gn.activeSlot true = true) :=
  ⟨⟨{ chip := chipOf [(PWR_WAKE.EN, 7)] }, 3, by decide +kernel⟩,
   ⟨{ chip := pwrChip .standby [] }, 3, by decide +kernel⟩,
   ⟨{ chip := pwrChip .enterDrydown [] }, 3, by decide +kernel⟩,
   ⟨{}, by decide +kernel⟩,
   ⟨{ chip := { mq := { present := [31] } } }, 31, by decide +kernel⟩,
   ⟨{}, by decide +kernel⟩,
   ⟨{ chip := { chipOf [(CLK_STATUS.XTAL_G_OK, 1)] with start := { reset := false, step := 1 } } },
     by decide +kernel⟩⟩

theorem witness_HeatDroopsAndRetention :
    (∃ (s : State) (n : Nat), n < 336 ∧ s.chip.on CLK_ERR.DROOP = true) ∧
    (∃ (s : State) (n : Nat), n < 336 ∧ s.chip.on CLK_ERR.DROOP = false ∧ s.chip.on CLK_CTRL.DROOP_EN = false) ∧
    (∃ (s : State) (n : Nat) (h : Nat), (s.chip.tile n).hart = some h ∧ (s.chip.hart h).online = true ∧
      (s.chip.hart h).halted = false ∧ s.chip.rd PWR_CTRL.TILE_IDLE ≠ 0 ∧ s.chip.pwr.pkg.up = true) :=
  ⟨⟨{ chip := chipOf [(CLK_ERR.DROOP, 1)] }, 335, by decide +kernel⟩,
   ⟨{ chip := chipOf [(CLK_CTRL.DROOP_EN, 0)] }, 335, by decide +kernel⟩,
   ⟨{ chip := { chipOf [(PWR_CTRL.TILE_IDLE, 1)] with pwr := { pkg := .run }, tiles := [(335, { hart := some 287 })], harts := [(287, { online := true })] } },
     335, 287, by decide +kernel⟩⟩

theorem witness_ResetsAndRails :
    (∃ (r : Nat), 3 ≤ r) ∧
    (∃ (s : State) (r : Nat) (d : Nat), r < 3 ∧ ((List.range 4).map (4 * r + ·)).filter s.chip.dieUp = [d]) ∧
    (∃ (s : State) (d : Nat) (tiles : List Bool) (linkOk : Bool), d < 12 ∧ (s.chip.dieState d).step = 6 ∧
      (linkOk = false ∨ tiles.any id = false)) ∧
    (∃ (s : State) (d : Nat) (i : Nat) (tiles : List Bool), d < 12 ∧ i < 28 ∧ (s.chip.dieState d).step = 6 ∧
      tiles.any id = true) :=
  ⟨⟨3, by decide +kernel⟩,
   ⟨{ chip := { flt := { dies := [(11, { inService := true })] } } }, 2, 11, by decide +kernel⟩,
   ⟨{ chip := { flt := { dies := [(11, { step := 6 })] } } }, 11, [false], true, by decide +kernel⟩,
   ⟨{ chip := { flt := { dies := [(11, { step := 6 })] } } }, 11, 27, [true], by decide +kernel⟩⟩

/-- The machine in a start of kind `kind` whose MAIN and CD rails are as given. -/
def startChip (kind : Nat) (x : Start) : Chip := { start := { x with kind := kind, running := true } }

theorem witness_StartsAndRails :
    (∃ (s : State), s.chip.start.reset = true ∧ s.chip.on CLK_STATUS.XTAL_G_OK = false) ∧
    (∃ (s : State), s.chip.start.running = true ∧ s.chip.start.railMain = true ∧ s.chip.start.mainPg = false ∧
      s.chip.start.railCd = false) ∧
    (∃ (s : State), s.chip.start.running = true ∧ s.chip.start.railMain = true ∧ s.chip.start.mainPg = true ∧
      s.chip.start.railCd = true ∧ s.chip.start.cdPg = false) ∧
    (∃ (s : State) (c : Instr), c ∈ [.mainPgRise, .cdPgRise, .startStepTimeout, .powerGoodTimeout] ∧
      s.chip.start.running = false) ∧
    (∃ (s : State) (c : Instr), s.chip.start.running = true ∧ (c = .startStepTimeout ∨ (c = .powerGoodTimeout ∧
      ((s.chip.start.railMain = true ∧ s.chip.start.mainPg = false) ∨ (s.chip.start.railCd = true ∧
      s.chip.start.cdPg = false))))) ∧
    (∃ (k : Chip) (step : Nat), k.start.running = true ∧ k.start.cdPg = true ∧ k.startFailsAt = some step) ∧
    (∃ (k : Chip), k.start.running = true ∧ k.start.cdPg = true ∧ k.startFailsAt = none) ∧
    (∃ (k : Chip), k.start.kind ≠ 2 ∧ k.start.kind ≠ 3 ∧ k.start.limps < 3) :=
  ⟨⟨{ chip := chipOf [(CLK_STATUS.XTAL_G_OK, 0)] }, by decide +kernel⟩,
   ⟨{ chip := startChip 0 { railMain := true } }, by decide +kernel⟩,
   ⟨{ chip := startChip 0 { railMain := true, mainPg := true, railCd := true } }, by decide +kernel⟩,
   ⟨{}, .powerGoodTimeout, by decide +kernel⟩,
   ⟨{ chip := startChip 0 { railCd := true } }, .powerGoodTimeout, by decide +kernel⟩,
   ⟨startChip 0 { cdPg := true, facts := { hdieGood := false } }, 3, by decide +kernel⟩,
   ⟨startChip 3 { cdPg := true }, by decide +kernel⟩,
   ⟨startChip 1 { limps := 2 }, by decide +kernel⟩⟩

theorem witness_GunelItself :
    (∃ (s : State), s.chip.on GN_STATUS.RUNNING = true) ∧
    (∃ (s : State), s.chip.on GN_STATUS.RUNNING = false ∧ s.chip.gn.recovery = false ∧ s.chip.pwr.pkg ≠ .off) ∧
    (∃ (s : State), s.chip.on GN_STATUS.RUNNING = true) ∧
    (∃ (s : State) (comp : Nat) (slot : Nat), s.chip.on GN_STATUS.RUNNING = true ∧ ((comp = 1 ∧
      slot = 1 - s.chip.gn.activeSlot) ∨ (comp = 2 ∧ slot = 3 - s.chip.gn.secureSlot ∧ s.chip.gn.secureSlot ≤ 1))) ∧
    (∃ (s : State), s.chip.on GN_STATUS.RUNNING = true ∧ 1 ∈ s.chip.gn.verified) ∧
    (∃ (s : State), s.chip.on GN_STATUS.RUNNING = true ∧ 2 ∈ s.chip.gn.verified) ∧
    (∃ (s : State), s.chip.gn.recovery = true) ∧
    (∃ (s : State), s.chip.on GN_STATUS.RUNNING = true) ∧
    (∃ (l : Life) (d : Nat) (bin : Nat) (volt : Nat), d < 13 ∧ d ∉ l.off ∧
      bin = 16 * d + tjBin (((Tbl.get 0 l.highs d : Nat) : Int) - 32768) ∧
      volt = 256 + 16 * d + voltBin (Tbl.get 0 l.highs (16 + d))) :=
  ⟨⟨{ chip := chipOf [(GN_STATUS.RUNNING, 1)] }, by decide +kernel⟩,
   ⟨{ chip := { chipOf [(GN_STATUS.RUNNING, 0)] with pwr := { pkg := .run } } }, by decide +kernel⟩,
   ⟨{ chip := chipOf [(GN_STATUS.RUNNING, 1)] }, by decide +kernel⟩,
   ⟨{ chip := { chipOf [(GN_STATUS.RUNNING, 1)] with gn := { secureSlot := 1 } } }, 2, 2, by decide +kernel⟩,
   ⟨{ chip := { chipOf [(GN_STATUS.RUNNING, 1)] with gn := { verified := [1] } } }, by decide +kernel⟩,
   ⟨{ chip := { chipOf [(GN_STATUS.RUNNING, 1)] with gn := { verified := [2] } } }, by decide +kernel⟩,
   ⟨{ chip := { gn := { recovery := true } } }, by decide +kernel⟩,
   ⟨{ chip := chipOf [(GN_STATUS.RUNNING, 1)] }, by decide +kernel⟩,
   ⟨{}, 12, _, _, by decide +kernel, by decide +kernel, rfl, rfl⟩⟩

/-- A hart of the secure world. -/
def secure0 : By := { source := 0, id := 287, w := 0 }

/-- The machine with Gunel running and `v` in the first data register of the secure mailbox. -/
def mboxChip (v : Nat) : Chip := chipOf [(GN_STATUS.RUNNING, 1), (CLK_STATUS.GUNEL_HB, 1), (GN_SMBOX_DATA.DATA 0, v)]

theorem witness_MailboxReads :
    (∃ (secure : Bool) (who : By) (op : Nat) (c : Instr), (op,
      c) ∈ [(1, .getInfo secure who), (2, .readLog secure who), (3, .readLifetime secure who), (4, .readSensor secure who), (5, .queueTest secure who), (6, .cancelTest secure who), (7, .power secure who), (8, .dieReset secure who), (9, .setMemcfg secure who), (10, .hartStarted secure who), (11, .hartStopped secure who)] ∧
      secure = true ∧ who.w ≠ 0) ∧
    (∃ (s : State) (secure : Bool) (who : By) (op : Nat) (c : Instr), (op,
      c) ∈ [(1, .getInfo secure who), (2, .readLog secure who), (3, .readLifetime secure who), (4, .readSensor secure who), (5, .queueTest secure who), (6, .cancelTest secure who), (7, .power secure who), (8, .dieReset secure who), (9, .setMemcfg secure who), (10, .hartStarted secure who), (11, .hartStopped secure who)] ∧
      (secure = false ∨ who.w = 0) ∧ s.chip.on (mboxGo secure) = true) ∧
    (∃ (s : State) (secure : Bool) (who : By) (op : Nat) (c : Instr), (op,
      c) ∈ [(1, .getInfo secure who), (2, .readLog secure who), (3, .readLifetime secure who), (4, .readSensor secure who), (5, .queueTest secure who), (6, .cancelTest secure who), (7, .power secure who), (8, .dieReset secure who), (9, .setMemcfg secure who), (10, .hartStarted secure who), (11, .hartStopped secure who)] ∧
      (secure = false ∨ who.w = 0) ∧ s.chip.on (mboxGo secure) = false ∧ s.chip.on GN_STATUS.RUNNING = false) ∧
    (∃ (s : State) (secure : Bool) (who : By) (r : Bytes), (secure = false ∨ who.w = 0) ∧
      s.chip.on (mboxGo secure) = false ∧ s.chip.on GN_STATUS.RUNNING = true ∧
      (s.chip.gn.log.filter fun r => decide (s.chip.mboxArg secure ≤ leAt r 0 4)).getLast? = some r) ∧
    (∃ (s : State) (secure : Bool) (who : By), (secure = false ∨ who.w = 0) ∧ s.chip.on (mboxGo secure) = false ∧
      s.chip.on GN_STATUS.RUNNING = true ∧ (∀ r ∈ s.chip.gn.log, leAt r 0 4 < s.chip.mboxArg secure)) ∧
    (∃ (s : State) (secure : Bool) (who : By) (n : Nat), (secure = false ∨ who.w = 0) ∧
      s.chip.on (mboxGo secure) = false ∧ s.chip.on GN_STATUS.RUNNING = true ∧ s.chip.mboxArg secure = 64 * n ∧
      n < 256) ∧
    (∃ (s : State) (secure : Bool) (who : By) (i : Nat), (secure = false ∨ who.w = 0) ∧
      s.chip.on (mboxGo secure) = false ∧ s.chip.on GN_STATUS.RUNNING = true ∧ s.chip.mboxArg secure = i ∧ i < 141) ∧
    (∃ (s : State) (secure : Bool) (who : By), (secure = false ∨ who.w = 0) ∧ s.chip.on (mboxGo secure) = false ∧
      s.chip.on GN_STATUS.RUNNING = true) :=
  ⟨⟨true, normal0, 11, .hartStopped true normal0, by decide +kernel⟩,
   ⟨{ chip := chipOf [(GN_MBOX_CMD.GO, 1)] }, false, normal0, 1, .getInfo false normal0, by decide +kernel⟩,
   ⟨{ chip := chipOf [(GN_STATUS.RUNNING, 0)] }, true, secure0, 6, .cancelTest true secure0, by decide +kernel⟩,
   ⟨{ chip := { mboxChip 1 with gn := { log := [leBytes 2 4, leBytes 1 4, leBytes 0 4] } } }, true, secure0,
     leBytes 1 4, by decide +kernel⟩,
   ⟨{ chip := { mboxChip 3 with gn := { log := [leBytes 2 4] } } }, true, secure0, by decide +kernel⟩,
   ⟨{ chip := mboxChip (64 * 255) }, true, secure0, 255, by decide +kernel⟩,
   ⟨{ chip := mboxChip 140 }, true, secure0, 140, by decide +kernel⟩,
   ⟨{ chip := mboxChip 0 }, true, secure0, by decide +kernel⟩⟩

theorem witness_MailboxActions :
    (∃ (s : State) (secure : Bool) (who : By) (v : Nat), (secure = false ∨ who.w = 0) ∧
      s.chip.on (mboxGo secure) = false ∧ s.chip.on GN_STATUS.RUNNING = true ∧ v = s.chip.mboxArg secure ∧
      testable (bits v 0 8) (bits v 8 16) = true ∧
      (s.chip.gn.tests.any fun x => x.unitType == bits v 0 8 && x.unit == bits v 8 16) = false) ∧
    (∃ (s : State) (secure : Bool) (who : By) (v : Nat) (x : Test), (secure = false ∨ who.w = 0) ∧
      s.chip.on (mboxGo secure) = false ∧ s.chip.on GN_STATUS.RUNNING = true ∧ v = s.chip.mboxArg secure ∧
      s.chip.gn.tests = [x] ∧ x.running = false ∧ x.unitType = bits v 0 8 ∧ x.unit = bits v 8 16) ∧
    (∃ (s : State) (secure : Bool) (who : By) (v : Nat), (secure = false ∨ who.w = 0) ∧
      s.chip.on (mboxGo secure) = false ∧ s.chip.on GN_STATUS.RUNNING = true ∧ v = s.chip.mboxArg secure ∧
      PwrReq.shaped { op := bits v 12 4, target := bits v 9 3, index := bits v 0 9, src := if secure then 4 else 3 } = true ∧
      (s.chip.pwr.pkg = .run ∨ s.chip.pwr.pkg = .quiet) ∧ s.chip.on CLK_STATUS.GUNEL_HB = true) ∧
    (∃ (s : State) (secure : Bool) (who : By) (v : Nat), (secure = false ∨ who.w = 0) ∧
      s.chip.on (mboxGo secure) = false ∧ s.chip.on GN_STATUS.RUNNING = true ∧ v = s.chip.mboxArg secure ∧
      s.chip.dieUp v = true ∧ s.chip.resetting = false ∧ 1 < ((List.range 12).filter s.chip.dieUp).length ∧ v < 12 ∧
      v ∉ s.chip.claims ∧ (∀ e ∈ s.chip.harts, e.2.online = true → e.2.stopped = true)) ∧
    (∃ (s : State) (secure : Bool) (who : By) (v : Nat) (c : Instr), (secure = false ∨ who.w = 0) ∧
      s.chip.on (mboxGo secure) = false ∧ s.chip.on GN_STATUS.RUNNING = true ∧ v = s.chip.mboxArg secure ∧
      c ∈ [Instr.hartStarted secure who, Instr.hartStopped secure who] ∧ secure = true ∧ v < 288) ∧
    (∃ (s : State) (secure : Bool) (who : By) (v : Nat) (c : Instr), (secure = false ∨ who.w = 0) ∧
      s.chip.on (mboxGo secure) = false ∧ s.chip.on GN_STATUS.RUNNING = true ∧ v = s.chip.mboxArg secure ∧
      c ∈ [Instr.hartStarted secure who, Instr.hartStopped secure who] ∧ secure = false) ∧
    (∃ (s : State) (secure : Bool) (who : By) (v : Nat), (secure = false ∨ who.w = 0) ∧
      s.chip.on (mboxGo secure) = false ∧ s.chip.on GN_STATUS.RUNNING = true ∧ v = s.chip.mboxArg secure) :=
  ⟨⟨{ chip := mboxChip (4 + 256 * 33) }, true, secure0, _, by decide +kernel, by decide +kernel, by decide +kernel,
    rfl, by decide +kernel⟩,
   ⟨{ chip := { mboxChip (4 + 256 * 33) with gn := { tests := [{ unitType := 4, unit := 33 }] } } }, true, secure0,
     _, { unitType := 4, unit := 33 }, by decide +kernel, by decide +kernel, by decide +kernel, rfl,
     by decide +kernel⟩,
   ⟨{ chip := { mboxChip (335 + 512 + 4096 * 4) with pwr := { pkg := .quiet } } }, true, secure0, _,
     by decide +kernel, by decide +kernel, by decide +kernel, rfl, by decide +kernel⟩,
   ⟨{ chip := { mboxChip 11 with flt := { dies := [(0, { inService := true }), (11, { inService := true })] } } },
     true, secure0, 11, by decide +kernel⟩,
   ⟨{ chip := mboxChip 287 }, true, secure0, 287, .hartStopped true secure0, by decide +kernel⟩,
   ⟨{ chip := chipOf [(GN_STATUS.RUNNING, 1)] }, false, normal0, 0, .hartStarted false normal0, by decide +kernel⟩,
   ⟨{ chip := mboxChip 3 }, true, secure0, _, by decide +kernel, by decide +kernel, by decide +kernel, rfl⟩⟩

theorem witness_FlaconMeters :
    (∃ (s : State) (nv : Int), s.chip.fl.metering = true ∧ nv.natAbs ≤ 30000000) ∧
    (∃ (s : State), s.chip.fl.metering = false) ∧
    (∃ (f : Flacon) (c : Nat) (mv : Int) (nv : Int) (d : Nat), c < f.energy.length ∧ c < f.residue.length ∧
      f.residue.getD c 0 < 8192000 ∧
      (f.energy.getD c 0) + (f.residue.getD c 0 + (Config.flaconTrim (f.gain.getD c 0) (f.offset.getD c 0) mv * nv * 1000 / (f.shunt.getD c 1 : Nat)).toNat) / 8192000 < 2 ^ 64 ∧
      d ≠ c) ∧
    (∃ (f : Flacon) (c : Nat) (mv : Int) (nv : Int), c < f.energy.length ∧ c < f.residue.length ∧
      f.residue.getD c 0 < 8192000 ∧
      (f.energy.getD c 0) + (f.residue.getD c 0 + (Config.flaconTrim (f.gain.getD c 0) (f.offset.getD c 0) mv * nv * 1000 / (f.shunt.getD c 1 : Nat)).toNat) / 8192000 < 2 ^ 64) ∧
    (∃ (s : State), s.chip.fl.started = true) ∧
    (∃ (s : State), s.chip.fl.clockStopped = true ∧ s.chip.fl.log.length < 256) ∧
    (∃ (s : State), s.chip.fl.started = true ∧ s.chip.fl.log.length < 256) ∧
    (∃ (s : State) (ch : Nat) (shunt : Nat), s.chip.fl.metering = true ∧ s.chip.fl.calLand = true ∧
      s.chip.fl.log.length < 256 ∧ ch < 8 ∧ 50000 ≤ shunt ∧ shunt ≤ 10000000) :=
  ⟨⟨{ chip := { fl := { metering := true } } }, -30000000, by decide +kernel⟩,
   ⟨{}, by decide +kernel⟩,
   ⟨{}, 7, 5, 0, 6, by decide +kernel, by decide +kernel, by decide +kernel, by simp, by decide +kernel⟩,
   ⟨{}, 7, 5, 0, by decide +kernel, by decide +kernel, by decide +kernel, by simp⟩,
   ⟨{ chip := { fl := { started := true } } }, by decide +kernel⟩,
   ⟨{ chip := { fl := { clockStopped := true, log := List.replicate 255 [] } } }, by decide +kernel⟩,
   ⟨{ chip := { fl := { started := true, log := List.replicate 255 [] } } }, by decide +kernel⟩,
   ⟨{ chip := { fl := { metering := true, calLand := true } } }, 7, 50000, by decide +kernel⟩⟩

theorem witness_FlaconCommands :
    (∃ (s : State) (c : Instr) (answer : Bytes), s.chip.on FL_MB_CMD.GO = false ∧ s.chip.fl.started = true ∧
      s.chip.fl.clockStopped = false ∧ ((c = .flGetInfo false ∧ answer = s.chip.fl.info) ∨ (c = .getPubkey false ∧
      answer = p384Pub s.chip.fl.key))) ∧
    (∃ (s : State) (nonce : Bytes) (body : Bytes) (answer : Bytes), s.chip.on FL_MB_CMD.GO = false ∧
      s.chip.fl.started = true ∧ s.chip.fl.clockStopped = false ∧ s.chip.fl.epoch < 65536 ∧
      s.chip.fl.seq + 1 < 2 ^ 32 ∧
      nonce = leBytes (s.chip.rd (FL_MB_ARG.ARG 0)) 8 ++ leBytes (s.chip.rd (FL_MB_ARG.ARG 1)) 8 ∧
      body = s.chip.fl.recordBody nonce ∧
      answer = body ++ p384SignWith s.chip.fl.key (1 + Config.freeNat s.chip.free % (p384N - 1)) body) ∧
    (∃ (s : State), s.chip.on FL_MB_CMD.GO = false ∧ s.chip.fl.started = true ∧ s.chip.fl.clockStopped = false ∧
      s.chip.fl.epoch < 65536 ∧ s.chip.rd (FL_MB_ARG.ARG 0) < s.chip.fl.log.length ∧ s.chip.fl.seq + 1 < 2 ^ 32) ∧
    (∃ (s : State), s.chip.on FL_MB_CMD.GO = false ∧ s.chip.fl.started = true ∧ s.chip.fl.clockStopped = false ∧
      s.chip.fl.epoch < 65536 ∧ s.chip.fl.log.length ≤ s.chip.rd (FL_MB_ARG.ARG 0)) ∧
    (∃ (s : State) (op : Nat) (c : Instr), (op,
      c) ∈ [(1, .flGetInfo false), (2, .getPubkey false), (3, .readMeter false), (4, .flReadLog false)] ∧
      s.chip.on FL_MB_CMD.GO = true) ∧
    (∃ (s : State) (op : Nat) (c : Instr), (op,
      c) ∈ [(1, .flGetInfo false), (2, .getPubkey false), (3, .readMeter false), (4, .flReadLog false)] ∧
      s.chip.on FL_MB_CMD.GO = false ∧ s.chip.fl.started = true ∧ s.chip.fl.clockStopped = true) ∧
    (∃ (s : State) (op : Nat) (c : Instr), (op,
      c) ∈ [(1, .flGetInfo false), (2, .getPubkey false), (3, .readMeter false), (4, .flReadLog false)] ∧
      s.chip.on FL_MB_CMD.GO = false ∧ s.chip.fl.started = false) ∧
    (∃ (s : State), s.chip.on FL_MB_CMD.GO = true) ∧
    (∃ (s : State), s.chip.fl.started = true ∧ s.chip.fl.clockStopped = false) :=
  ⟨⟨{ chip := { fl := { started := true } } }, .getPubkey false, _, by decide +kernel, by decide +kernel,
    by decide +kernel, Or.inr ⟨rfl, rfl⟩⟩,
   ⟨{ chip := { fl := { started := true, epoch := 65535, seq := 2 ^ 32 - 2 } } }, _, _, _, by decide +kernel,
     by decide +kernel, by decide +kernel, by decide +kernel, by decide +kernel, rfl, rfl, rfl⟩,
   ⟨{ chip := { fl := { started := true, log := [[]] } } }, by decide +kernel⟩,
   ⟨{ chip := { fl := { started := true } } }, by decide +kernel⟩,
   ⟨{ chip := chipOf [(FL_MB_CMD.GO, 1)] }, 4, .flReadLog false, by decide +kernel⟩,
   ⟨{ chip := { fl := { started := true, clockStopped := true } } }, 3, .readMeter false, by decide +kernel⟩,
   ⟨{}, 1, .flGetInfo false, by decide +kernel⟩,
   ⟨{ chip := chipOf [(FL_MB_CMD.GO, 1)] }, by decide +kernel⟩,
   ⟨{ chip := { fl := { started := true } } }, by decide +kernel⟩⟩

/-- The machine with dumps enabled for set 0 and PI at `pi`. -/
def pmChip (pi : Nat) : Chip := chipOf [(PM_DUMP_CTRL.ENABLE, 1), (PM_DUMP_CTRL.SETS, 1), (PM_DUMP_CTRL.ENTRY_LOG2, 15), (PM_DUMP_PI.PI, pi)]

theorem witness_PerformanceCounters :
    (∃ (s : State) (sets : List Nat), sets = setBits (s.chip.rd PM_DUMP_CTRL.SETS) 15 ∧ s.chip.dumpDue = true ∧
      (∀ n ∈ sets, recordLen n ≤ s.chip.dumpEntry) ∧ s.chip.pm.dumpPending = [] ∧
      sets.length ≤ s.chip.dumpRing - wrapSub (s.chip.rd PM_DUMP_PI.PI) (s.chip.rd PM_DUMP_CI.CI) 32) ∧
    (∃ (s : State) (sets : List Nat), sets = setBits (s.chip.rd PM_DUMP_CTRL.SETS) 15 ∧ s.chip.dumpDue = true ∧
      (∀ n ∈ sets, recordLen n ≤ s.chip.dumpEntry) ∧
      s.chip.dumpRing - wrapSub (s.chip.rd PM_DUMP_PI.PI) (s.chip.rd PM_DUMP_CI.CI) 32 < sets.length) ∧
    (∃ (s : State), s.chip.dumpDue = false) ∧
    (∃ (s : State) (r : Bytes) (rs : List Bytes) (addr : Nat) (k : Chip), s.chip.pm.dumpPending = r :: rs ∧
      addr = s.chip.rd PM_DUMP_BASE.BASE + s.chip.dumpEntry * (s.chip.rd PM_DUMP_PI.PI % s.chip.dumpRing) ∧
      k = { s.chip with free := s.chip.free + 1, pm := { s.chip.pm with dumpPending := rs } } ∧
      s.chip.secureTop ≤ addr ∧ addr + s.chip.dumpEntry ≤ s.chip.dramSize) ∧
    (∃ (s : State) (r : Bytes) (rs : List Bytes) (addr : Nat) (k : Chip), s.chip.pm.dumpPending = r :: rs ∧
      addr = s.chip.rd PM_DUMP_BASE.BASE + s.chip.dumpEntry * (s.chip.rd PM_DUMP_PI.PI % s.chip.dumpRing) ∧
      k = { s.chip with free := s.chip.free + 1, pm := { s.chip.pm with dumpPending := rs } } ∧
      addr < s.chip.secureTop) ∧
    (∃ (s : State) (v : Nat),
      wrapSub v (s.chip.rd PM_DUMP_CI.CI) 32 ≤ wrapSub (s.chip.rd PM_DUMP_PI.PI) (s.chip.rd PM_DUMP_CI.CI) 32) ∧
    (∃ (s : State) (v : Nat),
      wrapSub (s.chip.rd PM_DUMP_PI.PI) (s.chip.rd PM_DUMP_CI.CI) 32 < wrapSub v (s.chip.rd PM_DUMP_CI.CI) 32) ∧
    (∃ (csr : Nat), csr ≠ 0xC01 ∧ 0xC00 ≤ csr ∧ csr ≤ 0xC1F) ∧
    (∃ (s : State) (csr : Nat), csr ≠ 0xC01 ∧ s.chip.on PM_CTRL.USER_ENABLE = false) ∧
    (∃ (s : State) (v : Nat), (s.chip.small = true ∨ v % 2 = 0)) ∧
    (∃ (s : State) (v : Nat), s.chip.small = false ∧ v % 2 = 1 ∧ s.chip.rd PM_CTRL.USER_ENABLE = 0) :=
  ⟨⟨{ chip := pmChip 255 }, _, rfl, by decide +kernel⟩,
   ⟨{ chip := pmChip 256 }, _, rfl, by decide +kernel⟩,
   ⟨{}, by decide +kernel⟩,
   ⟨{ chip := { pmChip 0 with pm := { dumpPending := [[1]] } } }, [1], [], _, _, by decide +kernel, rfl, rfl,
     by decide +kernel⟩,
   ⟨{ chip := { chipOf [(WS_SECURE_TOP.TOP, 1)] with pm := { dumpPending := [[1]] } } }, [1], [], _, _,
     by decide +kernel, rfl, rfl, by decide +kernel⟩,
   ⟨{ chip := pmChip 5 }, 5, by decide +kernel⟩,
   ⟨{ chip := pmChip 5 }, 6, by decide +kernel⟩,
   ⟨0xC1F, by decide +kernel⟩,
   ⟨{}, 0xC00, by decide +kernel⟩,
   ⟨{ chip := chipOf [(PM_PART.SHARED 0, 1)] }, 2, by decide +kernel⟩,
   ⟨{ chip := chipOf [(PM_PART.SHARED 0, 1)] }, 1, by decide +kernel⟩⟩

theorem witness_FieldWrites :
    (∃ (f : Fld), (f.acc = .ro ∨ f.acc = .wo ∨ f.acc = .rw1s)) ∧
    (∃ (w : Writing) (f : Fld) (i : Nat), f.acc = .rw1c ∧ w.k.rd f < 2 ^ f.width ∧ i < f.width) ∧
    (∃ (w : Writing) (who : By) (f : Fld) (v : Nat), f.acc = .rws ∧ who.w ≠ 0 ∧ v ≠ w.k.rd f ∧
      pageZeroOnly f = false) ∧
    (∃ (w : Writing) (who : By) (f : Fld) (v : Nat), f.acc = .rw ∧ f.page < 96 ∧ f.page ≠ 8 ∧ f.off < 4096 ∧
      f.lo < 64 ∧ v ≠ w.k.rd f ∧ f.quiesced = true ∧ w.k.quiet f who = false) ∧
    (∃ (w : Writing) (f : Fld) (v : Nat), f.acc = .rw ∧ f.page < 96 ∧ f.page ≠ 8 ∧ f.off < 4096 ∧ f.lo < 64 ∧
      v ≠ w.k.rd f ∧ f.quiesced = false ∧ f.beat = true) ∧
    (∃ (w : Writing) (f : Fld) (v : Nat), f.acc = .rw ∧ f.page < 96 ∧ f.page ≠ 8 ∧ f.off < 4096 ∧ f.lo < 64 ∧
      v ≠ w.k.rd f ∧ f.quiesced = false ∧ f.beat = false ∧ f.key ≠ BT_CTRL.LEN.key) :=
  ⟨⟨BT_STATUS.ACTIVE, by decide +kernel⟩,
   ⟨{ k := {} }, { page := 0, off := 0x18, lo := 0, width := 1, acc := .rw1c, dom := .pcr, reset := 0 }, 0,
     by decide +kernel⟩,
   ⟨{ k := {} }, normal0, WS_CLAIM_TILE.TILE 5, 1, by decide +kernel⟩,
   ⟨{ k := chipOf [(CN_CTRL.ENABLE, 1)] }, normal0, CN_ID.PKG_ID, 1, by decide +kernel⟩,
   ⟨{ k := {} }, BT_CTRL.ALIGN_EN, 1, by decide +kernel⟩,
   ⟨{ k := {} }, AE_CTRL.ENABLE 23, 0, by decide +kernel⟩⟩

theorem witness_RegisterAccesses :
    (∃ (s : State), s.chip.area 0xF_F000_0000_B020 = .registers) ∧
    (∃ (s : State) (acc : Access) (r : Reg) (n : Nat), n = (acc.addr - pageBase) / 4096 ∧ n ≠ 14 ∧
      s.chip.area acc.addr = .registers ∧ touched (s.chip.page n) (acc.addr % 4096) acc.size = [r] ∧
      (r.off ≠ acc.addr % 4096 ∨ 8 * acc.size ≠ r.bits) ∧ acc.write = true) ∧
    (∃ (s : State) (acc : Access) (r : Reg) (n : Nat), n = (acc.addr - pageBase) / 4096 ∧ n ≠ 14 ∧
      s.chip.area acc.addr = .registers ∧ touched (s.chip.page n) (acc.addr % 4096) acc.size = [r] ∧
      r.off = acc.addr % 4096 ∧ 8 * acc.size = r.bits ∧ acc.write = false) ∧
    (∃ (s : State) (acc : Access) (n : Nat), n = (acc.addr - pageBase) / 4096 ∧ n ≠ 14 ∧
      s.chip.area acc.addr = .registers ∧ touched (s.chip.page n) (acc.addr % 4096) acc.size = []) ∧
    (∃ (s : State) (acc : Access) (r : Reg) (n : Nat), n = (acc.addr - pageBase) / 4096 ∧
      s.chip.pageOffline n = true ∧ s.chip.area acc.addr = .registers ∧
      touched (s.chip.page n) (acc.addr % 4096) acc.size = [r] ∧ r.off = acc.addr % 4096 ∧ 8 * acc.size = r.bits ∧
      acc.write = true ∧ 32 ≤ n ∧ r.off = 0) ∧
    (∃ (s : State) (acc : Access) (r : Reg) (n : Nat), n = (acc.addr - pageBase) / 4096 ∧
      s.chip.pageOffline n = true ∧ s.chip.area acc.addr = .registers ∧
      touched (s.chip.page n) (acc.addr % 4096) acc.size = [r] ∧ r.off = acc.addr % 4096 ∧ 8 * acc.size = r.bits ∧
      acc.write = true ∧ (n < 32 ∨ r.off ≠ 0)) :=
  ⟨⟨{}, by decide +kernel⟩,
   ⟨{}, { addr := pageBase + 2, size := 2, write := true, value := 0, who := normal0 },
     (regsBT.headD { off := 0, bits := 0, fields := [] }), _, rfl, by decide +kernel⟩,
   ⟨{}, { addr := pageBase, size := 4, write := false, value := 0, who := normal0 },
     (regsBT.headD { off := 0, bits := 0, fields := [] }), _, rfl, by decide +kernel⟩,
   ⟨{}, { addr := pageBase + 0xFF8, size := 8, write := true, value := 0, who := normal0 }, _, rfl,
     by decide +kernel⟩,
   ⟨{}, { addr := pageBase + 4096 * 55, size := 4, write := true, value := 0, who := normal0 },
     ((({} : Chip).page 55).headD { off := 0, bits := 0, fields := [] }), _, rfl, by decide +kernel⟩,
   ⟨{}, { addr := pageBase + 4096 * 27, size := 4, write := true, value := 0, who := normal0 },
     ((({} : Chip).page 27).headD { off := 0, bits := 0, fields := [] }), _, rfl, by decide +kernel⟩⟩

/-- Each clause of `ReservedAccesses` has a requester: a hart, Gunel writing, Gunel reading, and a copy engine. -/
theorem witness_ReservedAccesses_requesters :
    (normal0 : By).source = 0 ∧ (∃ who : By, who.source ≠ 0) ∧ (∃ who : By, 7 ≤ who.source ∧ who.source ≤ 9) ∧
    (∃ who : By, 0 < who.source ∧ (who.source < 7 ∨ 9 < who.source)) :=
  ⟨by decide, ⟨{ source := 1, id := 0, w := 1 }, by decide⟩, ⟨{ source := 9, id := 0, w := 1 }, by decide⟩,
   ⟨{ source := 6, id := 0, w := 1 }, by decide⟩⟩

theorem witness_ReservedAccesses :
    ∃ (s : State) (addr : Nat), s.chip.area addr = .reserved :=
  ⟨{}, 2 ^ 43, by decide +kernel⟩

theorem witness_StoreWritesItsBytes :
    (∃ (k : Chip) (a : Nat) (bs : Bytes) (i : Nat), (∀ l ∈ linesOf a bs.length, k.cohTouches l = false) ∧
      i < bs.length) ∧
    (∃ (k : Chip) (a : Nat) (bs : Bytes), (∀ l ∈ linesOf a bs.length, k.cohTouches l = false) ∧
      Memory.wf k.mem = true) ∧
    (∃ (k : Chip) (a : Nat) (bs : Bytes) (l : Nat), (∀ l ∈ linesOf a bs.length, k.cohTouches l = false) ∧
      a ≤ 64 * l ∧ 64 * l + 64 ≤ a + bs.length) ∧
    (∃ (k : Chip) (a : Nat) (bs : Bytes) (l : Nat), (∀ l ∈ linesOf a bs.length, k.cohTouches l = false) ∧
      (64 * l < a ∨ a + bs.length < 64 * l + 64)) ∧
    (∃ (k : Chip) (a : Nat) (bs : Bytes), (∀ l ∈ linesOf a bs.length, k.cohTouches l = false)) :=
  ⟨⟨{}, 62, [1, 2, 3], 2, by decide +kernel⟩,
   ⟨{}, 62, [1, 2, 3], by decide +kernel⟩,
   ⟨{}, 63, zeros 65, 1, by decide +kernel⟩,
   ⟨{}, 63, zeros 64, 1, by decide +kernel⟩,
   ⟨{}, 62, [1, 2, 3], by decide +kernel⟩⟩

theorem witness_LayoutsRoundTrip :
    (∃ (b : Bytes), b.length = 64) ∧
    (∃ (b : Bytes) (w : Window), w.entry = WinEntry.ofBytes b) ∧
    (∃ (b : Bytes), b.length = 32) ∧
    (∃ (f : Frame), f.kind < 16 ∧ f.vc < 16 ∧ f.op < 256 ∧ f.linkSeq < 65536 ∧ f.linkAck < 65536 ∧ f.dst < 65536 ∧
      f.src < 65536 ∧ f.window < 65536 ∧ f.ttl < 256 ∧ f.creditVc < 4 ∧ f.credit < 64 ∧ f.flowSeq < 2 ^ 32 ∧
      f.arg < 2 ^ 32 ∧ f.body.length ≤ 224) :=
  ⟨⟨zeros 64, by decide +kernel⟩,
   ⟨zeros 64, { entry := WinEntry.ofBytes (zeros 64) }, by decide +kernel⟩,
   ⟨zeros 32, by decide +kernel⟩,
   ⟨{ frame0 with kind := 15, vc := 15, op := 255, linkSeq := 65535, linkAck := 65535, dst := 65535, src := 65535, window := 65535, ttl := 255, creditVc := 3, credit := 63, flowSeq := 2 ^ 32 - 1, arg := 2 ^ 32 - 1, body := zeros 224 },
     by decide +kernel⟩⟩

/-! ### Ill-formed commands -/

/-- Hart 0 of the secure world. -/
def by0 : By := { source := 0, id := 0, w := 0 }
/-- An access by it. -/
def acc0 : Access := { addr := 0, size := 4, write := false, value := 0, who := by0 }
/-- A request of C-die 0. -/
def msg0 : CohMsg := { die := 0, line := 0, who := by0, exclOk := false }
/-- An error of a DRAM device. -/
def err0 : DevErr := { line := 0, rank := 0, sub := 0, device := 0, corrected := false }
/-- Operands out of range, one of each structure. -/
def badBy : By := { by0 with w := 2 }
@[inherit_doc badBy] def badAcc : Access := { acc0 with size := 17 }
@[inherit_doc badBy] def badFrame : Frame := { frame0 with ttl := 256 }
@[inherit_doc badBy] def badFlit : Flit := { flitTo 0 with net := 4 }
@[inherit_doc badBy] def badIdent : SbIdent := { ident23 with genMax := 256 }
@[inherit_doc badBy] def badMsg : CohMsg := { msg0 with die := 13 }
@[inherit_doc badBy] def badErr : DevErr := { err0 with device := 10 }
@[inherit_doc badBy] def badFacts : StartFacts := { ranks := 5 }


theorem test_wf_refuses_1 : (
    [.beatBoundary [] (List.replicate (113) 0) [] [], .beatBoundary [] [] (List.replicate (337) 0) [],
     .beatBoundary [] [] [] (List.replicate (17) (0, 0)), .phaseBoundary [] (List.replicate (113) 0) [] [],
     .phaseBoundary [] [] (List.replicate (337) 0) [], .phaseBoundary [] [] [] (List.replicate (17) (0, 0)),
     .beatTokenReceived 12 false 0 0 0 0 0, .beatTokenReceived 0 false (2 ^ 64) 0 0 0 0,
     .beatTokenReceived 0 false 0 2 0 0 0, .beatTokenReceived 0 false 0 0 2 0 0,
     .beatTokenReceived 0 false 0 0 0 256 0, .tokenMissing 12, .beatMasterSelfCheckError 2, .registerWrite badAcc,
     .workPi false 256 0 0 0, .workPi false 0 4096 0 0, .workPi false 0 0 9 0, .workPi false 0 0 0 (2 ^ 64),
     .cplCi false 256 0 0 0, .cplCi false 0 4096 0 0, .cplCi false 0 0 9 0, .cplCi false 0 0 0 (2 ^ 64),
     .descriptorFetch 8192, .descriptorReadDone 8192, .paramBlockReadDone 16384, .segmentFinish 24,
     .coalBeatsExpiry 8192, .msixVectorUnmask 256 0, .msixVectorUnmask 0 2048, .reIndRead 2 0, .reIndRead 0 8192,
     .reIndWriteRing 8192, .reIndWriteFunction 8192, .engineReadData 24 [], .accWr 24, .close 24, .signRequest 24,
     .signatureReturn 24, .accumRestoreDone 16384, .accumLineUncorrectable 16384, .cnPortEnable 4,
     .conosTrainingStepDone 4 false, .conosTrainingRetryTimer 4, .ident 4 0 0 0 0, .ident 0 16384 0 0 0,
     .ident 0 0 4 0 0, .ident 0 0 0 256 0, .conosFrameReceived 4 frame0 false, .conosFrameReceived 0 badFrame false,
     .linkNak 4 0, .linkNak 0 65536, .linkAckTimeout 4, .write badFrame, .readReq badFrame, .readRsp badFrame,
     .push badFrame, .pushAck badFrame, .opNak badFrame, .flowAck 16384 0 0, .flowAck 0 2 0]
    : List Instr).all (fun i => !i.wf) = true := by
  decide +kernel

theorem test_wf_refuses_2 : (
    [.flowAck 0 0 (2 ^ 32), .flowNak 16384 0 0, .flowNak 0 2 0, .flowNak 0 0 (2 ^ 32), .flowAckTimeout 16384 0,
     .flowAckTimeout 0 2, .alignReq 4 0 0 0 0, .alignReq 0 16384 0 0 0, .alignReq 0 0 (2 ^ 32) 0 0,
     .alignReq 0 0 0 (2 ^ 32) 0, .alignReq 0 0 0 0 (2 ^ 32), .alignRsp (2 ^ 32) 0 0 0 0, .alignRsp 0 (2 ^ 32) 0 0 0,
     .alignRsp 0 0 (2 ^ 32) 0 0, .alignRsp 0 0 0 (2 ^ 32) 0, .alignRsp 0 0 0 0 2, .alignIntervalExpiry (2 ^ 32),
     .conosApertureWrite paLimit [] by0, .conosApertureWrite 0 [] badBy, .conosApertureRead paLimit 0 by0,
     .conosApertureRead 0 4097 by0, .conosApertureRead 0 0 badBy, .readFailed 65536, .cnWindowWrite 1024,
     .cnRouteWrite 16384, .cnIndRead 2 0, .cnIndRead 0 16384, .winDrained 1024, .pushFullWaitExpiry 2048,
     .pushAckTimeout 2048, .cnWakeSend 16, .wakePatternEnd 4, .wakePatternDetected 4, .conosLaneLoss 4, .flr 256,
     .functionEnableChange (.numVfs 256), .hostReadCompletion 256 0 0 [] false,
     .hostReadCompletion 0 1024 0 [] false, .hostReadCompletion 0 0 4096 [] false,
     .hostReadCompletion 0 0 0 (List.replicate (4097) 0) false, .completionTimeout 256 0, .completionTimeout 0 1024,
     .barWriteOutside 256 0, .barWriteOutside 0 (2 ^ 18), .completionTimeoutValueWrite 256 0,
     .completionTimeoutValueWrite 0 16, .spdmRequest 256, .mqTargetWrite 4096, .mqQpWrite 8192, .mqIndRead 2 0,
     .mqIndRead 0 8192, .driveCompletionCapture 8192 0 0 0, .driveCompletionCapture 0 65536 0 0,
     .driveCompletionCapture 0 0 65536 0, .driveCompletionCapture 0 0 0 (2 ^ 64), .passSqDoorbell 8192 0,
     .passSqDoorbell 0 (2 ^ 32), .passCqDoorbell 8192 0, .passCqDoorbell 0 (2 ^ 32), .driveRemoved 32]
    : List Instr).all (fun i => !i.wf) = true := by
  decide +kernel

theorem test_wf_refuses_3 : (
    [.driveAdded 32, .qfworldWrite 288 0 0, .qfworldWrite 0 2 0, .qfworldWrite 0 0 2, .qfsillageWrite 288 .m 0,
     .qfsillageWrite 0 .m (2 ^ 64), .qfoppWrite 288 0, .qfoppWrite 0 (2 ^ 64), .customCsrIllegal 288 0 .m false 0,
     .customCsrIllegal 0 4096 .m false 0, .customCsrIllegal 0 0 .m false (2 ^ 64), .trapToMMode 288 0 0 0 false,
     .trapToMMode 0 (2 ^ 64) 0 0 false, .trapToMMode 0 0 (2 ^ 64) 0 false, .trapToMMode 0 0 0 4 false, .mret 288,
     .hartAccess 288 .load 0 0 [], .hartAccess 0 .load paLimit 0 [], .hartAccess 0 .load 0 65 [], .coreFault 288,
     .hartHangTimeout 288, .takeoverComplete 288, .migrationComplete 288, .msiDelivery paLimit 0 by0 0,
     .msiDelivery 0 (2 ^ 32) by0 0, .msiDelivery 0 0 by0 9, .msiDelivery 0 0 badBy 0, .stagingWayEmpty 24,
     .cacheUncorrectable .l1 336 .clean 0, .cacheUncorrectable .l1 0 .clean lineLimit, .rdShared badMsg,
     .rdUnique badMsg, .own badMsg false, .rdOnce badMsg, .wrLine badMsg none, .wrLine msg0 (some (.hart 288)),
     .evict badMsg false, .writeback badMsg false, .amo msg0 .add 17 0 0, .amo msg0 .add 0 64 0,
     .amo msg0 .add 0 0 (2 ^ 128), .amo badMsg .add 0 0 0, .cmoClean badMsg, .cmoFlush badMsg, .cmoInval badMsg,
     .snpShared 12 0, .snpShared 0 lineLimit, .snpUnique 12 0, .snpUnique 0 lineLimit, .snpOnce 12 0,
     .snpOnce 0 lineLimit, .snpInv 12 0, .snpInv 0 lineLimit, .snpClean 12 0, .snpClean 0 lineLimit,
     .snpStash 12 0 .open, .snpStash 0 lineLimit .open, .snpStash 0 0 (.staging 24), .snpResp 12 0,
     .snpResp 0 lineLimit]
    : List Instr).all (fun i => !i.wf) = true := by
  decide +kernel

theorem test_wf_refuses_4 : (
    [.snpData 12 0, .snpData 0 lineLimit, .stashAccept 12 0, .stashAccept 0 lineLimit, .stashDecline 12 0,
     .stashDecline 0 lineLimit, .comp 12 0, .comp 0 lineLimit, .evcAck 12 0, .evcAck 0 lineLimit, .compAck 12 0,
     .compAck 0 lineLimit, .data 12 0 none, .data 0 lineLimit none, .data 0 0 (some (lineLimit)),
     .wbData 12 0 [] false, .wbData 0 lineLimit [] false, .wbData 0 0 (List.replicate (65) 0) false,
     .wrData lineLimit [] 0 false, .wrData 0 (List.replicate (65) 0) 0 false, .wrData 0 [] (2 ^ 64) false,
     .lrSnoopHoldExpiry 12 0, .lrSnoopHoldExpiry 0 lineLimit, .directoryEntryUncorrectable (lineLimit / 8),
     .directoryWalkComplete 12, .flitReceived 13 0 0 0 (flitTo 0) false, .flitReceived 0 256 0 0 (flitTo 0) false,
     .flitReceived 0 0 4 0 (flitTo 0) false, .flitReceived 0 0 0 4 (flitTo 0) false,
     .flitReceived 0 0 0 0 badFlit false, .flitDeliver 13 0 0 0, .flitDeliver 0 256 0 0, .flitDeliver 0 0 4 0,
     .flitDeliver 0 0 0 4096, .nocLinkFail 13 0, .nocLinkFail 0 256, .routerFenced 13 0, .routerFenced 0 256,
     .routeCompileDone 13, .routeTableInstall 13, .sbIdent 24 ident23, .sbIdent 0 badIdent, .mapAnnounce 24 0 [] 0,
     .mapAnnounce 0 3 [] 0, .mapAnnounce 0 0 (List.replicate (34) 0) 0, .mapAnnounce 0 0 [] 2, .mapAdopt 24 0,
     .mapAdopt 0 (2 ^ 32), .mapReject 24 [], .mapReject 0 [512], .wireReport 24 0 0 0, .wireReport 0 2 0 0,
     .wireReport 0 0 272 0, .wireReport 0 0 0 65536, .testDone 24 false, .creditInit 24, .sbMsgTimeout 24,
     .bilumFlitReceived 24 0 0 false false 0, .bilumFlitReceived 0 2 0 false false 0,
     .bilumFlitReceived 0 0 4 false false 0]
    : List Instr).all (fun i => !i.wf) = true := by
  decide +kernel

theorem test_wf_refuses_5 : (
    [.bilumFlitReceived 0 0 0 false false 8, .bilumReplayTimeout 24 0 0, .bilumReplayTimeout 0 2 0,
     .bilumReplayTimeout 0 0 4, .creditFrame 24 0 0, .creditFrame 0 2 0, .creditFrame 0 0 (2 ^ 32),
     .bilumRecalSlot 24 0, .bilumRecalSlot 0 65536, .swapLimitReached 24 0 0, .swapLimitReached 0 2 0,
     .swapLimitReached 0 0 272, .blockLost 24 0 0, .blockLost 0 2 0, .blockLost 0 0 8, .bilumPortFail 24,
     .bilumRetrainTimer 24, .retrain 24, .clkSilent 12, .refreshDue 16 0 false, .refreshDue 0 4 false,
     .mr4Read 16 0 false, .mr4Read 0 4 false, .dramRecalSlot 16, .mcRateWrite 16 0, .mcRateWrite 0 4,
     .rateChangeComplete [16], .dramRead 16 0 [] [] none, .dramRead 0 lineLimit [] [] none,
     .dramRead 0 0 [badErr] [] none, .dramRead 0 0 [] [badErr] none, .dramWrite 16 0 [] false,
     .dramWrite 0 lineLimit [] false, .dramWrite 0 0 (List.replicate (65) 0) false, .mergeBufferWrite 16 0 [] 0,
     .mergeBufferWrite 0 lineLimit [] 0, .mergeBufferWrite 0 0 (List.replicate (65) 0) 0,
     .mergeBufferWrite 0 0 [] (2 ^ 64), .channelFence 16, .scrubBurst 16 [], .scrubBurst 0 [badErr],
     .qtReserveWrite (2 ^ 64), .arbiterCycle 4 0 [] false false false, .arbiterCycle 0 256 [] false false false,
     .arbiterCycle 0 0 [8192] false false false, .qtIndRead 2 0, .qtIndRead 0 8192, .qtIndWrite 2 0,
     .qtIndWrite 0 8192, .haPairMismatch 34, .reInstanceFailover 2 false, .engineSramUncorrectable 24,
     .selfTestComplete 19 0 false, .selfTestComplete 0 336 false, .wsSecureTopWrite (2 ^ 64) by0,
     .wsSecureTopWrite 0 badBy, .wsClaimWrite 7 0 by0, .wsClaimWrite 0 (2 ^ 64) by0, .wsClaimWrite 0 0 badBy,
     .debugHaltRequest 288]
    : List Instr).all (fun i => !i.wf) = true := by
  decide +kernel

theorem test_wf_refuses_6 : (
    [.wsKeyRead 16384 by0, .wsKeyRead 0 badBy, .load 16384 by0, .load 0 badBy, .clear 16384 by0, .clear 0 badBy,
     .signKey badBy, .kick badBy, .req badBy, .secureImageLoaded (List.replicate (49) 0), .done badBy,
     .crystalCountEnd 2, .pllWaitEnd 256, .thermalCritical 13, .droop 336, .droopStretchEnd 336, .run 5, .quiet 5,
     .standby 5, .drydown 5, .gate 8 0 0, .gate 0 512 0, .gate 0 0 5, .ungate 8 0 0, .ungate 0 512 0, .ungate 0 0 5,
     .wakeSourceFire 4 {}, .wakeSourceFire 0 badFacts, .tileRetentionEntry 336, .tileRetentionWake 336,
     .sensorSample (List.replicate (256) 0), .sensorSample [65536], .getInfo false badBy, .readLog false badBy,
     .readLifetime false badBy, .readSensor false badBy, .queueTest false badBy, .cancelTest false badBy,
     .power false badBy, .dieReset false badBy, .dieBistDone 12 [] [] false,
     .dieBistDone 0 (List.replicate (29) false) [] false, .dieBistDone 0 [] (List.replicate (3) false) false,
     .setMemcfg false badBy, .hartStarted false badBy, .hartStopped false badBy, .pldmUpdate 3 [],
     .activateFirmware 3, .pkgResetRelease badFacts, .railLoss 256, .flaconSample (List.replicate (9) (0, 0)),
     .flaconCalibrate 8 0 0 0, .flaconCalibrate 0 (2 ^ 32) 0 0, .userCounterRead 288 .m 0,
     .userCounterRead 0 .m 4096, .pmPartWrite (2 ^ 64), .userEnableWrite (2 ^ 32), .pmDumpCiWrite (2 ^ 32),
     .reservedAccess paLimit by0 false, .reservedAccess 0 badBy false]
    : List Instr).all (fun i => !i.wf) = true := by
  decide +kernel

theorem test_wf_refuses_7 : (
    [.offlinePageAccess badAcc, .linkUp 8 0 false, .linkUp 0 17 false, .flrComplete 256, .sbSetFail 24 0,
     .sbSetFail 0 2, .alertN 16, .controlStopError 12, .engineControlParity 24, .bridgeParityError 13 .other,
     .bridgeParityError 0 (.tile 336), .trackerUncorrectable 34]
    : List Instr).all (fun i => !i.wf) = true := by
  decide +kernel

theorem test_wf_refuses_structures_1 : (
    [.kick { by0 with source := 16 }, .kick { by0 with id := 65536 }, .kick { by0 with w := 2 },
     .registerWrite { acc0 with addr := 2 ^ 52 }, .registerWrite { acc0 with size := 17 },
     .registerWrite { acc0 with value := 2 ^ 64 }, .registerWrite { acc0 with who := badBy },
     .write { frame0 with kind := 8 }, .write { frame0 with vc := 4 }, .write { frame0 with op := 16 },
     .write { frame0 with linkSeq := 65536 }, .write { frame0 with linkAck := 65536 },
     .write { frame0 with dst := 16384 }, .write { frame0 with src := 16384 },
     .write { frame0 with window := 1024 }, .write { frame0 with ttl := 256 }, .write { frame0 with creditVc := 4 },
     .write { frame0 with credit := 64 }, .write { frame0 with flowSeq := 2 ^ 32 },
     .write { frame0 with arg := 2 ^ 32 }, .write { frame0 with body := zeros 225 },
     .flitReceived 0 0 0 0 { flitTo 0 with net := 4 } false, .flitReceived 0 0 0 0 { flitTo 0 with vc := 4 } false,
     .flitReceived 0 0 0 0 { flitTo 0 with src := 4096 } false,
     .flitReceived 0 0 0 0 { flitTo 0 with dst := 4096 } false,
     .flitReceived 0 0 0 0 { flitTo 0 with seq := 1024 } false, .sbIdent 0 { ident23 with genMax := 256 },
     .sbIdent 0 { ident23 with genMin := 256 }, .sbIdent 0 { ident23 with index := 256 },
     .sbIdent 0 { ident23 with port := 256 }, .sbIdent 0 { ident23 with width := 256 },
     .sbIdent 0 { ident23 with hash := 2 ^ 32 }, .rdShared { msg0 with die := 13 },
     .rdShared { msg0 with line := 2 ^ 46 }, .rdShared { msg0 with who := badBy },
     .scrubBurst 0 [{ err0 with line := 2 ^ 46 }], .scrubBurst 0 [{ err0 with rank := 4 }],
     .scrubBurst 0 [{ err0 with sub := 2 }], .scrubBurst 0 [{ err0 with device := 10 }],
     .functionEnableChange (.numVfs 256), .functionEnableChange (.busMaster 256 true),
     .functionEnableChange (.powerState 256 true), .functionEnableChange (.msixEnable 256 true),
     .functionEnableChange (.functionMask 256 true), .functionEnableChange (.vectorMask 256 0),
     .functionEnableChange (.vectorMask 0 2048), .functionEnableChange (.vectorEntry 256 0 0 0),
     .functionEnableChange (.vectorEntry 0 2048 0 0), .functionEnableChange (.vectorEntry 0 0 (2 ^ 64) 0),
     .functionEnableChange (.vectorEntry 0 0 0 (2 ^ 32)), .functionEnableChange (.readRequestSize 256 0),
     .functionEnableChange (.readRequestSize 0 8), .functionEnableChange (.tenBitTags 256 true),
     .functionEnableChange (.linkControl 16), .wrLine msg0 (some (.hart 288)), .wrLine msg0 (some (.die 12)),
     .snpStash 0 0 (.l2 288), .snpStash 0 0 (.staging 24), .bridgeParityError 0 (.port 24),
     .bridgeParityError 0 (.tile 336)]
    : List Instr).all (fun i => !i.wf) = true := by
  decide +kernel

theorem test_wf_refuses_structures_2 : (
    [.pkgResetRelease { gunelGood := List.replicate 3 true },
     .pkgResetRelease { secureGood := List.replicate 3 true },
     .pkgResetRelease { dieGood := List.replicate 13 true },
     .pkgResetRelease { tileGood := List.replicate 337 true },
     .pkgResetRelease { engineGood := List.replicate 25 true }, .pkgResetRelease { dimms := 3 },
     .pkgResetRelease { ranks := 5 }, .pkgResetRelease { gib := 1025 },
     .pkgResetRelease { measurement := zeros 49 }, .pkgResetRelease { secureTop := 2 ^ 26 }]
    : List Instr).all (fun i => !i.wf) = true := by
  decide +kernel

theorem test_wf_accepts_1 : (
    [.beatBoundary [] [] [] [], .phaseBoundary [] [] [] [], .windowBoundary, .beatTokenReceived 0 false 0 0 0 0 0,
     .tokenMissing 0, .beatMasterSelfCheckError 0, .cmpMismatch, .registerWrite acc0, .workPi false 0 0 0 0,
     .cplCi false 0 0 0 0, .descriptorFetch 0, .descriptorReadDone 0, .paramBlockReadDone 0, .segmentFinish 0,
     .coalBeatsExpiry 0, .msixVectorUnmask 0 0, .reIndRead 0 0, .reIndWriteRing 0, .reIndWriteFunction 0,
     .engineReadData 0 [], .accWr 0, .close 0, .signRequest 0, .signatureReturn 0, .accumRegionAllocate,
     .accumRestoreDone 0, .accumLineUncorrectable 0, .cnPortEnable 0, .conosTrainingStepDone 0 false,
     .conosTrainingRetryTimer 0, .ident 0 0 0 0 0, .conosFrameReceived 0 frame0 false, .linkNak 0 0,
     .linkAckTimeout 0, .write frame0, .readReq frame0, .readRsp frame0, .push frame0, .pushAck frame0,
     .opNak frame0, .flowAck 0 0 0, .flowNak 0 0 0, .flowAckTimeout 0 0, .alignReq 0 0 0 0 0, .alignRsp 0 0 0 0 0,
     .alignIntervalExpiry 0, .conosApertureWrite 0 [] by0, .conosApertureRead 0 0 by0, .readFailed 0,
     .cnWindowWrite 0, .cnRouteWrite 0, .cnIndRead 0 0, .winDrained 0, .pushFullWaitExpiry 0, .pushAckTimeout 0,
     .cnWakeSend 0, .wakePatternEnd 0, .wakePatternDetected 0, .conosLaneLoss 0, .flr 0,
     .functionEnableChange (.vfEnable false), .endpointReset, .hostReadCompletion 0 0 0 [] false,
     .completionTimeout 0 0]
    : List Instr).all Instr.wf = true := by
  decide +kernel

theorem test_wf_accepts_2 : (
    [.barWriteOutside 0 0, .completionTimeoutValueWrite 0 0, .l1IdleExpiry, .l0sIdleExpiry, .spdmRequest 0,
     .mqTargetWrite 0, .mqQpWrite 0, .mqIndRead 0 0, .driveCompletionCapture 0 0 0 0, .passSqDoorbell 0 0,
     .passCqDoorbell 0 0, .mediaCommandTimeout 0, .driveRemoved 0, .driveAdded 0, .qfworldWrite 0 0 0,
     .qfsillageWrite 0 .m 0, .qfoppWrite 0 0, .customCsrIllegal 0 0 .m false 0, .trapToMMode 0 0 0 0 false, .mret 0,
     .hartAccess 0 .load 0 0 [], .coreFault 0, .hartHangTimeout 0, .takeoverComplete 0, .migrationComplete 0,
     .msiDelivery 0 0 by0 0, .stagingWayEmpty 0, .accumWaysLocked, .cacheUncorrectable .l1 0 .clean 0,
     .rdShared msg0, .rdUnique msg0, .own msg0 false, .rdOnce msg0, .wrLine msg0 none, .evict msg0 false,
     .writeback msg0 false, .amo msg0 .add 0 0 0, .cmoClean msg0, .cmoFlush msg0, .cmoInval msg0, .snpShared 0 0,
     .snpUnique 0 0, .snpOnce 0 0, .snpInv 0 0, .snpClean 0 0, .snpStash 0 0 .open, .snpResp 0 0, .snpData 0 0,
     .stashAccept 0 0, .stashDecline 0 0, .comp 0 0, .evcAck 0 0, .compAck 0 0, .data 0 0 none,
     .wbData 0 0 [] false, .wrData 0 [] 0 false, .lrSnoopHoldExpiry 0 0, .directoryEntryUncorrectable 0,
     .directoryWalkComplete 0, .flitReceived 0 0 0 0 (flitTo 0) false, .flitDeliver 0 0 0 0, .nocLinkFail 0 0,
     .routerFenced 0 0, .routeCompileDone 0]
    : List Instr).all Instr.wf = true := by
  decide +kernel

theorem test_wf_accepts_3 : (
    [.routeTableInstall 0, .sbIdent 0 ident23, .mapAnnounce 0 0 [] 0, .mapAdopt 0 0, .mapReject 0 [],
     .wireReport 0 0 0 0, .testDone 0 false, .creditInit 0, .sbMsgTimeout 0, .bilumFlitReceived 0 0 0 false false 0,
     .bilumReplayTimeout 0 0 0, .creditFrame 0 0 0, .bilumRecalSlot 0 0, .swapLimitReached 0 0 0, .blockLost 0 0 0,
     .bilumPortFail 0, .bilumRetrainTimer 0, .retrain 0, .clkSilent 0, .refreshDue 0 0 false, .mr4Read 0 0 false,
     .dramRecalSlot 0, .mcRateWrite 0 0, .rateChangeComplete [], .dramRead 0 0 [] [] none, .dramWrite 0 0 [] false,
     .mergeBufferWrite 0 0 [] 0, .channelFence 0, .scrubBurst 0 [], .qtReserveWrite 0, .stopSet, .stopClear,
     .arbiterCycle 0 0 [] false false false, .qtIndRead 0 0, .qtIndWrite 0 0, .haPairMismatch 0,
     .reInstanceFailover 0 false, .engineSramUncorrectable 0, .selfTestComplete 0 0 false, .wsSecureTopWrite 0 by0,
     .wsClaimWrite 0 0 by0, .debugHaltRequest 0, .wsKeyRead 0 by0, .load 0 by0, .clear 0 by0, .signKey by0,
     .signReady, .secureWatchdogLapse, .kick by0, .req by0, .signingSramUncorrectable, .secureImageLoaded [],
     .done by0, .secureRestartTimeout, .refclkSysLoss, .refclkRpLoss, .epRefclkLoss, .gunelLapse,
     .crystalCountEnd 0, .pllWaitEnd 0, .thermalCritical 0, .droop 0, .droopStretchEnd 0, .run 0]
    : List Instr).all Instr.wf = true := by
  decide +kernel

theorem test_wf_accepts_4 : (
    [.quiet 0, .standby 0, .drydown 0, .gate 0 0 0, .ungate 0 0 0, .wakeSourceFire 0 {}, .tileRetentionEntry 0,
     .tileRetentionWake 0, .gunelWatchdogLapse, .gunelRestartDone, .sensorSample [], .lifetimeWrite,
     .getInfo false by0, .readLog false by0, .readLifetime false by0, .readSensor false by0, .queueTest false by0,
     .cancelTest false by0, .power false by0, .dieReset false by0, .dieBistDone 0 [] [] false, .setMemcfg false by0,
     .hartStarted false by0, .hartStopped false by0, .pldmUpdate 0 [], .activateFirmware 0, .hubLapse,
     .pkgResetRelease {}, .startStepTimeout, .pkgResetAssert, .mainPgRise, .cdPgRise, .powerGoodTimeout,
     .railLoss 0, .vflPowerUp, .flaconSample [], .xtalFStop, .xtalFReturn, .flaconCalRise, .flaconCalibrate 0 0 0 0,
     .flGetInfo false, .getPubkey false, .readMeter false, .flReadLog false, .flMailboxTimeout, .pmDump,
     .pmDumpEntryWritten, .userCounterRead 0 .m 0, .pmPartWrite 0, .userEnableWrite 0, .pmDumpCiWrite 0,
     .reservedAccess 0 by0 false, .offlinePageAccess acc0, .linkUp 0 0 false, .flrComplete 0, .sbSetFail 0 0,
     .alertN 0, .controlStopError 0, .engineControlParity 0, .bridgeParityError 0 .other, .trackerUncorrectable 0,
     .romRecovery []]
    : List Instr).all Instr.wf = true := by
  decide +kernel

/-! ### The spec's worked examples and published test vectors -/

/-- The code of the worked example of a 10 + 4 stripe (05). -/
def code10 : Code := { f := 2, k := 10, m := 4, l := 0, group := 0 }
/-- The code of the worked example of a wide stripe (05). -/
def code1000 : Code := { f := 4096, k := 1000, m := 24, l := 1, group := 40 }

/-- 05: the products and the first row of the 10 + 4 example. -/
theorem test_gf8 : gfMul 0 2 0xBA = 0x69 ∧ gfMul 0 0x47 0xA7 = 0xE0 ∧ gfMul 0 0x14 0x29 = 0x0E ∧
    (List.range 10).map (globalCoef 0 4 0) = [0x47, 0xA7, 0x7A, 0xBA, 0xAD, 0x9D, 0xDD, 0x98, 0x3D, 0xAA] := by
  decide +kernel

/-- 05: the four parities of the 10 + 4 example. -/
theorem test_parity_10_4 :
    code10.encode 0 [[1, 0], [0, 0], [0, 0], [2, 0], [0, 0], [0, 0], [0, 0], [0, 0], [0, 0], [0, 0]] =
      [[0x2E, 0], [0x53, 0], [0x29, 0], [0x34, 0]] := by
  decide +kernel

/-- 05: fragments 0, 3 and 11 lost: the rows kept, and the two symbols solved. -/
theorem test_rebuild_10_4 : code10.plan 0 10 [0, 3, 11] = some [{ rows := [0, 2], unknowns := [0, 3] }] ∧
    System.solve code10 0 10 { rows := [0, 2], unknowns := [0, 3] }
      (fun i => if i = 10 then [0x2E] else if i = 12 then [0x29] else [0]) = [[1], [2]] := by
  decide +kernel

/-- 05: the coefficients of the wide example, its parameters, and the plan for fragment 8. -/
theorem test_wide_stripe : globalCoef 1 24 0 8 = 0xB384 ∧ globalCoef 1 24 0 40 = 0x59C2 ∧ globalCoef 1 24 8 0 = 0x7703 ∧
    globalCoef 1 24 16 0 = 0xEE06 ∧ code1000.n = 1049 ∧
    code1000.plan 1 1000 [8] = some [{ rows := [24], unknowns := [8] }] := by
  decide +kernel

/-- 03: the credit of a window for 1, 7 and 255 functions. -/
theorem test_shares : windowCredit 4608 1 0 0 = 4608 ∧ (List.range 7).map (windowCredit 4608 7 5) = [658, 658, 658, 658, 658, 659, 659] ∧
    ((List.range 255).map (windowCredit 4608 255 250)).count 19 = 18 := by
  decide +kernel

/-- 16: SUSTAIN, BE_POOL and DL_SCALE of the four cases of the worked example, in the units of QT_CAP. -/
theorem test_regulation :
    let k := fun (rate fenced : Nat) => (chipOf ((List.range 16).flatMap fun c =>
      [(MC_STATUS.STATE c, if c + 1 = fenced then 5 else 2), (MC_STATUS.DIMMS c, 1), (MC_STATUS.RANKS c, 2), (MC_STATUS.RATE c, rate)])).regulate
    let r := fun k : Chip => (k.rd QT_CAP.SUSTAIN, k.rd QT_CAP.BE_POOL, k.rd QT_CAP.DL_SCALE)
    r (k 0 0) = (6963, 1963, 16) ∧ r (k 0 6) = (6528, 1528, 16) ∧ r (k 1 0) = (5222, 222, 16) ∧ r (k 1 6) = (4896, 0, 15) := by
  decide +kernel

/-- 19: the worked example of one die's harts: boundary B+1 sets CAP 10, boundary B+41 lifts it to 15. -/
theorem test_power_controller :
    let c : Core := { hart := 0, req := 15, cap := 15, tcap := 15, cur := 9, powered := true, free := true }
    let low := lowerCaps 398016 400000 8 24 false 8 (List.replicate 24 c)
    let slow : Core := { c with req := 3 }
    let high := raiseCaps 399168 392000 8 24 8 (List.replicate 96 slow ++ List.replicate 24 { c with cap := 10, cur := 10 })
    low.1 = 8 ∧ low.2.map (·.cap) = List.replicate 24 10 ∧ high.1 = 8 ∧ high.2.map (·.cap) = List.replicate 120 15 := by
  decide +kernel

/-- 25: the three addresses of the worked example. -/
theorem test_addresses : apertureParts 0x81A301C012340 = (0x1A3, 7, 0x12340) ∧ fileOf 0xFD100001CB000 = some (57, 4) ∧
    (0xFF00000029008 - pageBase) / 4096 = 41 ∧
    ((chipOf []).page 41).any (fun r => r.off == 8 && r.fields.contains (AE_STATUS.STATE 9)) = true := by
  decide +kernel

/-- 24: the histogram bins of the worked example, in tenths of a degree. -/
theorem test_tj_bins : tjBin 600 = 7 ∧ tjBin 649 = 7 ∧ tjBin 650 = 8 ∧ tjBin 700 = 9 ∧ tjBin 749 = 9 := by decide +kernel

/-- The published check values of CRC-32 (IEEE 802.3) and of the CRC-8 with polynomial 0x07, over "123456789". -/
theorem test_crc : crc32 (beBytes 0x313233343536373839 9) = 0xCBF43926 ∧
    crc8Bits ((List.range 72).map fun i => bit 0x313233343536373839 (71 - i)) = 0xF4 := by
  decide +kernel

/-- FIPS 180-4, "abc"; BLAKE3 and XXH64 of the empty string. -/
theorem test_hashes :
    sha256 [0x61, 0x62, 0x63] = beBytes 0xBA7816BF8F01CFEA414140DE5DAE2223B00361A396177A9CB410FF61F20015AD 32 ∧
    sha384 [0x61, 0x62, 0x63] = beBytes 0xCB00753F45A35E8BB5A03D699AC65007272C32AB0EDED1631A8B605A43FF5BED8086072BA1E7CC2358BAECA134C825A7 48 ∧
    blake3 [] = beBytes 0xAF1349B9F5F9A1A6A0404DEA36DCC9499BCB25C9ADC112B7CC9A93CAE41F3262 32 ∧ xxh64 [] = 0xEF46DB3751D8E999 := by
  decide +kernel

/-- FIPS 197: a byte of the S-box (5.1.1), and the first column of MixColumns in appendix B. -/
theorem test_aes : aesSub 0x53 = 0xED ∧
    (aesMix [2, 3, 1, 1] ([0xD4, 0xBF, 0x5D, 0x30] ++ List.replicate 12 0)).take 4 = [0x04, 0x66, 0x81, 0xE5] := by
  decide +kernel

/-- Test case 2 of the GCM specification: GHASH of one block of ciphertext and its length block. -/
theorem test_ghash : ghash 0x66E94BD4EF8A2C3B884CFA59CA342B2E
    (beBytes 0x0388DACE60B6A392F328C2B971B2FE78 16 ++ beBytes 128 16) = 0xF38CBB1AD69223DCC3457AE5B6B0F885 := by
  decide +kernel

/-- P-384: n − 1 times the base point is its inverse. -/
theorem test_p384 : p384Mul (p384N - 1) = (p384G.1, p384P - p384G.2) := by decide +kernel

/-! ### Single steps -/

/-- The machine after one step that runs `c`. -/
def run (c : Instr) (k : Chip) : Chip :=
  match step { chip := k, pending := [c] } with
  | .next t => t.chip
  | _ => {}

/-- R29: a phase boundary inside a beat leaves the count and begins the next phase. -/
theorem test_phase_boundary :
    (run (.phaseBoundary [] [] [] []) { pwr := { pkg := .run }, beat := { phase := 3 } }).beat.phase = 4 := by
  decide +kernel

/-- R66: a work doorbell moves the producer index. -/
theorem test_work_pi : ((run (.workPi true 1 0 4 3) (runningRing 32 {})).ring 32).wrPi = 3 := by decide +kernel

/-- R256, R272: a custom CSR of M mode traps in S mode as an illegal instruction. -/
theorem test_custom_csr : (run (.customCsrIllegal 287 0x7C0 .s true 5) {}).out.any (fun o => match o with
    | .trap h c _ => h == 287 && c == 2
    | _ => false) = true := by decide +kernel

/-- R445: the normal world does not move the end of secure DRAM. -/
theorem test_secure_top : (run (.wsSecureTopWrite (2 ^ 26) normal0) {}).rd WS_SECURE_TOP.TOP = 0 ∧
    (run (.wsSecureTopWrite (2 ^ 26) normal0) {}).on WS_ERR.REG_WRITE = true := by
  decide +kernel

/-- R412: reservations above CAP are refused. -/
theorem test_reserve : (run (.qtReserveWrite 3) (chipOf [(QT_CAP.CAP, 2)])).on QT_STATUS.CFG = true := by decide +kernel

/-- R299: a snoop for ownership takes the line off the die. -/
theorem test_snoop : ((run (.snpUnique 11 (2 ^ 24)) (homeChip [] [] { st := .s })).dieLine (2 ^ 24) 11).st = .i := by
  decide +kernel

/-- R380: a fenced channel. -/
theorem test_fence : (run (.channelFence 15) (mcChip 2 {})).rd (MC_STATUS.STATE 15) = 5 := by decide +kernel

/-- R526: Flacon's first epoch. -/
theorem test_flacon_start : (run .vflPowerUp {}).fl.epoch = 1 ∧ (run .vflPowerUp {}).fl.metering = true := by decide +kernel

/-- R174: a port that is enabled trains from step 0. -/
theorem test_port_enable : (run (.cnPortEnable 3) (chipOf [(CN_CTRL.ENABLE, 1)])).cnState 3 = 1 := by decide +kernel

/-- R222: the endpoint link at 64 GT/s by 16. -/
theorem test_link_up : (run (.linkUp 6 16 true)
    { chipOf [(HF_CTRL.LINK_EN, 1), (HF_CTRL.TARGET_SPEED, 0)] with pwr := { pkg := .run } }).on HF_STATUS.LINK_UP = true := by
  decide +kernel

/-- R9: a write of 1 clears an error bit. -/
theorem test_clear_error : (run (.registerWrite { addr := pageBase + 0x18, size := 4, write := true, value := 1, who := secure0 })
    (chipOf [(BT_ERR.CMP_MISMATCH, 1), (BT_ERR.SELF_A, 1)])).rd BT_ERR.CMP_MISMATCH = 0 := by
  decide +kernel

/-- R468: a queue of commands runs from the front; the step leaves the rest. -/
theorem test_queue : (step { pending := [.droop 5, .windowBoundary] } |> fun o => match o with
    | .next t => t.pending
    | _ => []) = [.windowBoundary] := by
  decide +kernel

end Sys2Proof.Machine
end

section
/-!
PROOFS. The rules that hold of the whole block (00): its status fields, the writes of its register fields, the accesses to its
register pages, its resets and rails.
-/

namespace Sys2Proof.Machine

/-! ### The page that a key spells (R570) -/

theorem Fld.keyPage_key {f : Fld} (ho : f.off < 4096) (hl : f.lo < 64) : keyPage f.key = f.page := by
  have hd : f.dom.code < 4 := by cases f.dom <;> decide
  simp only [keyPage, Fld.key]
  omega

/-- R570: no status field that is brought up to date lies on a page above 13. -/
theorem Fld.not_shown_of_page {f : Fld} (h : 14 ≤ keyPage f.key) : f.key ∉ shownFields.map Fld.key := fun hf => by
  have hlt := (by decide +kernel : ∀ n ∈ shownFields.map Fld.key, keyPage n < 14) _ hf
  omega

theorem Fld.not_reported_of_page {f : Fld} (h : 14 ≤ keyPage f.key) : f.key ∉ reportFields.map Fld.key := fun hf => by
  have hlt := (by decide +kernel : ∀ n ∈ reportFields.map Fld.key, keyPage n < 14) _ hf
  omega

theorem keyPage_blState (p : Nat) : keyPage (BL_STATUS.STATE p).key = 64 + p := Fld.keyPage_key (by simp) (by simp)

/-! ### The status fields (R14) -/

theorem partFields_not_shown : ∀ d < 12, (PM_PART.PART d).key ∉ shownFields.map Fld.key ∧
    (PM_PART.SHARED d).key ∉ shownFields.map Fld.key := by decide +kernel

theorem alignFields_not_shown : ∀ f ∈ [BT_ALIGN_OFS.OFS, BT_CTRL.SLEW_MAX, BT_CTRL.ALIGN_EN],
    f.key ∉ shownFields.map Fld.key := by decide +kernel

@[simp] theorem Chip.aligned_refresh (k : Chip) : k.refresh.aligned = k.aligned := by
  have h : ∀ f ∈ [BT_ALIGN_OFS.OFS, BT_CTRL.SLEW_MAX, BT_CTRL.ALIGN_EN], k.refresh.rd f = k.rd f :=
    fun f hf => k.rd_refresh (alignFields_not_shown f hf)
  simp only [List.forall_mem_cons] at h
  obtain ⟨hofs, hmax, hen, -⟩ := h
  simp only [Chip.aligned, Chip.on, hofs, hmax, hen]

@[simp] theorem Chip.small_refresh (k : Chip) : k.refresh.small = k.small := by
  have hshared : (List.range 12).map (fun d => k.refresh.rd (PM_PART.SHARED d)) =
      (List.range 12).map fun d => k.rd (PM_PART.SHARED d) :=
    List.map_congr_left fun d hd => k.rd_refresh (partFields_not_shown d (List.mem_range.1 hd)).2
  have hpart : (List.range 12).map (fun d => k.refresh.rd (PM_PART.PART d)) =
      (List.range 12).map fun d => k.rd (PM_PART.PART d) :=
    List.map_congr_left fun d hd => k.rd_refresh (partFields_not_shown d (List.mem_range.1 hd)).1
  have hall : ∀ k : Chip, (List.range 12).all (fun d => !k.on (PM_PART.SHARED d)) =
      ((List.range 12).map fun d => k.rd (PM_PART.SHARED d)).all fun v => !(v == 1) :=
    fun k => by rw [List.all_map]; rfl
  simp only [Chip.small, hall, hshared, hpart]

/-- What the status fields show rests on nothing that bringing them up to date changes. -/
theorem Chip.shows_refresh (k : Chip) : k.refresh.shows = k.shows := by
  simp [Chip.shows, Chip.freeSpares, Chip.minCap, Chip.tcapLow]

theorem Chip.showing_refresh (k : Chip) : k.refresh.Showing := fun p hp =>
  k.rd_refresh_shown (by rwa [Chip.shows_refresh] at hp)

/-- Settles O2: an empty queue leaves the state as it is, and every command ends by bringing the status fields up to date. -/
theorem stepKeepsStatusShowing : Obligations.StepKeepsStatusShowing := by
  intro s t hs ht
  cases hq : s.pending with
  | nil =>
    rw [step_nil s hq] at ht
    cases ht
    exact hs
  | cons c rest =>
    obtain ⟨k, hk⟩ := exec_after c { s with pending := rest }
    rw [step_cons s c rest hq, hk] at ht
    cases ht
    exact k.showing_refresh

/-- Settles O3: no cell stands in memory after reset, and each of the 28 status fields is compared with what it shows. -/
theorem resetIsGood : Obligations.ResetIsGood :=
  ⟨rfl, by unfold Chip.Showing; decide +kernel⟩

/-! ### Bits -/

theorem bit_eq_testBit (n i : Nat) : bit n i = n.testBit i := by
  rw [bit, Nat.testBit_eq_decide_div_mod_eq]
  rfl

/-- A set bit taken away: the bit reads 0, the others as before. -/
theorem testBit_sub_two_pow {n i : Nat} (h : n.testBit i = true) (j : Nat) :
    (n - 2 ^ i).testBit j = (n.testBit j && decide (j ≠ i)) := by
  have hodd : n / 2 ^ i % 2 = 1 := by simpa [Nat.testBit_eq_decide_div_mod_eq] using h
  have hdm := Nat.div_add_mod n (2 ^ i)
  have hr : n % 2 ^ i < 2 ^ i := Nat.mod_lt _ (Nat.two_pow_pos i)
  generalize n / 2 ^ i = q at *
  generalize n % 2 ^ i = r at *
  obtain ⟨p, rfl⟩ : ∃ p, q = 2 * p + 1 := ⟨q / 2, by omega⟩
  have hsub : n - 2 ^ i = 2 ^ i * (2 * p) + r := by
    rw [← hdm, Nat.mul_add, Nat.mul_one]
    omega
  rw [hsub, ← hdm, Nat.testBit_two_pow_mul_add _ hr, Nat.testBit_two_pow_mul_add _ hr]
  rcases Nat.lt_trichotomy j i with hlt | rfl | hgt
  · simp [hlt, Nat.ne_of_lt hlt]
  · simp
  · obtain ⟨m, rfl⟩ : ∃ m, j = i + (m + 1) := ⟨j - i - 1, by omega⟩
    simp [Nat.testBit_succ, show ¬ i + (m + 1) < i by omega, show i + (m + 1) - i = m + 1 by omega,
      show (2 * p + 1) / 2 = p by omega]

theorem bit_clearBit (n i j : Nat) : bit (clearBit n i) j = (bit n j && decide (j ≠ i)) := by
  simp only [clearBit, bit_eq_testBit]
  split
  · next h => exact testBit_sub_two_pow h j
  · next h =>
    by_cases hji : j = i
    · subst hji
      simpa using h
    · simp [hji]

/-- R8: an RW1C write clears the bits, of the field's `w`, that are written as 1. -/
theorem bit_clearOnes (cur v w i : Nat) : bit (clearOnes cur v w) i = (bit cur i && !(decide (i < w) && bit v i)) := by
  induction w with
  | zero => simp [clearOnes]
  | succ w ih =>
    have hstep : clearOnes cur v (w + 1) = if bit v w then clearBit (clearOnes cur v w) w else clearOnes cur v w := by
      simp [clearOnes, List.range_succ]
    rw [hstep]
    by_cases hi : i = w
    · subst hi
      split
      · next hv => simp [bit_clearBit, hv]
      · next hv => simp [ih, hv]
    · have hlt : i < w + 1 ↔ i < w := by omega
      split <;> simp [bit_clearBit, ih, hi, hlt]

theorem bit_mod_two_pow (n : Nat) {w i : Nat} (h : i < w) : bit (n % 2 ^ w) i = bit n i := by
  simp [bit_eq_testBit, Nat.testBit_mod_two_pow, h]

/-! ### A write of a field (R8, R12, R13) -/

theorem Chip.locked_eq_false (k : Chip) {f : Fld} (ho : f.off < 4096) (hl : f.lo < 64) (hp : f.page ≠ 8) :
    k.locked f = false := by
  have htop : f.key ≠ WS_SECURE_TOP.TOP.key := fun h => hp (by rw [← Fld.keyPage_key ho hl, h]; rfl)
  simp [Chip.locked, htop, hp]

theorem pageZeroOnly_eq_false {f : Fld} (hp : f.page < 96) : pageZeroOnly f = false := by
  simp [pageZeroOnly, show ¬ 96 ≤ f.page by omega]

theorem Writing.field_skipped (w : Writing) (who : By) (v : Nat) {f : Fld}
    (h : f.acc = .ro ∨ f.acc = .wo ∨ f.acc = .rw1s) : w.field who f v = w := by
  rcases h with h | h | h <;> simp [Writing.field, h]

theorem Writing.field_rw1c (w : Writing) (who : By) (v : Nat) {f : Fld} (h : f.acc = .rw1c) :
    w.field who f v = { w with k := w.k.wr f (clearOnes (w.k.rd f) v f.width) } := by
  simp [Writing.field, h]

theorem Writing.field_current (w : Writing) (who : By) {f : Fld} (h : f.acc = .rw) :
    w.field who f (w.k.rd f) = w := by
  simp [Writing.field, h]

theorem Writing.field_denied (w : Writing) {who : By} {f : Fld} {v : Nat} (h : f.acc = .rws) (hw : who.w ≠ 0)
    (hv : v ≠ w.k.rd f) (hz : pageZeroOnly f = false) : w.field who f v = { w with denied := true } := by
  simp [Writing.field, h, hw, hv, hz]

/-- A write of a new value to a plain field whose lock does not stand: refused where its block is not quiesced, held for the
boundary, or made at once. -/
theorem Writing.field_rw (w : Writing) (who : By) {f : Fld} {v : Nat} (h : f.acc = .rw) (hp : f.page < 96)
    (h8 : f.page ≠ 8) (ho : f.off < 4096) (hl : f.lo < 64) (hv : v ≠ w.k.rd f) :
    w.field who f v =
      if f.quiesced && !w.k.quiet f who then { w with busy := true }
      else if f.beat || f.key == BT_CTRL.LEN.key then { w with k := w.k.hold f v }
      else { w with k := w.k.wr f v } := by
  simp [Writing.field, h, hv, h8, pageZeroOnly_eq_false hp, w.k.locked_eq_false ho hl h8]

/-- Settles O55, code by code. -/
theorem fieldWrites : Obligations.FieldWrites := by
  intro w who f v
  refine ⟨w.field_skipped who v, ?_, w.field_denied, ?_⟩
  · intro hacc _ i hi
    rw [w.field_rw1c who v hacc, Chip.rd_wr_self, bit_mod_two_pow _ hi, bit_clearOnes]
    simp [hi]
  · intro hacc hp h8 ho hl hv
    rw [w.field_rw who hacc hp h8 ho hl hv]
    refine ⟨?_, ?_, ?_⟩
    · intro hq hb
      simp [hq, hb]
    · intro hq hbeat
      simp [hq, hbeat]
    · intro hq hbeat hlen
      simp [hq, hbeat, hlen]

/-! ### One access (R10, R11, R571) -/

/-- An access inside the register pages is what `regAccess` makes of it, a read sent back. -/
theorem Chip.access_registers (k : Chip) {acc : Access} (h : k.area acc.addr = .registers) :
    k.access acc =
      if acc.write then (k.regAccess acc).2 else (k.regAccess acc).2.emit (.readData (k.regAccess acc).1) := by
  unfold Chip.access
  rw [h]
  cases k.regAccess acc
  rfl

theorem exec_registerWrite {s : State} {acc : Access} (h : s.chip.area acc.addr = .registers) :
    exec (.registerWrite acc) s = .next (s.after
      (if acc.write then (s.chip.regAccess acc).2
        else (s.chip.regAccess acc).2.emit (.readData (s.chip.regAccess acc).1))) := by
  rw [← s.chip.access_registers h]
  rfl

theorem exec_offlinePageAccess {s : State} {acc : Access} (h : s.chip.area acc.addr = .registers)
    (ho : s.chip.pageOffline ((acc.addr - pageBase) / 4096) = true) (hw : acc.write = true) :
    exec (.offlinePageAccess acc) s = .next (s.after (s.chip.regAccess acc).2) := by
  have hexec : exec (.offlinePageAccess acc) s = .next (s.after
      (if s.chip.pageOffline ((acc.addr - pageBase) / 4096) then s.chip.access acc else s.chip)) := rfl
  rw [hexec, if_pos ho, s.chip.access_registers h, if_pos hw]

section
variable (k : Chip) {acc : Access} {r : Reg} {n : Nat} (hn : n = (acc.addr - pageBase) / 4096) (h14 : n ≠ 14)
include hn h14

theorem Chip.regAccess_reserved (ht : touched (k.page n) (acc.addr % 4096) acc.size = []) :
    k.regAccess acc = (0, k) := by
  subst hn
  simp [Chip.regAccess, h14, ht]

theorem Chip.regAccess_misfit (ht : touched (k.page n) (acc.addr % 4096) acc.size = [r])
    (h : r.off ≠ acc.addr % 4096 ∨ 8 * acc.size ≠ r.bits) :
    k.regAccess acc = (0, k.accessError acc.addr (ofBool acc.write) acc.who) := by
  subst hn
  simp [Chip.regAccess, h14, ht, h]

theorem Chip.regAccess_fit (ht : touched (k.page n) (acc.addr % 4096) acc.size = [r])
    (hoff : r.off = acc.addr % 4096) (hbits : 8 * acc.size = r.bits) :
    k.regAccess acc =
      if !acc.write then (k.readReg r acc.who, k)
      else if k.pageOffline n then (0, k.offlineWrite n (acc.addr % 4096) acc.value)
      else (0, k.writeReg n r acc.addr (acc.value % 2 ^ r.bits) acc.who) := by
  subst hn
  simp [Chip.regAccess, h14, ht, hoff, hbits]

end

/-- R571: only the pages of a C-die are ever out of service. -/
theorem Chip.pageOffline_page {k : Chip} {n : Nat} (h : k.pageOffline n = true) : (16 ≤ n ∧ n ≤ 27) ∨ (32 ≤ n ∧ n ≤ 55) := by
  refine Decidable.byContradiction fun hn => ?_
  obtain ⟨h1, h2⟩ := not_or.1 hn
  simp [Chip.pageOffline, pageDie, h1, h2] at h

theorem Chip.offlineWrite_enable (k : Chip) {n : Nat} (v : Nat) (h : 32 ≤ n) (h' : n ≤ 55) :
    k.offlineWrite n 0 v = { k with flt := { k.flt with enables := k.flt.enables.insert (n - 32) (v % 2) } } := by
  simp [Chip.offlineWrite, h, h']

theorem Chip.offlineWrite_other (k : Chip) {n off : Nat} (v : Nat) (h : n < 32 ∨ off ≠ 0) : k.offlineWrite n off v = k := by
  rw [Chip.offlineWrite, if_neg (by omega)]

/-- A write of a register of one plain field: its new value, or nothing where it reads that already. -/
theorem Chip.writeFields_plain (k : Chip) (a value : Nat) (who : By) {f : Fld} (h : f.acc = .rw) (hp : f.page < 96)
    (h8 : f.page ≠ 8) (ho : f.off < 4096) (hl : f.lo < 64) (hq : f.quiesced = false) (hb : f.beat = false)
    (hlen : f.key ≠ BT_CTRL.LEN.key) :
    k.writeFields [f] a value who =
      if bits value f.lo f.width = k.rd f then k else k.wr f (bits value f.lo f.width) := by
  split
  · next hv => simp [Chip.writeFields, hv, Writing.field_current { k := k } who h]
  · next hv => simp [Chip.writeFields, Writing.field_rw { k := k } who h hp h8 ho hl hv, hq, hb, hlen]

/-- The register GN_RING_MSI_ADDR of Gunel's page (R510), one plain field of 64 bits. -/
def regRingMsiAddr : Reg := { off := 0x20, bits := 64, fields := [GN_RING_MSI_ADDR.ADDR] }

theorem Chip.touched_ringMsiAddr (k : Chip) : touched (k.page 11) 0x20 8 = [regRingMsiAddr] := by
  change touched regsGN 0x20 8 = _
  decide +kernel

theorem Chip.writeReg_ringMsiAddr (k : Chip) (a value : Nat) (who : By) :
    k.writeReg 11 regRingMsiAddr a value who =
      if value % 2 ^ 64 = k.rd GN_RING_MSI_ADDR.ADDR then k else k.wr GN_RING_MSI_ADDR.ADDR (value % 2 ^ 64) := by
  have hplain := k.writeFields_plain a value who (f := GN_RING_MSI_ADDR.ADDR) rfl (by decide) (by decide) (by decide)
    (by decide) rfl rfl (by decide)
  simpa [Chip.writeReg, regRingMsiAddr, bits] using hplain

theorem Chip.regAccess_ringMsiAddr (k : Chip) (value : Nat) (who : By) :
    (k.regAccess { addr := 0xF_F000_0000_B020, size := 8, write := true, value := value, who := who }).2 =
      if value % 2 ^ 64 = k.rd GN_RING_MSI_ADDR.ADDR then k else k.wr GN_RING_MSI_ADDR.ADDR (value % 2 ^ 64) := by
  have hpage : 11 = (0xF_F000_0000_B020 - pageBase) / 4096 := by decide
  have hoff : 0x20 = 0xF_F000_0000_B020 % 4096 := by decide
  have hfit := k.regAccess_fit (acc := ⟨0xF_F000_0000_B020, 8, true, value, who⟩) hpage (by decide)
    (hoff ▸ k.touched_ringMsiAddr) hoff rfl
  rw [hfit]
  simp [show k.pageOffline 11 = false from rfl, Chip.writeReg_ringMsiAddr, show regRingMsiAddr.bits = 64 from rfl]

/-- Settles O56: each clause reads off what `Chip.regAccess` makes of the access. -/
theorem registerAccesses : Obligations.RegisterAccesses := by
  refine ⟨?_, ?_, ?_, ?_, ?_⟩
  · intro s value who harea
    rw [exec_registerWrite harea, if_pos rfl, Chip.regAccess_ringMsiAddr]
    refine ⟨_, rfl, ?_⟩
    have hkey : GN_RING_MSI_ADDR.ADDR.key ∉ shownFields.map Fld.key := by decide +kernel
    split
    · next hv =>
      exact ⟨by rw [State.after_chip, Chip.rd_refresh _ hkey, hv], by simp [Chip.SameMemory], .of_eq rfl, by simp⟩
    · refine ⟨by simp [Chip.rd_refresh _ hkey], by simp [Chip.SameMemory], .refresh fun f hf => ?_, by simp⟩
      exact Chip.rd_wr_ne _ _ (by simpa using hf)
  · intro s acc r n hn hn14 harea ht hmis hw
    rw [exec_registerWrite harea, Chip.regAccess_misfit _ hn hn14 ht hmis, if_pos hw, hw]
    rfl
  · intro s acc r n hn hn14 harea ht hoff hbits hw
    rw [exec_registerWrite harea, Chip.regAccess_fit _ hn hn14 ht hoff hbits, hw]
    rfl
  · intro s acc n hn hn14 harea ht
    rw [exec_registerWrite harea, Chip.regAccess_reserved _ hn hn14 ht]
  · intro s acc r n hn hoffl harea ht hoff hbits hw
    have hpage := Chip.pageOffline_page hoffl
    rw [exec_offlinePageAccess harea (hn ▸ hoffl) hw, Chip.regAccess_fit _ hn (by omega) ht hoff hbits, hw, if_neg (by simp),
      if_pos hoffl, ← hoff]
    refine ⟨fun h32 hr0 => ⟨_, rfl, ?_⟩, fun hother => ?_⟩
    · rw [hr0, Chip.offlineWrite_enable _ _ h32 (by omega)]
      exact ⟨by simp [Tbl.find_insert_self], by simp [Chip.SameMemory], .of_eq rfl⟩
    · rw [Chip.offlineWrite_other _ _ hother]

/-! ### The link start of a Bilum port (R349, R350) -/

/-- `k'` differs from `k` only in the state of the Bilum ports and in the registers of the page of port `p`. -/
def Chip.LinkChanged (p : Nat) (k k' : Chip) : Prop :=
  k' = { k with regs := k'.regs, bl := k'.bl } ∧ ∀ f : Fld, keyPage f.key ≠ 64 + p → k'.rd f = k.rd f

theorem Chip.LinkChanged.refl (p : Nat) (k : Chip) : k.LinkChanged p k := ⟨rfl, fun _ _ => rfl⟩

theorem Chip.LinkChanged.trans {p : Nat} {k k' k'' : Chip} (h : k.LinkChanged p k') (h' : k'.LinkChanged p k'') :
    k.LinkChanged p k'' := by
  obtain ⟨he, hr⟩ := h
  obtain ⟨he', hr'⟩ := h'
  refine ⟨?_, fun f hf => (hr' f hf).trans (hr f hf)⟩
  rw [he', he]

theorem Chip.LinkChanged.wr {p : Nat} {k k' : Chip} (h : k.LinkChanged p k') {f : Fld} (v : Nat)
    (hp : f.page = 64 + p) (ho : f.off < 4096) (hl : f.lo < 64) : k.LinkChanged p (k'.wr f v) := by
  refine h.trans ⟨rfl, fun g hg => Chip.rd_wr_ne _ _ fun he => hg ?_⟩
  rw [he, Fld.keyPage_key ho hl, hp]

theorem Chip.LinkChanged.setBport {p : Nat} {k k' : Chip} (h : k.LinkChanged p k') (q : Nat) (g : BPort → BPort) :
    k.LinkChanged p (k'.setBport q g) := h.trans ⟨rfl, fun _ _ => rfl⟩

/-- The fields that one row of a lane map shows, block by block (R360). -/
theorem Chip.LinkChanged.mapRow {p : Nat} {k k' : Chip} (h : k.LinkChanged p k') {w l : Nat → Fld} (v u : Nat → Nat)
    (hw : ∀ b, (w b).page = 64 + p ∧ (w b).off < 4096 ∧ (w b).lo = 8 * b)
    (hl : ∀ b, (l b).page = 64 + p ∧ (l b).off < 4096 ∧ (l b).lo = 8 * b + 6) :
    k.LinkChanged p ((List.range 8).foldl (fun k b => (k.wr (w b) (v b)).wr (l b) (u b)) k') := by
  refine List.foldlRecOn _ _ h fun k'' hk b hb => ?_
  have hb8 := List.mem_range.1 hb
  obtain ⟨hwp, hwo, hwl⟩ := hw b
  obtain ⟨hlp, hlo, hll⟩ := hl b
  exact (hk.wr _ hwp hwo (by omega)).wr _ hlp hlo (by omega)

theorem Chip.showMap_linkChanged (k : Chip) (p : Nat) : k.LinkChanged p (k.showMap p) := by
  unfold Chip.showMap
  refine Chip.LinkChanged.wr (Chip.LinkChanged.wr ?_ _ rfl (by simp) (by simp)) _ rfl (by simp) (by simp)
  refine Chip.LinkChanged.mapRow ?_ _ _ (by simp) (by simp)
  refine Chip.LinkChanged.mapRow ?_ _ _ (by simp) (by simp)
  refine Chip.LinkChanged.mapRow ?_ _ _ (by simp) (by simp)
  exact (Chip.LinkChanged.refl p k).mapRow _ _ (by simp) (by simp)

theorem Chip.linkInService_linkChanged (k : Chip) (p : Nat) : k.LinkChanged p (k.linkInService p) := by
  unfold Chip.linkInService
  split
  · exact .refl p k
  · split
    · exact (Chip.LinkChanged.refl p k).wr _ rfl (by simp) (by simp)
    · exact (((((((Chip.LinkChanged.refl p k).setBport _ _).trans (Chip.showMap_linkChanged _ p)).setBport _ _).wr _ rfl
        (by simp) (by simp)).wr _ rfl (by simp) (by simp)).wr _ rfl (by simp) (by simp)).wr _ rfl (by simp) (by simp)

@[simp] theorem Chip.linkInService_tiles (k : Chip) (p : Nat) : (k.linkInService p).tiles = k.tiles := by
  rw [(k.linkInService_linkChanged p).1]

@[simp] theorem Chip.linkInService_now (k : Chip) (p : Nat) : (k.linkInService p).now = k.now :=
  (k.linkInService_linkChanged p).2 _ (by
    rw [Fld.keyPage_key (by simp) (by simp)]
    show 0 ≠ 64 + p
    omega)

/-! ### What the return of hart IDs to a C-die leaves as it was (R523) -/

theorem Chip.recallLine_lost (k : Chip) (l : Nat) : (k.recallLine l).coh.lost = k.coh.lost := by
  unfold Chip.recallLine
  split <;> rfl

theorem Chip.foldl_recallLine_lost (ls : List Nat) (k : Chip) : (ls.foldl Chip.recallLine k).coh.lost = k.coh.lost :=
  List.foldlRecOn (motive := fun k' : Chip => k'.coh.lost = k.coh.lost) _ _ rfl fun _ h l _ =>
    (Chip.recallLine_lost _ l).trans h

theorem Chip.store_lost (k : Chip) (a : Nat) (bs : Bytes) : (k.store a bs).coh.lost = k.coh.lost := by
  unfold Chip.store
  split
  · rfl
  · exact Chip.foldl_recallLine_lost _ k

theorem Chip.errorRing_lost (k : Chip) (seq cls : Nat) (r : Bytes) : (k.errorRing seq cls r).coh.lost = k.coh.lost := by
  have hput : ∀ a, (k.ringPut a r).coh.lost = k.coh.lost := fun a => by
    unfold Chip.ringPut
    split
    · exact k.store_lost _ _
    · rfl
  have hsignal : ∀ k : Chip, (k.ringSignal cls).coh = k.coh := fun k => by
    unfold Chip.ringSignal
    split <;> rfl
  unfold Chip.errorRing
  split
  · rfl
  · split
    · rfl
    · rw [hsignal, hput]

/-- The report of an event leaves the directory's list of lost C-dies as it was. -/
@[simp] theorem Chip.log_lost (k : Chip) (e : Ev) : (k.log e).coh.lost = k.coh.lost := by
  have hcount : (k.countLife e).coh = k.coh := by
    unfold Chip.countLife
    split
    · rfl
    · split <;> rfl
  have hnew : ∀ k : Chip, (k.logNew e).coh.lost = k.coh.lost := fun k => Chip.errorRing_lost _ _ _ _
  unfold Chip.log
  dsimp only
  split
  · split
    · exact congrArg Coherence.lost hcount
    · rw [hnew, hcount]
  · rw [hnew, hcount]

/-- `k'` has the C-dies, the beat, the power, the directory's lost dies and the failed tiles of `k`. -/
def Chip.SameDies (k k' : Chip) : Prop :=
  k'.flt.dies = k.flt.dies ∧ k'.beat = k.beat ∧ k'.pwr = k.pwr ∧ k'.coh.lost = k.coh.lost ∧
  ∀ t, (k'.tile t).failed = (k.tile t).failed

theorem Chip.SameDies.refl (k : Chip) : k.SameDies k := ⟨rfl, rfl, rfl, rfl, fun _ => rfl⟩

theorem Chip.SameDies.trans {k k' k'' : Chip} (h : k.SameDies k') (h' : k'.SameDies k'') : k.SameDies k'' := by
  obtain ⟨hd, hb, hp, hc, ht⟩ := h
  obtain ⟨hd', hb', hp', hc', ht'⟩ := h'
  exact ⟨hd'.trans hd, hb'.trans hb, hp'.trans hp, hc'.trans hc, fun t => (ht' t).trans (ht t)⟩

theorem Chip.log_sameDies (k : Chip) (e : Ev) : k.SameDies (k.log e) :=
  ⟨by simp, by simp, by simp, by simp, by simp [Chip.tile]⟩

theorem Chip.setHart_sameDies (k : Chip) (h : Nat) (f : Hart → Hart) : k.SameDies (k.setHart h f) := .refl k

theorem Chip.setEngine_sameDies (k : Chip) (e : Nat) (f : Eng → Eng) : k.SameDies (k.setEngine e f) := .refl k

theorem Chip.setTile_sameDies (k : Chip) (t : Nat) {f : Tile → Tile} (hf : (f (k.tile t)).failed = (k.tile t).failed) :
    k.SameDies (k.setTile t f) := by
  refine ⟨rfl, rfl, rfl, rfl, fun t' => ?_⟩
  by_cases h : t' = t
  · subst h
    rw [Chip.tile_setTile, hf]
  · exact congrArg Tile.failed (Tbl.get_mod_ne _ _ _ _ h)

theorem Chip.applyEnable_sameDies (k : Chip) (e : Nat) : k.SameDies (k.applyEnable e) := by
  unfold Chip.applyEnable
  split <;> exact .refl k

theorem Chip.moveTo_sameDies (k : Chip) (m : Due) (t old : Nat) : k.SameDies (k.moveTo m t old) :=
  ((k.setTile_sameDies t rfl).trans (Chip.log_sameDies _ _)).trans (Chip.setHart_sameDies _ _ _)

/-- A hart ID whose tile has failed already takes no further tile out of service. -/
theorem Chip.decideMove_sameDies (k : Chip) (m : Due)
    (h : ∀ t, (k.hart m.unit).ptile = some t → (k.tile t).failed = true) : k.SameDies (k.decideMove m) := by
  unfold Chip.decideMove
  dsimp only
  cases hp : (k.hart m.unit).ptile with
  | none =>
    dsimp only
    split
    · exact k.moveTo_sameDies _ _ _
    · exact (k.log_sameDies _).trans (Chip.setHart_sameDies _ _ _)
  | some t =>
    have hleft : ∀ f : Tile → Tile, (∀ x, x.failed = true → (f x).failed = true) → k.SameDies (k.setTile t f) :=
      fun f hf => k.setTile_sameDies t (by rw [h t hp, hf _ (h t hp)])
    dsimp only
    split
    · exact (hleft _ fun x hx => by simp [hx]).trans (Chip.moveTo_sameDies _ _ _ _)
    · exact ((hleft _ fun x hx => by simp [hx]).trans (Chip.log_sameDies _ _)).trans (Chip.setHart_sameDies _ _ _)

theorem Chip.hartBack_sameDies (k : Chip) (d h : Nat) : k.SameDies (k.hartBack d h) := by
  unfold Chip.hartBack
  split
  · next t ht =>
    split
    · exact .refl k
    · split
      · next hfailed =>
        refine k.decideMove_sameDies _ fun t' ht' => ?_
        obtain rfl : t = t' := Option.some.inj (ht.symm.trans ht')
        exact hfailed
      · exact k.setHart_sameDies _ _
  · exact .refl k

theorem Chip.hartToDie_sameDies (k : Chip) (d h : Nat) : k.SameDies (k.hartToDie d h) := by
  unfold Chip.hartToDie
  dsimp only
  split
  · exact .refl k
  · split
    · exact k.moveTo_sameDies _ _ _
    · exact .refl k

/-! ### The end of a die's BIST (R523, R524) -/

/-- Changing a run of tiles, one after the other, leaves the rest of the block as it was. -/
theorem Chip.foldl_setTile_eq (k : Chip) (b n : Nat) (f : Nat → Tile → Tile) :
    (List.range n).foldl (fun k i => k.setTile (b + i) (f i)) k =
      { k with tiles := ((List.range n).foldl (fun k i => k.setTile (b + i) (f i)) k).tiles } :=
  List.foldlRecOn (motive := fun k' : Chip => k' = { k with tiles := k'.tiles }) _ _ rfl fun k' h i _ => by
    rw [h]
    rfl

/-- Each tile of the run is changed once. -/
theorem Chip.tile_foldl_setTile (k : Chip) (b : Nat) (f : Nat → Tile → Tile) {n i : Nat} (hi : i < n) :
    ((List.range n).foldl (fun k i => k.setTile (b + i) (f i)) k).tile (b + i) = f i (k.tile (b + i)) := by
  have hrest : ∀ n, n ≤ i →
      ((List.range n).foldl (fun k i => k.setTile (b + i) (f i)) k).tile (b + i) = k.tile (b + i) := fun n hn =>
    List.foldlRecOn (motive := fun k' : Chip => k'.tile (b + i) = k.tile (b + i)) _ _ rfl fun k' h j hj =>
      (Tbl.get_mod_ne _ _ _ _ (by have := List.mem_range.1 hj; omega)).trans h
  induction n with
  | zero => omega
  | succ n ih =>
    rw [List.range_succ, List.foldl_append, List.foldl_cons, List.foldl_nil]
    by_cases h : i = n
    · subst h
      rw [Chip.tile_setTile, hrest i (Nat.le_refl i)]
    · exact (Tbl.get_mod_ne _ _ _ _ (by omega)).trans (ih (by omega))

/-- R523: C-die `d` returned to service with its ports and those of its tiles that `tiles` says are good: the part of
`Chip.resetPasses` before its engines and its hart IDs. -/
def Chip.dieReturned (k : Chip) (d : Nat) (tiles : List Bool) : Chip :=
  let k := ((k.linkInService (2 * d)).linkInService (2 * d + 1)).setDie d fun _ => { inService := true }
  (List.range 28).foldl (fun k i =>
      k.setTile (28 * d + i) fun x => { x with failed := x.failed || !tiles.getD i false, inTest := false, retention := false })
    { k with
      coh := { k.coh with lost := k.coh.lost.filter (· != d) }
      pwr := { k.pwr with gatedDies := k.pwr.gatedDies.filter (· != d) }
      beat := { k.beat with dies := Tbl.set {} k.beat.dies d { count := k.now, fullDue := false } } }

theorem Chip.resetPasses_sameDies (k : Chip) (d : Nat) (tiles engines : List Bool) :
    (k.dieReturned d tiles).SameDies (k.resetPasses d tiles engines) := by
  have hengines : ∀ k : Chip, k.SameDies ((List.range 2).foldl (fun k i =>
      (k.applyEnable (2 * d + i)).setEngine (2 * d + i) fun _ =>
        { inService := false, failed := !engines.getD i false, stagingBusy := engines.getD i false }) k) := fun k =>
    List.foldlRecOn _ _ (.refl k) fun _ h i _ => (h.trans (Chip.applyEnable_sameDies _ _)).trans (Chip.setEngine_sameDies _ _ _)
  have hharts : ∀ (p : Bool) (k : Chip), k.SameDies
      ((List.range 288).foldl (fun k h => if p then k.hartBack d h else k.hartToDie d h) k) := fun p k =>
    List.foldlRecOn _ _ (.refl k) fun _ hk h _ => hk.trans (by
      split
      · exact Chip.hartBack_sameDies _ d h
      · exact Chip.hartToDie_sameDies _ d h)
  unfold Chip.resetPasses Chip.dieReturned
  dsimp only
  exact ((hengines _).trans (Chip.log_sameDies _ _)).trans (hharts _ _)

section
variable (k : Chip) (d : Nat) (tiles : List Bool)

theorem Chip.dieReturned_dieState : (k.dieReturned d tiles).dieState d = { inService := true } := by
  rw [Chip.dieReturned, Chip.foldl_setTile_eq]
  simp [Chip.dieState, Chip.setDie]

theorem Chip.dieReturned_lost : d ∉ (k.dieReturned d tiles).coh.lost := by
  rw [Chip.dieReturned, Chip.foldl_setTile_eq]
  simp

theorem Chip.dieReturned_gatedDies : d ∉ (k.dieReturned d tiles).pwr.gatedDies := by
  rw [Chip.dieReturned, Chip.foldl_setTile_eq]
  simp

theorem Chip.dieReturned_beat :
    Tbl.get {} (k.dieReturned d tiles).beat.dies d = { count := k.now, fullDue := false } := by
  have hnow : (((k.linkInService (2 * d)).linkInService (2 * d + 1)).setDie d fun _ => { inService := true }).now = k.now :=
    ((k.linkInService (2 * d)).linkInService_now (2 * d + 1)).trans (k.linkInService_now (2 * d))
  rw [Chip.dieReturned, Chip.foldl_setTile_eq]
  simp [hnow]

theorem Chip.dieReturned_tile {i : Nat} (hi : i < 28) : ((k.dieReturned d tiles).tile (28 * d + i)).failed =
    ((k.tile (28 * d + i)).failed || !tiles.getD i false) := by
  rw [Chip.dieReturned, Chip.tile_foldl_setTile _ _ _ hi]
  simp [Chip.tile]

end

theorem Chip.resetFails_dieState (k : Chip) (d : Nat) :
    (k.resetFails d).dieState d = { k.dieState d with step := 0, planned := false, heldOut := true } := by
  simp [Chip.resetFails, Chip.dieState]

/-- R524: both ports of a die whose reset fails are down. -/
theorem Chip.resetFails_ports (k : Chip) {d p : Nat} (hp : p = 2 * d ∨ p = 2 * d + 1) :
    (k.resetFails d).rd (BL_STATUS.STATE p) = 0 := by
  have hne : (BL_STATUS.STATE (2 * d)).key ≠ (BL_STATUS.STATE (2 * d + 1)).key := fun h => by
    have hpages := congrArg keyPage h
    rw [keyPage_blState, keyPage_blState] at hpages
    omega
  rw [Chip.resetFails, Chip.log_rd _ _ (Fld.not_reported_of_page (by rw [keyPage_blState]; omega))]
  rcases hp with rfl | rfl
  · rw [Chip.rd_wr_ne _ _ hne, Chip.rd_wr_self]
    simp
  · rw [Chip.rd_wr_self]
    simp

/-! ### Package cold reset and rails (R14, R556, R559) -/

theorem Chip.coldReset_regs (k : Chip) : k.coldReset.regs = [] := by
  unfold Chip.coldReset
  split <;> rfl

theorem Chip.railLost_other (k : Chip) {r : Nat} (h : 3 ≤ r) :
    k.railLost r = { k with beat := { k.beat with stopped := true } } := by
  rw [Chip.railLost, if_neg (by omega)]

theorem Chip.railLost_one (k : Chip) {r d : Nat} (hr : r < 3)
    (h : ((List.range 4).map (4 * r + ·)).filter k.dieUp = [d]) : k.railLost r = k.dieLost d 1 k.recovering := by
  rw [Chip.railLost, if_pos hr, h]
  rfl

theorem exec_pkgResetAssert (s : State) : exec .pkgResetAssert s = .next (s.after s.chip.coldReset) := rfl

theorem exec_dieBistDone (d : Nat) (tiles engines : List Bool) (linkOk : Bool) (s : State) :
    exec (.dieBistDone d tiles engines linkOk) s = .next (s.after (s.chip.dieBist d tiles engines linkOk)) := rfl

theorem Chip.dieBist_fails (k : Chip) {d : Nat} {tiles : List Bool} (engines : List Bool) {linkOk : Bool}
    (hs : (k.dieState d).step = 6) (h : linkOk = false ∨ tiles.any id = false) :
    k.dieBist d tiles engines linkOk = k.resetFails d := by
  rw [Chip.dieBist, if_neg (by simp [hs]), if_pos (by rcases h with h | h <;> simp [h])]

theorem Chip.dieBist_passes (k : Chip) {d : Nat} {tiles : List Bool} (engines : List Bool)
    (hs : (k.dieState d).step = 6) (h : tiles.any id = true) :
    k.dieBist d tiles engines true = k.resetPasses d tiles engines := by
  rw [Chip.dieBist, if_neg (by simp [hs]), if_neg (by simp [h])]

/-- Settles O47: a passed BIST is read off the die as it returns, since the return of its engines and hart IDs keeps it so. -/
theorem resetsAndRails : Obligations.ResetsAndRails := by
  refine ⟨fun s => ?_, fun s r hr => ?_, fun s r d hr hd => ?_, ?_, ?_⟩
  · rw [exec_pkgResetAssert]
    refine ⟨_, rfl, fun f hf => ?_, ?_⟩
    · rw [State.after_chip, Chip.rd_refresh _ hf, Chip.rd, Chip.coldReset_regs, Tbl.get_nil]
    · rw [State.after_chip, Chip.refresh_eq]
      unfold Chip.coldReset
      split <;> exact ⟨fun _ => rfl, by and_intros <;> rfl⟩
  · refine ⟨_, rfl, ?_⟩
    rw [Chip.railLost_other _ hr]
    exact ⟨by simp, by simp [Chip.SameMemory], .of_eq rfl, by simp⟩
  · rw [← s.chip.railLost_one hr hd]
    rfl
  · intro s d tiles engines linkOk _ hs h
    have hport : ∀ p, p = 2 * d ∨ p = 2 * d + 1 → (s.chip.resetFails d).refresh.rd (BL_STATUS.STATE p) = 0 := fun p hp => by
      rw [Chip.rd_refresh _ (Fld.not_shown_of_page (by rw [keyPage_blState]; omega)),
        Chip.resetFails_ports _ hp]
    rw [exec_dieBistDone, s.chip.dieBist_fails engines hs h]
    exact ⟨_, rfl, by simp [Chip.resetFails_dieState], hport _ (.inl rfl), hport _ (.inr rfl)⟩
  · intro s d i tiles engines _ hi hs h
    obtain ⟨hdies, hbeat, hpwr, hlost, htile⟩ := s.chip.resetPasses_sameDies d tiles engines
    rw [exec_dieBistDone, s.chip.dieBist_passes engines hs h]
    refine ⟨_, rfl, ?_, ?_, ?_, ?_, ?_⟩ <;> rw [State.after_chip]
    · rw [Chip.dieState_refresh, Chip.dieState, hdies]
      exact s.chip.dieReturned_dieState d tiles
    · rw [Chip.refresh_coh, hlost]
      exact s.chip.dieReturned_lost d tiles
    · rw [Chip.refresh_pwr, hpwr]
      exact s.chip.dieReturned_gatedDies d tiles
    · rw [Chip.refresh_beat, hbeat, Chip.dieReturned_beat]
    · rw [Chip.tile_refresh, htile, Chip.dieReturned_tile _ _ _ hi]

end Sys2Proof.Machine
end

section
/-!
PROOFS. The rules of the beat (02): share windows and the plan of a beat.
-/

namespace Sys2Proof.Machine

/-! ### The credits of a window (R84) -/

theorem sum_map_const_add (l : List Nat) (q : Nat) (f : Nat → Nat) :
    (l.map fun i => q + f i).sum = l.length * q + (l.map f).sum := by
  induction l with
  | nil => simp
  | cons i l ih =>
    simp only [List.map_cons, List.sum_cons, List.length_cons, ih, Nat.add_mul, Nat.one_mul]
    omega

theorem sum_below (r n : Nat) : ((List.range n).map fun x => ofBool (decide (x < r))).sum = min n r := by
  induction n with
  | zero => simp
  | succ n ih =>
    rw [List.range_succ, List.map_append, List.sum_append, ih]
    by_cases h : n < r
    · simp only [List.map_cons, List.map_nil, List.sum_cons, List.sum_nil, h, decide_true, ofBool]
      simp only [if_true]
      omega
    · simp only [List.map_cons, List.map_nil, List.sum_cons, List.sum_nil, h, decide_false, ofBool]
      simp only [Bool.false_eq_true, if_false]
      omega

/-- The places from `c` on, taken round: first those from `c` to the end, then those before `c`. -/
theorem map_rotated (n c : Nat) (h : c ≤ n) :
    (List.range n).map (fun i => (i + c) % n) = List.range' c (n - c) ++ List.range c := by
  have hlen : ((List.range n).map fun i => (i + c) % n).length = (List.range' c (n - c) ++ List.range c).length := by
    rw [List.length_map, List.length_range, List.length_append, List.length_range', List.length_range]
    omega
  refine List.ext_getElem hlen fun i hi _ => ?_
  rw [List.length_map, List.length_range] at hi
  rw [List.getElem_map, List.getElem_range, List.getElem_append]
  split
  · next hlt =>
    rw [List.length_range'] at hlt
    rw [List.getElem_range', Nat.mod_eq_of_lt (by omega)]
    omega
  · next hge =>
    rw [List.length_range'] at hge
    rw [List.getElem_range, List.length_range', Nat.mod_eq_sub_mod (by omega), Nat.mod_eq_of_lt (by omega)]
    omega

/-- A sum over all places does not depend on the place it starts from. -/
theorem sum_rotated (g : Nat → Nat) {n c : Nat} (h : c ≤ n) :
    ((List.range n).map fun i => g ((i + c) % n)).sum = ((List.range n).map g).sum := by
  have hsplit : List.range c ++ List.range' c (n - c) = List.range n := by
    have happend := List.range'_append_1 (s := 0) (m := c) (n := n - c)
    rwa [Nat.zero_add, Nat.add_sub_of_le h, ← List.range_eq_range', ← List.range_eq_range'] at happend
  calc ((List.range n).map fun i => g ((i + c) % n)).sum
      = (((List.range n).map fun i => (i + c) % n).map g).sum := by rw [List.map_map]; rfl
    _ = ((List.range' c (n - c)).map g).sum + ((List.range c).map g).sum := by
        rw [map_rotated n c h, List.map_append, List.sum_append]
    _ = ((List.range c).map g).sum + ((List.range' c (n - c)).map g).sum := Nat.add_comm _ _
    _ = ((List.range n).map g).sum := by rw [← List.sum_append, ← List.map_append, hsplit]

/-- R84: the credits of a window add up to its slots, whatever the place of the rotating pointer. -/
theorem windowCredits_sum (t ptr : Nat) {n : Nat} (h : 0 < n) :
    ((List.range n).map (windowCredit t n ptr)).sum = t := by
  have hptr : ptr % n < n := Nat.mod_lt ptr h
  have hcredit : windowCredit t n ptr = fun i => t / n + ofBool (decide ((i + (n - ptr % n)) % n < t % n)) := by
    funext i
    rw [windowCredit, Nat.add_sub_assoc (Nat.le_of_lt hptr)]
  rw [hcredit, sum_map_const_add, sum_rotated (fun x => ofBool (decide (x < t % n))) (Nat.sub_le n _), sum_below,
    List.length_range, Nat.min_eq_right (Nat.le_of_lt (Nat.mod_lt t h))]
  exact Nat.div_add_mod t n

/-- The function contexts `t` with the functions `fs` given the credits that `g` has for their places, from place `i` on. -/
def creditsGiven (g : Nat → Nat) (fs : List Nat) (i : Nat) (t : Tbl FnCtx) : Tbl FnCtx :=
  (fs.zipIdx i).foldl (fun (x : Tbl FnCtx) (p : Nat × Nat) => Tbl.mod {} x p.1 fun c => { c with credit := g p.2 }) t

theorem creditsGiven_cons (g : Nat → Nat) (f : Nat) (fs : List Nat) (i : Nat) (t : Tbl FnCtx) :
    creditsGiven g (f :: fs) i t = creditsGiven g fs (i + 1) (Tbl.mod {} t f fun c => { c with credit := g i }) := rfl

theorem get_creditsGiven_of_notMem (g : Nat → Nat) {f : Nat} {fs : List Nat} (h : f ∉ fs) (i : Nat) (t : Tbl FnCtx) :
    Tbl.get {} (creditsGiven g fs i t) f = Tbl.get {} t f := by
  induction fs generalizing i t with
  | nil => rfl
  | cons f' fs ih =>
    obtain ⟨hne, hf⟩ := not_or.1 (mt List.mem_cons.2 h)
    rw [creditsGiven_cons, ih hf, Tbl.get_mod_ne _ _ _ _ hne]

/-- Every function of the list, none of them named twice, takes the credit of its place. -/
theorem credits_creditsGiven (g : Nat → Nat) {fs : List Nat} (hd : fs.Nodup) (i : Nat) (t : Tbl FnCtx) :
    (fs.map fun f => (Tbl.get {} (creditsGiven g fs i t) f).credit) = (List.range' i fs.length).map g := by
  induction fs generalizing i t with
  | nil => rfl
  | cons f fs ih =>
    obtain ⟨hf, hd⟩ := List.nodup_cons.1 hd
    rw [List.map_cons, creditsGiven_cons, get_creditsGiven_of_notMem g hf, Tbl.get_mod_self, ih hd, List.length_cons,
      List.range'_succ, List.map_cons]

theorem Chip.enabledFns_nodup (k : Chip) : k.enabledFns.Nodup := List.nodup_range.filter _

theorem Chip.enabledFns_takeWindow (k : Chip) : k.takeWindow.enabledFns = k.withdrawEngines.enabledFns := by
  unfold Chip.takeWindow
  generalize k.withdrawEngines = k'
  exact congrArg (List.filter · (List.range 256)) (funext fun _ => rfl)

/-- R84: what a window makes of the function contexts. -/
theorem Chip.takeWindow_fns (k : Chip) : ∃ cleared : Tbl FnCtx, k.takeWindow.re.fns = creditsGiven
    (windowCredit (256 * (k.takeWindow.re.e - k.takeWindow.re.v)) k.takeWindow.enabledFns.length k.withdrawEngines.re.rotPtr)
    k.takeWindow.enabledFns 0 cleared := by
  rw [k.enabledFns_takeWindow]
  unfold Chip.takeWindow
  generalize k.withdrawEngines = k'
  exact ⟨Tbl.mapVals {} k'.re.fns fun _ c =>
    { c with usedLast := c.used, used := 0, cur := 0, credit := 0, rateNow := c.rate }, rfl⟩

/-- R84: the credits that a window gives the enabled functions, in their order. -/
theorem Chip.takeWindow_credits (k : Chip) :
    (k.takeWindow.enabledFns.map fun f => (k.takeWindow.fnCtx f).credit) =
      (List.range' 0 k.takeWindow.enabledFns.length).map
        (windowCredit (256 * (k.takeWindow.re.e - k.takeWindow.re.v)) k.takeWindow.enabledFns.length
          k.withdrawEngines.re.rotPtr) := by
  obtain ⟨cleared, hfns⟩ := k.takeWindow_fns
  rw [← credits_creditsGiven _ k.takeWindow.enabledFns_nodup 0 cleared, ← hfns]

/-! ### The plan of a beat (R80, R81, R86) -/

theorem Plan.nextJob_mem {p : Plan} {r c : Nat} (h : p.nextJob r = some c) : c ∈ p.jobs := by
  have hall : ∀ d, p.nextJob r = some d → d ∈ p.jobsOf r := by
    unfold Plan.nextJob
    dsimp only
    generalize (if r == 256 then p.k.re.lastPool else 32 * r + (p.k.fnCtx r).turn) = last
    refine List.foldlRecOn (motive := fun b : Option Nat => ∀ d, b = some d → d ∈ p.jobsOf r) _ _ (by simp) ?_
    rintro (_ | b) hb c hc d hd
    · cases hd
      exact hc
    · dsimp only at hd
      split at hd
      · cases hd
        exact hc
      · exact hb d hd
  exact (List.mem_filter.1 (hall c h)).1

theorem Plan.engineFor_mem {p : Plan} {c e : Nat} (h : p.engineFor c = some e) : e ∈ p.engines := by
  simp only [Plan.engineFor, Option.or_eq_some_iff] at h
  rcases h with (hnear | ⟨-, hlast⟩) | ⟨-, hhead⟩
  · split at hnear
    · exact List.mem_of_find?_eq_some hnear
    · cases hnear
  · obtain ⟨f, -, hf⟩ := Option.bind_eq_some_iff.1 hlast
    split at hf
    · next hc =>
      cases hf
      simpa using hc
    · cases hf
  · exact List.mem_of_head? hhead

/-- R86: a slot given takes one engine and one job out of those left; without either, nothing is given. -/
theorem Plan.give_cases (p : Plan) (r charge : Nat) :
    p.give r charge = p ∨ ∃ k, ∃ e ∈ p.engines, ∃ c ∈ p.jobs, p.give r charge =
      { k := k, engines := p.engines.filter (· != e), jobs := p.jobs.filter (· != c)
        slots := p.slots ++ [(e, c, charge)] } := by
  unfold Plan.give
  cases hj : p.nextJob r with
  | none => exact .inl rfl
  | some c =>
    dsimp only
    cases he : p.engineFor c with
    | none => exact .inl rfl
    | some e => exact .inr ⟨_, e, Plan.engineFor_mem he, c, Plan.nextJob_mem hj, rfl⟩

theorem nodup_append_one {l : List Nat} {a : Nat} (hl : l.Nodup) (ha : a ∉ l) : (l ++ [a]).Nodup := by
  refine List.nodup_append.2 ⟨hl, List.pairwise_singleton _ a, fun x hx y hy he => ha ?_⟩
  rwa [← List.mem_singleton.1 hy, ← he]

/-- A plan over the engines `es` and the jobs `js`: the engines and jobs left are of them, the slots given are too and name
no engine and no job twice, and at most `m` of them are charged to credit. -/
structure Plan.Fits (es js : List Nat) (m : Nat) (p : Plan) : Prop where
  left : (∀ e ∈ p.engines, e ∈ es) ∧ ∀ c ∈ p.jobs, c ∈ js
  engines : ∀ x ∈ p.slots, x.1 ∈ es ∧ x.1 ∉ p.engines
  jobs : ∀ x ∈ p.slots, x.2.1 ∈ js ∧ x.2.1 ∉ p.jobs
  nodup : (p.slots.map fun x => x.1).Nodup ∧ (p.slots.map fun x => x.2.1).Nodup
  shared : (p.slots.filter fun x => x.2.2 == 1).length ≤ m

section
variable {es js : List Nat} {m : Nat} {p : Plan}

theorem Plan.Fits.mono (h : p.Fits es js m) {n : Nat} (hn : m ≤ n) : p.Fits es js n :=
  ⟨h.left, h.engines, h.jobs, h.nodup, Nat.le_trans h.shared hn⟩

theorem Plan.Fits.withChip (h : p.Fits es js m) (k : Chip) : Plan.Fits es js m { p with k := k } :=
  ⟨h.left, h.engines, h.jobs, h.nodup, h.shared⟩

/-- A slot given keeps a plan, with one slot more charged to credit where the charge is 1. -/
theorem Plan.Fits.give (h : p.Fits es js m) (r charge : Nat) :
    (p.give r charge).Fits es js (m + ofBool (charge == 1)) := by
  obtain ⟨⟨hes, hjs⟩, hengines, hjobs, ⟨hn, hn'⟩, hshared⟩ := h
  obtain heq | ⟨k, e, he, c, hc, heq⟩ := p.give_cases r charge
  · rw [heq]
    exact ⟨⟨hes, hjs⟩, hengines, hjobs, ⟨hn, hn'⟩, by omega⟩
  · rw [heq]
    refine ⟨⟨fun x hx => hes x (List.mem_filter.1 hx).1, fun x hx => hjs x (List.mem_filter.1 hx).1⟩, ?_, ?_, ?_, ?_⟩
    · simp only [List.mem_append, List.mem_singleton, List.mem_filter]
      rintro x (hx | rfl)
      · exact ⟨(hengines x hx).1, fun hin => (hengines x hx).2 hin.1⟩
      · exact ⟨hes e he, by simp⟩
    · simp only [List.mem_append, List.mem_singleton, List.mem_filter]
      rintro x (hx | rfl)
      · exact ⟨(hjobs x hx).1, fun hin => (hjobs x hx).2 hin.1⟩
      · exact ⟨hjs c hc, by simp⟩
    · simp only [List.map_append, List.map_cons, List.map_nil]
      refine ⟨nodup_append_one hn fun hin => ?_, nodup_append_one hn' fun hin => ?_⟩
      · obtain ⟨x, hx, rfl⟩ := List.mem_map.1 hin
        exact (hengines x hx).2 he
      · obtain ⟨x, hx, rfl⟩ := List.mem_map.1 hin
        exact (hjobs x hx).2 hc
    · rw [List.filter_append, List.length_append]
      refine Nat.add_le_add hshared ?_
      by_cases h1 : charge = 1 <;> simp [h1, ofBool]

theorem Plan.Fits.reserve (h : p.Fits es js m) (n : Nat) : (Plan.reserve n p).Fits es js m := by
  induction n generalizing p with
  | zero => exact h
  | succ n ih => exact ih (h.give 256 0)

/-- R86, step 2: at most as many slots are charged to credit as the step may give. -/
theorem Plan.Fits.shares (h : p.Fits es js m) (n : Nat) : (Plan.shares n p).Fits es js (m + n) := by
  induction n generalizing p m with
  | zero => exact h
  | succ n ih =>
    unfold Plan.shares
    split
    · exact h.mono (by omega)
    · split
      · exact h.mono (by omega)
      · next f _ =>
        rw [show m + (n + 1) = m + 1 + n by omega]
        exact ih ((h.give f 1).withChip _)

theorem Plan.Fits.surplus (h : p.Fits es js m) (n : Nat) : (Plan.surplus n p).Fits es js m := by
  induction n generalizing p with
  | zero => exact h
  | succ n ih =>
    unfold Plan.surplus
    split
    · exact h
    · split
      · exact h
      · exact ih ((h.withChip _).give _ 2)

end

/-- R86: the plan of a beat, over the engines that can take a segment and the jobs that are ready. -/
theorem Chip.planBeat_fits (k : Chip) : ∃ p : Plan, k.planBeat.re.plan = p.slots ∧
    p.Fits k.freeEngines ((k.re.jobs.map (·.1)).filter k.jobReady) (k.re.e - k.re.v) := by
  have hstart : Plan.Fits k.freeEngines ((k.re.jobs.map (·.1)).filter k.jobReady) 0
      { k := k, engines := k.freeEngines, jobs := (k.re.jobs.map (·.1)).filter k.jobReady } :=
    ⟨⟨fun _ h => h, fun _ h => h⟩, by simp, by simp, by simp, by simp⟩
  exact ⟨_, rfl, by simpa only [Nat.zero_add] using ((hstart.reserve _).shares (k.re.e - k.re.v)).surplus 24⟩

/-- Settles O11: the credits add up place by place, and each step of the plan keeps `Plan.Fits`. -/
theorem windowPlans : Obligations.WindowPlans := by
  refine ⟨fun t n ptr hn => windowCredits_sum t ptr hn, fun k hne => ?_, fun k => ?_⟩
  · rw [k.takeWindow_credits, ← List.range_eq_range']
    exact windowCredits_sum _ _ (List.length_pos_iff.2 hne)
  · obtain ⟨p, heq, -, hengines, hjobs, ⟨hnodup, hnodup'⟩, hshared⟩ := k.planBeat_fits
    rw [heq]
    exact ⟨hnodup, hnodup', fun x hx => ⟨(hengines x hx).1, (List.mem_filter.1 (hjobs x hx).1).2⟩, hshared⟩

end Sys2Proof.Machine
end

section
/-!
PROOFS. The rules of the beat (02): the token edge, the boundaries, tokens at the C-dies, alignment, and the two beat
masters.
-/

namespace Sys2Proof.Machine

/-! ### The token edge (R30, R54, R92) -/

/-- What the token edge leaves of the offset to be worked off (R47). -/
def Chip.offsetLeft (k : Chip) : Nat :=
  ofSigned (if k.on CN_ALIGN.ROOT then 0 else toSigned (k.rd BT_ALIGN_OFS.OFS) 32 - k.slewNow) 32

/-- The five register fields that the token edge writes. -/
theorem Chip.rd_tokenEdge (k : Chip) (f : Fld) : k.tokenEdge.rd f =
    (((((k.wr BT_ALIGN_OFS.OFS k.offsetLeft).wr BT_COUNT.COUNT ((k.now + 1) % 2 ^ 64)).wr RE_STATUS.WINDOW_BEAT
      ((k.now + 1) % 2 ^ 64 % 256)).wr BT_SKEW.MAX (min 255 k.beat.skewMax)).wr BT_SKEW.DIE
      (if k.beat.skewMax == 0 then 0 else k.beat.skewDie)).rd f := rfl

theorem Chip.sameRegs_tokenEdge (k : Chip) :
    k.SameRegs [BT_COUNT.COUNT, BT_ALIGN_OFS.OFS, BT_SKEW.MAX, BT_SKEW.DIE, RE_STATUS.WINDOW_BEAT] k.tokenEdge := by
  intro f hf _
  simp only [List.map_cons, List.map_nil, List.mem_cons, List.not_mem_nil, or_false, not_or] at hf
  obtain ⟨hcount, hofs, hmax, hdie, hbeat⟩ := hf
  rw [k.rd_tokenEdge, Chip.rd_wr_ne _ _ hdie, Chip.rd_wr_ne _ _ hmax, Chip.rd_wr_ne _ _ hbeat, Chip.rd_wr_ne _ _ hcount,
    Chip.rd_wr_ne _ _ hofs]

theorem ofSigned_lt (i : Int) (w : Nat) : ofSigned i w < 2 ^ w := by
  have hpos : (0 : Int) < (2 ^ w : Nat) := by exact_mod_cast Nat.two_pow_pos w
  have hlt := Int.emod_lt_of_pos i hpos
  have hnn := Int.emod_nonneg i (Int.ne_of_gt hpos)
  unfold ofSigned
  omega

/-- Settles O4: each field is read off the writes of the token edge. -/
theorem tokenEdgeCountsTheBeat : Obligations.TokenEdgeCountsTheBeat := by
  intro k
  refine ⟨?_, rfl, rfl, ?_, fun hroot => ?_, rfl, .of_eq rfl, k.sameRegs_tokenEdge⟩
  · rw [Chip.now, k.rd_tokenEdge, Chip.rd_wr_ne _ _ (by decide), Chip.rd_wr_ne _ _ (by decide),
      Chip.rd_wr_ne _ _ (by decide), Chip.rd_wr_self, Nat.mod_mod]
  · rw [k.rd_tokenEdge, Chip.rd_wr_ne _ _ (by decide), Chip.rd_wr_ne _ _ (by decide), Chip.rd_wr_self]
    show (k.now + 1) % 2 ^ 64 % 256 % 2 ^ 8 = _
    omega
  · rw [k.rd_tokenEdge, Chip.rd_wr_ne _ _ (by decide), Chip.rd_wr_ne _ _ (by decide), Chip.rd_wr_ne _ _ (by decide),
      Chip.rd_wr_ne _ _ (by decide), Chip.rd_wr_self, Chip.offsetLeft, hroot]
    exact Nat.mod_eq_of_lt (ofSigned_lt _ 32)

/-! ### The boundaries (R29, R31, R38, R84) -/

section
variable (power temps : List Nat) (slacks : List Int) (queues : List (Nat × Nat))

theorem exec_beatBoundary (s : State) :
    exec (.beatBoundary power temps slacks queues) s =
      .next (s.after (s.chip.beatBoundary power temps slacks queues)) := rfl

theorem exec_phaseBoundary (s : State) :
    exec (.phaseBoundary power temps slacks queues) s =
      .next (s.after (s.chip.phaseBoundary power temps slacks queues)) := rfl

theorem exec_windowBoundary (s : State) : exec .windowBoundary s = .next (s.after s.chip.windowBoundary) := rfl

end

/-- Settles O5: which boundary acts turns on whether tokens are issued, a window is due, and the phase is the last. -/
theorem boundariesRunTheirSteps : Obligations.BoundariesRunTheirSteps := by
  refine ⟨?_, ?_, ?_, ?_⟩
  · intro s power temps slacks queues ht hw
    refine ⟨_, _, _, _, rfl, rfl, rfl, rfl, ?_⟩
    rw [exec_beatBoundary, Chip.beatBoundary, if_neg (by simp [ht]), if_neg (by simp [hw])]
    simp only [beq_iff_eq]
  · intro s ht hw
    refine ⟨_, rfl, ?_⟩
    rw [exec_windowBoundary, Chip.windowBoundary, if_pos (by simp [ht, hw]), Chip.windowBegins]
  · intro s power temps slacks queues ht hp
    refine ⟨_, rfl, ?_⟩
    rw [exec_phaseBoundary, Chip.phaseBoundary, if_neg (by simp [ht, hp])]
  · intro s power temps slacks queues ht
    refine ⟨?_, ?_, ?_⟩
    · rw [exec_beatBoundary, Chip.beatBoundary, if_pos (by simp [ht])]
    · rw [exec_phaseBoundary, Chip.phaseBoundary, if_pos (by simp [ht])]
    · rw [exec_windowBoundary, Chip.windowBoundary, if_neg (by simp [ht])]

/-! ### Tokens at a C-die (R32, R33) -/

/-- R33: the successor of the die's own count, told by its low 16 bits. -/
theorem tokenCount_short (own : Nat) : tokenCount own false ((own + 1) % 2 ^ 16) = own + 1 := by
  simp [tokenCount, wrapSub]

section
variable (k : Chip) (d : Nat)

theorem Chip.dieBeat_setDieBeat (f : DieBeat → DieBeat) :
    Tbl.get {} (k.setDieBeat d f).beat.dies d = f (Tbl.get {} k.beat.dies d) := Tbl.get_mod_self _ _ _ _

/-- R56: a skew within the limit is noted for the beat, and nothing else changes. -/
theorem Chip.noteSkew_eq {skew : Nat} (h : skew ≤ 10) : ∃ n e, k.noteSkew d skew =
    { k with beat := { k.beat with skewMax := n, skewDie := e } } := by
  unfold Chip.noteSkew
  rw [if_neg (by omega)]
  split
  · exact ⟨_, _, rfl⟩
  · exact ⟨_, _, rfl⟩

theorem exec_beatTokenReceived (full : Bool) (count len inst check skew : Nat) (s : State) :
    exec (.beatTokenReceived d full count len inst check skew) s =
      .next (s.after (s.chip.tokenAt d full count len inst check skew)) := rfl

theorem exec_tokenMissing (s : State) : exec (.tokenMissing d) s = .next (s.after (s.chip.tokenMissing d)) := rfl

variable {k d} (hd : k.dieUp d = true)
include hd

theorem Chip.tokenAt_bad {full : Bool} {count len inst check : Nat} (skew : Nat)
    (h : crc8Bits (tokenBits full count len inst) ≠ check) :
    k.tokenAt d full count len inst check skew = k.btErr BT_ERR.TOKEN_CHECK := by
  simp [Chip.tokenAt, hd, h]

/-- R33: the first full token after a link start sets the die's count. -/
theorem Chip.tokenAt_full {count len inst skew : Nat} (h : (Tbl.get {} k.beat.dies d).fullDue = true) :
    k.tokenAt d true count len inst (crc8Bits (tokenBits true count len inst)) skew =
      (k.noteSkew d skew).setDieBeat d fun x => { x with count := count % 2 ^ 64, misses := 0, fullDue := false } := by
  simp [Chip.tokenAt, tokenCount, hd, h]

/-- R33: a short token that names the successor of the die's own count makes the die count on. -/
theorem Chip.tokenAt_short {len inst skew n : Nat} (h : (Tbl.get {} k.beat.dies d).fullDue = false)
    (hn : n = ((Tbl.get {} k.beat.dies d).count + 1) % 2 ^ 16) :
    k.tokenAt d false n len inst (crc8Bits (tokenBits false n len inst)) skew =
      (k.noteSkew d skew).setDieBeat d fun x => { x with count := (Tbl.get {} k.beat.dies d).count + 1, misses := 0 } := by
  have hnew : n % 65536 ≠ (Tbl.get {} k.beat.dies d).count % 65536 := by omega
  have hcount : tokenCount (Tbl.get {} k.beat.dies d).count false n = (Tbl.get {} k.beat.dies d).count + 1 := by
    rw [hn, tokenCount_short]
  simp [Chip.tokenAt, hd, h, hnew, hcount]

/-- R33: the first token that is missing in a row is counted by the die itself. -/
theorem Chip.tokenMissing_first (h : (Tbl.get {} k.beat.dies d).misses = 0) :
    k.tokenMissing d = k.setDieBeat d fun x => { x with count := (x.count + 1) % 2 ^ 64, misses := x.misses + 1 } := by
  simp [Chip.tokenMissing, hd, h]

end

/-! ### Alignment (R196, R197) -/

theorem Chip.alignRsp_even {k : Chip} {t1 t2 t3 t4 : Nat} (hroot : k.on CN_ALIGN.ROOT = false)
    (hen : k.on BT_CTRL.ALIGN_EN = true)
    (h : (beatDiff t2 t1 k.beatNs - beatDiff t4 t3 k.beatNs) % 2 = 0) :
    k.alignRsp t1 t2 t3 t4 (k.rd BT_CTRL.LEN) =
      { k.wr BT_ALIGN_OFS.OFS (ofSigned ((beatDiff t2 t1 k.beatNs - beatDiff t4 t3 k.beatNs) / 2) 32) with
        beat := { k.beat with alignInEffect := true, alignMissed := 0 } } := by
  simp [Chip.alignRsp, hroot, hen, h]

theorem Chip.alignInterval_asks {k : Chip} (now : Nat) (hroot : k.on CN_ALIGN.ROOT = false)
    (hen : k.on BT_CTRL.ALIGN_EN = true) (hup : k.cnState (k.rd CN_ALIGN.PARENT_PORT) = 2) (h : k.beat.alignMissed < 8) :
    k.alignInterval now =
      let k' : Chip := { k with beat := { k.beat with alignMissed := k.beat.alignMissed + 1 } }
      k'.sendLink (k.rd CN_ALIGN.PARENT_PORT)
        (k'.newFrame 9 2 (k'.rd (CN_PORT_STATUS.PEER_PKG (k.rd CN_ALIGN.PARENT_PORT))) 0 0 true (leBytes now 4)) := by
  simp [Chip.alignInterval, hroot, hen, hup, Nat.not_le.2 h]

theorem exec_alignRsp (t1 t2 t3 t4 len : Nat) (s : State) :
    exec (.alignRsp t1 t2 t3 t4 len) s = .next (s.after (s.chip.alignRsp t1 t2 t3 t4 len)) := rfl

theorem exec_alignIntervalExpiry (now : Nat) (s : State) :
    exec (.alignIntervalExpiry now) s = .next (s.after (s.chip.alignInterval now)) := rfl

theorem exec_alignReq (p src t1 t2 t3 : Nat) (s : State) :
    exec (.alignReq p src t1 t2 t3) s = .next (s.after (s.chip.alignReq (p % 4) src t1 t2 t3)) := rfl

/-- Settles O6: each clause is one case of the token, of the missing token, or of an alignment command. -/
theorem tokensAndAlignment : Obligations.TokensAndAlignment := by
  refine ⟨?_, ?_, ?_, ?_, ?_, ?_, ?_⟩
  · intro s d count len inst skew hd hskew hdue
    obtain ⟨n, e, hnote⟩ := s.chip.noteSkew_eq d hskew
    rw [exec_beatTokenReceived, Chip.tokenAt_full hd hdue, hnote]
    refine ⟨_, rfl, ?_, .of_eq (Chip.refresh_mem _), .of_eq rfl, Chip.refresh_out _⟩
    rw [State.after_chip, Chip.refresh_beat, Chip.dieBeat_setDieBeat]
  · intro s d len inst skew hd hskew hdue _
    obtain ⟨n, e, hnote⟩ := s.chip.noteSkew_eq d hskew
    rw [exec_beatTokenReceived, Chip.tokenAt_short hd hdue rfl, hnote]
    refine ⟨_, rfl, ?_, .of_eq rfl, Chip.refresh_out _⟩
    rw [State.after_chip, Chip.refresh_beat, Chip.dieBeat_setDieBeat]
  · intro s d count len inst check skew full hd hcrc
    rw [exec_beatTokenReceived, Chip.tokenAt_bad hd skew hcrc]
  · intro s d hd hmiss
    rw [exec_tokenMissing, Chip.tokenMissing_first hd hmiss]
    refine ⟨_, rfl, ?_, .of_eq rfl, Chip.refresh_out _⟩
    rw [State.after_chip, Chip.refresh_beat, Chip.dieBeat_setDieBeat, hmiss]
  · intro s p src t1 t2 t3 hp hup
    rw [exec_alignReq, Nat.mod_eq_of_lt hp, Chip.alignReq, if_neg (by simp [hup])]
  · intro s t1 t2 t3 t4 hroot hen heven
    rw [exec_alignRsp, Chip.alignRsp_even hroot hen heven]
    refine ⟨_, rfl, ?_, by simp, by simp, by simp [Chip.SameMemory], .refresh fun f hf => ?_, by simp⟩
    · rw [State.after_chip, Chip.rd_refresh _ (alignFields_not_shown _ (by simp))]
      exact (Chip.rd_wr_self ..).trans (Nat.mod_eq_of_lt (ofSigned_lt _ 32))
    · exact Chip.rd_wr_ne _ _ (by simpa using hf)
  · intro s now n hroot hen hn hup hmissed
    subst hn
    refine ⟨_, rfl, ?_⟩
    rw [exec_alignIntervalExpiry, Chip.alignInterval_asks now hroot hen hup hmissed]

/-! ### The two beat masters (R35) -/

/-- The field that says whether beat master `b` is fenced. -/
def fencedField (b : Nat) : Fld := if b == 0 then BT_STATUS.FENCED_A else BT_STATUS.FENCED_B

theorem Chip.masterFenced_eq (k : Chip) (b : Nat) : k.masterFenced b = (k.rd (fencedField b) == 1) := rfl

/-- The bits of BT_ERR for which a beat master is fenced. -/
def masterErrors : List Fld := [BT_ERR.CMP_MISMATCH, BT_ERR.SELF_A, BT_ERR.SELF_B]

/-- The fields of a fencing of beat master `b` for `f` are all different, and neither a report nor the bringing up to date of the
status fields reaches them. -/
theorem fencing_keys : ∀ b < 2, ∀ f ∈ masterErrors, f.key ≠ (fencedField b).key ∧ f.width = 1 ∧ (fencedField b).width = 1 ∧
    (∀ g ∈ [BT_STATUS.ACTIVE, fencedField (1 - b), BT_COUNT.COUNT], g.key ≠ f.key ∧ g.key ≠ (fencedField b).key) ∧
    ∀ g ∈ [f, fencedField b, fencedField (1 - b), BT_COUNT.COUNT], g.key ≠ BT_STATUS.ACTIVE.key ∧
      g.key ∉ reportFields.map Fld.key ∧ g.key ∉ shownFields.map Fld.key := by decide +kernel

theorem Chip.rd_logTwin (k : Chip) (ty i cause : Nat) {f : Fld} (h : f.key ∉ reportFields.map Fld.key) :
    (k.logTwin ty i cause).rd f = k.rd f := k.log_rd _ h

section
variable (k : Chip) {b : Nat} {f : Fld} (hb : b < 2) (hf : f ∈ masterErrors)
include hb hf

/-- The two bits that a fencing sets leave the other fields of it as they were. -/
theorem Chip.rd_fencingBits {g : Fld} (hg : g ∈ [BT_STATUS.ACTIVE, fencedField (1 - b), BT_COUNT.COUNT]) :
    ((k.raise f).wr (fencedField b) 1).rd g = k.rd g := by
  obtain ⟨-, -, -, hother, -⟩ := fencing_keys b hb f hf
  obtain ⟨hgf, hgb⟩ := hother g hg
  rw [Chip.rd_wr_ne _ _ hgb, Chip.raise, Chip.rd_wr_ne _ _ hgf]

variable (ho : k.masterFenced (1 - b) = false)
include ho

/-- R35: with the other one in service, the fencing of beat master `b` sets the two bits, passes the active role on, and is
reported. -/
theorem Chip.fenceMaster_eq : k.fenceMaster b f =
    (if ((k.raise f).wr (fencedField b) 1).rd BT_STATUS.ACTIVE == b then
      ((k.raise f).wr (fencedField b) 1).wr BT_STATUS.ACTIVE (1 - b) else (k.raise f).wr (fencedField b) 1).logTwin 3 b f.lo := by
  obtain ⟨-, -, -, hother, -⟩ := fencing_keys b hb f hf
  have hsound : (k.raise f).masterFenced (1 - b) = false := by
    rw [Chip.masterFenced_eq, Chip.raise, Chip.rd_wr_ne _ _ (hother _ (by simp)).1]
    exact ho
  rw [Chip.fenceMaster]
  dsimp only
  rw [if_neg (by simp [hsound])]
  rfl

theorem Chip.rd_fenceMaster {g : Fld} (hg : g ∈ [f, fencedField b, fencedField (1 - b), BT_COUNT.COUNT]) :
    (k.fenceMaster b f).refresh.rd g = ((k.raise f).wr (fencedField b) 1).rd g := by
  obtain ⟨-, -, -, -, hreach⟩ := fencing_keys b hb f hf
  obtain ⟨hactive, hreported, hshown⟩ := hreach g hg
  rw [Chip.rd_refresh _ hshown, k.fenceMaster_eq hb hf ho, Chip.rd_logTwin _ _ _ _ hreported]
  split
  · exact Chip.rd_wr_ne _ _ hactive
  · rfl

/-- R35: the other one is active once beat master `b` is fenced. -/
theorem Chip.fenceMaster_active (ha : k.rd BT_STATUS.ACTIVE < 2) :
    (k.fenceMaster b f).refresh.rd BT_STATUS.ACTIVE = 1 - b := by
  rw [Chip.rd_refresh _ (by decide +kernel), k.fenceMaster_eq hb hf ho, Chip.rd_logTwin _ _ _ _ (by decide +kernel),
    k.rd_fencingBits hb hf (by simp)]
  split
  · exact (Chip.rd_wr_self ..).trans (Nat.mod_eq_of_lt (by show 1 - b < 2; omega))
  · next hne =>
    rw [k.rd_fencingBits hb hf (by simp)]
    simp only [beq_iff_eq] at hne
    omega

/-- R35: what holds once beat master `b` is fenced for `f`. -/
theorem Chip.fenceMaster_fences :
    (k.fenceMaster b f).refresh.masterFenced b = true ∧ (k.fenceMaster b f).refresh.masterFenced (1 - b) = false ∧
    (k.fenceMaster b f).refresh.rd f = 1 ∧ (k.fenceMaster b f).refresh.now = k.now := by
  obtain ⟨hfb, hwf, hwb, -, -⟩ := fencing_keys b hb f hf
  have hset : ∀ g : Fld, g.width = 1 → 1 % 2 ^ g.width = 1 := fun g hg => Nat.mod_eq_of_lt (by rw [hg]; decide)
  refine ⟨?_, ?_, ?_, ?_⟩
  · rw [Chip.masterFenced_eq, k.rd_fenceMaster hb hf ho (by simp), Chip.rd_wr_self, hset _ hwb, beq_self_eq_true]
  · rw [Chip.masterFenced_eq, k.rd_fenceMaster hb hf ho (by simp), k.rd_fencingBits hb hf (by simp)]
    exact ho
  · rw [k.rd_fenceMaster hb hf ho (by simp), Chip.rd_wr_ne _ _ hfb, Chip.raise, Chip.rd_wr_self, hset _ hwf]
  · rw [Chip.now, k.rd_fenceMaster hb hf ho (by simp), k.rd_fencingBits hb hf (by simp), Chip.now]

end

theorem exec_beatMasterSelfCheckError {b : Nat} (hb : b < 2) (s : State) (h : s.chip.masterFenced b = false) :
    exec (.beatMasterSelfCheckError b) s =
      .next (s.after (s.chip.fenceMaster b (if b = 0 then BT_ERR.SELF_A else BT_ERR.SELF_B))) := by
  have hexec : exec (.beatMasterSelfCheckError b) s = .next (s.after (s.chip.selfCheckError b)) := rfl
  rw [hexec, Chip.selfCheckError, Nat.mod_eq_of_lt hb, if_neg (by simp [h])]
  simp only [beq_iff_eq]

theorem exec_cmpMismatch (s : State) (h0 : s.chip.masterFenced 0 = false) (h1 : s.chip.masterFenced 1 = false) :
    exec .cmpMismatch s = .next (s.after (s.chip.fenceMaster (1 - s.chip.rd BT_STATUS.ACTIVE) BT_ERR.CMP_MISMATCH)) := by
  have hexec : exec .cmpMismatch s = .next (s.after s.chip.cmpMismatch) := rfl
  rw [hexec, Chip.cmpMismatch, if_neg (by simp [h0, h1])]

/-- Settles O7: both ways lead to one fencing, for different beat masters and bits. -/
theorem beatMasterFencing : Obligations.BeatMasterFencing := by
  intro s h0 h1 ha
  have hsound : ∀ b < 2, s.chip.masterFenced b = false := fun b hb => by
    obtain rfl | rfl : b = 0 ∨ b = 1 := by omega
    · exact h0
    · exact h1
  refine ⟨fun b hb => ?_, ?_⟩
  · have hf : (if b = 0 then BT_ERR.SELF_A else BT_ERR.SELF_B) ∈ masterErrors := by
      split <;> simp [masterErrors]
    obtain ⟨hfenced, hother, herr, hnow⟩ := s.chip.fenceMaster_fences hb hf (hsound _ (by omega))
    rw [exec_beatMasterSelfCheckError hb s (hsound b hb)]
    exact ⟨_, rfl, hfenced, hother, s.chip.fenceMaster_active hb hf (hsound _ (by omega)) ha, herr, hnow⟩
  · have hback : 1 - (1 - s.chip.rd BT_STATUS.ACTIVE) = s.chip.rd BT_STATUS.ACTIVE := by omega
    have hb : 1 - s.chip.rd BT_STATUS.ACTIVE < 2 := by omega
    have hf : BT_ERR.CMP_MISMATCH ∈ masterErrors := by simp [masterErrors]
    obtain ⟨hfenced, hother, herr, -⟩ := s.chip.fenceMaster_fences hb hf (hsound _ (by omega))
    have hactive := s.chip.fenceMaster_active hb hf (hsound _ (by omega)) ha
    rw [hback] at hother hactive
    rw [exec_cmpMismatch s h0 h1]
    exact ⟨_, rfl, hother, hfenced, hactive, herr⟩

end Sys2Proof.Machine
end

section
/-!
PROOFS. A running segment (02, 03): its data, the accumulate units, the closes and its end.
-/

namespace Sys2Proof.Machine

theorem exec_engineReadData (e : Nat) (inp : List HostRead) (s : State) :
    exec (.engineReadData e inp) s = .next (s.after (s.chip.engineData e inp)) := rfl

theorem exec_segmentFinish (e : Nat) (s : State) :
    exec (.segmentFinish e) s = .next (s.after (s.chip.segmentFinish e)) := rfl

/-! ### A segment of a COPY job (R58, R98, R101) -/

section
variable {r : Run} {c : Ctx} {b : Bytes}

theorem Run.fetch_bytes {iova n : Nat} (area : Nat) (hst : r.st = none) (h : r.k.dmaRead c.rs c.dev iova n = .bytes b) :
    r.fetch c iova n area = (r, b) := by
  simp [Run.fetch, Run.done, hst, h]

theorem Run.put_written {iova area : Nat} {k' : Chip} (hst : r.st = none) (hb : b ≠ [])
    (h : r.k.dmaWrite c.dev iova b false (some c.job) = (k', true)) : r.put c iova b area = { r with k := k' } := by
  simp [Run.put, Run.done, hst, hb, h]

theorem Run.output_written {off : Nat} {k' : Chip} (hst : r.st = none) (hb : b ≠ []) (hlimit : off + b.length ≤ c.d.dstLimit)
    (h : r.k.dmaWrite c.dev (c.d.dst + off) b false (some c.job) = (k', true)) :
    r.output c off b = { r with k := k', ck := { r.ck with outLen := r.ck.outLen + b.length } } := by
  simp [Run.output, Run.within, hlimit, Run.put_written hst hb h, Run.done, hst]

/-- R58: a COPY segment whose input has come and whose output is written. -/
theorem Run.segment_copy {n : Nat} {k' : Chip} (hop : c.d.opcode = 6) (hst : r.st = none)
    (hn : n = min c.size (c.d.length - r.ck.pos)) (hread : r.k.dmaRead c.rs c.dev (c.d.src + r.ck.pos) n = .bytes b)
    (hb : b ≠ []) (hlimit : r.ck.pos + b.length ≤ c.d.dstLimit)
    (hwrite : r.k.dmaWrite c.dev (c.d.dst + r.ck.pos) b false (some c.job) = (k', true)) :
    r.segment c = { r with
      k := k', ck := { r.ck with pos := r.ck.pos + n, outLen := r.ck.outLen + b.length } } := by
  subst hn
  simp [Run.segment, hop, Run.copySegment, Run.fetch_bytes 0 hst hread, Run.output_written hst hb hlimit hwrite, Run.done, hst]

end

theorem Chip.setJob_mem (k : Chip) (c : Nat) (f : Job → Job) : (k.setJob c f).mem = k.mem := by
  unfold Chip.setJob
  split <;> rfl

/-- R98: once its segment has run, an engine holds what the run left of it. -/
theorem Chip.engineData_run {k : Chip} {e : Nat} {sg : Seg} (inp : List HostRead) {r : Run}
    (hseg : (k.engine e).seg = some sg) (hran : sg.ran = false)
    (hr : Run.segment { k := k, ck := (k.job sg.job).ck } (k.segCtx sg inp) = r) (hst : r.st = none) :
    (k.engineData e inp).mem = r.k.mem ∧ ∃ x, ((k.engineData e inp).engine e).seg = some x ∧
      x.ran = true ∧ x.status = none ∧ x.after = r.ck := by
  unfold Chip.engineData
  rw [hseg]
  dsimp only
  rw [if_neg (by simp [hran]), hr]
  refine ⟨?_, ?_⟩
  · rw [Chip.setEngine_mem, Chip.setJob_mem]
  · rw [Chip.engine_setEngine]
    exact ⟨_, rfl, rfl, hst, rfl⟩

/-! ### The accumulate units (R140, R141, R144, R146) -/

section
variable {s : State} {e : Nat} {sg : Seg} (hseg : (s.chip.engine e).seg = some sg) (hfree : s.chip.foldsHeld sg.job = false)
include hseg hfree

theorem exec_accWr_fold {a off stripe col pos : Nat} {data : Bytes} {rest : List OutItem}
    (hitems : sg.items = .fold (some a) data off stripe col pos :: rest) :
    exec (.accWr e) s = .next (s.after (Chip.popItem (Chip.setRegion
      (s.chip.dmaWrite (s.chip.devOfRing (s.chip.job sg.job).ring (s.chip.job sg.job).internal) a data false (some sg.job)).1
        sg.job fun g => { g with
          acc := (s.chip.job sg.job).regionCode.fold (s.chip.job sg.job).desc.field g.acc col (64 * pos + off) data
          log := g.log ++ [.fold (some a) data off stripe col pos] }) e)) := by
  have hexec : exec (.accWr e) s = .next (s.after (s.chip.accWr e)) := rfl
  rw [hexec, Chip.accWr, hseg]
  dsimp only
  rw [hitems]
  dsimp only
  rw [if_neg (by simp [hfree])]

theorem exec_close_next {stripe cols : Nat} {ps : List (Nat × Option Nat × Bytes)} {rest : List OutItem}
    (hitems : sg.items = .close stripe cols ps :: rest) :
    exec (.close e) s = .next (s.after (Chip.setEngine (Chip.popItem (Chip.setRegion
      (s.chip.writeParity (s.chip.job sg.job) sg.key.key (((s.chip.region sg.job).map (·.acc)).getD []) ps sg.job) sg.job
        fun g => { g with
          copy := if (s.chip.job sg.job).closeCopy && g.copy.isNone then some g.acc else g.copy
          acc := g.acc.map fun a => zeros a.length
          log := g.log ++ [.close stripe cols ps] }) e) e
      fun g => { g with seg := g.seg.map fun s => { s with closes := s.closes + 1 } })) := by
  have hexec : exec (.close e) s = .next (s.after (s.chip.close e)) := rfl
  rw [hexec, Chip.close, hseg]
  dsimp only
  rw [hitems]
  dsimp only
  rw [if_neg (by simp [hfree])]

end

/-! ### The end of a segment (R43) -/

/-- R544: counting the bin of a segment takes at most a free value. -/
theorem Chip.segmentBin_cases (k : Chip) (sg : Seg) : ∃ bin n, k.segmentBin sg = (bin, { k with free := n }) := by
  unfold Chip.segmentBin
  dsimp only
  split
  · exact ⟨_, _, rfl⟩
  · exact ⟨_, _, rfl⟩

/-- R43: a segment with nothing left to await is finished. -/
theorem Chip.segmentFinish_done {k : Chip} {e : Nat} {sg : Seg} (hseg : (k.engine e).seg = some sg) (hran : sg.ran = true)
    (hitems : sg.items = []) (hsign : sg.signWait = false) (hdone : k.writesDone sg.job = true) :
    ∃ bin n, k.segmentFinish e =
      Chip.setEngine { k with free := n } e fun g => { g with seg := some { sg with finished := true, bin := bin } } := by
  obtain ⟨bin, n, hbin⟩ := k.segmentBin_cases sg
  refine ⟨bin, n, ?_⟩
  unfold Chip.segmentFinish
  rw [hseg]
  dsimp only
  rw [if_pos (by simp [hran, hitems, hsign, hdone]), hbin]

/-- Settles O12: the run of a COPY segment, one accumulate write, one close, and the end of a segment. -/
theorem segmentsRunAndClose : Obligations.SegmentsRunAndClose := by
  refine ⟨?_, ?_, ?_, ?_⟩
  · intro s e n sg j inp b k' hseg hran hj hop hn hread hb hlimit hwrite
    subst hj
    obtain ⟨hmem, x, hx, hxran, hxst, hxck⟩ := s.chip.engineData_run inp hseg hran
      (Run.segment_copy (c := s.chip.segCtx sg inp) hop rfl hn hread hb hlimit hwrite) rfl
    rw [exec_engineReadData]
    refine ⟨_, x, rfl, ?_, ?_, hxran, hxst, ?_, ?_⟩
    · rw [State.after_chip, Chip.refresh_mem, hmem]
    · rw [State.after_chip, Chip.engine_refresh, hx]
    · rw [hxck]
    · rw [hxck]
  · intro s e a off stripe col pos data rest sg j k' hseg hitems hfree hj hk
    subst hj hk
    rw [exec_accWr_fold hseg hfree hitems]
    rfl
  · intro s e stripe cols ps rest sg j hseg hitems hfree hj
    subst hj
    exact exec_close_next hseg hfree hitems
  · intro s e sg hseg hran hitems hsign hdone
    obtain ⟨bin, n, hfin⟩ := Chip.segmentFinish_done hseg hran hitems hsign hdone
    rw [exec_segmentFinish, hfin]
    refine ⟨_, bin, rfl, ?_, fun e' he => ?_, Chip.refresh_re _, .of_eq (Chip.refresh_mem _), .of_eq rfl,
      Chip.refresh_out _⟩
    · rw [State.after_chip, Chip.engine_refresh, Chip.engine_setEngine]
    · rw [State.after_chip, Chip.engine_refresh, Chip.engine_setEngine_ne _ _ he]

end Sys2Proof.Machine
end

section
/-!
PROOFS. The Kloesk registers of a hart, its traps into M-mode and MRET (10, 18).
-/

namespace Sys2Proof.Machine

/-! ### Commands that change one hart or send one message -/

/-- A command that changes hart `h` alone: the other harts, memory, registers and messages stay. -/
theorem State.after_setHart (s : State) (k : Chip) (h : Nat) (f : Hart → Hart) (hk : k = { s.chip with free := k.free }) :
    (s.after (k.setHart h f)).chip.hart h = f (s.chip.hart h) ∧
    (∀ g, g ≠ h → (s.after (k.setHart h f)).chip.hart g = s.chip.hart g) ∧
    s.chip.SameMemory (s.after (k.setHart h f)).chip ∧ s.chip.SameRegs [] (s.after (k.setHart h f)).chip ∧
    (s.after (k.setHart h f)).chip.out = s.chip.out := by
  rw [hk]
  refine ⟨?_, fun g hg => ?_, .of_eq (Chip.refresh_mem _), .of_eq rfl, Chip.refresh_out _⟩
  · rw [State.after_chip, Chip.hart_refresh, Chip.hart_setHart]
  · rw [State.after_chip, Chip.hart_refresh, Chip.hart_setHart_ne _ _ hg]

/-- A command that sends the message `o` alone: the harts, memory and registers stay. -/
theorem State.after_emit (s : State) (k : Chip) (o : Out) (hk : k = { s.chip with free := k.free }) :
    (s.after (k.emit o)).chip.out = o :: s.chip.out ∧ (s.after (k.emit o)).chip.harts = s.chip.harts ∧
    s.chip.SameMemory (s.after (k.emit o)).chip ∧ s.chip.SameRegs [] (s.after (k.emit o)).chip := by
  rw [hk]
  exact ⟨Chip.refresh_out _, Chip.refresh_harts _, .of_eq (Chip.refresh_mem _), .of_eq rfl⟩

/-- An exception of a hart is one message with a free value. -/
theorem Chip.instrTrap_eq (k : Chip) (h cause : Nat) : ∃ v n, k.instrTrap h cause =
    Chip.emit { k with free := n } (.trap h cause v) := ⟨_, _, rfl⟩

/-! ### Halts, traps and the return (R256, R447, R453) -/

theorem Hart.takeHalt_none {g : Hart} (nid : Bool) (h : g.haltPending = false) : g.takeHalt nid = g := by
  simp [Hart.takeHalt, h]

theorem Hart.mret_eq {g : Hart} (nid : Bool) (h : g.haltPending = false) : g.mret nid = { g with
    w := g.pw, mode := modeOf g.mpp g.mpv, pc := g.mepc, entry := if g.pw == 1 then none else g.entry } :=
  Hart.takeHalt_none nid h

/-- R447: the saved MPP and MPV name the mode that a trap was taken in. -/
theorem modeOf_modeBits (mode : Mode) : modeOf (modeBits mode).1 (modeBits mode).2 = mode := by
  cases mode <;> rfl

/-- R256, R447: MRET goes back to the world, the mode and the address that a trap saved. -/
theorem Hart.mret_trap {g r : Hart} {cause mepc tval : Nat} {nid : Bool} (h : g.haltPending = false)
    (hr : r = (g.trap cause mepc (modeBits g.mode).1 (modeBits g.mode).2 tval).mret nid) :
    r.w = g.w ∧ r.mode = g.mode ∧ r.pc = mepc ∧ (g.w = 1 → r.entry = none) := by
  have htrapped : (g.trap cause mepc (modeBits g.mode).1 (modeBits g.mode).2 tval).haltPending = false := h
  rw [hr, Hart.mret_eq nid htrapped]
  exact ⟨rfl, modeOf_modeBits _, rfl, fun hw => by simp [Hart.trap, hw]⟩

/-! ### The CSRs (R49, R254, R259) -/

theorem csrAllowed_sillage {mode : Mode} (h : mode = .m ∨ mode = .s) : csrAllowed 0x5C0 mode true = true := by
  obtain rfl | rfl := h <;> rfl

theorem csrAllowed_qfbeat (mode : Mode) : csrAllowed 0xCC0 mode false = true := rfl

section
variable (k : Chip) {h value : Nat}

/-- R259: M-mode sets any tag, S-mode one within qftaglim. -/
theorem Chip.qfsillageWrite_takes {mode : Mode} (hmode : mode = .m ∨ (mode = .s ∧
      (k.hart h).tagLo ≤ value % 256 ∧ value % 256 ≤ (k.hart h).tagHi)) :
    k.qfsillageWrite h mode value = k.setHart h fun g => { g with sillage := value % 256 } := by
  have hallowed : csrAllowed 0x5C0 mode true = true := csrAllowed_sillage (hmode.imp_right And.left)
  unfold Chip.qfsillageWrite
  dsimp only
  rw [if_neg (by simp [hallowed]), if_neg]
  obtain rfl | ⟨rfl, hlo, hhi⟩ := hmode
  · simp
  · simp [Nat.not_lt.2 hlo, Nat.not_lt.2 hhi]

/-- R259: another tag written in S-mode raises an exception. -/
theorem Chip.qfsillageWrite_traps (hout : value % 256 < (k.hart h).tagLo ∨ (k.hart h).tagHi < value % 256) :
    k.qfsillageWrite h .s value = k.instrTrap h 2 := by
  unfold Chip.qfsillageWrite
  dsimp only
  rw [if_neg (by simp [csrAllowed_sillage]), if_pos (by simpa using hout)]

theorem Chip.csrAccess_denied {csr : Nat} {mode : Mode} {isWrite : Bool} (hdenied : csrAllowed csr mode isWrite = false) :
    k.csrAccess h csr mode isWrite value = k.instrTrap h (csrCause csr mode isWrite) := by
  simp [Chip.csrAccess, hdenied]

/-- R49: a read of qfbeat, which every mode may make, returns the count of the hart's die. -/
theorem Chip.csrAccess_qfbeat (mode : Mode) : k.csrAccess h 0xCC0 mode false value =
    k.emit (.csrValue h (Tbl.get {} k.beat.dies (k.hartDie h)).count) := by
  simp [Chip.csrAccess, csrAllowed_qfbeat, Chip.csrRead]

end

theorem exec_qfsillageWrite (s : State) (h value : Nat) (mode : Mode) :
    exec (.qfsillageWrite h mode value) s = .next (s.after (s.chip.qfsillageWrite h mode value)) := rfl

theorem exec_customCsrIllegal (s : State) (h csr value : Nat) (mode : Mode) (isWrite : Bool) :
    exec (.customCsrIllegal h csr mode isWrite value) s =
      .next (s.after (s.chip.csrAccess h csr mode isWrite value)) := rfl

/-- R256: M-mode sets W and PW of a hart for which no halt waits. -/
theorem exec_qfworldWrite (s : State) {h : Nat} (w pw : Nat) (hhalt : (s.chip.hart h).haltPending = false) :
    ∃ f : Hart → Hart, exec (.qfworldWrite h w pw) s = .next (s.after (s.chip.setHart h f)) ∧
      f (s.chip.hart h) = { s.chip.hart h with w := w % 2, pw := pw % 2 } :=
  ⟨_, rfl, Hart.takeHalt_none _ hhalt⟩

/-- R256: outside a restart a trap goes to the hart itself. -/
theorem exec_trapToMMode (s : State) (h cause mepc mpp : Nat) (mpv : Bool) (hstub : s.chip.stubInForce = false) :
    ∃ v, exec (.trapToMMode h cause mepc mpp mpv) s =
      .next (s.after (s.chip.fresh.2.setHart h fun g => g.trap cause mepc mpp mpv v)) := by
  have hstub' : s.chip.fresh.2.stubInForce = false := hstub
  have hexec : exec (.trapToMMode h cause mepc mpp mpv) s =
    .next (s.after (s.chip.fresh.2.trapM h cause mepc mpp mpv s.chip.fresh.1)) := rfl
  refine ⟨s.chip.fresh.1, ?_⟩
  rw [hexec, Chip.trapM, if_neg (by simp [hstub'])]

theorem exec_mret (s : State) (h : Nat) :
    exec (.mret h) s = .next (s.after (s.chip.setHart h fun g => g.mret (s.chip.on WS_DEBUG.NID))) := rfl

/-- Settles O23: each command changes one hart or sends one message. -/
theorem kloeskRegistersAndTraps : Obligations.KloeskRegistersAndTraps := by
  refine ⟨?_, ?_, ?_, ?_, ?_, ?_, ?_, ?_, ?_⟩
  · intro s h w pw hhalt
    obtain ⟨f, hexec, hf⟩ := exec_qfworldWrite s w pw hhalt
    rw [← hf]
    exact ⟨_, hexec, s.after_setHart s.chip h f rfl⟩
  · intro s h value mode hmode
    rw [exec_qfsillageWrite, s.chip.qfsillageWrite_takes hmode]
    exact ⟨_, rfl, s.after_setHart s.chip h _ rfl⟩
  · intro s h value hout
    obtain ⟨v, n, htrap⟩ := s.chip.instrTrap_eq h 2
    rw [exec_qfsillageWrite, s.chip.qfsillageWrite_traps hout, htrap]
    exact ⟨_, v, rfl, s.after_emit _ _ rfl⟩
  · intro s h value
    exact ⟨_, rfl, s.after_setHart s.chip h _ rfl⟩
  · intro s h csr value mode isWrite hdenied
    obtain ⟨v, n, htrap⟩ := s.chip.instrTrap_eq h (csrCause csr mode isWrite)
    rw [exec_customCsrIllegal, s.chip.csrAccess_denied hdenied, htrap]
    exact ⟨_, v, rfl, s.after_emit _ _ rfl⟩
  · intro s h value mode
    rw [exec_customCsrIllegal, s.chip.csrAccess_qfbeat]
    exact ⟨_, rfl, s.after_emit s.chip _ rfl⟩
  · intro s h cause mepc mpp mpv hstub
    obtain ⟨v, hexec⟩ := exec_trapToMMode s h cause mepc mpp mpv hstub
    exact ⟨_, v, hexec, s.after_setHart s.chip.fresh.2 h _ rfl⟩
  · intro s h hhalt
    obtain ⟨hself, hrest⟩ := s.after_setHart s.chip h (fun g => g.mret (s.chip.on WS_DEBUG.NID)) rfl
    exact ⟨_, exec_mret s h, hself.trans (Hart.mret_eq _ hhalt), hrest⟩
  · exact fun _ _ _ _ _ _ hhalt hr => Hart.mret_trap hhalt hr

end Sys2Proof.Machine
end

section
/-!
PROOFS. The layouts of 03, 07 and 09 read back what was written: descriptors, window, target and queue-pair entries, frames.
-/

namespace Sys2Proof.Machine

/-! ### A string read field by field and put together again (R70, R232) -/

theorem slice_append_slice {b : Bytes} {o n p m : Nat} (hp : p = o + n) (hl : p + m ≤ b.length) :
    slice b o n ++ slice b p m = slice b o (n + m) := by
  subst hp
  rw [slice_full _ _ _ (by omega), slice_full _ _ _ (by omega), slice_full _ _ _ (by omega), List.take_add, List.drop_drop]

theorem slice_all {b : Bytes} {n : Nat} (h : b.length = n) : slice b 0 n = b := by
  rw [slice_full _ _ _ (by omega), List.drop_zero, ← h, List.take_length]

theorem Desc.bytes_ofBytes {b : Bytes} (h : b.length = 64) : (Desc.ofBytes b).bytes = b := by
  simp [Desc.bytes, Desc.ofBytes, leBytes_leAt, slice_append_slice, slice_all, h]

theorem QPair.bytes_written (q : QPair) {b : Bytes} (h : b.length = 32) : (q.written b).bytes = b := by
  simp [QPair.bytes, QPair.written, leBytes_leAt, slice_append_slice, slice_all, h]

/-! ### Fields read out of an entry that was written (R184, R231) -/

theorem leAt_skip_zeros (rest : Bytes) {n o : Nat} (v : Nat) (h : n ≤ o) :
    leAt (zeros n ++ rest) o v = leAt rest (o - n) v := by
  have hb := leAt_behind (zeros n) rest (o - n) v
  rwa [zeros, List.length_replicate, show n + (o - n) = o by omega] at hb

theorem leAt_mod (b : Bytes) (o n : Nat) : leAt b o n % 256 ^ n = leAt b o n := Nat.mod_eq_of_lt (leAt_lt b o n)

/-- R184: a read of a window entry shows the fields as they are, cut to their width. -/
theorem WinEntry.ofBytes_bytes (w : Window) : WinEntry.ofBytes w.bytes =
    { base := w.entry.base % 256 ^ 8, sizeLog2 := w.entry.sizeLog2 % 256 ^ 1, kind := w.entry.kind % 256 ^ 1
      peerLo := w.entry.peerLo % 256 ^ 2, peerHi := w.entry.peerHi % 256 ^ 2, deviceId := w.entry.deviceId % 256 ^ 4
      tag := w.entry.tag % 256 ^ 1, stashDie := w.entry.stashDie % 256 ^ 1, slotLog2 := w.entry.slotLog2 % 256 ^ 1
      mediaTarget := w.entry.mediaTarget % 256 ^ 2 } := by
  simp [WinEntry.ofBytes, Window.bytes, leAt_skip, leAt_front]

theorem WinEntry.ofBytes_read {b : Bytes} {w : Window} (h : w.entry = WinEntry.ofBytes b) :
    WinEntry.ofBytes w.bytes = w.entry := by
  rw [WinEntry.ofBytes_bytes, h]
  simp only [WinEntry.ofBytes, leAt_mod]

/-- R231: a target entry written back from its own bytes holds its fields, cut to their width. -/
theorem Target.written_bytes (g t : Target) : g.written t.bytes =
    { g with
      port := t.port % 256 ^ 1, flags := t.flags % 256 ^ 1, rid := t.rid % 256 ^ 2, nsid := t.nsid % 256 ^ 4
      lbaLog2 := t.lbaLog2 % 256 ^ 1, zonesOpen := t.zonesOpen % 256 ^ 1, qpFirst := t.qpFirst % 256 ^ 2
      qpCount := t.qpCount % 256 ^ 1, zoneFirst := t.zoneFirst % 256 ^ 8, zoneCount := t.zoneCount % 256 ^ 4 } := by
  simp [Target.written, Target.bytes, leAt_skip, leAt_skip_zeros, leAt_front]

theorem Target.written_read (g : Target) (b : Bytes) : g.written (g.written b).bytes = g.written b := by
  rw [Target.written_bytes]
  simp only [Target.written, leAt_mod]

/-! ### Frames (R176) -/

theorem crcStepR_lt {poly w : Nat} (hp : poly < 2 ^ w) (n : Nat) {c : Nat} (hc : c < 2 ^ w) : crcStepR poly n c < 2 ^ w := by
  induction n generalizing c with
  | zero => exact hc
  | succ n ih =>
    have hhalf : c / 2 < 2 ^ w := by omega
    rw [crcStepR]
    split
    · exact ih (Nat.xor_lt_two_pow hhalf hp)
    · exact ih hhalf

theorem crc32_lt (bs : Bytes) : crc32 bs < 2 ^ 32 := by
  have hfold : ∀ c < 2 ^ 32, bs.foldl (fun c b => crcStepR 0xEDB88320 8 (c ^^^ b.toNat)) c < 2 ^ 32 := by
    induction bs with
    | nil => exact fun c hc => hc
    | cons b bs ih =>
      intro c hc
      have hb : b.toNat < 2 ^ 32 := by have := b.isLt; omega
      exact ih _ (crcStepR_lt (by decide) 8 (Nat.xor_lt_two_pow hc hb))
  exact Nat.xor_lt_two_pow (hfold _ (by decide)) (by decide)

theorem padTo_length (bs : Bytes) (n : Nat) : (padTo bs n).length = n := by
  simp only [padTo, zeros, List.length_append, List.length_take, List.length_replicate]
  omega

theorem padTo_eq_append {bs : Bytes} {n : Nat} (h : bs.length ≤ n) : padTo bs n = bs ++ zeros (n - bs.length) := by
  rw [padTo, List.take_of_length_le h]

theorem frameHead_length (f : Frame) : (frameHead f).length = 252 := by
  simp [frameHead, padTo_length, zeros]

theorem frameBytes_length (f : Frame) : (frameBytes f).length = 256 := by
  simp [frameBytes, frameHead_length]

theorem frameCrcGood_frameBytes (f : Frame) : frameCrcGood (frameBytes f) = true := by
  have hread := leAt_behind (frameHead f) (leBytes (crc32 (frameHead f)) 4 ++ []) 0 4
  have hcrc : crc32 (frameHead f) % 256 ^ 4 = crc32 (frameHead f) := Nat.mod_eq_of_lt (crc32_lt _)
  rw [frameHead_length, leAt_front, hcrc, List.append_nil] at hread
  rw [frameCrcGood, frameBytes, List.take_left' (frameHead_length f), hread, beq_self_eq_true]

theorem frameFlags_bits : ∀ last poison sync nak : Bool,
    bit ((ofBool last + 2 * ofBool poison + 4 * ofBool sync + 8 * ofBool nak) % 256) 0 = last ∧
    bit ((ofBool last + 2 * ofBool poison + 4 * ofBool sync + 8 * ofBool nak) % 256) 1 = poison ∧
    bit ((ofBool last + 2 * ofBool poison + 4 * ofBool sync + 8 * ofBool nak) % 256) 2 = sync ∧
    bit ((ofBool last + 2 * ofBool poison + 4 * ofBool sync + 8 * ofBool nak) % 256) 3 = nak := by decide

/-- R176: the body stands behind the 24 bytes of the header. -/
theorem frameBytes_body {f : Frame} (h : f.body.length ≤ 224) : ((frameBytes f).drop 24).take f.body.length = f.body := by
  simp [frameBytes, frameHead, padTo_eq_append h, List.drop_append, List.drop_of_length_le]

theorem frameOfBytes_frameBytes {f : Frame} (hkind : f.kind < 16) (hvc : f.vc < 16) (hop : f.op < 256)
    (hseq : f.linkSeq < 65536) (hack : f.linkAck < 65536) (hdst : f.dst < 65536) (hsrc : f.src < 65536)
    (hwin : f.window < 65536) (httl : f.ttl < 256) (hcvc : f.creditVc < 4) (hcredit : f.credit < 64)
    (hflow : f.flowSeq < 2 ^ 32) (harg : f.arg < 2 ^ 32) (hbody : f.body.length ≤ 224) :
    frameOfBytes (frameBytes f) = f := by
  have hlen : leAt (frameBytes f) 7 1 = f.body.length := by
    simp [frameBytes, frameHead, leAt_skip, leAt_front]
    omega
  obtain ⟨hlast, hpoison, hsync, hnak⟩ := frameFlags_bits f.last f.poison f.sync f.nak
  rw [frameOfBytes, hlen, frameBytes_body hbody]
  have hfirst : (f.kind % 16 + 16 * (f.vc % 16)) % 256 = f.kind + 16 * f.vc ∧ (f.kind + 16 * f.vc) / 16 = f.vc := by omega
  have hcr : (f.creditVc % 4 + 4 * (f.credit % 64)) % 256 = f.creditVc + 4 * f.credit ∧
      (f.creditVc + 4 * f.credit) / 4 = f.credit := by omega
  simp (disch := omega) [frameBytes, frameHead, leAt_skip, leAt_front, hlast, hpoison, hsync, hnak, hfirst, hcr,
    Nat.mod_eq_of_lt]

/-- Settles O59: descriptors and queue-pair entries by joining their fields again, the other entries and frames field by
field. -/
theorem layoutsRoundTrip : Obligations.LayoutsRoundTrip := by
  refine ⟨fun b => Desc.bytes_ofBytes, fun b w => WinEntry.ofBytes_read, fun b g => g.written_read b,
    fun b q => q.bytes_written, ?_⟩
  intro f hkind hvc hop hseq hack hdst hsrc hwin httl hcvc hcredit hflow harg hbody
  exact ⟨frameOfBytes_frameBytes hkind hvc hop hseq hack hdst hsrc hwin httl hcvc hcredit hflow harg hbody,
    frameCrcGood_frameBytes f, frameBytes_length f⟩

end Sys2Proof.Machine
end

section
/-!
PROOFS. The registers of the work rings (03): doorbells, and the indirect access to ring and function contexts.
-/

namespace Sys2Proof.Machine

/-! ### Doorbells (R64, R67, R208, R569) -/

theorem Chip.doorbell_rings (k : Chip) {internal : Bool} {group off : Nat} (hgroup : group < 256) (hoff : off < 256)
    (halign : off % 4 = 0) (hrun : (k.ring (32 * group + off / 8)).state = 1)
    (hpool : (k.ring (32 * group + off / 8)).internal = internal)
    (hflr : internal = false → (k.hostFn group).inFlr = false) :
    k.doorbell internal group off 4 = .ok (32 * group + off / 8) := by
  cases internal with
  | true => simp [Chip.doorbell, Nat.not_le.2 hgroup, Nat.not_le.2 hoff, halign, hpool, Ring.running, hrun]
  | false =>
    simp [Chip.doorbell, Nat.not_le.2 hgroup, Nat.not_le.2 hoff, halign, hpool, Ring.running, hrun, hflr rfl]

/-- R64: a doorbell write that is not a naturally aligned 32-bit write is discarded. -/
theorem Chip.doorbell_misfit (k : Chip) (internal : Bool) {group off width : Nat} (hgroup : group < 256) (hoff : off < 256)
    (hmis : width ≠ 4 ∨ off % 4 ≠ 0) : k.doorbell internal group off width = .error (k.wr RE_ERR.DB_SIZE 1) := by
  have hmis' : (width != 4 || off % 4 != 0) = true := by simpa using hmis
  unfold Chip.doorbell
  dsimp only
  rw [if_neg (by simp [hgroup, hoff]), if_pos hmis', Chip.raise]

/-- `k'` differs from `k` in registers alone, and of them at most in the state of the endpoint link (R220, R221). -/
def Chip.Woken (k k' : Chip) : Prop :=
  k' = { k with regs := k'.regs } ∧ ∀ f : Fld, f.key ≠ HF_STATUS.LSTATE.key → k'.rd f = k.rd f

theorem Chip.woken_wakeLink (k : Chip) : k.Woken k.wakeLink := by
  unfold Chip.wakeLink
  split
  · exact ⟨rfl, fun f hf => k.rd_wr_ne 0 hf⟩
  · exact ⟨rfl, fun _ _ => rfl⟩

/-- A doorbell of the function pool wakes the link, one of the internal pool leaves it. -/
theorem Chip.woken_doorbell (k : Chip) (internal : Bool) : k.Woken (if internal then k else k.wakeLink) := by
  cases internal with
  | true => exact ⟨rfl, fun _ _ => rfl⟩
  | false => exact k.woken_wakeLink

section
variable {k k' : Chip} (h : k.Woken k')
include h

theorem Chip.Woken.mem : k'.mem = k.mem := by rw [h.1]
theorem Chip.Woken.out : k'.out = k.out := by rw [h.1]
theorem Chip.Woken.re : k'.re = k.re := by rw [h.1]
theorem Chip.Woken.harts : k'.harts = k.harts := by rw [h.1]
theorem Chip.Woken.ring (r : Nat) : k'.ring r = k.ring r := by rw [Chip.ring, h.re]

end

/-- A command that wakes the link and changes one ring: the other rings, memory, messages, jobs and harts stay, and of the
registers all but the state of the link. -/
theorem State.after_wokenRing {s : State} {k' : Chip} (h : s.chip.Woken k') (r : Nat) (f : Ring → Ring) :
    (s.after (k'.setRing r f)).chip.ring r = f (s.chip.ring r) ∧
    (∀ r', r' ≠ r → (s.after (k'.setRing r f)).chip.ring r' = s.chip.ring r') ∧
    s.chip.SameMemory (s.after (k'.setRing r f)).chip ∧
    s.chip.SameRegs [HF_STATUS.LSTATE] (s.after (k'.setRing r f)).chip ∧
    (s.after (k'.setRing r f)).chip.out = s.chip.out ∧
    (s.after (k'.setRing r f)).chip.re.jobs = s.chip.re.jobs ∧ (s.after (k'.setRing r f)).chip.harts = s.chip.harts := by
  refine ⟨?_, fun r' hr => ?_, .of_eq ?_, .refresh fun g hg => ?_, ?_, ?_, ?_⟩
  · rw [State.after_chip, Chip.ring_refresh, Chip.ring_setRing, h.ring]
  · rw [State.after_chip, Chip.ring_refresh, Chip.ring_setRing_ne _ _ hr, h.ring]
  · rw [State.after_chip, Chip.refresh_mem, Chip.setRing_mem, h.mem]
  · exact (Chip.rd_congr rfl g).trans (h.2 g (by simpa using hg))
  · rw [State.after_chip, Chip.refresh_out, Chip.setRing_out, h.out]
  · rw [State.after_chip, Chip.refresh_re, ← h.re, Chip.setRing]
  · rw [State.after_chip, Chip.refresh_harts, Chip.setRing_harts, h.harts]

section
variable {k : Chip} {internal : Bool} {group off r value : Nat} {g : Ring}
  (hring : k.doorbell internal group off 4 = .ok r) (hg : g = k.ring r)
include hring hg

/-- R67: a WORK_PI value that the ring has room for. -/
theorem Chip.workPi_room (hroom : wrapSub value g.wrPi 32 ≤ g.room) : ∃ k', k.Woken k' ∧
    k.workPi internal group off 4 value = k'.setRing r fun g => { g with wrPi := value % 2 ^ 32 } := by
  refine ⟨_, k.woken_doorbell internal, ?_⟩
  have hsame := (k.woken_doorbell internal).ring r
  unfold Chip.workPi
  rw [hring]
  dsimp only
  rw [hsame, ← hg, if_neg (by omega)]

/-- R67: a WORK_PI value of an internal-pool ring that has no room for it. -/
theorem Chip.workPi_noRoom (hroom : g.room < wrapSub value g.wrPi 32) (hinternal : internal = true) :
    k.workPi internal group off 4 value = k.ringError r 21 value := by
  unfold Chip.workPi
  rw [hring, hinternal]
  dsimp only
  rw [if_pos rfl, ← hg, if_pos hroom]

/-- R69: a CPL_CI value up to the producer index. -/
theorem Chip.cplCi_within (hin : wrapSub value g.crCi 32 ≤ wrapSub g.crPi g.crCi 32) : ∃ k', k.Woken k' ∧
    k.cplCi internal group off 4 value = k'.setRing r fun g => { g with crCi := value % 2 ^ 32 } := by
  refine ⟨_, k.woken_doorbell internal, ?_⟩
  have hsame := (k.woken_doorbell internal).ring r
  unfold Chip.cplCi
  rw [hring]
  dsimp only
  rw [hsame, ← hg, if_neg (by omega)]

/-- R69: a CPL_CI value that would move the index back, or past the producer index. -/
theorem Chip.cplCi_outside (hout : wrapSub g.crPi g.crCi 32 < wrapSub value g.crCi 32) : ∃ k', k.Woken k' ∧
    k.cplCi internal group off 4 value = k'.raise RE_ERR.DB_RANGE := by
  refine ⟨_, k.woken_doorbell internal, ?_⟩
  have hsame := (k.woken_doorbell internal).ring r
  unfold Chip.cplCi
  rw [hring]
  dsimp only
  rw [hsame, ← hg, if_pos hout]

end

theorem exec_workPi (s : State) (internal : Bool) (group off width value : Nat) :
    exec (.workPi internal group off width value) s = .next (s.after (s.chip.workPi internal group off width value)) := rfl

theorem exec_cplCi (s : State) (internal : Bool) (group off width value : Nat) :
    exec (.cplCi internal group off width value) s = .next (s.after (s.chip.cplCi internal group off width value)) := rfl

/-- Settles O9: a value within the producer index changes the ring alone, any other sets the error bit alone. -/
theorem cplCiMovesTheConsumerIndex : Obligations.CplCiMovesTheConsumerIndex := by
  intro s internal group off value hgroup hoff halign g hg hrun hpool hflr
  have hring := s.chip.doorbell_rings hgroup hoff halign (hg ▸ hrun) (hg ▸ hpool) hflr
  refine ⟨fun hin => ?_, fun hout => ?_⟩
  · obtain ⟨k', hwoken, hcpl⟩ := Chip.cplCi_within hring hg hin
    obtain ⟨hself, hothers, hmem, hregs, hmsgs, -⟩ := State.after_wokenRing hwoken (32 * group + off / 8)
      fun g => { g with crCi := value % 2 ^ 32 }
    rw [exec_cplCi, hcpl]
    exact ⟨_, rfl, by rw [hself, hg], hothers, hmem, hregs, hmsgs⟩
  · obtain ⟨k', hwoken, hcpl⟩ := Chip.cplCi_outside hring hg hout
    rw [exec_cplCi, hcpl]
    refine ⟨_, rfl, ?_, ?_, .of_eq ?_, .refresh fun f hf => ?_⟩
    · rw [State.after_chip, Chip.ring_refresh, Chip.raise, Chip.ring, Chip.wr_re, hwoken.re, hg]
    · rw [State.after_chip, Chip.rd_refresh _ (by decide +kernel), Chip.raise, Chip.rd_wr_self]
      rfl
    · rw [State.after_chip, Chip.refresh_mem, Chip.raise_mem, hwoken.mem]
    · simp only [List.map_cons, List.map_nil, List.mem_cons, List.not_mem_nil, or_false, not_or] at hf
      obtain ⟨hlink, hrange⟩ := hf
      rw [Chip.raise, Chip.rd_wr_ne _ _ hrange, hwoken.2 f hlink]

/-! ### Indirect access (R94 to R96) -/

theorem key_reIndData_ne {i j : Nat} (h : i ≠ j) : (RE_IND_DATA.DATA i).key ≠ (RE_IND_DATA.DATA j).key := by
  simp only [Fld.key]
  omega

/-- No field of the command register lies at a data register, and none of either is a status field. -/
theorem reIndFields_apart : ∀ f ∈ [RE_IND_CMD.INDEX, RE_IND_CMD.TARGET, RE_IND_CMD.OP, RE_IND_CMD.STATUS, RE_IND_CMD.GO],
    f.key ∉ shownFields.map Fld.key ∧
    ∀ i < 8, (RE_IND_DATA.DATA i).key ≠ f.key ∧ (RE_IND_DATA.DATA i).key ∉ shownFields.map Fld.key := by decide +kernel

/-- R94: the command register as a command of OP `op` finds it. -/
def Chip.reCommand (k : Chip) (target op index : Nat) : Chip :=
  ((k.wr RE_IND_CMD.INDEX index).wr RE_IND_CMD.TARGET target).wr RE_IND_CMD.OP op

theorem Chip.reCommand_mem (k : Chip) (target op index : Nat) : (k.reCommand target op index).mem = k.mem := rfl
theorem Chip.reCommand_re (k : Chip) (target op index : Nat) : (k.reCommand target op index).re = k.re := rfl

theorem Chip.indBytes_congr {k k' : Chip} {data : Nat → Fld} {n : Nat} (h : ∀ i < n, k'.rd (data i) = k.rd (data i)) :
    k'.indBytes data n = k.indBytes data n := by
  have hfold : ∀ l : List Nat, (∀ i ∈ l, i < n) → l.foldr (fun i r => leBytes (k'.rd (data i)) 8 ++ r) [] =
      l.foldr (fun i r => leBytes (k.rd (data i)) 8 ++ r) [] := by
    intro l hl
    induction l with
    | nil => rfl
    | cons a l ih =>
      rw [List.foldr_cons, List.foldr_cons, h a (hl a (List.mem_cons_self ..)),
        ih fun i hi => hl i (List.mem_cons_of_mem _ hi)]
  exact hfold _ fun i => List.mem_range.1

theorem Chip.indBytes_reCommand (k : Chip) (target op index : Nat) :
    (k.reCommand target op index).indBytes RE_IND_DATA.DATA 8 = k.indBytes RE_IND_DATA.DATA 8 := by
  have hapart := reIndFields_apart
  simp only [List.forall_mem_cons] at hapart
  obtain ⟨hindex, htarget, hop, -⟩ := hapart
  refine Chip.indBytes_congr fun i hi => ?_
  rw [Chip.reCommand, Chip.rd_wr_ne _ _ (hop.2 i hi).1, Chip.rd_wr_ne _ _ (htarget.2 i hi).1,
    Chip.rd_wr_ne _ _ (hindex.2 i hi).1]

/-- R94: a command that ends well shows STATUS 0 and is no longer busy. -/
theorem Chip.rd_reIndDone (k : Chip) :
    (k.indDone RE_IND_CMD.STATUS RE_IND_CMD.GO 0).refresh.rd RE_IND_CMD.STATUS = 0 ∧
    (k.indDone RE_IND_CMD.STATUS RE_IND_CMD.GO 0).refresh.rd RE_IND_CMD.GO = 0 := by
  rw [Chip.rd_refresh _ (reIndFields_apart RE_IND_CMD.STATUS (by decide)).1,
    Chip.rd_refresh _ (reIndFields_apart RE_IND_CMD.GO (by decide)).1, Chip.indDone, Chip.rd_wr_ne _ _ (by decide),
    Chip.rd_wr_self, Chip.rd_wr_self]
  exact ⟨rfl, rfl⟩

/-- R94: the data registers show the 64 bytes that a read command has put there. -/
theorem Chip.indBytes_reIndDone (k : Chip) {b : Bytes} (hb : b.length = 64) :
    ((k.setInd RE_IND_DATA.DATA 8 b).indDone RE_IND_CMD.STATUS RE_IND_CMD.GO 0).refresh.indBytes RE_IND_DATA.DATA 8 = b := by
  refine Chip.indBytes_eq _ hb fun i hi => ?_
  obtain ⟨hstatus, hshown⟩ := (reIndFields_apart RE_IND_CMD.STATUS (by decide)).2 i hi
  obtain ⟨hgo, -⟩ := (reIndFields_apart RE_IND_CMD.GO (by decide)).2 i hi
  rw [Chip.rd_refresh _ hshown, Chip.indDone, Chip.rd_wr_ne _ _ hgo, Chip.rd_wr_ne _ _ hstatus,
    Chip.rd_setInd _ (fun _ _ => key_reIndData_ne) (fun _ => rfl) _ hi]

/-- R94: what a read command leaves, the 64 bytes `b` being those of the context. -/
theorem State.after_reIndRead (s : State) {target index : Nat} {b : Bytes} (hb : b.length = 64) {t : State}
    (ht : t = s.after (((s.chip.reCommand target 0 index).setInd RE_IND_DATA.DATA 8 b).indDone
      RE_IND_CMD.STATUS RE_IND_CMD.GO 0)) :
    t.chip.indBytes RE_IND_DATA.DATA 8 = b ∧ t.chip.rd RE_IND_CMD.STATUS = 0 ∧ t.chip.rd RE_IND_CMD.GO = 0 ∧
    t.chip.re = s.chip.re ∧ s.chip.SameMemory t.chip := by
  subst ht
  refine ⟨Chip.indBytes_reIndDone _ hb, (Chip.rd_reIndDone _).1, (Chip.rd_reIndDone _).2, ?_, .of_eq ?_⟩
  · simp [Chip.reCommand_re]
  · simp [Chip.reCommand_mem]

theorem Chip.reIndRead_ring (k : Chip) {r : Nat} (hr : r < 8192) : k.reIndRead 0 r =
    ((k.reCommand 0 0 r).setInd RE_IND_DATA.DATA 8 (k.ring r).bytes).indDone RE_IND_CMD.STATUS RE_IND_CMD.GO 0 := by
  unfold Chip.reIndRead
  dsimp only
  rw [if_neg (by simp [hr]), if_neg (by simp)]
  rfl

theorem Chip.reIndRead_function (k : Chip) {f : Nat} (hf : f < 256) : k.reIndRead 1 f =
    ((k.reCommand 1 0 f).setInd RE_IND_DATA.DATA 8 ((k.fnCtx f).bytes (k.contexts f))).indDone
      RE_IND_CMD.STATUS RE_IND_CMD.GO 0 := by
  unfold Chip.reIndRead
  dsimp only
  rw [if_neg (by simp; omega), if_pos (by simp)]
  rfl

/-- R95: good values for a ring that does nothing are applied. -/
theorem Chip.reIndWriteRing_good (k : Chip) {r : Nat} {b : Bytes} (hr : r < 8192)
    (hb : b = k.indBytes RE_IND_DATA.DATA 8) (hgood : ringValuesGood b = true) (hjobs : (k.ring r).inProgress = 0)
    (hfetch : (k.ring r).fetching = false) :
    k.reIndWriteRing r = ((k.reCommand 0 1 r).setRing r fun g => g.written b).indDone RE_IND_CMD.STATUS RE_IND_CMD.GO 0 := by
  have hbytes := k.indBytes_reCommand 0 1 r
  have hjobs' : ((k.reCommand 0 1 r).ring r).inProgress = 0 := hjobs
  have hfetch' : ((k.reCommand 0 1 r).ring r).fetching = false := hfetch
  unfold Chip.reIndWriteRing
  rw [← Chip.reCommand]
  dsimp only
  rw [hbytes, ← hb, if_neg (by omega), if_neg (by simp [hgood]), if_neg (by simp [hjobs', hfetch'])]

/-- R96: the fields of a function context that a write changes at once; WEIGHT and FETCH_CAP wait for the boundary. -/
def FnCtx.written (c : FnCtx) (b : Bytes) : FnCtx :=
  { c with
    tagLo := leAt b 2 1, tagHi := leAt b 3 1, tagDefault := leAt b 4 1, rate := leAt b 6 2
    held := holdWrites c.held [(0, 1, c.weight), (1, 1, c.fetchCap)] b }

theorem Chip.reIndWriteFunction_good (k : Chip) {f : Nat} {b : Bytes} (hf : f < 256)
    (hb : b = k.indBytes RE_IND_DATA.DATA 8) (hlo : leAt b 2 1 ≤ leAt b 4 1) (hhi : leAt b 4 1 ≤ leAt b 3 1)
    (hcap : leAt b 1 1 ≤ 64) :
    k.reIndWriteFunction f =
      ((k.reCommand 1 1 f).setFn f fun c => c.written b).indDone RE_IND_CMD.STATUS RE_IND_CMD.GO 0 := by
  have hbytes := k.indBytes_reCommand 1 1 f
  unfold Chip.reIndWriteFunction
  rw [← Chip.reCommand]
  dsimp only
  rw [hbytes, ← hb, if_neg (by omega), if_neg (by simp; omega)]
  rfl

theorem exec_reIndRead (s : State) (target index : Nat) :
    exec (.reIndRead target index) s = .next (s.after (s.chip.reIndRead target index)) := rfl

theorem exec_reIndWriteRing (s : State) (index : Nat) :
    exec (.reIndWriteRing index) s = .next (s.after (s.chip.reIndWriteRing index)) := rfl

theorem exec_reIndWriteFunction (s : State) (index : Nat) :
    exec (.reIndWriteFunction index) s = .next (s.after (s.chip.reIndWriteFunction index)) := rfl

/-- Settles O8: a doorbell write changes one ring, is refused or is discarded; an indirect command shows one context or
changes it. -/
theorem ringRegisters : Obligations.RingRegisters := by
  refine ⟨?_, ?_, ?_, ?_, ?_, ?_, ?_⟩
  · intro s internal group off value hgroup hoff halign g hg hrun hpool hflr hroom
    obtain ⟨k', hwoken, hpi⟩ := Chip.workPi_room
      (s.chip.doorbell_rings hgroup hoff halign (hg ▸ hrun) (hg ▸ hpool) hflr) hg hroom
    obtain ⟨hself, hrest⟩ := State.after_wokenRing hwoken (32 * group + off / 8)
      fun g => { g with wrPi := value % 2 ^ 32 }
    rw [exec_workPi, hpi]
    exact ⟨_, rfl, by rw [hself, hg], hrest⟩
  · intro s group off value hgroup hoff halign g hg hrun hpool hroom
    rw [exec_workPi, Chip.workPi_noRoom
      (s.chip.doorbell_rings hgroup hoff halign (hg ▸ hrun) (hg ▸ hpool) (by simp)) hg hroom rfl]
    refine ⟨rfl, ?_, ?_⟩
    · rw [Chip.ringError, Chip.ring_setRing]
    · rw [Chip.ringError, Chip.ring_setRing]
  · intro s internal group off width value hgroup hoff hmis
    have hdoor := s.chip.doorbell_misfit internal hgroup hoff hmis
    rw [exec_workPi, exec_cplCi, Chip.workPi, Chip.cplCi, hdoor]
    exact ⟨rfl, rfl⟩
  · intro s r hr
    rw [exec_reIndRead, Chip.reIndRead_ring _ hr]
    exact ⟨_, rfl, s.after_reIndRead (Ring.bytes_length _) rfl⟩
  · intro s f hf
    rw [exec_reIndRead, Chip.reIndRead_function _ hf]
    exact ⟨_, rfl, s.after_reIndRead (FnCtx.bytes_length _ _) rfl⟩
  · intro s r b hr hb hgood hjobs hfetch
    rw [exec_reIndWriteRing, Chip.reIndWriteRing_good _ hr hb hgood hjobs hfetch]
    refine ⟨_, rfl, ?_, fun r' hr' => ?_, (Chip.rd_reIndDone _).1, (Chip.rd_reIndDone _).2, .of_eq ?_⟩
    · rw [State.after_chip, Chip.ring_refresh, Chip.ring, Chip.indDone_re, ← Chip.ring, Chip.ring_setRing, Chip.ring,
        Chip.reCommand_re]
    · rw [State.after_chip, Chip.ring_refresh, Chip.ring, Chip.indDone_re, ← Chip.ring, Chip.ring_setRing_ne _ _ hr',
        Chip.ring, Chip.reCommand_re]
    · simp [Chip.reCommand_mem]
  · intro s f b hf hb hlo hhi hcap
    have hctx : (s.after (((s.chip.reCommand 1 1 f).setFn f fun c => c.written b).indDone RE_IND_CMD.STATUS
        RE_IND_CMD.GO 0)).chip.fnCtx f = (s.chip.fnCtx f).written b := by
      rw [State.after_chip, Chip.fnCtx_refresh, Chip.fnCtx, Chip.indDone_re, ← Chip.fnCtx, Chip.fnCtx_setFn, Chip.fnCtx,
        Chip.reCommand_re]
    rw [exec_reIndWriteFunction, Chip.reIndWriteFunction_good _ hf hb hlo hhi hcap]
    refine ⟨_, rfl, ?_⟩
    rw [hctx]
    refine ⟨rfl, rfl, rfl, rfl, rfl, (Chip.rd_reIndDone _).1, ?_, .of_eq ?_⟩
    · rw [State.after_chip, Chip.refresh_re]
      rfl
    · simp [Chip.reCommand_mem]

end Sys2Proof.Machine
end

section
/-!
PROOFS. The way of a job into the package (03): its descriptor, its parameter block, and the coalescing timer of its ring.
-/

namespace Sys2Proof.Machine

/-! ### A descriptor is asked for (R66) -/

/-- R66: an internal-pool ring whose descriptor lies in package memory is fetched, and nothing is asked of the host. -/
theorem Chip.descriptorFetch_internal {k : Chip} {r : Nat} (hpool : (k.ring r).internal = true) (hmay : k.mayFetch r = true)
    (hmem : k.isHost (k.ringDev r) (k.ring r).fetchAt 64 = false) :
    k.descriptorFetch r = k.setRing r fun g => { g with fetching := true } := by
  have hdev : (k.setRing r fun g => { g with fetching := true }).ringDev r = k.ringDev r := by
    rw [Chip.ringDev, Chip.ring_setRing]
    rfl
  have hmem' : (k.setRing r fun g => { g with fetching := true }).isHost (k.ringDev r) (k.ring r).fetchAt 64 = false := hmem
  unfold Chip.descriptorFetch
  dsimp only
  rw [if_neg (by simp [hpool, hmay]), if_pos hpool, hdev, if_neg (by simp [hmem'])]

/-! ### A descriptor is taken into a job context (R62, R73) -/

/-- R62: a ring once the descriptor that it fetched has been taken. -/
def Ring.taken (g : Ring) : Ring :=
  { g with
    wrCi := (g.wrCi + 1) % 2 ^ 32, fetching := false, inProgress := g.inProgress + 1, nextSeq := g.nextSeq + 1 }

/-- The block with the descriptor of ring `r` taken into job context `c` as job `j`. -/
def Chip.withJob (k : Chip) (r c : Nat) (j : Job) : Chip :=
  { (k.setRing r Ring.taken).forget (.descriptor r) with
    re := { (k.setRing r Ring.taken).re with jobs := k.re.jobs.insert c j } }

theorem Chip.ring_withJob (k : Chip) (r c : Nat) (j : Job) : (k.withJob r c j).ring r = (k.ring r).taken :=
  k.ring_setRing r Ring.taken

theorem Chip.job_withJob (k : Chip) (r c : Nat) (j : Job) : (k.withJob r c j).job c = j := by
  change ((k.re.jobs.insert c j).find c).getD {} = j
  rw [Tbl.find_insert_self]
  rfl

theorem Chip.ringDev_withJob (k : Chip) (r c : Nat) (j : Job) : (k.withJob r c j).ringDev r = k.ringDev r := by
  rw [Chip.ringDev, Chip.ring_withJob]
  rfl

/-- R73: the checks of a descriptor rest on nothing that taking it changes. -/
theorem Chip.descRefused_withJob (k : Chip) (r c : Nat) (j : Job) (d : Desc) :
    (k.withJob r c j).descRefused r d = k.descRefused r d := by
  unfold Chip.descRefused Chip.tagDenied Chip.keyRefused
  rw [Chip.ring_withJob]
  rfl

/-- R73, R79: the job of a descriptor `d` other than a COPY, as ring `r` fetches it. -/
def Chip.fetchedJob (k : Chip) (r : Nat) (d : Desc) : Job :=
  { ring := r, seq := (k.ring r).nextSeq, internal := (k.ring r).internal, desc := d, readyAt := k.readyAt
    generation := (Tbl.get {} k.ws.keys d.keySlot).generation, loads := (Tbl.get {} k.ws.keys d.keySlot).loads
    fetchedAt := 8 * k.now + k.beat.phase, state := .paramRead }

/-- R73: a descriptor other than a COPY that passes its checks: its job waits for the parameter block, which is read from
package memory. -/
theorem Chip.takeDescriptor_paramRead {k : Chip} {r : Nat} {b : Bytes} (hop : (Desc.ofBytes b).opcode ≠ 6)
    (hgood : k.descRefused r (Desc.ofBytes b) = none) (hmem : k.isHost (k.ringDev r) (Desc.ofBytes b).param 128 = false) :
    k.takeDescriptor r b = k.withJob r k.newContext (k.fetchedJob r (Desc.ofBytes b)) := by
  have hop' : ((Desc.ofBytes b).opcode == 6) = false := by simpa using hop
  have hgood' := (k.descRefused_withJob r k.newContext (k.fetchedJob r (Desc.ofBytes b)) (Desc.ofBytes b)).trans hgood
  have hmem' : (k.withJob r k.newContext (k.fetchedJob r (Desc.ofBytes b))).isHost
      ((k.withJob r k.newContext (k.fetchedJob r (Desc.ofBytes b))).ringDev r) (Desc.ofBytes b).param 128 = false := by
    rw [Chip.ringDev_withJob]
    exact hmem
  unfold Chip.takeDescriptor
  dsimp only
  rw [hop']
  split
  · next hrefused => exact absurd (hgood'.symm.trans hrefused) (by simp)
  · exact if_neg (Bool.eq_false_iff.1 hmem')

theorem Chip.descriptorReadDone_bytes {k : Chip} {r : Nat} {b : Bytes} (hfetch : (k.ring r).fetching = true)
    (hcame : k.arrivedAll (.descriptor r) = true)
    (hfree : k.contextFree (if (k.ring r).internal then 256 else r / 32) = true)
    (hread : k.dmaRead (joinReads (k.answers (.descriptor r)).reverse) (k.ringDev r) (k.ring r).fetchAt 64 = .bytes b) :
    k.descriptorReadDone r = k.takeDescriptor r b := by
  unfold Chip.descriptorReadDone
  dsimp only
  rw [if_neg (by simp [hfetch, hcame]), if_neg (by simp [hfree]), hread]

/-! ### The parameter block (R73, R80) -/

theorem Chip.setJob_used {k : Chip} {c : Nat} (f : Job → Job) (h : k.jobUsed c = true) :
    k.setJob c f = { k with re := { k.re with jobs := k.re.jobs.insert c (f (k.job c)) } } := by
  obtain ⟨j, hj⟩ := Option.isSome_iff_exists.1 h
  simp [Chip.setJob, Chip.job, Tbl.get, hj]

theorem Chip.job_setJob {k : Chip} {c : Nat} (f : Job → Job) (h : k.jobUsed c = true) : (k.setJob c f).job c = f (k.job c) := by
  rw [Chip.setJob_used f h, Chip.job, Tbl.get, Tbl.find_insert_self]
  rfl

/-- R137: a RECALL accumulates nothing. -/
theorem Job.accumulates_recall {j : Job} (h : j.desc.opcode = 2) : j.accumulates = false := by
  simp [Job.accumulates, h]

/-- R215: only ARCHIVE and COPY read ahead. -/
theorem Chip.readAhead_none {k : Chip} {c : Nat} (pos : Nat) (h : (k.job c).desc.opcode ≠ 1) (h' : (k.job c).desc.opcode ≠ 6) :
    k.readAhead c pos = k := by
  simp [Chip.readAhead, h, h']

/-- R73, R80: a good parameter block makes a RECALL job without encryption ready to be dispatched. -/
theorem Chip.paramReadDone_recall {k : Chip} {c : Nat} {p : Bytes} {j : Job} (hj : j = k.job c) (hused : k.jobUsed c = true)
    (hstate : j.state = .paramRead) (hcame : k.arrivedAll (.param c) = true) (hop : j.desc.opcode = 2)
    (hplain : j.desc.encrypt = false)
    (hread : k.dmaRead (joinReads (k.answers (.param c)).reverse) (k.devOfRing j.ring j.internal) j.desc.param 128 = .bytes p)
    (hgood : j.desc.paramInvalid p (k.on BT_CTRL.LEN) = none) :
    k.paramReadDone c =
      (k.forget (.param c)).setJob c fun _ => { j with params := p, state := .waiting, waitingRegion := false } := by
  subst hj
  have hused' : (k.forget (.param c)).jobUsed c = true := hused
  have hgood' : (k.job c).desc.paramInvalid p ((k.forget (.param c)).on BT_CTRL.LEN) = none := hgood
  have hacc := Job.accumulates_recall hop
  have hacc' : Job.accumulates { k.job c with params := p, state := .waiting, waitingRegion := false } = false :=
    Job.accumulates_recall hop
  unfold Chip.paramReadDone
  dsimp only
  rw [if_neg (by simp [hused, hstate, hcame]), hread]
  dsimp only
  rw [hgood']
  dsimp only
  rw [if_neg (by simp [hplain]), hacc, if_neg (by simp [hacc']), Chip.readAhead_none]
  · rw [Chip.job_setJob _ hused']
    simp [hop]
  · rw [Chip.job_setJob _ hused']
    simp [hop]

/-! ### The coalescing timer (R77) -/

/-- R77, R78: the oldest record of an internal-pool ring is old enough: the ring sends its MSI. -/
theorem Chip.coalExpiry_internal {k : Chip} {r : Nat} (hon : (k.ring r).coalBeats ≠ 0) (hsince : (k.ring r).sinceIrq ≠ 0)
    (hold : (k.ring r).oldest + (k.ring r).coalBeats ≤ k.now) (hpool : (k.ring r).internal = true) :
    k.coalExpiry r = (k.setRing r fun g => { g with sinceIrq := 0, oldest := 0 }).emit
      (.msi (k.ring r).msiAddr (k.ring r).msiData) := by
  rw [Chip.coalExpiry, if_pos (by simp [Chip.coalDue, hon, hsince, hold]), Chip.signalRing]
  exact if_pos hpool

/-! ### The commands -/

theorem exec_descriptorFetch (s : State) (r : Nat) :
    exec (.descriptorFetch r) s = .next (s.after (s.chip.descriptorFetch r)) := rfl

theorem exec_descriptorReadDone (s : State) (r : Nat) :
    exec (.descriptorReadDone r) s = .next (s.after (s.chip.descriptorReadDone r)) := rfl

theorem exec_paramBlockReadDone (s : State) (c : Nat) :
    exec (.paramBlockReadDone c) s = .next (s.after (s.chip.paramReadDone c)) := rfl

theorem exec_coalBeatsExpiry (s : State) (r : Nat) :
    exec (.coalBeatsExpiry r) s = .next (s.after (s.chip.coalExpiry r)) := rfl

@[simp] theorem Chip.job_refresh (k : Chip) (c : Nat) : k.refresh.job c = k.job c := by rw [Chip.job, Chip.refresh_re]

/-- Settles O10: each command changes the ring or the job that it names, and the timer sends one message. -/
theorem fetchingAndSignalling : Obligations.FetchingAndSignalling := by
  refine ⟨?_, ?_, ?_, ?_⟩
  · intro s r hpool hmay hmem
    rw [exec_descriptorFetch, Chip.descriptorFetch_internal hpool hmay hmem]
  · intro s r b hfetch hcame hfree hread hop hgood hmem
    rw [exec_descriptorReadDone, Chip.descriptorReadDone_bytes hfetch hcame hfree hread,
      Chip.takeDescriptor_paramRead hop hgood hmem]
    refine ⟨_, rfl, ?_⟩
    rw [State.after_chip, Chip.ring_refresh, Chip.job_refresh, Chip.ring_withJob, Chip.job_withJob]
    exact ⟨rfl, rfl, rfl, rfl, rfl, rfl, .of_eq (Chip.refresh_mem _), .of_eq rfl, Chip.refresh_out _⟩
  · intro s c p j hj hused hstate hcame hop hplain hread hgood
    rw [exec_paramBlockReadDone, Chip.paramReadDone_recall hj hused hstate hcame hop hplain hread hgood]
    refine ⟨_, rfl, ?_⟩
    have hused' : (s.chip.forget (.param c)).jobUsed c = true := hused
    rw [State.after_chip, Chip.job_refresh, Chip.job_setJob _ hused', Chip.setJob_used _ hused']
    exact ⟨rfl, .of_eq (Chip.refresh_mem _), .of_eq rfl, Chip.refresh_out _⟩
  · intro s r hon hsince hold hpool
    rw [exec_coalBeatsExpiry, Chip.coalExpiry_internal hon hsince hold hpool]
    refine ⟨_, rfl, Chip.refresh_out _, ?_, .of_eq (Chip.refresh_mem _), .of_eq rfl⟩
    rw [State.after_chip, Chip.ring_refresh]
    exact Chip.ring_setRing _ _ _

end Sys2Proof.Machine
end

section
/-!
PROOFS. The read of host memory that times out for a job that is no more (08).
-/

namespace Sys2Proof.Machine

/-- Refutes O20: R217 stops the job of a read-ahead that times out, but the statement does not ask that the job context be in
use. Here the read-ahead of context 0 is outstanding under tag 0 of function 0 while no context is in use: the command
changes no job, and context 0, read as an empty one, shows no stop. -/
theorem not_hostReadsAndMessages : ¬ Obligations.HostReadsAndMessages := by
  rintro ⟨-, -, htimeout, -⟩
  let s : State := { chip := { hf := { tags := [(tagKey' 0 0, { use := .readAhead 0 })] } } }
  have hfind : s.chip.hf.tags.find (tagKey' 0 0) = some { use := .readAhead 0 } := rfl
  obtain ⟨t, hexec, -, -, hstop⟩ := (htimeout s 0 0 _ hfind rfl).2 rfl 0 rfl
  have ht : t = s.after (s.chip.completionTimeout 0 0) := Host.Outcome.next.inj hexec.symm
  have hnone : ((s.after (s.chip.completionTimeout 0 0)).chip.job 0).stop = none := by decide +kernel
  rw [ht, hnone] at hstop
  cases hstop

end Sys2Proof.Machine
end

section
/-!
PROOFS. The error record of a lost accumulator line (05, 17).
-/

namespace Sys2Proof.Machine

/-- The byte ACTION (R415, R417) of the newest record in Gunel's log. -/
def Chip.lastAction (k : Chip) : Nat := leAt (k.gn.log.getD 0 []) 25 1

theorem Chip.lastAction_refresh (k : Chip) : k.refresh.lastAction = k.lastAction := by
  rw [Chip.lastAction, Chip.refresh_gn, Chip.lastAction]

/-- Refutes O14: its last clause asks, of every lost accumulator line, for a record with ACTION 0 (NONE). Where a segment of
the job runs, R147 has it replayed, and the record says so: ACTION 4 (REPLAYED, R417, log 42). Here job 0, a REPAIR of the
internal pool, is running and holds region 0. -/
theorem not_signingAndRegions : ¬ Obligations.SigningAndRegions := by
  rintro ⟨-, -, -, -, hlost⟩
  let k : Chip :=
    { re := { jobs := [(0, { internal := true, state := .running, desc := { opcode := 3 }, region := some 0 })] }
      acc := [(0, {})] }
  let k' : Chip := (k.log { cls := 2, unitType := 5, unit := 0 }).setJob 0 fun j => { j with rebuild := true }
  let s : State := { chip := k }
  have hregion : k.region 0 = some {} := rfl
  have hexec : exec (.accumLineUncorrectable 0) s = .next (s.after (k.accLost 0)) := rfl
  have hsame : s.after (k.accLost 0) = s.after k' := Host.Outcome.next.inj (hexec.symm.trans (hlost s 0 {} hregion))
  have haction : (k.accLost 0).lastAction = k'.lastAction := by
    rw [← (k.accLost 0).lastAction_refresh, ← k'.lastAction_refresh, ← s.after_chip, hsame, s.after_chip]
  have hreplayed : (k.accLost 0).lastAction = 4 := by decide +kernel
  have hnone : k'.lastAction = 0 := by decide +kernel
  omega

end Sys2Proof.Machine
end

section
/-!
PROOFS. Folds into an accumulator (05): a fold adds to each row a byte string that does not depend on what the row holds.
-/

namespace Sys2Proof.Machine

/-! ### The bytewise exclusive or -/

@[simp] theorem xorBytes_nil_left (bs : Bytes) : xorBytes [] bs = bs := by rw [xorBytes]

@[simp] theorem xorBytes_nil_right (as : Bytes) : xorBytes as [] = as := by cases as <;> rfl

@[simp] theorem xorBytes_cons (a b : Byte) (as bs : Bytes) :
    xorBytes (a :: as) (b :: bs) = (a ^^^ b) :: xorBytes as bs := rfl

@[simp] theorem xorBytes_length (as bs : Bytes) : (xorBytes as bs).length = max as.length bs.length := by
  fun_induction xorBytes as bs with
  | case1 a as b bs ih => simp [ih]
  | case2 bs => simp
  | case3 as => simp

theorem xorBytes_comm (as bs : Bytes) : xorBytes as bs = xorBytes bs as := by
  fun_induction xorBytes as bs with
  | case1 a as b bs ih => rw [xorBytes_cons, ih, BitVec.xor_comm]
  | case2 bs => simp
  | case3 as => simp

theorem xorBytes_assoc (as bs cs : Bytes) : xorBytes (xorBytes as bs) cs = xorBytes as (xorBytes bs cs) := by
  fun_induction xorBytes as bs generalizing cs with
  | case1 a as b bs ih =>
    cases cs with
    | nil => simp
    | cons c cs => simp [ih, BitVec.xor_assoc]
  | case2 bs => simp
  | case3 as => simp

theorem xorBytes_left_comm (as bs cs : Bytes) : xorBytes as (xorBytes bs cs) = xorBytes bs (xorBytes as cs) := by
  rw [← xorBytes_assoc, xorBytes_comm as bs, xorBytes_assoc]

/-- A string no longer than the row cancels when added twice. -/
theorem xorBytes_cancel {as row : Bytes} (h : as.length ≤ row.length) : xorBytes as (xorBytes as row) = row := by
  fun_induction xorBytes as row with
  | case1 a as b bs ih =>
    rw [xorBytes_cons, ih (Nat.le_of_succ_le_succ h), ← BitVec.xor_assoc, BitVec.xor_self, BitVec.zero_xor]
  | case2 row => rw [xorBytes_nil_left]
  | case3 as =>
    obtain rfl : as = [] := by simpa using h
    rfl

theorem xorBytes_append {as cs : Bytes} (bs ds : Bytes) (h : as.length = cs.length) :
    xorBytes (as ++ bs) (cs ++ ds) = xorBytes as cs ++ xorBytes bs ds := by
  fun_induction xorBytes as cs with
  | case1 a as c cs ih => simp [ih (by simpa using h)]
  | case2 cs => simp [List.length_eq_zero_iff.mp h.symm]
  | case3 as => simp [List.length_eq_zero_iff.mp h]

theorem xorBytes_zeros (bs : Bytes) : xorBytes (zeros bs.length) bs = bs := by
  induction bs with
  | nil => rfl
  | cons b bs ih => simpa [zeros, List.replicate_succ] using ih

/-! ### The bytes that a fold adds (R131, R132, R140) -/

/-- R132: the product of a string with a coefficient is as long as the string. -/
@[simp] theorem mulBytes_length (field a : Nat) (bs : Bytes) : (mulBytes field a bs).length = bs.length := by
  fun_induction mulBytes field a bs with
  | case1 => rfl
  | case2 x xs hfield ih => simp [ih]
  | case3 x hfield => simp
  | case4 x hfield y ys p ih => simp [ih]

/-- R131: `bs` at offset `off`, completed with zeros to whole symbols of two bytes. -/
def wholeSymbols (off : Nat) (bs : Bytes) : Bytes :=
  zeros (off - off / 2 * 2) ++ bs ++ zeros ((zeros (off - off / 2 * 2) ++ bs).length % 2)

/-- The string, aligned with the row, that a fold adds to it: it does not depend on the row. -/
def addend (field a off : Nat) (bs : Bytes) : Bytes :=
  if a = 0 then [] else zeros (off / 2 * 2) ++ mulBytes field a (wholeSymbols off bs)

/-- Adding `m` to the bytes of a row at offset `o` is adding `m` behind `o` zeros to the whole row. -/
theorem xorBytes_zeros_append {o : Nat} {m row : Bytes} (h : o + m.length ≤ row.length) :
    xorBytes (zeros o ++ m) row = row.take o ++ (xorBytes m (slice row o m.length) ++ row.drop (o + m.length)) := by
  have htake : (row.take o).length = o := by simp; omega
  have hslice : m.length = (slice row o m.length).length := by simp
  have hrow : row = row.take o ++ (slice row o m.length ++ row.drop (o + m.length)) := by
    rw [slice_full _ _ _ h, ← List.drop_drop, List.take_append_drop, List.take_append_drop]
  calc xorBytes (zeros o ++ m) row
      = xorBytes (zeros (row.take o).length ++ (m ++ []))
          (row.take o ++ (slice row o m.length ++ row.drop (o + m.length))) := by
        rw [htake, List.append_nil, ← hrow]
    _ = row.take o ++ (xorBytes m (slice row o m.length) ++ row.drop (o + m.length)) := by
        rw [xorBytes_append _ _ (by simp [zeros]), xorBytes_zeros, xorBytes_append _ _ hslice, xorBytes_nil_left]

section
variable (field a : Nat) {off : Nat} {bs row : Bytes} (h : row.length % 2 = 0 ∧ off + bs.length ≤ row.length)
include h

/-- A row of whole symbols that holds the bytes folded holds the symbols that they touch. -/
theorem wholeSymbols_fits : off / 2 * 2 + (wholeSymbols off bs).length ≤ row.length := by
  simp only [wholeSymbols, zeros, List.length_append, List.length_replicate]
  omega

theorem addend_length_le : (addend field a off bs).length ≤ row.length := by
  unfold addend
  split
  · simp
  · simpa [zeros] using wholeSymbols_fits h

theorem addAt_eq_xorBytes : addAt field a row off bs = xorBytes (addend field a off bs) row := by
  by_cases ha : a = 0
  · simp [addAt, addend, ha]
  · have hfits : off / 2 * 2 + (mulBytes field a (wholeSymbols off bs)).length ≤ row.length := by
      simpa using wholeSymbols_fits h
    rw [addend, if_neg ha, xorBytes_zeros_append hfits, mulBytes_length]
    simp [addAt, wholeSymbols, ha]

theorem addAt_length : (addAt field a row off bs).length = row.length := by
  rw [addAt_eq_xorBytes field a h, xorBytes_length, Nat.max_eq_right (addend_length_le field a h)]

/-- The addition of a string to a row is its own inverse. -/
theorem addAt_addAt_cancel : addAt field a (addAt field a row off bs) off bs = row := by
  rw [addAt_eq_xorBytes field a (by rwa [addAt_length field a h]), addAt_eq_xorBytes field a h,
    xorBytes_cancel (addend_length_le field a h)]

theorem addAt_addAt_comm (a' : Nat) {off' : Nat} {bs' : Bytes}
    (h' : row.length % 2 = 0 ∧ off' + bs'.length ≤ row.length) :
    addAt field a' (addAt field a row off bs) off' bs' = addAt field a (addAt field a' row off' bs') off bs := by
  rw [addAt_eq_xorBytes field a' (by rwa [addAt_length field a h]), addAt_eq_xorBytes field a h,
    addAt_eq_xorBytes field a (by rwa [addAt_length field a' h']), addAt_eq_xorBytes field a' h', xorBytes_left_comm]

end

/-! ### Folds (R140) -/

theorem Code.fold_eq_mapIdx (c : Code) (field j off : Nat) (acc : List Bytes) (bs : Bytes) :
    c.fold field acc j off bs = acc.mapIdx fun i row => addAt field (c.coef field i j) row off bs := by
  rw [List.mapIdx_eq_zipIdx_map]
  rfl

/-- Two folds, read row by row. -/
theorem Code.fold_fold (c : Code) (field j j' off off' : Nat) (acc : List Bytes) (bs bs' : Bytes) :
    c.fold field (c.fold field acc j off bs) j' off' bs' = acc.mapIdx fun i row =>
      addAt field (c.coef field i j') (addAt field (c.coef field i j) row off bs) off' bs' := by
  rw [c.fold_eq_mapIdx, c.fold_eq_mapIdx, List.mapIdx_mapIdx]
  rfl

/-- Settles O13: a fold adds to each row a string that the row does not decide, and the bytewise exclusive or of such strings
cancels and commutes. -/
theorem foldsCancelAndCommute : Obligations.FoldsCancelAndCommute := by
  refine ⟨fun c field j off acc bs h => ?_, fun c field j j' off off' acc bs bs' h => ?_⟩
  · rw [c.fold_fold]
    refine List.ext_getElem (by simp) fun i _ hi => ?_
    rw [List.getElem_mapIdx]
    exact addAt_addAt_cancel field _ (h _ (List.getElem_mem hi))
  · rw [c.fold_fold, c.fold_fold, List.mapIdx_eq_mapIdx_iff]
    intro i hi
    obtain ⟨heven, hle, hle'⟩ := h _ (List.getElem_mem hi)
    exact addAt_addAt_comm field _ ⟨heven, hle⟩ _ ⟨heven, hle'⟩

end Sys2Proof.Machine
end

section
/-!
PROOFS. The operations on the state of Conos (07): its register fields, its ports, flows and windows, its events, and what a frame
sent towards a peer reaches.
-/

namespace Sys2Proof.Machine

/-! ### Register fields (R201, R202) -/

/-- R570: no status field that is brought up to date lies on the page of Conos. -/
theorem Fld.not_shown_of_conos {f : Fld} (hp : f.page = 4) (ho : f.off < 4096) (hl : f.lo < 64) :
    f.key ∉ shownFields.map Fld.key := fun hf => by
  have hne := (by decide +kernel : ∀ n ∈ shownFields.map Fld.key, keyPage n ≠ 4) _ hf
  rw [Fld.keyPage_key ho hl] at hne
  exact hne hp

theorem Fld.not_reported_of_conos {f : Fld} (hp : f.page = 4) (ho : f.off < 4096) (hl : f.lo < 64) :
    f.key ∉ reportFields.map Fld.key := fun hf => by
  have hne := (by decide +kernel : ∀ n ∈ reportFields.map Fld.key, keyPage n ≠ 4) _ hf
  rw [Fld.keyPage_key ho hl] at hne
  exact hne hp

theorem Chip.rd_refresh_conos (k : Chip) {f : Fld} (hp : f.page = 4) (ho : f.off < 4096) (hl : f.lo < 64) :
    k.refresh.rd f = k.rd f := k.rd_refresh (Fld.not_shown_of_conos hp ho hl)

theorem Chip.cnState_refresh (k : Chip) {p : Nat} (hp : p < 4) : k.refresh.cnState p = k.cnState p :=
  k.rd_refresh_conos rfl (show 0x108 + 0x20 * p < 4096 by omega) (by simp)

/-- Fields of CN_PORT_STATUS of one port at different bits, and those of CN_PORT_CTRL, lie apart. -/
theorem portFields_apart (p : Nat) :
    (CN_PORT_STATUS.STATE p).key ≠ (CN_PORT_CTRL.ENABLE p).key ∧
    (CN_PORT_STATUS.STATE p).key ≠ (CN_PORT_STATUS.STEP p).key := by
  simp only [Fld.key, Dom.code]
  omega

/-! ### Ports, flows and windows -/

@[simp] theorem Chip.port_setPort (k : Chip) (n : Nat) (f : Port → Port) : (k.setPort n f).port n = f (k.port n) :=
  Tbl.get_mod_self _ _ _ _

@[simp] theorem Chip.flow_setFlow (k : Chip) (peer vc : Nat) (f : Flow → Flow) :
    (k.setFlow peer vc f).flow peer vc = f (k.flow peer vc) := Tbl.get_mod_self _ _ _ _

@[simp] theorem Chip.window_setWindow (k : Chip) (w : Nat) (f : Window → Window) :
    (k.setWindow w f).window w = f (k.window w) := Tbl.get_mod_self _ _ _ _

theorem Chip.window_setWindow_ne (k : Chip) {w w' : Nat} (f : Window → Window) (h : w' ≠ w) :
    (k.setWindow w f).window w' = k.window w' := Tbl.get_mod_ne _ _ _ _ h

@[simp] theorem Chip.port_refresh (k : Chip) (n : Nat) : k.refresh.port n = k.port n := by rw [Chip.port, Chip.refresh_cn]

@[simp] theorem Chip.flow_refresh (k : Chip) (peer vc : Nat) : k.refresh.flow peer vc = k.flow peer vc := by
  rw [Chip.flow, Chip.refresh_cn]

@[simp] theorem Chip.window_refresh (k : Chip) (w : Nat) : k.refresh.window w = k.window w := by
  rw [Chip.window, Chip.refresh_cn]

@[simp] theorem Chip.setPort_mem (k : Chip) (n : Nat) (f : Port → Port) : (k.setPort n f).mem = k.mem := rfl
@[simp] theorem Chip.setPort_out (k : Chip) (n : Nat) (f : Port → Port) : (k.setPort n f).out = k.out := rfl
@[simp] theorem Chip.setPort_regs (k : Chip) (n : Nat) (f : Port → Port) : (k.setPort n f).regs = k.regs := rfl
@[simp] theorem Chip.setPort_rd (k : Chip) (n : Nat) (f : Port → Port) (g : Fld) : (k.setPort n f).rd g = k.rd g := rfl
@[simp] theorem Chip.setWindow_mem (k : Chip) (w : Nat) (f : Window → Window) : (k.setWindow w f).mem = k.mem := rfl

/-! ### Counters and lists of messages -/

theorem Chip.count_eq (k : Chip) (set i j n : Nat) : k.count set i j n = { k with pm := (k.count set i j n).pm } := by
  unfold Chip.count
  split <;> rfl

@[simp] theorem Chip.count_regs (k : Chip) (set i j n : Nat) : (k.count set i j n).regs = k.regs := by rw [Chip.count_eq]
@[simp] theorem Chip.count_rd (k : Chip) (set i j n : Nat) (f : Fld) : (k.count set i j n).rd f = k.rd f :=
  Chip.rd_congr (k.count_regs set i j n) f
@[simp] theorem Chip.count_out (k : Chip) (set i j n : Nat) : (k.count set i j n).out = k.out := by rw [Chip.count_eq]
@[simp] theorem Chip.count_cn (k : Chip) (set i j n : Nat) : (k.count set i j n).cn = k.cn := by rw [Chip.count_eq]

@[simp] theorem Chip.port_count (k : Chip) (set i j n p : Nat) : (k.count set i j n).port p = k.port p := by
  rw [Chip.port, Chip.count_cn]

/-- Messages sent in order stand before the earlier ones, the newest first. -/
theorem Chip.emitAll_eq (os : List Out) (k : Chip) : k.emitAll os = { k with out := os.reverse ++ k.out } := by
  unfold Chip.emitAll
  induction os generalizing k with
  | nil => rfl
  | cons o os ih => simp [ih, Chip.emit]

/-! ### Events (R201) -/

/-- R201: the fields of CN_EVENT_INFO, which an event fills. -/
def cnInfoFields : List Fld :=
  [CN_EVENT_INFO.PKG, CN_EVENT_INFO.PORT, CN_EVENT_INFO.WINDOW, CN_EVENT_INFO.STATUS, CN_EVENT_INFO.EVENT]

theorem Chip.cnEvent_eq (k : Chip) (f : Fld) (peer port window status : Nat) :
    k.cnEvent f peer port window status =
      { k with regs := (k.cnEvent f peer port window status).regs, out := (k.cnEvent f peer port window status).out } := by
  unfold Chip.cnEvent
  dsimp only
  split <;> rfl

@[simp] theorem Chip.cnEvent_mem (k : Chip) (f : Fld) (peer port window status : Nat) :
    (k.cnEvent f peer port window status).mem = k.mem := by rw [Chip.cnEvent_eq]

@[simp] theorem Chip.cnEvent_cn (k : Chip) (f : Fld) (peer port window status : Nat) :
    (k.cnEvent f peer port window status).cn = k.cn := by rw [Chip.cnEvent_eq]

/-- Outside CN_EVENT_INFO an event changes its own bit alone. -/
theorem Chip.rd_cnEvent (k : Chip) (f : Fld) (peer port window status : Nat) {g : Fld}
    (hg : g.key ∉ cnInfoFields.map Fld.key) : (k.cnEvent f peer port window status).rd g = (k.raise f).rd g := by
  simp only [cnInfoFields, List.map_cons, List.map_nil, List.mem_cons, List.not_mem_nil, or_false, not_or] at hg
  obtain ⟨hpkg, hport, hwindow, hstatus, hevent⟩ := hg
  have hinfo : (((((((k.raise f).wr CN_EVENT_INFO.PKG peer).wr CN_EVENT_INFO.PORT port).wr CN_EVENT_INFO.WINDOW window).wr
      CN_EVENT_INFO.STATUS status).wr CN_EVENT_INFO.EVENT f.lo)).rd g = (k.raise f).rd g := by
    rw [Chip.rd_wr_ne _ _ hevent, Chip.rd_wr_ne _ _ hstatus, Chip.rd_wr_ne _ _ hwindow, Chip.rd_wr_ne _ _ hport,
      Chip.rd_wr_ne _ _ hpkg]
  unfold Chip.cnEvent
  dsimp only
  split
  · exact hinfo
  · exact hinfo

/-- The bit of an event reads 1 after it. -/
theorem Chip.rd_cnEvent_self (k : Chip) {f : Fld} (peer port window status : Nat) (hw : f.width = 1)
    (hf : f.key ∉ cnInfoFields.map Fld.key) : (k.cnEvent f peer port window status).rd f = 1 := by
  have hbit : ∀ w, w = 1 → 1 % 2 ^ w = 1 := by
    rintro _ rfl
    rfl
  rw [Chip.rd_cnEvent _ _ _ _ _ _ hf, Chip.raise]
  exact (k.rd_wr_self f 1).trans (hbit _ hw)

/-! ### A frame sent (R178, R180, R182) -/

/-- `k'` differs from `k` only in registers, messages, unit counters and the Conos ports. -/
def Chip.Sent (k k' : Chip) : Prop :=
  k' = { k with regs := k'.regs, out := k'.out, pm := k'.pm, cn := { k.cn with ports := k'.cn.ports } }

theorem Chip.Sent.refl (k : Chip) : k.Sent k := rfl

theorem Chip.Sent.trans {k k' k'' : Chip} (h : k.Sent k') (h' : k'.Sent k'') : k.Sent k'' := by
  rw [Chip.Sent] at h h' ⊢
  rw [h', h]

section
variable {k k' : Chip} (h : k.Sent k')
include h

theorem Chip.Sent.mem : k'.mem = k.mem := by rw [h]
theorem Chip.Sent.re : k'.re = k.re := by rw [h]
theorem Chip.Sent.reads : k'.cn.reads = k.cn.reads := by rw [h]
theorem Chip.Sent.nextTag : k'.cn.nextTag = k.cn.nextTag := by rw [h]
theorem Chip.Sent.flow (peer vc : Nat) : k'.flow peer vc = k.flow peer vc := by rw [Chip.flow, h]

end

theorem Chip.sent_count (k : Chip) (set i j n : Nat) : k.Sent (k.count set i j n) := by
  rw [Chip.Sent, Chip.count_eq]

theorem Chip.sent_sendLink (k : Chip) (n : Nat) (f : Frame) : k.Sent (k.sendLink n f) := by
  unfold Chip.sendLink
  dsimp only
  split
  · rfl
  · exact .trans (k' := Chip.setPort _ _ _) rfl (.trans (Chip.sent_count _ _ _ _ _) rfl)

theorem Chip.sent_sendFrame (k : Chip) (f : Frame) : k.Sent (k.sendFrame f) := by
  unfold Chip.sendFrame
  split
  · rfl
  · split
    · exact k.sent_sendLink _ f
    · rw [Chip.Sent, Chip.cnEvent_eq]

theorem Chip.sent_foldl_sendFrame (fs : List Frame) (k : Chip) : k.Sent (fs.foldl Chip.sendFrame k) := by
  induction fs generalizing k with
  | nil => exact .refl k
  | cons f fs ih => exact (k.sent_sendFrame f).trans (ih _)

theorem Chip.sent_setFlow (k : Chip) (peer vc : Nat) (f : Flow → Flow) :
    ∃ flows, Chip.Sent { k with cn := { k.cn with flows := flows } } (k.setFlow peer vc f) :=
  ⟨Tbl.mod {} k.cn.flows (flowKey peer vc) f, rfl⟩

/-- R180: a frame of a flow changes the flows and is sent. -/
theorem Chip.sent_sendFlow (k : Chip) (f : Frame) :
    ∃ flows, Chip.Sent { k with cn := { k.cn with flows := flows } } (k.sendFlow f) := by
  unfold Chip.sendFlow
  dsimp only
  split
  · exact ⟨k.cn.flows, rfl⟩
  · split
    · exact (k.sent_setFlow f.dst f.vc _).imp fun _ h => h.trans rfl
    · split
      · exact (k.sent_setFlow f.dst f.vc _).imp fun _ h => h.trans (Chip.sent_sendFrame _ _)
      · exact k.sent_setFlow f.dst f.vc _

end Sys2Proof.Machine
end

section
/-!
PROOFS. The ports of Conos (07): training, the peer's identity, the wake pattern and the loss of lanes.
-/

namespace Sys2Proof.Machine

/-! ### Training (R174, R175) -/

/-- R174: a port that is down or has failed trains when it is enabled. -/
theorem Chip.cnEnable_trains {k : Chip} {p : Nat} (h : k.cnState p = 0 ∨ k.cnState p = 4) :
    k.cnEnable p = (k.wr (CN_PORT_CTRL.ENABLE p) 1).startTraining p := by
  have hstate : (k.wr (CN_PORT_CTRL.ENABLE p) 1).cnState p = k.cnState p := k.rd_wr_ne 1 (portFields_apart p).1
  unfold Chip.cnEnable
  dsimp only
  rw [hstate, if_pos (by simpa using h)]

/-- R174: a step before the last that passes; after step 3 the IDENT frame goes out as well. -/
theorem Chip.trainingStep_next {k : Chip} {p : Nat} (htrain : k.cnTraining p = true) (htimer : (k.port p).timer = false)
    (hlast : k.rd (CN_PORT_STATUS.STEP p) < 6) (hident : k.rd (CN_PORT_STATUS.STEP p) ≠ 3)
    (hheld : k.rd (CN_PORT_STATUS.STEP p) = 4 → (k.port p).identHeld = false) :
    k.trainingStep p true = k.wr (CN_PORT_STATUS.STEP p) (k.rd (CN_PORT_STATUS.STEP p) + 1) := by
  unfold Chip.trainingStep
  dsimp only
  rw [if_neg (by simp [htrain, htimer]), if_neg (by simp), if_neg (by simpa using hheld), if_neg (by omega),
    if_neg (by simpa using hident)]

/-- R175: at step 4 a port takes the identity of a peer that is another package. -/
theorem Chip.identArrives_taken {k : Chip} {p pkg : Nat} (peerPort : Nat) (htrain : k.cnTraining p = true)
    (hstep : k.rd (CN_PORT_STATUS.STEP p) = 4) (htimer : (k.port p).timer = false) (hpkg : pkg ≠ k.rd CN_ID.PKG_ID) :
    k.identArrives p pkg peerPort 1 =
      ((k.wr (CN_PORT_STATUS.PEER_PKG p) pkg).wr (CN_PORT_STATUS.PEER_PORT p) peerPort).setPort p fun x => { x with
        identHeld := false, identSeen := true, peerPkg := pkg } := by
  unfold Chip.identArrives
  rw [if_neg (by simp [htrain, hstep, htimer]), if_neg (by simpa using hpkg), if_neg (by simp)]

/-! ### The wake pattern (R198, R199) -/

theorem setBits_two_pow : ∀ p < 4, setBits (2 ^ p) 4 = [p] := by decide

/-- R198: the pattern on one port that is down or has failed. -/
theorem Chip.wakeSend_one {k : Chip} {p : Nat} (hp : p < 4) (h : k.cnState p = 0 ∨ k.cnState p = 4) :
    k.wakeSend (2 ^ p) = ((k.wr CN_WAKE.SENDING (setBit (k.rd CN_WAKE.SENDING) p)).setPort p fun x => { x with
      pattern := true, wakeRetry := k.time + 100000000 }).emit (.wakePattern p) := by
  have hports : (setBits (2 ^ p) 4).filter (fun n => k.cnState n == 0 || k.cnState n == 4) = [p] := by
    simpa [setBits_two_pow p hp] using h
  rw [Chip.wakeSend, hports, List.foldl_cons, List.foldl_nil]

/-- R199: a package that runs notes the pattern and its time. -/
theorem Chip.wakeSeen_run {k : Chip} (p : Nat) (h : k.pwr.pkg = .run) :
    k.wakeSeen p = (k.wr CN_WAKE.SEEN (setBit (k.rd CN_WAKE.SEEN) p)).setPort p fun x => { x with
      wakeRetry := k.time + 100000000 } := by
  have hrun : ((k.wr CN_WAKE.SEEN (setBit (k.rd CN_WAKE.SEEN) p)).setPort p fun x => { x with
      wakeRetry := k.time + 100000000 }).pwr.pkg = .run := h
  unfold Chip.wakeSeen
  dsimp only
  rw [hrun]

/-! ### The loss of a port (R174, R200) -/

/-- R200: a port that has failed keeps no frame, neither unacknowledged nor waiting. -/
theorem Chip.port_cnPortFailed (k : Chip) (p state : Nat) :
    (k.cnPortFailed p state).port p = { k.port p with timer := false, replay := [], waiting := [] } := by
  rw [Chip.cnPortFailed, Chip.port, Chip.log_cn, Chip.cnEvent_cn, ← Chip.port, Chip.port_setPort]
  rfl

theorem Chip.cnState_cnPortFailed (k : Chip) {p : Nat} (hp : p < 4) (state : Nat) :
    (k.cnPortFailed p state).cnState p = state % 2 ^ 3 := by
  have hoff : 0x108 + 0x20 * p < 4096 := by omega
  have hinfo : (CN_PORT_STATUS.STATE p).key ∉ cnInfoFields.map Fld.key ∧
      (CN_PORT_STATUS.STATE p).key ≠ CN_EVENT.PORT_FAILED.key := by
    simp only [cnInfoFields, List.map_cons, List.map_nil, List.mem_cons, List.not_mem_nil, or_false, Fld.key, Dom.code]
    omega
  rw [Chip.cnPortFailed, Chip.cnState, Chip.log_rd _ _ (Fld.not_reported_of_conos rfl hoff (by simp)),
    Chip.rd_cnEvent _ _ _ _ _ _ hinfo.1, Chip.raise, Chip.rd_wr_ne _ _ hinfo.2, Chip.setPort_rd, Chip.rd_wr_self]

theorem Chip.rd_cnPortFailed_event (k : Chip) (p state : Nat) :
    (k.cnPortFailed p state).rd CN_EVENT.PORT_FAILED = 1 := by
  rw [Chip.cnPortFailed, Chip.log_rd _ _ (Fld.not_reported_of_conos rfl (by simp) (by simp)),
    Chip.rd_cnEvent_self _ _ _ _ _ rfl (by decide +kernel)]

/-! ### The commands -/

theorem exec_cnPortEnable (s : State) (p : Nat) :
    exec (.cnPortEnable p) s = .next (s.after (s.chip.cnEnable (p % 4))) := rfl

theorem exec_conosTrainingStepDone (s : State) (p : Nat) (ok : Bool) :
    exec (.conosTrainingStepDone p ok) s = .next (s.after (s.chip.trainingStep (p % 4) ok)) := rfl

theorem exec_conosTrainingRetryTimer (s : State) (p : Nat) :
    exec (.conosTrainingRetryTimer p) s = .next (s.after (if (s.chip.port (p % 4)).timer then
      (s.chip.wr (CN_PORT_STATUS.STEP (p % 4)) 1).setPort (p % 4) fun x => { x with timer := false } else s.chip)) := rfl

theorem exec_ident (s : State) (p pkg peerPort version len : Nat) :
    exec (.ident p pkg peerPort version len) s = .next (s.after (s.chip.identArrives (p % 4) pkg peerPort version)) := rfl

theorem exec_cnWakeSend (s : State) (mask : Nat) :
    exec (.cnWakeSend mask) s = .next (s.after (s.chip.wakeSend mask)) := rfl

theorem exec_wakePatternEnd (s : State) (p : Nat) :
    exec (.wakePatternEnd p) s = .next (s.after (s.chip.wakeEnd (p % 4))) := rfl

theorem exec_wakePatternDetected (s : State) (p : Nat) :
    exec (.wakePatternDetected p) s = .next (s.after (s.chip.wakeSeen (p % 4))) := rfl

theorem exec_conosLaneLoss (s : State) (p : Nat) :
    exec (.conosLaneLoss p) s = .next (s.after (s.chip.cnPortFailed (p % 4) 0)) := rfl

/-- Settles O15: each clause is one case of the command that drives the port. -/
theorem portsTrainAndWake : Obligations.PortsTrainAndWake := by
  refine ⟨?_, ?_, ?_, ?_, ?_, ?_, ?_, ?_⟩
  · intro s p hp hdown
    rw [exec_cnPortEnable, Nat.mod_eq_of_lt hp, Chip.cnEnable_trains hdown, Chip.startTraining]
  · intro s p step hp htrain htimer hstep hlast hident hheld
    subst hstep
    rw [exec_conosTrainingStepDone, Nat.mod_eq_of_lt hp, Chip.trainingStep_next htrain htimer hlast hident hheld]
  · intro s p hp htimer
    rw [exec_conosTrainingRetryTimer, Nat.mod_eq_of_lt hp, if_pos htimer]
  · intro s p pkg peerPort len hp htrain hstep htimer hpkg
    rw [exec_ident, Nat.mod_eq_of_lt hp, Chip.identArrives_taken peerPort htrain hstep htimer hpkg]
  · intro s p hp hdown
    rw [exec_cnWakeSend, Chip.wakeSend_one hp hdown]
  · intro s p hp hpattern
    rw [exec_wakePatternEnd, Nat.mod_eq_of_lt hp, Chip.wakeEnd, if_neg (by simp [hpattern])]
  · intro s p hp hrun
    rw [exec_wakePatternDetected, Nat.mod_eq_of_lt hp, Chip.wakeSeen_run p hrun]
  · intro s p hp
    rw [exec_conosLaneLoss, Nat.mod_eq_of_lt hp]
    refine ⟨_, rfl, ?_, ?_, ?_, ?_⟩
    · exact (Chip.cnState_refresh _ hp).trans (s.chip.cnState_cnPortFailed hp 0)
    · exact (Chip.rd_refresh_conos _ rfl (by simp) (by simp)).trans (s.chip.rd_cnPortFailed_event p 0)
    · rw [State.after_chip, Chip.port_refresh, Chip.port_cnPortFailed]
    · rw [State.after_chip, Chip.port_refresh, Chip.port_cnPortFailed]

end Sys2Proof.Machine
end

section
/-!
PROOFS. Retransmission in Conos (07): frames accepted, acknowledged and sent again on a link and in a flow.
-/

namespace Sys2Proof.Machine

/-! ### A frame accepted (R178, R179) -/

/-- R178: a port without the frames that LINK_ACK covers. -/
def Port.acked (p : Port) (ack : Nat) : Port :=
  let left := p.replay.filter fun f => !serialLe f.linkSeq ack 16
  { p with replay := left, resends := if left.length < p.replay.length then 0 else p.resends }

/-- R179: a port with the credits that a frame returns. -/
def Port.credited (p : Port) (f : Frame) : Port :=
  { p with credits := p.credits.set f.creditVc (min 64 (p.credits.getD f.creditVc 64 + f.credit)) }

/-- A port where no frame waits. -/
def Port.drained (p : Port) : Port := { p with waiting := [] }

/-- R178, R179: a port after the frame that it expected: the next LINK_SEQ, and one credit owed. -/
def Port.accepted (p : Port) (f : Frame) : Port :=
  { p with rxSeq := (p.rxSeq + 1) % 65536, owed := p.owed.set f.vc (p.owed.getD f.vc 0 + 1) }

/-- R178, R179: the sequence number, the credits owed and the replay buffer after an accepted frame. -/
theorem Port.accepted_fields (p : Port) (f : Frame) {q : Port}
    (hq : q = (((p.acked f.linkAck).credited f).drained).accepted f) :
    q.rxSeq = (p.rxSeq + 1) % 65536 ∧ q.owed = p.owed.set f.vc (p.owed.getD f.vc 0 + 1) ∧
    q.replay = p.replay.filter fun x => !serialLe x.linkSeq f.linkAck 16 := by
  subst hq
  exact ⟨rfl, rfl, rfl⟩

theorem Chip.linkAcked_eq (k : Chip) (p ack : Nat) : k.linkAcked p ack = k.setPort p fun x => x.acked ack := rfl

theorem Chip.linkAcked_out (k : Chip) (p ack : Nat) : (k.linkAcked p ack).out = k.out := rfl
theorem Chip.linkAcked_mem (k : Chip) (p ack : Nat) : (k.linkAcked p ack).mem = k.mem := rfl

theorem Chip.drainPort_none {k : Chip} {p : Nat} (h : (k.port p).waiting = []) :
    k.drainPort p = k.setPort p Port.drained := by
  rw [Chip.drainPort, h, List.foldl_nil]
  rfl

/-- R178, R179: the machine before it looks at the LINK_SEQ of a good frame that comes where no frame waits. -/
def Chip.linkCredited (k : Chip) (p : Nat) (f : Frame) : Chip :=
  ((k.setPort p fun x => x.acked f.linkAck).setPort p fun x => x.credited f).setPort p Port.drained

theorem Chip.port_linkCredited (k : Chip) (p : Nat) (f : Frame) :
    (k.linkCredited p f).port p = (((k.port p).acked f.linkAck).credited f).drained := by
  rw [Chip.linkCredited, Chip.port_setPort, Chip.port_setPort, Chip.port_setPort]

theorem Chip.linkCredited_rd (k : Chip) (p : Nat) (f : Frame) (g : Fld) : (k.linkCredited p f).rd g = k.rd g := by
  simp only [Chip.linkCredited, Chip.setPort_rd]
theorem Chip.linkCredited_regs (k : Chip) (p : Nat) (f : Frame) : (k.linkCredited p f).regs = k.regs := by
  simp only [Chip.linkCredited, Chip.setPort_regs]
theorem Chip.linkCredited_out (k : Chip) (p : Nat) (f : Frame) : (k.linkCredited p f).out = k.out := by
  simp only [Chip.linkCredited, Chip.setPort_out]
theorem Chip.linkCredited_mem (k : Chip) (p : Nat) (f : Frame) : (k.linkCredited p f).mem = k.mem := by
  simp only [Chip.linkCredited, Chip.setPort_mem]

/-- R178, R179: the frame with the expected LINK_SEQ, for this package, on a port where no frame waits. -/
theorem Chip.frameArrives_accepts {k : Chip} {p : Nat} {f : Frame} (hup : k.cnState p = 2) (hnak : f.nak = false)
    (hkind : f.kind ≠ 0) (hwait : (k.port p).waiting = []) (hseq : f.linkSeq = (k.port p).rxSeq)
    (hdst : f.dst = k.rd CN_ID.PKG_ID) :
    k.frameArrives p f true = ((k.linkCredited p f).setPort p fun x => x.accepted f).count 8 p 1 1 := by
  have hcredits : (fun x : Port => { x with
      credits := x.credits.set f.creditVc (min 64 (x.credits.getD f.creditVc 64 + f.credit)) }) = fun x => x.credited f := rfl
  have haccept : (fun x : Port => { x with
      rxSeq := (x.rxSeq + 1) % 65536, owed := x.owed.set f.vc (x.owed.getD f.vc 0 + 1) }) = fun x => x.accepted f := rfl
  have hdrain : ((k.setPort p fun x => x.acked f.linkAck).setPort p fun x => x.credited f).drainPort p =
      k.linkCredited p f :=
    Chip.drainPort_none (by rw [Chip.port_setPort, Chip.port_setPort, Port.credited, Port.acked, hwait])
  have hexpected : f.linkSeq = ((k.linkCredited p f).port p).rxSeq := by
    rw [Chip.port_linkCredited, Port.drained, Port.credited, Port.acked, hseq]
  have hhere : f.dst = (((k.linkCredited p f).setPort p fun x => x.accepted f).count 8 p 1 1).rd CN_ID.PKG_ID := by
    rw [Chip.count_rd, Chip.setPort_rd, Chip.linkCredited_rd, hdst]
  unfold Chip.frameArrives
  dsimp only
  rw [if_neg (by simp [hup]), if_neg (by simp), hnak, Chip.linkAcked_eq, hcredits, haccept, hdrain,
    if_neg Bool.false_ne_true, if_neg (by simpa using hkind), if_neg (by simpa using hexpected),
    if_pos (by rw [← hhere, beq_self_eq_true, Bool.or_true])]

/-- What the port, the messages, memory and the registers are after a frame was accepted. -/
theorem State.after_accepted (s : State) (p : Nat) (f : Frame) {t : State}
    (ht : t = s.after (((s.chip.linkCredited p f).setPort p fun x => x.accepted f).count 8 p 1 1)) :
    t.chip.port p = ((((s.chip.port p).acked f.linkAck).credited f).drained).accepted f ∧
    t.chip.out = s.chip.out ∧ s.chip.SameMemory t.chip ∧ s.chip.SameRegs [] t.chip := by
  subst ht
  refine ⟨?_, ?_, .of_eq ?_, .of_eq ?_⟩
  · rw [State.after_chip, Chip.port_refresh, Chip.port_count, Chip.port_setPort, Chip.port_linkCredited]
  · rw [State.after_chip, Chip.refresh_out, Chip.count_out, Chip.setPort_out, Chip.linkCredited_out]
  · rw [State.after_chip, Chip.refresh_mem, Chip.count_mem, Chip.setPort_mem, Chip.linkCredited_mem]
  · rw [Chip.count_regs, Chip.setPort_regs, Chip.linkCredited_regs]

/-! ### A port that sends again (R178) -/

/-- R178: every frame in the replay buffer goes out once more. -/
theorem Chip.linkResend_again {k : Chip} {p : Nat} (hup : k.cnState p = 2) (hreplay : (k.port p).replay ≠ [])
    (hresends : (k.port p).resends < 8) :
    k.linkResend p = (((k.setPort p fun x => { x with resends := x.resends + 1 }).bump (CN_PORT_CNT.RESENDS p) 1).count
      8 p 2 1).emitAll ((k.port p).replay.map (Out.frame p)) := by
  unfold Chip.linkResend
  dsimp only
  rw [if_neg (by simp [hup, hreplay]), if_neg (by omega), Chip.resendReplay, Chip.port_count, Chip.bump, Chip.port, Chip.wr_cn,
    ← Chip.port, Chip.port_setPort]

/-- R178: after 8 resends without progress the port retrains from step 1. -/
theorem Chip.linkResend_retrains {k : Chip} {p : Nat} (hup : k.cnState p = 2) (hreplay : (k.port p).replay ≠ [])
    (hresends : 8 ≤ (k.port p).resends) :
    k.linkResend p = ((k.wr (CN_PORT_STATUS.STATE p) 3).wr (CN_PORT_STATUS.STEP p) 1).setPort p fun x => { x with
      resends := 0, failures := 0, timer := false, identHeld := false } := by
  unfold Chip.linkResend
  dsimp only
  rw [if_neg (by simp [hup, hreplay]), if_pos hresends]

/-- What the port, the messages, memory and the registers are after a port has sent again. -/
theorem State.after_linkResend (s : State) {k : Chip} {p : Nat} (hup : k.cnState p = 2) (hreplay : (k.port p).replay ≠ [])
    (hresends : (k.port p).resends < 8) :
    (s.after (k.linkResend p)).chip.port p = { k.port p with resends := (k.port p).resends + 1 } ∧
    (s.after (k.linkResend p)).chip.out = ((k.port p).replay.map (Out.frame p)).reverse ++ k.out ∧
    k.SameMemory (s.after (k.linkResend p)).chip ∧ k.SameRegs [CN_PORT_CNT.RESENDS p] (s.after (k.linkResend p)).chip := by
  rw [State.after_chip, Chip.linkResend_again hup hreplay hresends, Chip.emitAll_eq]
  refine ⟨?_, ?_, .of_eq ?_, .refresh fun f hf => ?_⟩
  · rw [Chip.port_refresh, Chip.port, Chip.count_cn, Chip.bump_cn, ← Chip.port, Chip.port_setPort]
  · rw [Chip.refresh_out, Chip.count_out, Chip.bump_out, Chip.setPort_out]
  · rw [Chip.refresh_mem, Chip.count_mem, Chip.bump_mem, Chip.setPort_mem]
  · change (Chip.count _ 8 p 2 1).rd f = k.rd f
    rw [Chip.count_rd, Chip.bump, Chip.rd_wr_ne _ _ (by simpa using hf), Chip.setPort_rd]

/-! ### A flow acknowledged or sent again (R180, R181) -/

/-- R181: a FLOW_ACK that covers frames, with no frame waiting for room. -/
theorem Chip.flowAcked_covers {k : Chip} {peer vc seq : Nat} {left : List Frame}
    (hroom : (k.flow peer vc).unacked.length ≤ flowLimit)
    (hleft : left = (k.flow peer vc).unacked.filter fun f => !serialLe f.flowSeq seq 32)
    (hgone : left.length < (k.flow peer vc).unacked.length) :
    k.flowAcked peer vc seq = k.setFlow peer vc fun l => { l with unacked := left, resends := 0 } := by
  have hnone : (left.take flowLimit).drop (min flowLimit (k.flow peer vc).unacked.length -
      ((k.flow peer vc).unacked.length - left.length)) = [] := by
    rw [List.drop_eq_nil_iff, List.length_take]
    omega
  unfold Chip.flowAcked
  dsimp only
  rw [← hleft, if_neg (by simp; omega), hnone, List.foldl_nil]

/-- R181: a FLOW_ACK that covers no frame changes nothing. -/
theorem Chip.flowAcked_none {k : Chip} {peer vc seq : Nat}
    (h : ∀ f ∈ (k.flow peer vc).unacked, serialLe f.flowSeq seq 32 = false) : k.flowAcked peer vc seq = k := by
  have hall : ((k.flow peer vc).unacked.filter fun f => !serialLe f.flowSeq seq 32) = (k.flow peer vc).unacked :=
    List.filter_eq_self.2 fun f hf => by simp [h f hf]
  unfold Chip.flowAcked
  dsimp only
  rw [hall, if_pos (by simp)]

/-- R181: a flow with unacknowledged frames counts one resend more and sends them. -/
theorem Chip.flowResend_again {k : Chip} {peer vc : Nat} (hstore : (k.flow peer vc).unacked ≠ [])
    (hfatal : k.flt.fatal = false) (hresends : (k.flow peer vc).resends < 8) :
    Chip.Sent (k.setFlow peer vc fun l => { l with resends := l.resends + 1 }) (k.flowResend peer vc) := by
  unfold Chip.flowResend
  dsimp only
  rw [if_neg (by simp [hstore, hfatal]), if_neg (by omega)]
  refine .trans ?_ (Chip.sent_foldl_sendFrame _ _)
  split
  · exact Chip.sent_count _ _ _ _ _
  · exact .refl _

/-- What the flow, memory and the jobs are after a flow has sent again. -/
theorem State.after_flowResend {s : State} {peer vc : Nat} (hstore : (s.chip.flow peer vc).unacked ≠ [])
    (hfatal : s.chip.flt.fatal = false) (hresends : (s.chip.flow peer vc).resends < 8) :
    ((s.after (s.chip.flowResend peer vc)).chip.flow peer vc).resends = (s.chip.flow peer vc).resends + 1 ∧
    ((s.after (s.chip.flowResend peer vc)).chip.flow peer vc).unacked = (s.chip.flow peer vc).unacked ∧
    s.chip.SameMemory (s.after (s.chip.flowResend peer vc)).chip ∧
    (s.after (s.chip.flowResend peer vc)).chip.re = s.chip.re := by
  have hsent := Chip.flowResend_again hstore hfatal hresends
  have hflow : (s.after (s.chip.flowResend peer vc)).chip.flow peer vc =
      { s.chip.flow peer vc with resends := (s.chip.flow peer vc).resends + 1 } := by
    rw [State.after_chip, Chip.flow_refresh, hsent.flow, Chip.flow_setFlow]
  refine ⟨by rw [hflow], by rw [hflow], .of_eq ?_, ?_⟩
  · exact (Chip.refresh_mem _).trans hsent.mem
  · exact (Chip.refresh_re _).trans hsent.re

/-! ### The commands -/

theorem exec_conosFrameReceived (s : State) (p : Nat) (f : Frame) (crcOk : Bool) :
    exec (.conosFrameReceived p f crcOk) s = .next (s.after (s.chip.frameArrives (p % 4) f crcOk)) := rfl

theorem exec_linkAckTimeout (s : State) (p : Nat) :
    exec (.linkAckTimeout p) s = .next (s.after (s.chip.linkResend (p % 4))) := rfl

theorem exec_linkNak (s : State) (p ack : Nat) :
    exec (.linkNak p ack) s = .next (s.after ((s.chip.linkAcked (p % 4) ack).linkResend (p % 4))) := rfl

theorem exec_flowAck (s : State) (peer vc seq : Nat) :
    exec (.flowAck peer vc seq) s = .next (s.after (s.chip.flowAcked peer vc seq)) := rfl

theorem exec_flowAckTimeout (s : State) (peer vc : Nat) :
    exec (.flowAckTimeout peer vc) s = .next (s.after (s.chip.flowResend peer vc)) := rfl

theorem exec_flowNak (s : State) (peer vc seq : Nat) :
    exec (.flowNak peer vc seq) s = .next (s.after (s.chip.flowNaked peer vc seq)) := rfl

/-- Settles O16: each clause is one case of a frame, an acknowledgement or a timeout, on a link and in a flow. -/
theorem conosRetransmission : Obligations.ConosRetransmission := by
  refine ⟨?_, ?_, ?_, ?_, ?_, ?_, ?_, ?_⟩
  · intro s p f hp hup hnak hkind hwait hseq hdst
    rw [exec_conosFrameReceived, Nat.mod_eq_of_lt hp, Chip.frameArrives_accepts hup hnak hkind hwait hseq hdst]
    obtain ⟨hport, hrest⟩ := s.after_accepted p f rfl
    obtain ⟨hseq, howed, hreplay⟩ := Port.accepted_fields _ f hport
    exact ⟨_, rfl, hseq, howed, hreplay, hrest⟩
  · intro s p f hp hup
    rw [exec_conosFrameReceived, Nat.mod_eq_of_lt hp, Chip.frameArrives, if_neg (by simp [hup]), if_pos (by simp)]
  · intro s p hp hup hreplay hresends
    obtain ⟨hport, hout, hmem, hregs⟩ := s.after_linkResend hup hreplay hresends
    rw [exec_linkAckTimeout, Nat.mod_eq_of_lt hp]
    exact ⟨_, rfl, by rw [hport], by rw [hport], hout, hmem, hregs⟩
  · intro s p hp hup hreplay hresends
    rw [exec_linkAckTimeout, Nat.mod_eq_of_lt hp, Chip.linkResend_retrains hup hreplay hresends]
    refine ⟨_, rfl, ?_, ?_, Chip.refresh_out _⟩
    · refine (Chip.cnState_refresh _ hp).trans ?_
      rw [Chip.cnState, Chip.setPort_rd, Chip.rd_wr_ne _ _ (portFields_apart p).2]
      exact Chip.rd_wr_self _ _ _
    · refine (Chip.rd_refresh_conos _ rfl (show 0x108 + 0x20 * p < 4096 by omega) (by simp)).trans ?_
      rw [Chip.setPort_rd]
      exact Chip.rd_wr_self _ _ _
  · intro s p ack left hp hup hleft hne hgone
    have hacked : (s.chip.linkAcked p ack).port p = { s.chip.port p with replay := left, resends := 0 } := by
      rw [Chip.linkAcked, Chip.port_setPort]
      dsimp only
      rw [← hleft, if_pos hgone]
    obtain ⟨hport, hout, hmem, -⟩ := s.after_linkResend (k := s.chip.linkAcked p ack) hup (by rw [hacked]; exact hne)
      (by rw [hacked]; exact Nat.zero_lt_succ 7)
    rw [hacked] at hport hout
    rw [Chip.SameMemory, Chip.linkAcked_mem] at hmem
    rw [Chip.linkAcked_out] at hout
    rw [exec_linkNak, Nat.mod_eq_of_lt hp]
    exact ⟨_, rfl, by rw [hport], by rw [hport], hout, hmem⟩
  · intro s peer vc seq left _ hroom hleft hgone
    rw [exec_flowAck, Chip.flowAcked_covers hroom hleft hgone]
  · intro s peer vc _ hstore hfatal hresends
    rw [exec_flowAckTimeout]
    exact ⟨_, rfl, State.after_flowResend hstore hfatal hresends⟩
  · intro s peer vc seq _ hstore hfatal hresends hnone
    obtain ⟨hcount, hsame, hmem, -⟩ := State.after_flowResend hstore hfatal hresends
    rw [exec_flowNak, Chip.flowNaked, Chip.flowAcked_none hnone]
    exact ⟨_, rfl, hcount, hsame, hmem⟩

end Sys2Proof.Machine
end

section
/-!
PROOFS. The aperture, the windows and the routes of Conos (07): remote writes and reads, indirect access, and drained windows.
-/

namespace Sys2Proof.Machine

/-! ### The aperture (R180, R189 to R191) -/

/-- R177: a byte string that fits in one piece is the only piece. -/
theorem pieces_one {n : Nat} {bs : Bytes} (hne : bs ≠ []) (hfits : bs.length ≤ n) : pieces n bs = [bs] := by
  cases bs with
  | nil => exact absurd rfl hne
  | cons b bs =>
    have hrest : ∀ fuel, piecesFuel n fuel [] = [] := fun fuel => by cases fuel <;> rfl
    rw [pieces, List.length_cons, piecesFuel, if_neg (by simp), List.take_of_length_le hfits,
      List.drop_of_length_le hfits, hrest]

/-- R182: a frame of a flow with this package itself takes the loop back. -/
theorem Chip.sendFlow_loop {k : Chip} {f : Frame} (hfatal : k.flt.fatal = false) (hdst : f.dst = k.rd CN_ID.PKG_ID) :
    k.sendFlow f = (k.setFlow f.dst f.vc fun l => { l with txSeq := (l.txSeq + 1) % 2 ^ 32, syncDue := false }).emit
      (.frame 4 { f with flowSeq := (k.flow f.dst f.vc).txSeq, sync := (k.flow f.dst f.vc).syncDue }) := by
  unfold Chip.sendFlow
  dsimp only
  rw [if_neg (by simp [hfatal]), if_pos (by simpa using hdst)]

/-- R189, R190: a write of the aperture that fits in one frame leaves as one WRITE frame. -/
theorem Chip.apertureWrite_one {k : Chip} {addr : Nat} {bs : Bytes} (poison : Bool)
    (hreach : k.reachable (apertureParts addr).1 = true) (hne : bs ≠ []) (hfits : bs.length ≤ 224) :
    (k.apertureWrite addr bs poison none).1 =
      k.sendFlow { k.newFrame 1 0 (apertureParts addr).1 (apertureParts addr).2.1 (apertureParts addr).2.2 true bs with
        poison := poison } := by
  unfold Chip.apertureWrite
  dsimp only
  rw [if_neg (by simp [hreach]), pieces_one hne hfits]
  rfl

/-- R191: the machine with a remote read of `len` bytes at `addr`, of an agent that is no hart, under the next READ_TAG. -/
def Chip.withRead (k : Chip) (addr len : Nat) : Chip :=
  { k with cn := { k.cn with
    nextTag := (k.cn.nextTag + 1) % 65536
    reads := k.cn.reads.insert k.cn.nextTag
      { peer := (apertureParts addr).1, window := (apertureParts addr).2.1, off := (apertureParts addr).2.2
        flowSeq := (k.flow (apertureParts addr).1 0).txSeq, len := len } } }

/-- R191: a read of the aperture takes the next READ_TAG and is sent. -/
theorem Chip.apertureReadBy_sends {k : Chip} {addr : Nat} (len : Nat) {who : By} (hin : inAperture addr = true)
    (hreach : k.reachable (apertureParts addr).1 = true) (hwho : who.source ≠ 0) :
    k.apertureReadBy addr len who =
      (k.withRead addr len).sendFlow
        (k.newFrame 2 0 (apertureParts addr).1 (apertureParts addr).2.1 k.cn.nextTag true
          (leBytes len 4 ++ leBytes (apertureParts addr).2.2 4)) := by
  have hhart : (if who.source == 0 then some who.id else none) = none := if_neg (by simpa using hwho)
  unfold Chip.apertureReadBy Chip.apertureRead
  dsimp only
  rw [if_neg (by simp [hin]), hhart, if_neg (by simp [hreach])]
  rfl

/-! ### Indirect access (R94, R202) -/

theorem key_cnIndData_ne {i j : Nat} (h : i ≠ j) : (CN_IND_DATA.DATA i).key ≠ (CN_IND_DATA.DATA j).key := by
  simp only [Fld.key]
  omega

/-- No field of the command register lies at a data register, and none of either is a status field. -/
theorem cnIndFields_apart : ∀ f ∈ [CN_IND_CMD.INDEX, CN_IND_CMD.TARGET, CN_IND_CMD.OP, CN_IND_CMD.STATUS, CN_IND_CMD.GO],
    f.key ∉ shownFields.map Fld.key ∧
    ∀ i < 4, (CN_IND_DATA.DATA i).key ≠ f.key ∧ (CN_IND_DATA.DATA i).key ∉ shownFields.map Fld.key := by decide +kernel

@[simp] theorem Chip.cnInd_mem (k : Chip) (target index op status : Nat) : (k.cnInd target index op status).mem = k.mem := rfl
@[simp] theorem Chip.cnInd_cn (k : Chip) (target index op status : Nat) : (k.cnInd target index op status).cn = k.cn := rfl

/-- R94: a command that ends well shows STATUS 0 and is no longer busy. -/
theorem Chip.rd_cnInd (k : Chip) (target index op : Nat) :
    (k.cnInd target index op 0).refresh.rd CN_IND_CMD.STATUS = 0 ∧
    (k.cnInd target index op 0).refresh.rd CN_IND_CMD.GO = 0 := by
  rw [Chip.rd_refresh _ (cnIndFields_apart CN_IND_CMD.STATUS (by decide)).1,
    Chip.rd_refresh _ (cnIndFields_apart CN_IND_CMD.GO (by decide)).1, Chip.cnInd, Chip.indDone,
    Chip.rd_wr_ne _ _ (by decide), Chip.rd_wr_self, Chip.rd_wr_self]
  exact ⟨rfl, rfl⟩

/-- R94: the data registers show the 32 bytes that a read command has put there. -/
theorem Chip.indBytes_cnInd (k : Chip) (target index op status : Nat) {b : Bytes} (hb : b.length = 32) :
    ((k.setInd CN_IND_DATA.DATA 4 b).cnInd target index op status).refresh.indBytes CN_IND_DATA.DATA 4 = b := by
  have hapart := cnIndFields_apart
  simp only [List.forall_mem_cons] at hapart
  obtain ⟨hindex, htarget, hop, hstatus, hgo, -⟩ := hapart
  refine Chip.indBytes_eq _ hb fun i hi => ?_
  rw [Chip.rd_refresh _ (hgo.2 i hi).2, Chip.cnInd, Chip.indDone, Chip.rd_wr_ne _ _ (hgo.2 i hi).1,
    Chip.rd_wr_ne _ _ (hstatus.2 i hi).1, Chip.rd_wr_ne _ _ (hop.2 i hi).1, Chip.rd_wr_ne _ _ (htarget.2 i hi).1,
    Chip.rd_wr_ne _ _ (hindex.2 i hi).1, Chip.rd_setInd _ (fun _ _ => key_cnIndData_ne) (fun _ => rfl) _ hi]

/-- R187, R202: a valid window entry is written to the shadow. -/
theorem Chip.windowWrite_valid {k : Chip} {w : Nat} {e : WinEntry} (hw : w < 1024)
    (he : e = WinEntry.ofBytes (k.indBytes CN_IND_DATA.DATA 4)) (hvalid : e.valid = true) :
    k.windowWrite w = (k.setWindow w fun x => { x with shadow := some e, drained := false }).cnInd 0 w 1 0 := by
  unfold Chip.windowWrite
  dsimp only
  rw [← he, if_neg (by omega), if_neg (by simp [hvalid])]

theorem Chip.cnIndRead_window (k : Chip) {w : Nat} (hw : w < 1024) :
    k.cnIndRead 0 w = (k.setInd CN_IND_DATA.DATA 4 (k.window w).bytes).cnInd 0 w 0 0 := by
  unfold Chip.cnIndRead
  dsimp only
  rw [if_neg (by simpa using hw), if_pos (by simp)]

/-! ### Drained windows (R188) -/

/-- R188: a window with no operation of an older generation left is drained. -/
theorem Chip.winDrained_last {k : Chip} {w : Nat} (hdraining : (k.window w).draining = true)
    (hold : k.olderInFlight w = false) :
    k.winDrained w = (k.setWindow w fun x => { x with draining := false, drained := true, old := [] }).cnEvent
      CN_EVENT.DRAINED 0 0 w 0 := by
  rw [Chip.winDrained, if_neg (by simp [hdraining, hold])]

/-! ### The commands -/

theorem exec_conosApertureWrite (s : State) {addr : Nat} (bs : Bytes) (who : By) (hin : inAperture addr = true) :
    exec (.conosApertureWrite addr bs who) s = .next (s.after (s.chip.apertureWrite addr bs false none).1) :=
  congrArg (fun k => Host.Outcome.next (s.after k)) (if_pos hin)

theorem exec_conosApertureRead (s : State) (addr len : Nat) (who : By) :
    exec (.conosApertureRead addr len who) s = .next (s.after (s.chip.apertureReadBy addr len who)) := rfl

theorem exec_cnWindowWrite (s : State) (w : Nat) :
    exec (.cnWindowWrite w) s = .next (s.after (s.chip.windowWrite w)) := rfl

theorem exec_cnRouteWrite (s : State) (p : Nat) :
    exec (.cnRouteWrite p) s = .next (s.after (s.chip.routeWrite p)) := rfl

theorem exec_cnIndRead (s : State) (target index : Nat) :
    exec (.cnIndRead target index) s = .next (s.after (s.chip.cnIndRead (target % 2) index)) := rfl

theorem exec_winDrained (s : State) (w : Nat) :
    exec (.winDrained w) s = .next (s.after (s.chip.winDrained w)) := rfl

/-- Settles O18: an access to the aperture is one frame of a flow, an access to the tables changes or shows one entry. -/
theorem apertureAndTables : Obligations.ApertureAndTables := by
  refine ⟨?_, ?_, ?_, ?_, ?_, ?_⟩
  · intro s addr bs who hin hon hfatal hdst hne hfits
    have hreach : s.chip.reachable (apertureParts addr).1 = true := by simp [Chip.reachable, hon, hdst]
    rw [exec_conosApertureWrite s bs who hin, Chip.apertureWrite_one false hreach hne hfits, hdst,
      Chip.sendFlow_loop hfatal (by rfl)]
    rfl
  · intro s addr len who hin hreach hwho
    rw [exec_conosApertureRead, Chip.apertureReadBy_sends len hin hreach hwho]
    obtain ⟨flows, hsent⟩ := (s.chip.withRead addr len).sent_sendFlow
      (s.chip.newFrame 2 0 (apertureParts addr).1 (apertureParts addr).2.1 s.chip.cn.nextTag true
        (leBytes len 4 ++ leBytes (apertureParts addr).2.2 4))
    refine ⟨_, rfl, ?_, ?_, .of_eq ?_⟩
    · rw [State.after_chip, Chip.refresh_cn, hsent.nextTag, Chip.withRead]
    · rw [State.after_chip, Chip.refresh_cn, hsent.reads, Chip.withRead, Tbl.find_insert_self]
    · rw [State.after_chip, Chip.refresh_mem, hsent.mem, Chip.withRead]
  · intro s w e hw he hvalid
    have hwin : ∀ w', (s.after (s.chip.windowWrite w)).chip.window w' =
        (s.chip.setWindow w fun x => { x with shadow := some e, drained := false }).window w' := fun w' => by
      rw [State.after_chip, Chip.window_refresh, Chip.windowWrite_valid hw he hvalid, Chip.window, Chip.cnInd_cn]
    rw [exec_cnWindowWrite]
    refine ⟨_, rfl, ?_, ?_, ?_, fun w' hw' => ?_, ?_⟩
    · rw [hwin, Chip.window_setWindow]
    · rw [hwin, Chip.window_setWindow]
    · rw [hwin, Chip.window_setWindow]
    · rw [hwin, Chip.window_setWindow_ne _ _ hw']
    · rw [State.after_chip, Chip.windowWrite_valid hw he hvalid]
      exact ⟨(Chip.rd_cnInd ..).1, (Chip.rd_cnInd ..).2, .of_eq (by simp)⟩
  · intro s p hp
    rw [exec_cnRouteWrite, Chip.routeWrite, if_neg (by omega)]
    refine ⟨_, rfl, ?_, fun p' hp' => ?_, (Chip.rd_cnInd ..).1, .of_eq (by simp)⟩
    · rw [State.after_chip, Chip.refresh_cn, Chip.cnInd_cn, Tbl.get_set_self]
    · rw [State.after_chip, Chip.refresh_cn, Chip.cnInd_cn, Tbl.get_set_ne _ _ _ _ hp']
  · intro s w hw
    rw [exec_cnIndRead, Nat.zero_mod, Chip.cnIndRead_window _ hw]
    exact ⟨_, rfl, Chip.indBytes_cnInd _ _ _ _ _ (Window.bytes_length _), (Chip.rd_cnInd ..).1, by simp, .of_eq (by simp)⟩
  · intro s w hw hdraining hold
    rw [exec_winDrained, Chip.winDrained_last hdraining hold]
    have hwin : ∀ k : Chip, ((k.setWindow w fun x => { x with draining := false, drained := true, old := [] }).cnEvent
        CN_EVENT.DRAINED 0 0 w 0).refresh.window w = { k.window w with draining := false, drained := true, old := [] } :=
      fun k => by rw [Chip.window_refresh, Chip.window, Chip.cnEvent_cn, ← Chip.window, Chip.window_setWindow]
    refine ⟨_, rfl, by rw [State.after_chip, hwin], by rw [State.after_chip, hwin], by rw [State.after_chip, hwin], ?_,
      .of_eq ?_⟩
    · refine (Chip.rd_refresh_conos _ rfl (by simp) (by simp)).trans ?_
      exact Chip.rd_cnEvent_self _ _ _ _ _ rfl (by decide +kernel)
    · rw [State.after_chip, Chip.refresh_mem, Chip.cnEvent_mem, Chip.setWindow_mem]

end Sys2Proof.Machine
end

section
/-!
PROOFS. The service of host functions (08): the reset of a function, a change of its configuration space, the reset of the endpoint
and its link.
-/

namespace Sys2Proof.Machine

/-! ### A table with every value changed -/

section
variable {α : Type}

theorem Tbl.mem_of_find {t : Tbl α} {n : Nat} {a : α} (h : t.find n = some a) : (n, a) ∈ t := by
  induction t with
  | nil => cases h
  | cons e t ih =>
    rw [Tbl.find] at h
    split at h
    · next hn =>
      cases hn
      cases h
      exact List.mem_cons_self ..
    · exact List.mem_cons_of_mem _ (ih h)

/-- What holds of the default and of every entry holds of what is read. -/
theorem Tbl.get_of_forall {P : α → Prop} {d : α} {t : Tbl α} (hd : P d) (ht : ∀ e ∈ t, P e.2) (n : Nat) : P (t.get d n) := by
  unfold Tbl.get
  cases hn : t.find n with
  | none => exact hd
  | some a => exact ht _ (Tbl.mem_of_find hn)

variable [DecidableEq α] {d : α} {t : Tbl α} {f : Nat → α → α}

theorem Tbl.mem_mapVals {e : Nat × α} (h : e ∈ Tbl.mapVals d t f) : ∃ a, (e.1, a) ∈ t ∧ e.2 = f e.1 a := by
  obtain ⟨⟨n, a⟩, hmem, rfl⟩ := List.mem_map.1 (List.mem_filter.1 h).1
  exact ⟨a, hmem, rfl⟩

theorem Tbl.find_mapVals {n : Nat} {a : α} (h : t.find n = some a) (hne : f n a ≠ d) :
    (Tbl.mapVals d t f).find n = some (f n a) := by
  induction t with
  | nil => cases h
  | cons e t ih =>
    rw [Tbl.find] at h
    split at h
    · next hn =>
      cases hn
      cases h
      simp [Tbl.mapVals, Tbl.find, hne]
    · next hn =>
      rw [Tbl.mapVals, List.map_cons, List.filter_cons]
      split
      · rw [Tbl.find, if_neg hn]
        exact ih h
      · exact ih h

/-- A place that holds no default, before and after the change, reads the changed value. -/
theorem Tbl.get_mapVals {n : Nat} (h : t.get d n ≠ d) (hne : f n (t.get d n) ≠ d) :
    (Tbl.mapVals d t f).get d n = f n (t.get d n) := by
  unfold Tbl.get at h hne ⊢
  cases hn : t.find n with
  | none => simp [hn] at h
  | some a =>
    rw [hn] at hne
    rw [Tbl.find_mapVals hn hne]
    rfl

end

/-! ### What the end of service reaches (R206, R223, R224) -/

/-- `k'` differs from `k` only in the ring engine and the host endpoint. -/
def Chip.ServiceChanged (k k' : Chip) : Prop := k' = { k with re := k'.re, hf := k'.hf }

theorem Chip.ServiceChanged.of_hf (k : Chip) (hf : HostEnd) : k.ServiceChanged { k with hf := hf } := rfl

theorem Chip.ServiceChanged.of_re (k : Chip) (re : RingEngine) : k.ServiceChanged { k with re := re } := rfl

theorem Chip.serviceChanged_setFn (k : Chip) (f : Nat) (g : FnCtx → FnCtx) : k.ServiceChanged (k.setFn f g) := rfl

theorem Chip.serviceChanged_setHostFn (k : Chip) (f : Nat) (g : HostFn → HostFn) : k.ServiceChanged (k.setHostFn f g) := rfl

theorem Chip.serviceChanged_endService (k : Chip) (f : Nat) : k.ServiceChanged (k.endService f) := rfl

theorem Chip.serviceChanged_dropVfs (k : Chip) : k.ServiceChanged k.dropVfs := rfl

theorem Chip.ServiceChanged.trans {k k' k'' : Chip} (h : k.ServiceChanged k') (h' : k'.ServiceChanged k'') :
    k.ServiceChanged k'' := by
  rw [Chip.ServiceChanged] at h h' ⊢
  rw [h', h]

section
variable {k k' : Chip} (h : k.ServiceChanged k')
include h

theorem Chip.ServiceChanged.regs : k'.regs = k.regs := by rw [h]
theorem Chip.ServiceChanged.mem : k'.mem = k.mem := by rw [h]
theorem Chip.ServiceChanged.out : k'.out = k.out := by rw [h]

end

theorem Chip.serviceChanged_foldl_endService (fs : List Nat) (k : Chip) : k.ServiceChanged (fs.foldl Chip.endService k) :=
  List.foldlRecOn (motive := k.ServiceChanged) _ _ rfl fun k' h f _ => h.trans (k'.serviceChanged_endService f)

theorem Chip.serviceChanged_changeService {k : Chip} {g : Chip → Chip} (h : k.ServiceChanged (g k)) :
    k.ServiceChanged (k.changeService g) := h.trans (Chip.serviceChanged_foldl_endService _ _)

/-- What a change establishes and the end of any function's service keeps holds after the change of service. -/
theorem Chip.changeService_of {P : Chip → Prop} {k : Chip} {g : Chip → Chip} (h : P (g k))
    (hkeep : ∀ k f, P k → P (k.endService f)) : P (k.changeService g) :=
  List.foldlRecOn (motive := P) _ _ h fun k h f _ => hkeep k f h

theorem Chip.mem_enabledFns {k : Chip} {f : Nat} : f ∈ k.enabledFns ↔ f < 256 ∧ k.fnEnabled f = true := by
  simp [Chip.enabledFns]

/-- R206: a change by which no function leaves service ends the service of none. -/
theorem Chip.changeService_none {k : Chip} {g : Chip → Chip} (h : ∀ f, k.fnEnabled f = true → (g k).fnEnabled f = true) :
    k.changeService g = g k := by
  have hleft : (k.enabledFns.filter fun f => !(g k).fnEnabled f) = [] := List.filter_eq_nil_iff.2 fun f hf => by
    simp [h f (Chip.mem_enabledFns.1 hf).2]
  rw [Chip.changeService, hleft]
  rfl

/-- R206: a change by which one function leaves service ends the service of that one. -/
theorem Chip.changeService_one {k : Chip} {g : Chip → Chip} {f : Nat} (hf : f < 256) (hon : k.fnEnabled f = true)
    (hoff : (g k).fnEnabled f = false) (hrest : ∀ f', f' ≠ f → (g k).fnEnabled f' = k.fnEnabled f') :
    k.changeService g = (g k).endService f := by
  have hmem : ∀ f', f' ∈ (k.enabledFns.filter fun f => !(g k).fnEnabled f) ↔ f' ∈ [f] := fun f' => by
    rw [List.mem_filter, Chip.mem_enabledFns, List.mem_singleton]
    by_cases hne : f' = f
    · simp [hne, hf, hon, hoff]
    · simp [hne, hrest f' hne]
  have hone : [f].Nodup := List.nodup_cons.2 ⟨List.not_mem_nil, List.nodup_nil⟩
  have hleft : (k.enabledFns.filter fun f => !(g k).fnEnabled f) = [f] :=
    List.perm_singleton.1 ((List.perm_ext_iff_of_nodup (k.enabledFns_nodup.filter _) hone).2 hmem)
  rw [Chip.changeService, hleft]
  rfl

/-! ### The end of one function's service (R223) -/

theorem Chip.hostFn_endService_self (k : Chip) (f : Nat) :
    (k.endService f).hostFn f = { k.hostFn f with dropDue := true } := Chip.hostFn_setHostFn _ f _

theorem Chip.hostFn_endService_ne (k : Chip) {f f' : Nat} (h : f' ≠ f) : (k.endService f).hostFn f' = k.hostFn f' :=
  Chip.hostFn_setHostFn_ne _ _ h

theorem Chip.endService_fns (k : Chip) (f : Nat) :
    (k.endService f).re.fns = Tbl.mod {} k.re.fns f fun c => { c with credit := 0 } := rfl

theorem Chip.endService_rings (k : Chip) (f : Nat) : (k.endService f).re.rings = Tbl.mapVals {} k.re.rings fun r g =>
    if r / 32 == f && !bit g.flags 1 then { g with fetching := false } else g := rfl

theorem Chip.endService_tags (k : Chip) (f : Nat) : (k.endService f).hf.tags =
    k.hf.tags.map fun e => if e.2.fn == f then (e.1, { e.2 with quarantined := true }) else e := rfl

theorem Chip.fnCtx_endService_self (k : Chip) (f : Nat) : (k.endService f).fnCtx f = { k.fnCtx f with credit := 0 } := by
  rw [Chip.fnCtx, Chip.endService_fns, Tbl.get_mod_self]

theorem Chip.fnCtx_endService_ne (k : Chip) {f f' : Nat} (h : f' ≠ f) : (k.endService f).fnCtx f' = k.fnCtx f' := by
  rw [Chip.fnCtx, Chip.endService_fns, Tbl.get_mod_ne _ _ _ _ h]

/-- R223, step 3: the tags of the function go into quarantine, and those of another stay there. -/
theorem Chip.quarantined_endService {k : Chip} {f f' : Nat}
    (h : f' = f ∨ ∀ e ∈ k.hf.tags, e.2.fn = f' → e.2.quarantined = true) :
    ∀ e ∈ (k.endService f).hf.tags, e.2.fn = f' → e.2.quarantined = true := by
  rw [Chip.endService_tags, List.forall_mem_map]
  intro e he
  split
  · exact fun _ => rfl
  · next hne =>
    rcases h with rfl | h
    · exact fun hfn => absurd (by simpa using hfn) hne
    · exact h e he

/-! ### A function that is reset (R223) -/

/-- R223, step 4: a ring of the internal pool, or one with both of its index pairs at 0 and no fetch under way. -/
def Ring.Cleared (g : Ring) : Prop :=
  g.internal = false → g.wrPi = 0 ∧ g.wrCi = 0 ∧ g.crPi = 0 ∧ g.crCi = 0 ∧ g.fetching = false

theorem Ring.cleared_afterFlr (g : Ring) : g.afterFlr.Cleared := fun _ => ⟨rfl, rfl, rfl, rfl, rfl⟩

/-- What an FLR establishes of its function, and the end of any function's service keeps. -/
structure Chip.UnderFlr (f : Nat) (k : Chip) : Prop where
  inFlr : (k.hostFn f).inFlr = true
  dropDue : (k.hostFn f).dropDue = true
  credit : (k.fnCtx f).credit = 0
  deferred : (k.fnCtx f).deferred = 0
  tags : ∀ e ∈ k.hf.tags, e.2.fn = f → e.2.quarantined = true
  rings : ∀ e ∈ k.re.rings, e.1 / 32 = f → e.2.Cleared

theorem Chip.UnderFlr.hostFn_ne {f : Nat} {k : Chip} (h : k.UnderFlr f) : k.hostFn f ≠ {} := fun hdefault => by
  have hflr := h.inFlr
  rw [hdefault] at hflr
  cases hflr

theorem Chip.UnderFlr.endService {f : Nat} {k : Chip} (h : k.UnderFlr f) (f' : Nat) : (k.endService f').UnderFlr f := by
  have hrings : ∀ e ∈ (k.endService f').re.rings, e.1 / 32 = f → e.2.Cleared := by
    rw [Chip.endService_rings]
    intro e he hf
    obtain ⟨g, hg, heq⟩ := Tbl.mem_mapVals he
    have hcleared := h.rings _ hg hf
    rw [heq]
    split
    · intro hpool
      obtain ⟨hwrPi, hwrCi, hcrPi, hcrCi, -⟩ := hcleared hpool
      exact ⟨hwrPi, hwrCi, hcrPi, hcrCi, rfl⟩
    · exact hcleared
  have htags := Chip.quarantined_endService (f := f') (.inr h.tags)
  by_cases hf : f = f'
  · subst hf
    exact ⟨by rw [Chip.hostFn_endService_self]; exact h.inFlr, by rw [Chip.hostFn_endService_self],
      by rw [Chip.fnCtx_endService_self], by rw [Chip.fnCtx_endService_self]; exact h.deferred, htags, hrings⟩
  · have hfn := k.hostFn_endService_ne hf
    have hctx := k.fnCtx_endService_ne hf
    exact ⟨hfn ▸ h.inFlr, hfn ▸ h.dropDue, hctx ▸ h.credit, hctx ▸ h.deferred, htags, hrings⟩

/-- R224: with its VFs gone the physical function is still under its FLR. -/
theorem Chip.UnderFlr.dropVfs {k : Chip} (h : k.UnderFlr 0) : k.dropVfs.UnderFlr 0 := by
  have hfn : k.dropVfs.hostFn 0 = k.hostFn 0 :=
    Tbl.get_mapVals (f := fun f (c : HostFn) => if f == 0 then c else c.afterReset) h.hostFn_ne h.hostFn_ne
  exact ⟨hfn ▸ h.inFlr, hfn ▸ h.dropDue, h.credit, h.deferred, h.tags, h.rings⟩

/-- R223: an FLR as it acts on its own function. -/
def Chip.flrOwn (k : Chip) (f : Nat) : Chip :=
  let k := k.endService f
  let k := { k with re := { k.re with
    rings := Tbl.mapVals {} k.re.rings fun r g => if r / 32 == f && !bit g.flags 1 then g.afterFlr else g } }
  (k.setFn f fun c => { c with deferred := 0 }).setHostFn f fun c => { c.afterReset with inFlr := true }

theorem Chip.flr_vf (k : Chip) {f : Nat} (h : f ≠ 0) : k.flr f = k.flrOwn f := if_pos (by simpa using h)

/-- R223, R224: an FLR of the physical function ends the VFs as well. -/
theorem Chip.flr_pf (k : Chip) : k.flr 0 = { (k.flrOwn 0).changeService Chip.dropVfs with
    hf := { ((k.flrOwn 0).changeService Chip.dropVfs).hf with numVfs := 0, aspm := 0 } } := rfl

theorem Chip.underFlr_flrOwn (k : Chip) (f : Nat) : (k.flrOwn f).UnderFlr f := by
  have hfn : (k.flrOwn f).hostFn f = { ((k.endService f).hostFn f).afterReset with inFlr := true } :=
    Chip.hostFn_setHostFn _ f _
  have hfns : (k.flrOwn f).re.fns = Tbl.mod {} (k.endService f).re.fns f fun c => { c with deferred := 0 } := rfl
  have hctx : (k.flrOwn f).fnCtx f = { (k.endService f).fnCtx f with deferred := 0 } := by
    rw [Chip.fnCtx, hfns, Tbl.get_mod_self]
  have hrings : (k.flrOwn f).re.rings = Tbl.mapVals {} (k.endService f).re.rings fun r g =>
      if r / 32 == f && !bit g.flags 1 then g.afterFlr else g := rfl
  have htags : (k.flrOwn f).hf.tags = (k.endService f).hf.tags := rfl
  refine ⟨by rw [hfn], by rw [hfn, Chip.hostFn_endService_self]; rfl, by rw [hctx, Chip.fnCtx_endService_self], by rw [hctx],
    by rw [htags]; exact Chip.quarantined_endService (.inl rfl), ?_⟩
  rw [hrings]
  intro e he hf
  obtain ⟨g, -, heq⟩ := Tbl.mem_mapVals he
  rw [heq]
  split
  · exact g.cleared_afterFlr
  · next hpool => exact fun hfunction => absurd (show bit g.flags 1 = false from hfunction) (by simpa [hf] using hpool)

theorem Chip.underFlr_flr (k : Chip) (f : Nat) : (k.flr f).UnderFlr f := by
  by_cases hf : f = 0
  · subst hf
    have h : ((k.flrOwn 0).changeService Chip.dropVfs).UnderFlr 0 :=
      Chip.changeService_of (P := Chip.UnderFlr 0) (k.underFlr_flrOwn 0).dropVfs fun _ f' h => h.endService f'
    rw [Chip.flr_pf]
    exact ⟨h.inFlr, h.dropDue, h.credit, h.deferred, h.tags, h.rings⟩
  · rw [Chip.flr_vf k hf]
    exact k.underFlr_flrOwn f

theorem Chip.serviceChanged_flr (k : Chip) (f : Nat) : k.ServiceChanged (k.flr f) := by
  have hown : k.ServiceChanged (k.flrOwn f) := (k.serviceChanged_endService f).trans
    ((Chip.ServiceChanged.of_re _ _).trans ((Chip.serviceChanged_setFn _ f _).trans (Chip.serviceChanged_setHostFn _ f _)))
  by_cases hf : f = 0
  · subst hf
    have hdrop : (k.flrOwn 0).ServiceChanged ((k.flrOwn 0).changeService Chip.dropVfs) :=
      Chip.serviceChanged_changeService (k.flrOwn 0).serviceChanged_dropVfs
    rw [Chip.flr_pf]
    exact hown.trans (hdrop.trans (.of_hf _ _))
  · rw [Chip.flr_vf k hf]
    exact hown

theorem Chip.fnEnabled_of_inFlr {k : Chip} {f : Nat} (h : (k.hostFn f).inFlr = true) : k.fnEnabled f = false := by
  simp [Chip.fnEnabled, h]

theorem Chip.fnEnabled_of_notBusMaster {k : Chip} {f : Nat} (h : (k.hostFn f).busMaster = false) : k.fnEnabled f = false := by
  simp [Chip.fnEnabled, h]

/-! ### Bus Master Enable (R205, R206) -/

/-- The machine with Bus Master Enable of function `f` set to `on`. -/
def Chip.withBusMaster (k : Chip) (f : Nat) (on : Bool) : Chip := k.setHostFn f fun c => { c with busMaster := on }

theorem Chip.hostFn_withBusMaster (k : Chip) (f : Nat) (on : Bool) :
    (k.withBusMaster f on).hostFn f = { k.hostFn f with busMaster := on } := k.hostFn_setHostFn f _

/-- Bus Master Enable of a function bears on the service of that function alone. -/
theorem Chip.fnEnabled_withBusMaster_ne (k : Chip) {f f' : Nat} (on : Bool) (h : f' ≠ f) :
    (k.withBusMaster f on).fnEnabled f' = k.fnEnabled f' := by
  have hfn : (k.withBusMaster f on).hostFn f' = k.hostFn f' := k.hostFn_setHostFn_ne _ h
  rw [Chip.fnEnabled, Chip.fnEnabled, hfn]
  rfl

theorem Chip.fnEnabled_withBusMaster_true {k : Chip} (f : Nat) {f' : Nat} (h : k.fnEnabled f' = true) :
    (k.withBusMaster f true).fnEnabled f' = true := by
  by_cases hf : f' = f
  · subst hf
    simp only [Chip.fnEnabled, Bool.and_eq_true] at h ⊢
    rw [Chip.hostFn_withBusMaster]
    obtain ⟨⟨⟨⟨hallow, -⟩, hd3⟩, hflr⟩, hexists⟩ := h
    exact ⟨⟨⟨⟨hallow, rfl⟩, hd3⟩, hflr⟩, hexists⟩
  · rw [Chip.fnEnabled_withBusMaster_ne k true hf, h]

theorem Chip.fnChange_busMaster (k : Chip) (f : Nat) (on : Bool) :
    k.fnChange (.busMaster f on) = k.changeService fun k => k.withBusMaster f on := rfl

theorem Chip.fnChange_enables (k : Chip) (f : Nat) : k.fnChange (.busMaster f true) = k.withBusMaster f true :=
  (k.fnChange_busMaster f true).trans (Chip.changeService_none fun _ => Chip.fnEnabled_withBusMaster_true f)

theorem Chip.fnChange_disables {k : Chip} {f : Nat} (hf : f < 256) (hon : k.fnEnabled f = true) :
    k.fnChange (.busMaster f false) = (k.withBusMaster f false).endService f := by
  have hoff : (k.withBusMaster f false).fnEnabled f = false :=
    Chip.fnEnabled_of_notBusMaster (by rw [Chip.hostFn_withBusMaster])
  exact (k.fnChange_busMaster f false).trans
    (Chip.changeService_one hf hon hoff fun _ => k.fnEnabled_withBusMaster_ne false)

/-! ### The link (R224, R225) -/

/-- The fields of HF_STATUS that show the link. -/
def linkFields : List Fld := [HF_STATUS.LINK_UP, HF_STATUS.SPEED, HF_STATUS.WIDTH, HF_STATUS.FLIT, HF_STATUS.LSTATE]

theorem linkFields_not_shown : ∀ f ∈ linkFields, f.key ∉ shownFields.map Fld.key := by decide +kernel

theorem Chip.rd_refresh_link (k : Chip) {f : Fld} (hf : f ∈ linkFields) : k.refresh.rd f = k.rd f :=
  k.rd_refresh (linkFields_not_shown f hf)

/-- The fields of HF_STATUS that show the link, with what they show. -/
def linkShown (up speed width flit state : Nat) : List (Fld × Nat) :=
  [(HF_STATUS.LINK_UP, up), (HF_STATUS.SPEED, speed), (HF_STATUS.WIDTH, width), (HF_STATUS.FLIT, flit),
    (HF_STATUS.LSTATE, state)]

/-- The link shown up or down, at a speed, at a width, in flit mode or not, and in a link state. -/
def Chip.showLink (k : Chip) (up speed width flit state : Nat) : Chip :=
  (linkShown up speed width flit state).foldl (fun k p => k.wr p.1 p.2) k

section
variable (k : Chip) (up speed width flit state : Nat)

theorem linkShown_keys : ((linkShown up speed width flit state).map fun p => p.1.key) = linkFields.map Fld.key := rfl

theorem mem_linkShown {p : Fld × Nat} (hp : p ∈ linkShown up speed width flit state) : p.1 ∈ linkFields :=
  List.mem_map_of_mem (f := Prod.fst) hp

theorem Chip.rd_showLink {p : Fld × Nat} (hp : p ∈ linkShown up speed width flit state) :
    (k.showLink up speed width flit state).rd p.1 = p.2 % 2 ^ p.1.width := by
  have hnodup : ((linkShown up speed width flit state).map fun p => p.1.key).Nodup := by
    rw [linkShown_keys]
    decide +kernel
  exact Chip.rd_foldl_wr_mem k _ hnodup p hp

theorem Chip.sameRegs_showLink : k.SameRegs linkFields (k.showLink up speed width flit state).refresh :=
  .refresh fun _ hf => Chip.rd_foldl_wr_ne k _ _ fun _ hp he =>
    hf (by rw [he]; exact List.mem_map_of_mem (mem_linkShown _ _ _ _ _ hp))

@[simp] theorem Chip.showLink_mem : (k.showLink up speed width flit state).mem = k.mem := rfl
@[simp] theorem Chip.showLink_hf : (k.showLink up speed width flit state).hf = k.hf := rfl

end

theorem Chip.linkUp_trains {k : Chip} {speed : Nat} (width : Nat) (flit : Bool) (hen : k.on HF_CTRL.LINK_EN = true)
    (hgate : k.pwr.gatedEndpoint = false) (hpower : k.pwr.pkg.powered = true) (htarget : k.rd HF_CTRL.TARGET_SPEED = 0)
    (hspeed : speed ≤ 6) : k.linkUp speed width flit = k.showLink 1 speed width (ofBool (flit || speed == 6)) 0 := by
  rw [Chip.linkUp, if_neg (by simp [hen, hgate, hpower]), htarget]
  simp only [beq_self_eq_true, Bool.true_or, if_true, Nat.min_eq_left hspeed]
  rfl

/-! ### The reset of the endpoint (R224) -/

/-- R224: every configuration space at its reset values, and no VF. -/
def Chip.resetFns (k : Chip) : Chip := { k.dropVfs with hf := { k.dropVfs.hf with
  fns := Tbl.mapVals {} k.dropVfs.hf.fns fun _ c => { c.afterReset with inFlr := false } } }

/-- R224: the endpoint without its functions, before the link shows. -/
def Chip.endpointIdle (k : Chip) : Chip := { k.changeService Chip.resetFns with
  hf := { (k.changeService Chip.resetFns).hf with numVfs := 0, aspm := 0 } }

theorem Chip.endpointDown_eq (k : Chip) : k.endpointDown = k.endpointIdle.showLink 0 0 0 0 5 := rfl

/-- No function may master the bus, so none is in service. -/
def Chip.NoBusMaster (k : Chip) : Prop := ∀ f, (k.hostFn f).busMaster = false

theorem Chip.noBusMaster_resetFns (k : Chip) : k.resetFns.NoBusMaster := fun f => by
  have hfns : k.resetFns.hf.fns = Tbl.mapVals {} k.dropVfs.hf.fns fun _ c => { c.afterReset with inFlr := false } := rfl
  rw [Chip.hostFn, hfns]
  refine Tbl.get_of_forall (P := fun c : HostFn => c.busMaster = false) rfl (fun _ he => ?_) f
  obtain ⟨c, -, heq⟩ := Tbl.mem_mapVals he
  rw [heq]
  rfl

theorem Chip.NoBusMaster.endService {k : Chip} (h : k.NoBusMaster) (f : Nat) : (k.endService f).NoBusMaster := fun f' => by
  by_cases hf : f' = f
  · subst hf
    rw [Chip.hostFn_endService_self]
    exact h f'
  · rw [Chip.hostFn_endService_ne k hf, h f']

theorem Chip.noBusMaster_endpointDown (k : Chip) : k.endpointDown.NoBusMaster := fun f => by
  have h : (k.changeService Chip.resetFns).NoBusMaster :=
    Chip.changeService_of (P := Chip.NoBusMaster) k.noBusMaster_resetFns fun _ f h => h.endService f
  rw [Chip.endpointDown_eq, Chip.hostFn, Chip.showLink_hf]
  exact h f

theorem Chip.NoBusMaster.enabledFns {k : Chip} (h : k.NoBusMaster) : k.enabledFns = [] :=
  List.filter_eq_nil_iff.2 fun f _ => by simp [Chip.fnEnabled_of_notBusMaster (h f)]

theorem Chip.serviceChanged_endpointIdle (k : Chip) : k.ServiceChanged k.endpointIdle :=
  (Chip.serviceChanged_changeService (g := Chip.resetFns) rfl).trans (Chip.ServiceChanged.of_hf _ _)

theorem Chip.sameRegs_endpointDown (k : Chip) : k.SameRegs linkFields k.endpointDown.refresh := fun f hf hs => by
  rw [Chip.endpointDown_eq, Chip.sameRegs_showLink _ _ _ _ _ _ f hf hs, Chip.rd_congr k.serviceChanged_endpointIdle.regs]

/-- R224, R225: the link shows that it is down, and so does its state. -/
theorem Chip.rd_endpointDown (k : Chip) :
    k.endpointDown.rd HF_STATUS.LINK_UP = 0 ∧ k.endpointDown.rd HF_STATUS.LSTATE = 5 := by
  rw [Chip.endpointDown_eq]
  exact ⟨k.endpointIdle.rd_showLink 0 0 0 0 5 (p := (HF_STATUS.LINK_UP, 0)) (by simp [linkShown]),
    k.endpointIdle.rd_showLink 0 0 0 0 5 (p := (HF_STATUS.LSTATE, 5)) (by simp [linkShown])⟩

/-! ### The commands -/

theorem exec_flr (s : State) (f : Nat) : exec (.flr f) s = .next (s.after (s.chip.flr f)) := rfl

theorem exec_flrComplete (s : State) (f : Nat) :
    exec (.flrComplete f) s = .next (s.after (s.chip.setHostFn f fun c => { c with inFlr := false })) := rfl

theorem exec_functionEnableChange (s : State) (change : FnChange) :
    exec (.functionEnableChange change) s = .next (s.after (s.chip.fnChange change)) := rfl

theorem exec_endpointReset (s : State) : exec .endpointReset s = .next (s.after s.chip.endpointDown) := rfl

theorem exec_linkUp (s : State) (speed width : Nat) (flit : Bool) :
    exec (.linkUp speed width flit) s = .next (s.after (s.chip.linkUp speed width flit)) := rfl

/-- Settles O19: what an FLR establishes of its function, the end of the VFs' service keeps; a change of Bus Master Enable ends
the service of its own function alone; after a reset no function may master the bus. -/
theorem functionService : Obligations.FunctionService := by
  refine ⟨?_, ?_, ?_, ?_, ?_⟩
  · intro s f
    have h := s.chip.underFlr_flr f
    have hsame := s.chip.serviceChanged_flr f
    rw [exec_flr]
    refine ⟨_, rfl, ?_⟩
    simp only [State.after_chip, Chip.hostFn_refresh, Chip.fnCtx_refresh, Chip.refresh_hf, Chip.refresh_re,
      Chip.sameMemory_refresh, Chip.refresh_out]
    exact ⟨Chip.fnEnabled_of_inFlr (by rw [Chip.hostFn_refresh]; exact h.inFlr), h.inFlr, h.dropDue, h.credit, h.deferred,
      h.tags, h.rings, .of_eq hsame.mem, .of_eq hsame.regs, hsame.out⟩
  · intro s f
    rw [exec_flrComplete]
    exact ⟨_, rfl, by simp, fun g hg => by simp [Chip.hostFn_setHostFn_ne _ _ hg], by simp, .of_eq (by simp), .of_eq rfl⟩
  · intro s f
    constructor
    · rw [exec_functionEnableChange, Chip.fnChange_enables]
      exact ⟨_, rfl, by simp [Chip.hostFn_withBusMaster], by simp [Chip.withBusMaster],
        .of_eq (by simp [Chip.withBusMaster]), .of_eq rfl⟩
    · intro hf hon
      have hsame := (s.chip.serviceChanged_setHostFn f _).trans ((s.chip.withBusMaster f false).serviceChanged_endService f)
      rw [exec_functionEnableChange, Chip.fnChange_disables hf hon]
      refine ⟨_, rfl, ?_⟩
      simp only [State.after_chip, Chip.hostFn_refresh, Chip.fnCtx_refresh, Chip.refresh_hf, Chip.sameMemory_refresh]
      exact ⟨by rw [Chip.hostFn_endService_self, Chip.hostFn_withBusMaster], by rw [Chip.fnCtx_endService_self],
        Chip.quarantined_endService (.inl rfl), .of_eq hsame.mem, .of_eq hsame.regs⟩
  · intro s
    have hnone : (s.chip.endpointDown.refresh).NoBusMaster := fun f => by
      rw [Chip.hostFn_refresh, s.chip.noBusMaster_endpointDown f]
    obtain ⟨hup, hstate⟩ := s.chip.rd_endpointDown
    rw [exec_endpointReset]
    refine ⟨_, rfl, hnone.enabledFns, (Chip.rd_refresh_link _ (by simp [linkFields])).trans hup,
      (Chip.rd_refresh_link _ (by simp [linkFields])).trans hstate, .of_eq ?_, s.chip.sameRegs_endpointDown⟩
    rw [State.after_chip, Chip.refresh_mem, Chip.endpointDown_eq, Chip.showLink_mem, s.chip.serviceChanged_endpointIdle.mem]
  · intro s speed width flit hen hgate hpower htarget hspeed hwidth
    rw [exec_linkUp, Chip.linkUp_trains width flit hen hgate hpower htarget hspeed]
    have hshown : ∀ p ∈ linkShown 1 speed width (ofBool (flit || speed == 6)) 0,
        (s.chip.showLink 1 speed width (ofBool (flit || speed == 6)) 0).refresh.rd p.1 = p.2 % 2 ^ p.1.width := fun p hp =>
      (Chip.rd_refresh_link _ (mem_linkShown _ _ _ _ _ hp)).trans (s.chip.rd_showLink _ _ _ _ _ hp)
    simp only [linkShown, List.forall_mem_cons] at hshown
    obtain ⟨hup, hspeedShown, hwidthShown, hflit, hstate, -⟩ := hshown
    refine ⟨_, rfl, hup, ?_, ?_, ?_, hstate, by simp, .of_eq (by simp)⟩
    · exact hspeedShown.trans (Nat.mod_eq_of_lt (by simp; omega))
    · exact hwidthShown.trans (Nat.mod_eq_of_lt (by simp; omega))
    · exact hflit.trans (Nat.mod_eq_of_lt (by unfold ofBool; split <;> decide))

end Sys2Proof.Machine
end

section
/-!
PROOFS. Wake sources and clocks (19): what a wake source starts, what the loss of a reference clock does, Gunel's lapse as the
H-die reports it, and the waits of crystals and PLLs.
-/

namespace Sys2Proof.Machine

/-! ### Wake sources (R488) -/

section
variable {k : Chip} {src : Nat} (facts : StartFacts)

theorem Chip.wakeFires_disabled (h : bit (k.rd PWR_WAKE.EN) src = false) : k.wakeFires src facts = k := by
  rw [Chip.wakeFires, if_pos (by simp [h])]

theorem Chip.wakeFires_starts (hen : bit (k.rd PWR_WAKE.EN) src = true) (hsrc : src < 4)
    (h : k.pwr.pkg = .standby ∨ k.pwr.pkg = .drydown) : k.wakeFires src facts = k.wakeStart src facts := by
  rw [Chip.wakeFires, if_neg (by simp [hen, hsrc])]
  rcases h with h | h <;> rw [h]

theorem Chip.wakeFires_waits (hen : bit (k.rd PWR_WAKE.EN) src = true) (hsrc : src < 4)
    (h : k.pwr.pkg = .enterStandby ∨ k.pwr.pkg = .enterDrydown) (hfirst : k.pwr.wake = none) :
    k.wakeFires src facts = { k with pwr := { k.pwr with wake := some (src, facts) } } := by
  have hnone : ¬ k.pwr.wake.isSome = true := by simp [hfirst]
  rw [Chip.wakeFires, if_neg (by simp [hen, hsrc])]
  rcases h with h | h <;> rw [h] <;> exact if_neg hnone

end

/-! ### Gunel's lapse (R472, R500) -/

/-- A store leaves Gunel's own state and the messages as they were. -/
theorem Chip.store_gn_out (k : Chip) (a : Nat) (bs : Bytes) : (k.store a bs).gn = k.gn ∧ (k.store a bs).out = k.out := by
  have hline : ∀ (k : Chip) (l : Nat), (k.recallLine l).gn = k.gn ∧ (k.recallLine l).out = k.out := fun k l => by
    unfold Chip.recallLine
    split <;> exact ⟨rfl, rfl⟩
  have hlines : ∀ ls : List Nat, (ls.foldl Chip.recallLine k).gn = k.gn ∧ (ls.foldl Chip.recallLine k).out = k.out :=
    fun ls => List.foldlRecOn (motive := fun k' : Chip => k'.gn = k.gn ∧ k'.out = k.out) _ _ ⟨rfl, rfl⟩ fun k' h l _ =>
      ⟨(hline k' l).1.trans h.1, (hline k' l).2.trans h.2⟩
  unfold Chip.store
  split
  · exact ⟨rfl, rfl⟩
  · exact hlines _

/-- R418, R500: an entry of the error ring leaves Gunel's own state as it was, and sends an MSI at most. -/
theorem Chip.errorRing_gn_out (k : Chip) (seq cls : Nat) (r : Bytes) :
    (k.errorRing seq cls r).gn = k.gn ∧ ∀ o ∈ k.out, o ∈ (k.errorRing seq cls r).out := by
  have hput : (k.ringPut (k.ringSlot seq) r).gn = k.gn ∧ (k.ringPut (k.ringSlot seq) r).out = k.out := by
    unfold Chip.ringPut
    split
    · exact k.store_gn_out _ _
    · exact ⟨rfl, rfl⟩
  have hsignal : ∀ k : Chip, (k.ringSignal cls).gn = k.gn ∧ ∀ o ∈ k.out, o ∈ (k.ringSignal cls).out := fun k => by
    unfold Chip.ringSignal
    split
    · exact ⟨rfl, fun _ h => h⟩
    · exact ⟨rfl, fun _ h => List.mem_cons_of_mem _ h⟩
  unfold Chip.errorRing
  split
  · exact ⟨rfl, fun _ h => h⟩
  · split
    · exact ⟨rfl, fun _ h => h⟩
    · obtain ⟨hgn, hout⟩ := hput
      obtain ⟨hgn', hout'⟩ := hsignal (k.ringPut (k.ringSlot seq) r)
      exact ⟨hgn'.trans hgn, fun o h => hout' o (by rw [hout]; exact h)⟩

/-- R472: what the H-die shows of the lapse in its own registers. -/
def Chip.lapseShown (k : Chip) : Chip :=
  ((k.raise CLK_ERR.GUNEL_LAPSE).wr CLK_STATUS.GUNEL_HB 0).wr GN_STATUS.RUNNING 0

/-- R500: the record of Gunel's lapse, which the H-die writes itself. -/
def Chip.lapseRecord (k : Chip) : Bytes :=
  Ev.record { cls := 2, unitType := 14, unit := 0, cause := 0, status := 3 } k.gn.seq k.now k.time

/-- R500: the machine with the lapse shown and its record sent, before the error ring. -/
def Chip.lapseReported (k : Chip) : Chip :=
  Chip.emit { k.lapseShown with gn := { k.gn with seq := (k.gn.seq + 1) % 2 ^ 32 } } (.record k.lapseRecord)

theorem Chip.gunelLapses_eq (k : Chip) : k.gunelLapses = k.lapseReported.errorRing k.gn.seq 2 k.lapseRecord := by
  have hnow : k.lapseShown.now = k.now := by
    rw [Chip.now, Chip.lapseShown, Chip.rd_wr_ne _ _ (by decide), Chip.rd_wr_ne _ _ (by decide), Chip.raise,
      Chip.rd_wr_ne _ _ (by decide)]
    rfl
  rw [Chip.lapseReported, Chip.lapseRecord, ← hnow]
  rfl

/-- R472, R500: the H-die sends the record and takes a record number, and Gunel's log and the power are left as they were. -/
theorem Chip.gunelLapses_reports (k : Chip) : k.gunelLapses.gn = { k.gn with seq := (k.gn.seq + 1) % 2 ^ 32 } ∧
    .record k.lapseRecord ∈ k.gunelLapses.out ∧ k.gunelLapses.pwr = k.pwr := by
  obtain ⟨hgn, hout⟩ := k.lapseReported.errorRing_gn_out k.gn.seq 2 k.lapseRecord
  have hpwr : (k.lapseReported.errorRing k.gn.seq 2 k.lapseRecord).pwr = k.lapseReported.pwr := by
    rw [Chip.errorRing_reported]
  rw [Chip.gunelLapses_eq]
  exact ⟨hgn, hout _ (List.mem_cons_self ..), hpwr⟩

theorem lapseFields_not_reported : ∀ f ∈ [CLK_ERR.GUNEL_LAPSE, CLK_STATUS.GUNEL_HB, GN_STATUS.RUNNING],
    f.key ∉ reportFields.map Fld.key ∧ f.key ∉ shownFields.map Fld.key := by decide +kernel

theorem Chip.rd_gunelLapses (k : Chip) {f : Fld} (hf : f ∈ [CLK_ERR.GUNEL_LAPSE, CLK_STATUS.GUNEL_HB, GN_STATUS.RUNNING]) :
    k.gunelLapses.refresh.rd f = k.lapseShown.rd f := by
  obtain ⟨hreport, hshown⟩ := lapseFields_not_reported f hf
  rw [Chip.rd_refresh _ hshown, Chip.gunelLapses_eq, Chip.errorRing_rd _ _ _ _ hreport]
  rfl

theorem Chip.rd_lapseShown (k : Chip) : k.lapseShown.rd CLK_ERR.GUNEL_LAPSE = 1 ∧ k.lapseShown.rd CLK_STATUS.GUNEL_HB = 0 ∧
    k.lapseShown.rd GN_STATUS.RUNNING = 0 := by
  refine ⟨?_, ?_, Chip.rd_wr_self _ _ _⟩
  · rw [Chip.lapseShown, Chip.rd_wr_ne _ _ (by decide), Chip.rd_wr_ne _ _ (by decide), Chip.raise, Chip.rd_wr_self]
    rfl
  · rw [Chip.lapseShown, Chip.rd_wr_ne _ _ (by decide), Chip.rd_wr_self]
    rfl

/-! ### Clock inputs, crystals and PLLs (R224, R244, R472, R473) -/

/-- The machine with reference clock `n` noted as lost. -/
def Chip.withRefLost (k : Chip) (n : Nat) : Chip :=
  { k with pwr := { k.pwr with refLost := n :: k.pwr.refLost.filter (· != n) } }

@[simp] theorem Chip.withRefLost_regs (k : Chip) (n : Nat) : (k.withRefLost n).regs = k.regs := rfl
@[simp] theorem Chip.withRefLost_mem (k : Chip) (n : Nat) : (k.withRefLost n).mem = k.mem := rfl
@[simp] theorem Chip.withRefLost_out (k : Chip) (n : Nat) : (k.withRefLost n).out = k.out := rfl
@[simp] theorem Chip.withRefLost_hf (k : Chip) (n : Nat) : (k.withRefLost n).hf = k.hf := rfl

theorem Chip.refLost_withRefLost (k : Chip) (n : Nat) : n ∈ (k.withRefLost n).pwr.refLost := List.mem_cons_self ..

theorem Chip.refSysLost_eq (k : Chip) :
    k.refSysLost = { k.withRefLost 0 with beat := { k.beat with stopped := true } } := rfl

theorem Chip.refRpLost_eq (k : Chip) : k.refRpLost = (k.mq.present.foldl Chip.driveRemoved k).withRefLost 1 := rfl

theorem Chip.epRefLost_eq (k : Chip) : k.epRefLost = k.endpointDown.withRefLost 2 := rfl

theorem Chip.numVfs_endpointDown (k : Chip) : k.endpointDown.hf.numVfs = 0 := by
  rw [Chip.endpointDown_eq, Chip.showLink_hf, Chip.endpointIdle]

/-- R473: XTAL_F is counted, which nothing else waits for. -/
theorem Chip.crystalEnds_one (k : Chip) : k.crystalEnds 1 = k.wr CLK_STATUS.XTAL_F_OK 1 := rfl

/-- The machine with PLL `n` in use. -/
def Chip.withPll (k : Chip) (n : Nat) : Chip := { k with pwr := { k.pwr with plls := n :: k.pwr.plls.filter (· != n) } }

theorem Chip.pllEnds_eq (k : Chip) (n : Nat) : k.pllEnds n = (k.withPll n).tryBoot := rfl

theorem Chip.plls_withPll (k : Chip) (n : Nat) : n ∈ (k.withPll n).pwr.plls := List.mem_cons_self ..

theorem Chip.tryBoot_inReset {k : Chip} (h : k.start.reset = true) : k.tryBoot = k := by
  rw [Chip.tryBoot, if_pos (by simp [h])]

/-- R505, R512: with Gunel's crystal counted and its PLL in use the boot ROM runs the active slot's image where it is good. -/
theorem Chip.tryBoot_boots {k : Chip} (hreset : k.start.reset = false) (hstep : k.start.step = 1)
    (hcrystal : k.on CLK_STATUS.XTAL_G_OK = true) (hpll : 0 ∈ k.pwr.plls)
    (hgood : k.start.facts.gunelGood.getD k.gn.activeSlot true = true) : k.tryBoot = k.bootGunel := by
  unfold Chip.tryBoot
  dsimp only
  rw [if_neg (by simp [hreset, hstep, hcrystal, hpll]), if_neg (by rw [hgood]; simp), if_pos hgood]

/-! ### The commands -/

theorem exec_wakeSourceFire (s : State) (src : Nat) (facts : StartFacts) :
    exec (.wakeSourceFire src facts) s = .next (s.after (s.chip.wakeFires src facts)) := rfl

theorem exec_refclkSysLoss (s : State) : exec .refclkSysLoss s = .next (s.after s.chip.refSysLost) := rfl

theorem exec_refclkRpLoss (s : State) : exec .refclkRpLoss s = .next (s.after s.chip.refRpLost) := rfl

theorem exec_epRefclkLoss (s : State) : exec .epRefclkLoss s = .next (s.after s.chip.epRefLost) := rfl

theorem exec_gunelLapse (s : State) : exec .gunelLapse s = .next (s.after s.chip.gunelLapses) := rfl

theorem exec_crystalCountEnd (s : State) (which : Nat) :
    exec (.crystalCountEnd which) s = .next (s.after (s.chip.crystalEnds which)) := rfl

theorem exec_pllWaitEnd (s : State) (which : Nat) :
    exec (.pllWaitEnd which) s = .next (s.after (s.chip.pllEnds which)) := rfl

/-- Settles O45: a wake source by whether it is enabled and where the package stands, each clock input by what its loss ends,
each wait by what it starts. -/
theorem wakeSourcesAndClocks : Obligations.WakeSourcesAndClocks := by
  refine ⟨?_, ?_, ?_, ?_, ?_, ?_, ?_, ?_, ?_, ?_⟩
  · intro s src facts
    rw [exec_wakeSourceFire]
    refine ⟨fun hdis => by rw [Chip.wakeFires_disabled facts hdis], fun hen hsrc =>
      ⟨fun h => by rw [Chip.wakeFires_starts facts hen hsrc h], fun h hfirst => ?_⟩⟩
    rw [Chip.wakeFires_waits facts hen hsrc h hfirst]
    exact ⟨_, rfl, by simp, .of_eq (by simp), .of_eq rfl, by simp⟩
  · intro s
    rw [exec_refclkSysLoss, Chip.refSysLost_eq]
    refine ⟨_, rfl, by simp, ?_, by simp [Chip.ticking], .of_eq (by simp), .of_eq rfl, by simp⟩
    rw [State.after_chip, Chip.refresh_pwr]
    exact Chip.refLost_withRefLost _ _
  · intro s hnone
    rw [exec_refclkRpLoss, Chip.refRpLost_eq, hnone, List.foldl_nil]
    refine ⟨_, rfl, ?_, .of_eq (by simp), .of_eq rfl, by simp⟩
    rw [State.after_chip, Chip.refresh_pwr]
    exact Chip.refLost_withRefLost _ _
  · intro s port hone
    rw [exec_refclkRpLoss, Chip.refRpLost_eq, hone, List.foldl_cons, List.foldl_nil, Chip.withRefLost]
  · intro s
    obtain ⟨hup, hstate⟩ := s.chip.rd_endpointDown
    have hlink : ∀ f ∈ linkFields, (s.chip.endpointDown.withRefLost 2).refresh.rd f = s.chip.endpointDown.rd f := fun f hf =>
      (Chip.rd_refresh_link _ hf).trans (Chip.rd_congr (Chip.withRefLost_regs _ _) f)
    rw [exec_epRefclkLoss, Chip.epRefLost_eq]
    refine ⟨_, rfl, ?_, (hlink _ (by simp [linkFields])).trans hup, (hlink _ (by simp [linkFields])).trans hstate, ?_⟩
    · rw [State.after_chip, Chip.refresh_pwr]
      exact Chip.refLost_withRefLost _ _
    · rw [State.after_chip, Chip.refresh_hf, Chip.withRefLost_hf, Chip.numVfs_endpointDown]
  · intro s
    obtain ⟨hlapse, hbeat, hrunning⟩ := s.chip.rd_lapseShown
    obtain ⟨hgn, hout, hpwr⟩ := s.chip.gunelLapses_reports
    rw [exec_gunelLapse]
    refine ⟨_, rfl, ?_, ?_, ?_, ?_, ?_, ?_, ?_⟩
    · rw [State.after_chip, Chip.rd_gunelLapses _ (by simp), hlapse]
    · rw [State.after_chip, Chip.rd_gunelLapses _ (by simp), hbeat]
    · rw [State.after_chip, Chip.rd_gunelLapses _ (by simp), hrunning]
    · rw [State.after_chip, Chip.refresh_gn, hgn]
    · rw [State.after_chip, Chip.refresh_gn, hgn]
    · rw [State.after_chip, Chip.refresh_out]
      exact hout
    · rw [State.after_chip, Chip.refresh_pwr, hpwr]
  · intro s
    rw [exec_crystalCountEnd, Chip.crystalEnds_one]
    refine ⟨_, rfl, ?_, .of_eq (by simp), .refresh fun f hf => Chip.rd_wr_ne _ _ (by simpa using hf), by simp⟩
    rw [State.after_chip, Chip.rd_refresh _ (by decide +kernel), Chip.rd_wr_self]
    rfl
  · exact fun _ => rfl
  · intro s n hreset
    have hreset' : (s.chip.withPll n).start.reset = true := hreset
    rw [exec_pllWaitEnd, Chip.pllEnds_eq, Chip.tryBoot_inReset hreset']
    refine ⟨_, rfl, ?_, .of_eq ?_, .of_eq rfl, ?_⟩
    · rw [State.after_chip, Chip.refresh_pwr]
      exact s.chip.plls_withPll n
    · rw [State.after_chip, Chip.refresh_mem, Chip.withPll]
    · rw [State.after_chip, Chip.refresh_out, Chip.withPll]
  · intro s hreset hstep hcrystal hgood
    rw [exec_pllWaitEnd, Chip.pllEnds_eq, Chip.tryBoot_boots (k := s.chip.withPll 0) hreset hstep hcrystal
      (s.chip.plls_withPll 0) hgood, Chip.withPll]

end Sys2Proof.Machine
end

section
/-!
PROOFS. The accesses of a hart (10, 12, 18, 25): which check decides, what the die agent does with a line, and stores to the
interrupt files.
-/

namespace Sys2Proof.Machine

/-! ### The check that decides (R248, R257, R444, R566) -/

/-- The exceptions of an access whose world or region refuses it. -/
theorem HartReq.faultCause_mem (r : HartReq) : r.faultCause ∈ [1, 5, 7] := by
  unfold HartReq.faultCause
  split
  · simp
  · split <;> simp

/-- R444: hart `r.hart` is online and its world reaches the address of `r`. -/
def Chip.Reaches (k : Chip) (r : HartReq) : Prop :=
  (k.hart r.hart).online = true ∧ ((k.hart r.hart).w ≠ 1 ∨ k.secureTop ≤ r.addr)

section
variable {k : Chip} {r : HartReq}

theorem Chip.hartAccess_offline (h : (k.hart r.hart).online = false) : k.hartAccess r = k := if_pos (by simp [h])

theorem Chip.hartAccess_watermark (hon : (k.hart r.hart).online = true) (hw : (k.hart r.hart).w = 1)
    (hlow : r.addr < k.secureTop) : k.hartAccess r = k.instrTrap r.hart r.faultCause := by
  unfold Chip.hartAccess
  dsimp only
  rw [if_neg (by simp [hon]), if_pos (by simp [hw, hlow])]

/-- Past the world check the region decides. -/
theorem Chip.hartAccess_reaches (h : k.Reaches r) : k.hartAccess r =
    if k.area r.addr != .dram then k.ioAccess r
    else if r.atomic && r.addr % max 1 r.size != 0 then k.instrTrap r.hart r.misaligned
    else if !r.cmo && k.dramSize < r.addr + r.size then
      (k.logReserved k.dramSize (k.byHart r.hart)).instrTrap r.hart r.faultCause
    else k.cacheAccess r := by
  obtain ⟨hon, hworld⟩ := h
  have hpass : ¬ ((k.hart r.hart).w = 1 ∧ r.addr < k.secureTop) := by omega
  unfold Chip.hartAccess
  dsimp only
  rw [if_neg (by simp [hon]), if_neg (by simpa using hpass)]

theorem Chip.hartAccess_io (h : k.Reaches r) (harea : k.area r.addr ≠ .dram) : k.hartAccess r = k.ioAccess r := by
  rw [Chip.hartAccess_reaches h, if_pos (by simpa using harea)]

theorem Chip.area_dram {a : Nat} (h : a < k.dramSize) : k.area a = .dram := if_pos h

theorem Chip.hartAccess_cached (h : k.Reaches r) (hatomic : r.atomic = false) (hpos : 0 < r.size)
    (hin : r.addr + r.size ≤ k.dramSize) : k.hartAccess r = k.cacheAccess r := by
  rw [Chip.hartAccess_reaches h, Chip.area_dram (by omega), if_neg (by simp), if_neg (by simp [hatomic]),
    if_neg (by simp; omega)]

end

/-! ### One line through the die agent (R293, R309) -/

theorem linesOf_one {a n : Nat} (hpos : 0 < n) (hfits : a % 64 + n ≤ 64) : linesOf a n = [a / 64] := by
  rw [linesOf, if_neg (by simp; omega), show (a + n - 1) / 64 - a / 64 + 1 = 1 by omega]
  rfl

theorem Chip.endHolds_none {k : Chip} (h : k.coh.heldSnoops = []) : k.endHolds = k := by
  rw [Chip.endHolds, h]
  rfl

section
variable {k : Chip} {r : HartReq} {l d : Nat}

/-- R293: a plain access within one line is one access of the die agent, with the bytes of the access. -/
theorem Chip.cacheAccess_one (hatomic : r.atomic = false) (hcmo : r.cmo = false) (hpos : 0 < r.size)
    (hfits : r.addr % 64 + r.size ≤ 64) : k.cacheAccess r =
      (k.dieAccess (r.addr / 64) (k.hartDie r.hart) { r with data := r.data.take r.size }).endHolds := by
  have hfirst : max r.addr (64 * (r.addr / 64)) = r.addr := by omega
  have hsize : min (r.addr + r.size) (64 * (r.addr / 64) + 64) - r.addr = r.size := by omega
  simp [Chip.cacheAccess, hatomic, hcmo, linesOf_one hpos hfits, hfirst, hsize]

/-- The machine in which the accesses `w` wait. -/
def Chip.withWaits (k : Chip) (w : Tbl (List HartReq)) : Chip := { k with coh := { k.coh with waits := w } }

theorem State.die_after_withWaits (s : State) (k : Chip) (w : Tbl (List HartReq)) :
    (s.after (k.withWaits w)).chip.coh.die = k.coh.die := by
  rw [State.after_chip, Chip.refresh_coh, Chip.withWaits]

theorem State.waits_after_withWaits (s : State) (k : Chip) (w : Tbl (List HartReq)) :
    (s.after (k.withWaits w)).chip.coh.waits = w := by
  rw [State.after_chip, Chip.refresh_coh, Chip.withWaits]

theorem State.dieLine_after_withWaits (s : State) (k : Chip) (w : Tbl (List HartReq)) (l d : Nat) :
    (s.after (k.withWaits w)).chip.dieLine l d = k.dieLine l d := by rw [Chip.dieLine, State.die_after_withWaits]

theorem Chip.dieAccess_alone (hwaits : k.coh.waits.find (cohKey l d) = none) (hevict : k.coh.evict.find (cohKey l d) = none) :
    k.dieAccess l d r = k.serveWaits l d [r] := by
  rw [Chip.dieAccess, hwaits, hevict]
  rfl

/-- R293: an access that the line serves ends there. -/
theorem Chip.serveWaits_served (h : k.canServe l d r = true) : k.serveWaits l d [r] =
    (k.perform l d r).withWaits ((k.perform l d r).coh.waits.erase (cohKey l d)) := if_pos h

/-- R293, R299: an access that the line does not serve asks the home and waits. -/
theorem Chip.serveWaits_asks (h : k.canServe l d r = false) : k.serveWaits l d [r] =
    (k.sendReq l d r).withWaits ((k.sendReq l d r).coh.waits.insert (cohKey l d) [r]) := if_neg (by simp [h])

end

/-! ### Lines of a die -/

@[simp] theorem Chip.dieLine_setDieLine (k : Chip) (l d : Nat) (f : DieLine → DieLine) :
    (k.setDieLine l d f).dieLine l d = f (k.dieLine l d) := Tbl.get_mod_self _ _ _ _

theorem Chip.die_setDieLine_ne (k : Chip) {l d key : Nat} (f : DieLine → DieLine) (hne : key ≠ cohKey l d) :
    Tbl.get {} (k.setDieLine l d f).coh.die key = Tbl.get {} k.coh.die key := Tbl.get_mod_ne _ _ _ _ hne

theorem Chip.demandMiss_eq (k : Chip) (u set mode : Nat) :
    k.demandMiss u set mode = { k with coh := { k.coh with psel := (k.demandMiss u set mode).coh.psel } } := by
  unfold Chip.demandMiss
  split
  · rfl
  · split <;> rfl

/-- R299: a load that misses in its die counts the miss and asks the home to share the line. -/
theorem Chip.sendReq_load (k : Chip) (l d h addr size : Nat) (data : Bytes) :
    ∃ psel, k.sendReq l d { hart := h, op := .load, addr := addr, size := size, data := data } =
      Chip.say { k with coh := { k.coh with psel := psel } } "RD_SHARED" d l 1 := by
  have hload : k.sendReq l d { hart := h, op := .load, addr := addr, size := size, data := data } =
      (k.demandMiss (128 + 28 * d + (Config.l3Place l).1) (Config.l3Place l).2 (k.rd SC_CTRL.L3_MODE)).say
        "RD_SHARED" d l 1 := rfl
  rw [hload, Chip.demandMiss_eq]
  exact ⟨_, rfl⟩

/-- A line with a string put in it holds that string there. -/
theorem slice_spliced {old bs : Bytes} {off : Nat} (hold : old.length = 64) (hfits : off + bs.length ≤ 64) :
    slice ((old.take off ++ bs ++ old.drop (off + bs.length)).take 64) off bs.length = bs := by
  have hlen : (old.take off).length = off := by simp; omega
  have hall : (old.take off ++ bs ++ old.drop (off + bs.length)).length ≤ 64 := by simp; omega
  rw [List.take_of_length_le hall, slice_full _ _ _ (by simp; omega), List.append_assoc, List.drop_left' hlen,
    List.take_left' rfl]

section
variable (k : Chip) (l d h addr : Nat) (bs : Bytes)

theorem Chip.dieLine_dieStore : (k.dieStore l d h addr bs).dieLine l d =
    { k.dieLine l d with
      st := .m
      data := some (((k.dieBytes l d).take (addr % 64) ++ bs ++ (k.dieBytes l d).drop (addr % 64 + bs.length)).take 64)
      poison := k.diePoison l d && decide (bs.length < 64) } := k.dieLine_setDieLine l d _

theorem Chip.die_dieStore_ne {key : Nat} (hne : key ≠ cohKey l d) :
    Tbl.get {} (k.dieStore l d h addr bs).coh.die key = Tbl.get {} k.coh.die key :=
  k.die_setDieLine_ne _ hne

end

/-! ### What an access within one line does (R293, R299) -/

section
variable {k : Chip} {h addr size l d : Nat} {data : Bytes}

/-- R293: a plain access within one line of DRAM, of a line for which no access waits and which is not being evicted. -/
theorem Chip.hartAccess_line {r : HartReq} (hreach : k.Reaches r) (hin : r.addr + r.size ≤ k.dramSize) (hpos : 0 < r.size)
    (hfits : r.addr % 64 + r.size ≤ 64) (hl : l = r.addr / 64) (hd : d = k.hartDie r.hart)
    (hwaits : k.coh.waits.find (cohKey l d) = none) (hevict : k.coh.evict.find (cohKey l d) = none)
    (hatomic : r.atomic = false) (hcmo : r.cmo = false) :
    k.hartAccess r = (k.serveWaits l d [{ r with data := r.data.take r.size }]).endHolds := by
  rw [Chip.hartAccess_cached hreach hatomic hpos hin, Chip.cacheAccess_one hatomic hcmo hpos hfits, ← hl, ← hd,
    Chip.dieAccess_alone hwaits hevict]

variable (hheld : k.coh.heldSnoops = [])
include hheld

/-- R293: a load is served by a line without poison that the die holds in any state. -/
theorem Chip.serveWaits_load (hst : (k.dieLine l d).st ≠ .i) (hpoison : k.diePoison l d = false) :
    (k.serveWaits l d [{ hart := h, op := .load, addr := addr, size := size, data := data }]).endHolds =
      (k.emit (.loadValue h (ofLe (slice (k.dieBytes l d) (addr % 64) size)) false)).withWaits
        (k.coh.waits.erase (cohKey l d)) := by
  have hperform : k.perform l d { hart := h, op := .load, addr := addr, size := size, data := data } =
      k.emit (.loadValue h (ofLe (slice (k.dieBytes l d) (addr % 64) size)) false) := by simp [Chip.perform, hpoison]
  rw [Chip.serveWaits_served (by simpa [Chip.canServe] using hst), hperform]
  exact Chip.endHolds_none hheld

/-- R293, R299: a load of a line that the die does not hold waits for the home. -/
theorem Chip.serveWaits_miss (hst : (k.dieLine l d).st = .i) :
    ∃ psel, (k.serveWaits l d [{ hart := h, op := .load, addr := addr, size := size, data := data }]).endHolds =
      (Chip.say { k with coh := { k.coh with psel := psel } } "RD_SHARED" d l 1).withWaits (k.coh.waits.insert (cohKey l d)
        [{ hart := h, op := .load, addr := addr, size := size, data := data }]) := by
  obtain ⟨psel, hsend⟩ := k.sendReq_load l d h addr size data
  rw [Chip.serveWaits_asks (by simp [Chip.canServe, hst]), hsend]
  exact ⟨psel, Chip.endHolds_none hheld⟩

/-- R293: a store goes into a line that the die holds in M or E. -/
theorem Chip.serveWaits_store (hst : (k.dieLine l d).st = .m ∨ (k.dieLine l d).st = .e) (hdata : data.length = size) :
    (k.serveWaits l d [{ hart := h, op := .store, addr := addr, size := size, data := data }]).endHolds =
      (k.dieStore l d h addr data).withWaits (k.coh.waits.erase (cohKey l d)) := by
  have hpad : padTo data size = data := by simp [padTo_eq_append (Nat.le_of_eq hdata), hdata, zeros]
  rw [Chip.serveWaits_served (by simpa [Chip.canServe] using hst), Chip.perform, hpad]
  exact Chip.endHolds_none hheld

end

/-! ### Outside DRAM (R251, R566) -/

/-- R251: an aligned store of 4 bytes to an interrupt file is a write of an MSI. -/
theorem Chip.ioAccess_msi {k : Chip} {r : HartReq} (harea : k.area r.addr = .imsic) (hop : r.op = .store)
    (hsize : r.size = 4) (halign : r.addr % 4 = 0) :
    k.ioAccess r = k.msiWrite r.addr (ofLe (r.data.take 4)) (k.hart r.hart).w 4 0 := by
  have hstore : k.ioStore .imsic r = k.msiWrite r.addr (ofLe (r.data.take r.size)) (k.hart r.hart).w r.size 0 := rfl
  have hplain : r.atomic = false ∧ r.cmo = false := by simp [HartReq.atomic, HartReq.cmo, hop]
  unfold Chip.ioAccess
  dsimp only
  rw [harea, hplain.1, hplain.2, hop, if_neg (by decide), if_neg (by decide), if_neg (by decide),
    if_neg (by simp [hsize, halign]), hstore, hsize]

/-! ### The command -/

theorem exec_hartAccess (s : State) (h addr size : Nat) (op : HartOp) (data : Bytes) :
    exec (.hartAccess h op addr size data) s =
      .next (s.after (s.chip.hartAccess { hart := h, op := op, addr := addr, size := size, data := data })) := rfl

/-- Settles O24: the checks in their order, then what the line that the die holds serves. -/
theorem hartAccesses : Obligations.HartAccesses := by
  refine ⟨?_, ?_, ?_, ?_⟩
  · intro s h addr size op data hoff
    rw [exec_hartAccess, Chip.hartAccess_offline hoff]
  · intro s h addr size op data hon hw hlow
    obtain ⟨v, n, htrap⟩ := s.chip.instrTrap_eq h
      (HartReq.faultCause { hart := h, op := op, addr := addr, size := size, data := data })
    rw [exec_hartAccess, Chip.hartAccess_watermark hon hw hlow, htrap]
    obtain ⟨hout, hharts, hmem, hregs⟩ := s.after_emit { s.chip with free := n } _ rfl
    exact ⟨_, _, v, rfl, hout, HartReq.faultCause_mem _, by simp, hharts, hmem, hregs⟩
  · intro s h addr size l d data hon hworld hin hpos hfits hl hd hwaits hevict hheld
    have haccess : ∀ op : HartOp, op = .load ∨ op = .store → exec (.hartAccess h op addr size data) s = .next (s.after
        (s.chip.serveWaits l d [{ hart := h, op := op, addr := addr, size := size, data := data.take size }]).endHolds) := by
      rintro op (rfl | rfl) <;>
        rw [exec_hartAccess, Chip.hartAccess_line ⟨hon, hworld⟩ hin hpos hfits hl hd hwaits hevict rfl rfl]
    refine ⟨fun hst hpoison => ?_, fun hst => ?_, fun hst hlen hbytes => ?_⟩
    · rw [haccess .load (.inl rfl), Chip.serveWaits_load hheld hst hpoison]
      refine ⟨_, rfl, Chip.refresh_out _, ?_, .of_eq (Chip.refresh_mem _), .of_eq rfl⟩
      rw [State.die_after_withWaits, Chip.emit_coh]
    · obtain ⟨psel, hmiss⟩ := Chip.serveWaits_miss (h := h) (addr := addr) (size := size) (data := data.take size) hheld hst
      rw [haccess .load (.inl rfl), hmiss]
      refine ⟨_, rfl, Chip.refresh_out _, ?_, ?_, .of_eq (Chip.refresh_mem _), .of_eq rfl⟩
      · rw [State.die_after_withWaits, Chip.say, Chip.emit_coh]
      · rw [State.waits_after_withWaits, Tbl.find_insert_self]
    · have hcut : data.take size = data := List.take_of_length_le (by omega)
      rw [haccess .store (.inr rfl), hcut, Chip.serveWaits_store hheld hst hlen]
      refine ⟨_, rfl, ?_, ?_, fun key hne => ?_, Chip.refresh_out _, .of_eq (Chip.refresh_mem _), .of_eq rfl⟩
      · rw [State.dieLine_after_withWaits, Chip.dieLine_dieStore]
      · rw [Chip.dieBytes, State.dieLine_after_withWaits, Chip.dieLine_dieStore, ← hlen]
        exact slice_spliced hbytes (by omega)
      · rw [State.die_after_withWaits]
        exact s.chip.die_dieStore_ne l d h addr data hne
  · intro s h addr size data hon hworld harea hsize halign
    rw [exec_hartAccess, Chip.hartAccess_io ⟨hon, hworld⟩ (by simp [harea]),
      Chip.ioAccess_msi harea rfl hsize halign]

end Sys2Proof.Machine
end

section
/-!
PROOFS. The media queue engine (09): the entries of targets and queue pairs, commands that time out, drives that come and go.
-/

namespace Sys2Proof.Machine

/-! ### Lists of steps and bits -/

/-- What one step of a fold establishes and every step keeps holds after the fold. -/
theorem foldl_establishes {α β : Type} {P : α → Prop} {f : α → β → α} (hkeep : ∀ a b, P a → P (f a b)) {b : β}
    (hb : ∀ a, P (f a b)) {l : List β} (hmem : b ∈ l) (a : α) : P (l.foldl f a) := by
  induction l generalizing a with
  | nil => cases hmem
  | cons c l ih =>
    rcases List.mem_cons.1 hmem with rfl | hmem
    · rw [List.foldl_cons]
      exact List.foldlRecOn (motive := P) l f (hb a) fun a ha c _ => hkeep a c ha
    · exact ih hmem _

theorem bit_setBit_self (n i : Nat) : bit (setBit n i) i = true := by
  unfold setBit
  split
  · next h => exact h
  · next h =>
    rw [bit_eq_testBit] at h ⊢
    rw [Nat.add_comm, Nat.testBit_two_pow_add_eq]
    simpa using h

/-- An entry that reads other than the default stands in the table. -/
theorem Tbl.mem_of_get_ne {α : Type} {d : α} {t : Tbl α} {n : Nat} (h : t.get d n ≠ d) : (n, t.get d n) ∈ t := by
  unfold Tbl.get at h ⊢
  cases hn : t.find n with
  | none => simp [hn] at h
  | some a => exact Tbl.mem_of_find hn

/-! ### Targets and queue pairs -/

@[simp] theorem Chip.target_setTarget (k : Chip) (t : Nat) (f : Target → Target) :
    (k.setTarget t f).target t = f (k.target t) := Tbl.get_mod_self _ _ _ _

theorem Chip.target_setTarget_ne (k : Chip) {t t' : Nat} (f : Target → Target) (h : t' ≠ t) :
    (k.setTarget t f).target t' = k.target t' := Tbl.get_mod_ne _ _ _ _ h

@[simp] theorem Chip.qpair_setQpair (k : Chip) (p : Nat) (f : QPair → QPair) :
    (k.setQpair p f).qpair p = f (k.qpair p) := Tbl.get_mod_self _ _ _ _

theorem Chip.qpair_setQpair_ne (k : Chip) {p p' : Nat} (f : QPair → QPair) (h : p' ≠ p) :
    (k.setQpair p f).qpair p' = k.qpair p' := Tbl.get_mod_ne _ _ _ _ h

@[simp] theorem Chip.target_refresh (k : Chip) (t : Nat) : k.refresh.target t = k.target t := by
  rw [Chip.target, Chip.refresh_mq]

@[simp] theorem Chip.qpair_refresh (k : Chip) (p : Nat) : k.refresh.qpair p = k.qpair p := by rw [Chip.qpair, Chip.refresh_mq]

theorem Chip.target_congr {k k' : Chip} (h : k'.mq.targets = k.mq.targets) (t : Nat) : k'.target t = k.target t := by
  rw [Chip.target, h]

/-! ### Events (R245) -/

/-- R245: the fields of MQ_EVENT_INFO, which an event fills. -/
def mqInfoFields : List Fld := [MQ_EVENT_INFO.TARGET, MQ_EVENT_INFO.PORT, MQ_EVENT_INFO.NVME_STATUS, MQ_EVENT_INFO.EVENT]

section
variable (k : Chip) (f : Fld) (target port nvme : Nat)

theorem Chip.mqEvent_eq : k.mqEvent f target port nvme =
    { k with regs := (k.mqEvent f target port nvme).regs, out := (k.mqEvent f target port nvme).out } := by
  unfold Chip.mqEvent
  dsimp only
  split <;> rfl

@[simp] theorem Chip.mqEvent_mem : (k.mqEvent f target port nvme).mem = k.mem := by rw [Chip.mqEvent_eq]
@[simp] theorem Chip.mqEvent_mq : (k.mqEvent f target port nvme).mq = k.mq := by rw [Chip.mqEvent_eq]

/-- Outside MQ_EVENT_INFO an event changes its own bit alone. -/
theorem Chip.rd_mqEvent {g : Fld} (hg : g.key ∉ mqInfoFields.map Fld.key) :
    (k.mqEvent f target port nvme).rd g = (k.raise f).rd g := by
  simp only [mqInfoFields, List.map_cons, List.map_nil, List.mem_cons, List.not_mem_nil, or_false, not_or] at hg
  obtain ⟨htarget, hport, hstatus, hevent⟩ := hg
  have hinfo : (((((k.raise f).wr MQ_EVENT_INFO.TARGET target).wr MQ_EVENT_INFO.PORT port).wr MQ_EVENT_INFO.NVME_STATUS
      (nvme % 2048)).wr MQ_EVENT_INFO.EVENT f.lo).rd g = (k.raise f).rd g := by
    rw [Chip.rd_wr_ne _ _ hevent, Chip.rd_wr_ne _ _ hstatus, Chip.rd_wr_ne _ _ hport, Chip.rd_wr_ne _ _ htarget]
  unfold Chip.mqEvent
  dsimp only
  split
  · exact hinfo
  · exact hinfo

theorem Chip.rd_mqEvent_ne {f g : Fld} (hg : g.key ∉ mqInfoFields.map Fld.key) (hne : g.key ≠ f.key) :
    (k.mqEvent f target port nvme).rd g = k.rd g := by
  rw [Chip.rd_mqEvent _ _ _ _ _ hg, Chip.raise, Chip.rd_wr_ne _ _ hne]

end

/-! ### A command sent (R234) -/

/-- R234: the machine with the entry of `c` in its submission queue, where memory lies. -/
def Chip.entryStored (k : Chip) (c : MediaCmd) : Chip :=
  let q := k.qpair c.qp
  let at_ := q.sqBase + 64 * (q.sqTail % 2 ^ q.qlog2)
  if at_ + 64 ≤ k.dramSize then k.store at_ (withCid c.sqe q.nextCid) else k

/-- R419: after a Package-fatal condition no command is sent. -/
theorem Chip.sendNvme_fatal {k : Chip} (n : Nat) (c : MediaCmd) (h : k.flt.fatal = true) : k.sendNvme n c = k := if_pos h

/-- R234: the machine, with the entry stored, after command `c` has moved the queue pair `q` on and gone to the drive. -/
def Chip.commandSent (k : Chip) (n : Nat) (c : MediaCmd) (q : QPair) : Chip :=
  let tail := (q.sqTail + 1) % 2 ^ q.qlog2
  let k := k.setQpair c.qp fun q => { q with sqTail := tail, nextCid := (q.nextCid + 1) % 65536 }
  let k := (k.emit (.driveCommand c.qp q.nextCid (withCid c.sqe q.nextCid))).emit (.driveDoorbell c.qp false tail)
  { k with mq := { k.mq with
    cmds := k.mq.cmds.insert n { c with cid := q.nextCid, sqe := withCid c.sqe q.nextCid, aborted := false } } }

theorem Chip.sendNvme_sent {k : Chip} (n : Nat) (c : MediaCmd) (h : k.flt.fatal = false) :
    k.sendNvme n c = (k.entryStored c).commandSent n c (k.qpair c.qp) := by
  unfold Chip.sendNvme Chip.commandSent Chip.entryStored
  rw [if_neg (by simp [h])]

theorem Chip.commandSent_targets (k : Chip) (n : Nat) (c : MediaCmd) (q : QPair) :
    (k.commandSent n c q).mq.targets = k.mq.targets := rfl

theorem Chip.rd_commandSent (k : Chip) (n : Nat) (c : MediaCmd) (q : QPair) (f : Fld) :
    (k.commandSent n c q).rd f = k.rd f := rfl

theorem Chip.entryStored_mq (k : Chip) (c : MediaCmd) : (k.entryStored c).mq = k.mq := by
  rw [Chip.entryStored, apply_ite Chip.mq, Chip.store_mq, ite_self]

theorem Chip.rd_entryStored (k : Chip) (c : MediaCmd) {f : Fld} (h : f.key ≠ SC_LWI.COUNT.key) :
    (k.entryStored c).rd f = k.rd f := by
  rw [Chip.entryStored, apply_ite (Chip.rd · f), Chip.store_rd _ _ _ h, ite_self]

theorem Chip.sendNvme_targets (k : Chip) (n : Nat) (c : MediaCmd) : (k.sendNvme n c).mq.targets = k.mq.targets := by
  cases hfatal : k.flt.fatal with
  | true => rw [Chip.sendNvme_fatal n c hfatal]
  | false => rw [Chip.sendNvme_sent n c hfatal, Chip.commandSent_targets, Chip.entryStored_mq]

/-- A command sent changes one register, the count of locked lines that its entry's write invalidates (R285). -/
theorem Chip.rd_sendNvme (k : Chip) (n : Nat) (c : MediaCmd) {f : Fld} (h : f.key ≠ SC_LWI.COUNT.key) :
    (k.sendNvme n c).rd f = k.rd f := by
  cases hfatal : k.flt.fatal with
  | true => rw [Chip.sendNvme_fatal n c hfatal]
  | false => rw [Chip.sendNvme_sent n c hfatal, Chip.rd_commandSent, Chip.rd_entryStored _ _ h]

theorem Chip.newNvme_targets (k : Chip) (c : MediaCmd) : (k.newNvme c).mq.targets = k.mq.targets :=
  Chip.sendNvme_targets _ _ _

theorem Chip.rd_newNvme (k : Chip) (c : MediaCmd) {f : Fld} (h : f.key ≠ SC_LWI.COUNT.key) : (k.newNvme c).rd f = k.rd f :=
  Chip.rd_sendNvme _ _ _ h

/-! ### Initialisation starts (R233) -/

/-- R233: the machine in which target `t` initialises, before its first command. -/
def Chip.targetInit (k : Chip) (t : Nat) : Chip := k.setTarget t fun g => { g with state := 1, openZones := [], rr := 0 }

theorem Chip.startTarget_targets (k : Chip) (t : Nat) : (k.startTarget t).mq.targets = (k.targetInit t).mq.targets := by
  unfold Chip.startTarget
  dsimp only
  rw [Chip.sendInit, Chip.newNvme_targets]
  split <;> rfl

theorem Chip.rd_startTarget (k : Chip) (t : Nat) {f : Fld} (h : f.key ≠ SC_LWI.COUNT.key) :
    (k.startTarget t).rd f = k.rd f := by
  unfold Chip.startTarget
  dsimp only
  rw [Chip.sendInit, Chip.rd_newNvme _ _ h]
  split <;> rfl

theorem Chip.target_startTarget_self (k : Chip) (t : Nat) : ((k.startTarget t).target t).state = 1 := by
  rw [Chip.target_congr (k.startTarget_targets t), Chip.targetInit, Chip.target_setTarget]

theorem Chip.target_startTarget_ne (k : Chip) {t t' : Nat} (h : t' ≠ t) : (k.startTarget t).target t' = k.target t' := by
  rw [Chip.target_congr (k.startTarget_targets t), Chip.targetInit, Chip.target_setTarget_ne _ _ h]

/-- R233: with the engine on, an enabled target that is off initialises. -/
theorem Chip.startTargets_starts {k : Chip} {t : Nat} (hon : k.on MQ_CTRL.ENABLE = true) (hen : (k.target t).enabled = true)
    (hoff : (k.target t).state = 0) : (k.startTargets.target t).state = 1 := by
  have hne : k.target t ≠ {} := fun hdefault => by
    rw [hdefault] at hen
    cases hen
  rw [Chip.startTargets, if_neg (by simp [hon])]
  refine foldl_establishes (P := fun k' : Chip => (k'.target t).state = 1) (b := (t, k.target t)) (fun k' e h => ?_)
    (fun k' => k'.target_startTarget_self t) (List.mem_filter.2 ⟨Tbl.mem_of_get_ne hne, by simp [hen, hoff]⟩) k
  by_cases he : t = e.1
  · rw [he]
    exact k'.target_startTarget_self e.1
  · rw [k'.target_startTarget_ne he]
    exact h

theorem Chip.rd_startTargets (k : Chip) {f : Fld} (h : f.key ≠ SC_LWI.COUNT.key) : k.startTargets.rd f = k.rd f := by
  unfold Chip.startTargets
  split
  · rfl
  · exact List.foldlRecOn (motive := fun k' : Chip => k'.rd f = k.rd f) _ _ rfl fun k' hk' e _ =>
      (k'.rd_startTarget e.1 h).trans hk'

/-! ### Indirect access (R246) -/

theorem key_mqIndData_ne {i j : Nat} (h : i ≠ j) : (MQ_IND_DATA.DATA i).key ≠ (MQ_IND_DATA.DATA j).key := by
  simp only [Fld.key]
  omega

/-- No field of the command register lies at a data register, and none of either is a status field. -/
theorem mqIndFields_apart : ∀ f ∈ [MQ_IND_CMD.INDEX, MQ_IND_CMD.TARGET, MQ_IND_CMD.OP, MQ_IND_CMD.STATUS, MQ_IND_CMD.GO],
    f.key ∉ shownFields.map Fld.key ∧
    ∀ i < 4, (MQ_IND_DATA.DATA i).key ≠ f.key ∧ (MQ_IND_DATA.DATA i).key ∉ shownFields.map Fld.key := by decide +kernel

@[simp] theorem Chip.mqInd_mem (k : Chip) (target index op : Nat) : (k.mqInd target index op).mem = k.mem := rfl
@[simp] theorem Chip.mqInd_mq (k : Chip) (target index op : Nat) : (k.mqInd target index op).mq = k.mq := rfl
@[simp] theorem Chip.mqIndDone_mem (k : Chip) (status : Nat) : (k.mqIndDone status).mem = k.mem := rfl
@[simp] theorem Chip.mqIndDone_mq (k : Chip) (status : Nat) : (k.mqIndDone status).mq = k.mq := rfl

theorem Chip.indBytes_mqInd (k : Chip) (target index op : Nat) :
    (k.mqInd target index op).indBytes MQ_IND_DATA.DATA 4 = k.indBytes MQ_IND_DATA.DATA 4 := by
  have hapart := mqIndFields_apart
  simp only [List.forall_mem_cons] at hapart
  obtain ⟨⟨-, hindex⟩, ⟨-, htarget⟩, ⟨-, hop⟩, -⟩ := hapart
  refine Chip.indBytes_congr fun i hi => ?_
  rw [Chip.mqInd, Chip.rd_wr_ne _ _ (hop i hi).1, Chip.rd_wr_ne _ _ (htarget i hi).1, Chip.rd_wr_ne _ _ (hindex i hi).1]

/-- R246: a command that ends well shows STATUS 0 and is no longer busy. -/
theorem Chip.rd_mqIndDone (k : Chip) : (k.mqIndDone 0).rd MQ_IND_CMD.STATUS = 0 ∧ (k.mqIndDone 0).rd MQ_IND_CMD.GO = 0 := by
  rw [Chip.mqIndDone, Chip.rd_wr_ne _ _ (by decide), Chip.rd_wr_self, Chip.rd_wr_self]
  exact ⟨rfl, rfl⟩

/-- The status fields brought up to date leave the end of a command as it shows. -/
theorem Chip.rd_refresh_mqInd (k : Chip) : k.refresh.rd MQ_IND_CMD.STATUS = k.rd MQ_IND_CMD.STATUS ∧
    k.refresh.rd MQ_IND_CMD.GO = k.rd MQ_IND_CMD.GO :=
  ⟨k.rd_refresh (mqIndFields_apart _ (by simp)).1, k.rd_refresh (mqIndFields_apart _ (by simp)).1⟩

theorem Chip.on_enable_mqIndDone (k : Chip) (status : Nat) : (k.mqIndDone status).on MQ_CTRL.ENABLE = k.on MQ_CTRL.ENABLE := by
  rw [Chip.on, Chip.mqIndDone, Chip.rd_wr_ne _ _ (by decide), Chip.rd_wr_ne _ _ (by decide), Chip.on]

theorem Chip.on_enable_mqInd (k : Chip) (target index op : Nat) :
    (k.mqInd target index op).on MQ_CTRL.ENABLE = k.on MQ_CTRL.ENABLE := by
  rw [Chip.on, Chip.mqInd, Chip.rd_wr_ne _ _ (by decide), Chip.rd_wr_ne _ _ (by decide), Chip.rd_wr_ne _ _ (by decide), Chip.on]

/-! ### Writes of entries (R231, R232) -/

/-- R246: the machine with target entry `i` written as `g`, and the command ended. -/
def Chip.targetWritten (k : Chip) (i : Nat) (g : Target) : Chip := ((k.mqInd 0 i 1).setTarget i fun _ => g).mqIndDone 0

/-- R246: the machine with queue-pair entry `i` written as `q`, and the command ended. -/
def Chip.qpairWritten (k : Chip) (i : Nat) (q : QPair) : Chip := ((k.mqInd 1 i 1).setQpair i fun _ => q).mqIndDone 0

theorem Chip.target_targetWritten (k : Chip) (i : Nat) (g : Target) : (k.targetWritten i g).target i = g :=
  Chip.target_setTarget _ i _

theorem Chip.target_targetWritten_ne (k : Chip) {i j : Nat} (g : Target) (h : j ≠ i) :
    (k.targetWritten i g).target j = k.target j := Chip.target_setTarget_ne _ _ h

theorem Chip.qpair_qpairWritten (k : Chip) (i : Nat) (q : QPair) : (k.qpairWritten i q).qpair i = q :=
  Chip.qpair_setQpair _ i _

theorem Chip.qpair_qpairWritten_ne (k : Chip) {i j : Nat} (q : QPair) (h : j ≠ i) :
    (k.qpairWritten i q).qpair j = k.qpair j := Chip.qpair_setQpair_ne _ _ h

theorem Chip.rd_targetWritten (k : Chip) (i : Nat) (g : Target) :
    (k.targetWritten i g).rd MQ_IND_CMD.STATUS = 0 ∧ (k.targetWritten i g).rd MQ_IND_CMD.GO = 0 := Chip.rd_mqIndDone _

theorem Chip.rd_qpairWritten (k : Chip) (i : Nat) (q : QPair) :
    (k.qpairWritten i q).rd MQ_IND_CMD.STATUS = 0 ∧ (k.qpairWritten i q).rd MQ_IND_CMD.GO = 0 := Chip.rd_mqIndDone _

theorem Chip.on_enable_targetWritten (k : Chip) (i : Nat) (g : Target) :
    (k.targetWritten i g).on MQ_CTRL.ENABLE = k.on MQ_CTRL.ENABLE :=
  (Chip.on_enable_mqIndDone _ 0).trans (k.on_enable_mqInd 0 i 1)

/-- R231, R233: a good write of a target that is off takes effect, and starts a target that it newly enables. -/
theorem Chip.mqTargetWrite_good {k : Chip} {i : Nat} {b : Bytes} {g : Target} (hi : i < 4096)
    (hb : b = k.indBytes MQ_IND_DATA.DATA 4) (hgood : targetValuesGood b = true) (hg : g = k.target i) (hoff : g.state = 0) :
    k.mqTargetWrite i = if (g.written b).enabled && !g.enabled then (k.targetWritten i (g.written b)).startTargets
      else k.targetWritten i (g.written b) := by
  have hstate : (if (g.written b).enabled then (g.written b).state else 0) = (g.written b).state := by
    rw [show (g.written b).state = 0 from hoff, ite_self]
  unfold Chip.mqTargetWrite
  dsimp only
  rw [Chip.indBytes_mqInd, ← hb, show (k.mqInd 0 i 1).target i = g from hg.symm, if_neg (by omega),
    if_neg (by simp [Target.active, hoff]), if_neg (by simp [hgood]), hstate]
  rfl

/-- R232: a good write of a queue pair of a target that is neither initialising nor ready takes effect; a pair that it newly
enables starts empty. -/
theorem Chip.mqQpWrite_good {k : Chip} {i : Nat} {b : Bytes} {q : QPair} (hi : i < 8192)
    (hb : b = k.indBytes MQ_IND_DATA.DATA 4) (hgood : qpairValuesGood b = true) (hq : q = k.qpair i)
    (hoff : (k.target q.target).active = false) :
    k.mqQpWrite i = k.qpairWritten i (if bit (q.written b).flags 0 && !bit q.flags 0
      then { q.written b with sqTail := 0, cqHead := 0, cqTail := 0 } else q.written b) := by
  unfold Chip.mqQpWrite
  dsimp only
  rw [Chip.indBytes_mqInd, ← hb, show (k.mqInd 1 i 1).qpair i = q from hq.symm, if_neg (by omega),
    show (k.mqInd 1 i 1).target q.target = k.target q.target from rfl, if_neg (by simp [hoff]), if_neg (by simp [hgood])]
  rfl

/-! ### Reads of entries (R231, R232) -/

/-- R246: the machine in which a read command shows the 32 bytes `b`. -/
def Chip.mqShown (k : Chip) (target i : Nat) (b : Bytes) : Chip :=
  ((k.mqInd target i 0).setInd MQ_IND_DATA.DATA 4 b).mqIndDone 0

theorem Chip.mqIndRead_target (k : Chip) {i : Nat} (hi : i < 4096) : k.mqIndRead 0 i = k.mqShown 0 i (k.target i).bytes := by
  unfold Chip.mqIndRead
  dsimp only
  rw [if_neg (by simp; omega), if_pos (by simp)]
  rfl

theorem Chip.mqIndRead_qpair (k : Chip) {i : Nat} (hi : i < 8192) : k.mqIndRead 1 i = k.mqShown 1 i (k.qpair i).bytes := by
  unfold Chip.mqIndRead
  dsimp only
  rw [if_neg (by simp; omega), if_neg (by simp)]
  rfl

/-- R246: what a read command leaves. -/
theorem State.after_mqShown (s : State) (target i : Nat) {b : Bytes} (hb : b.length = 32) {t : State}
    (ht : t = s.after (s.chip.mqShown target i b)) :
    t.chip.indBytes MQ_IND_DATA.DATA 4 = b ∧ t.chip.rd MQ_IND_CMD.STATUS = 0 ∧ t.chip.mq = s.chip.mq ∧
    s.chip.SameMemory t.chip := by
  subst ht
  refine ⟨Chip.indBytes_eq _ hb fun j hj => ?_, ?_, ?_, .of_eq ?_⟩
  · obtain ⟨-, hstatus⟩ := mqIndFields_apart MQ_IND_CMD.STATUS (by simp)
    obtain ⟨-, hgo⟩ := mqIndFields_apart MQ_IND_CMD.GO (by simp)
    rw [State.after_chip, Chip.rd_refresh _ (hgo j hj).2, Chip.mqShown, Chip.mqIndDone, Chip.rd_wr_ne _ _ (hgo j hj).1,
      Chip.rd_wr_ne _ _ (hstatus j hj).1, Chip.rd_setInd _ (fun _ _ => key_mqIndData_ne) (fun _ => rfl) _ hj]
  · rw [State.after_chip, (Chip.rd_refresh_mqInd _).1]
    exact (Chip.rd_mqIndDone _).1
  · rw [State.after_chip, Chip.refresh_mq, Chip.mqShown, Chip.mqIndDone_mq, Chip.setInd_mq, Chip.mqInd_mq]
  · rw [State.after_chip, Chip.refresh_mem, Chip.mqShown, Chip.mqIndDone_mem, Chip.setInd_mem, Chip.mqInd_mem]

/-! ### Timeouts (R243) -/

/-- R243: a Flush that times out with retries left is aborted on the admin pair. -/
theorem Chip.cmdTimeout_flush {k k' : Chip} {n : Nat} {c : MediaCmd} {ps : List Nat} (hc : k.mq.cmds.find n = some c)
    (huse : c.use = .flush ps) (hleft : c.retries < k.rd MQ_TIMEOUT.RETRIES)
    (hk' : k' = k.mqEvent MQ_EVENT.TIMEOUT c.target (k.target c.target).port 0) :
    k.cmdTimeout n = Chip.setCmd (k'.newNvme
      { target := c.target, qp := k'.adminPair c.target, use := .abort n
        sqe := nvmeEntry 0x08 0 0 0 [(c.qp - k'.adminPair c.target) % 65536 + c.cid * 65536, 0, 0, 0, 0, 0] }) n
      fun c => { c with aborted := true } := by
  have hretries : ∀ a : MediaCmd, c.retries < (k'.newNvme a).rd MQ_TIMEOUT.RETRIES := fun a => by
    rw [Chip.rd_newNvme _ _ (by decide), hk', Chip.rd_mqEvent_ne _ _ _ _ (by decide) (by decide)]
    exact hleft
  unfold Chip.cmdTimeout
  rw [hc]
  dsimp only
  rw [huse, ← hk']
  exact if_pos (hretries _)

/-- R243: an abort without an answer lets the command be sent again. -/
theorem Chip.cmdTimeout_abort {k : Chip} {n m : Nat} {c : MediaCmd} (hc : k.mq.cmds.find n = some c)
    (huse : c.use = .abort m) : k.cmdTimeout n = (k.dropCmd n).retry m := by
  unfold Chip.cmdTimeout
  rw [hc]
  dsimp only
  rw [huse]

/-! ### What the end of a placement leaves of the media queue engine (R194, R241) -/

theorem Chip.Sent.mq {k k' : Chip} (h : k.Sent k') : k'.mq = k.mq := by rw [h]

@[simp] theorem Chip.sendFlow_mq (k : Chip) (f : Frame) : (k.sendFlow f).mq = k.mq := by
  obtain ⟨flows, hsent⟩ := k.sent_sendFlow f
  exact hsent.mq

@[simp] theorem Chip.cnEvent_mq (k : Chip) (f : Fld) (peer port window status : Nat) :
    (k.cnEvent f peer port window status).mq = k.mq := by rw [Chip.cnEvent_eq]

@[simp] theorem Chip.count_mq (k : Chip) (set i j n : Nat) : (k.count set i j n).mq = k.mq := by rw [Chip.count_eq]

theorem Chip.wakeLink_mq (k : Chip) : k.wakeLink.mq = k.mq := by rw [k.woken_wakeLink.1]

theorem Chip.apertureWrite_mq (k : Chip) (addr : Nat) (bs : Bytes) (poison : Bool) (job : Option Nat) :
    (k.apertureWrite addr bs poison job).1.mq = k.mq := by
  have hsent : ∀ (l : List (Bytes × Nat)) (g : Chip → Bytes × Nat → Frame),
      (l.foldl (fun k p => k.sendFlow (g k p)) k).mq = k.mq := fun l g =>
    List.foldlRecOn (motive := fun k' : Chip => k'.mq = k.mq) _ _ rfl fun k' hk' p _ => (k'.sendFlow_mq _).trans hk'
  unfold Chip.apertureWrite
  dsimp only
  split
  · exact k.cnEvent_mq _ _ _ _ _
  · split
    · exact hsent _ _
    · exact hsent _ _

theorem Chip.writePa_mq (k : Chip) (pa : Nat) (bs : Bytes) (poison : Bool) (job : Option Nat) :
    (k.writePa pa bs poison job).1.mq = k.mq := by
  have hmarked : ∀ ls : List Nat, (ls.foldl Chip.mark (k.store pa bs)).mq = k.mq := fun ls =>
    List.foldlRecOn (motive := fun k' : Chip => k'.mq = k.mq) _ _ (k.store_mq pa bs) fun k' hk' l _ => hk'
  unfold Chip.writePa
  split
  · dsimp only
    split
    · exact hmarked _
    · exact k.store_mq pa bs
  · split
    · exact k.apertureWrite_mq _ _ _ _
    · split
      · rfl
      · exact k.log_mq _

theorem Chip.dmaWrite_mq (k : Chip) (dev iova : Nat) (bs : Bytes) (poison : Bool) (job : Option Nat) :
    (k.dmaWrite dev iova bs poison job).1.mq = k.mq := by
  unfold Chip.dmaWrite
  refine List.foldlRecOn (motive := fun s : Chip × Bool => s.1.mq = k.mq) _ _ rfl fun s hs p _ => ?_
  dsimp only
  split
  · exact hs
  · split
    · rw [Chip.emit_mq, Chip.count_mq, Chip.wakeLink_mq, hs]
    · split
      · exact hs
      · rw [Chip.writePa_mq, hs]

theorem Chip.setJob_mq (k : Chip) (c : Nat) (f : Job → Job) : (k.setJob c f).mq = k.mq := by
  unfold Chip.setJob
  split <;> rfl

theorem Chip.writeResult_mq (k : Chip) (c entry at_ : Nat) (r : Bytes) (failed : Bool) :
    (k.writeResult c entry at_ r failed).mq = k.mq := by
  have hwritten : (if at_ == 0 then (k, true) else k.dmaWrite (k.devOfRing (k.job c).ring (k.job c).internal) at_ r).1.mq =
      k.mq := by
    split
    · rfl
    · exact k.dmaWrite_mq _ _ _ _ _
  exact (Chip.setJob_mq _ _ _).trans hwritten

/-- R241: the machine after the events of a placement that ends with `status`. -/
def Chip.placementEvents (k : Chip) (q : Placement) (status : Nat) : Chip :=
  if status == 0 then k else
  let g := k.target q.target
  let k := k.mqEvent MQ_EVENT.MEDIA_ERROR q.target g.port 0
  if status == 4 then k.mqEvent MQ_EVENT.POOL_EMPTY q.target g.port 0 else k

/-- R194: the machine after the answer to the peer whose push placement `q` served. -/
def Chip.pushAnswered (k : Chip) (q : Placement) (status loc : Nat) : Chip :=
  match q.push with
  | some (peer, tag) =>
    let st := if status == 0 then 0 else 5
    let body := leBytes st 2 ++ zeros 6 ++ leBytes (if st == 0 then loc else 0) 8
    let k := k.sendFlow (k.newFrame 5 1 peer q.window tag true body)
    { k with cn := { k.cn with windows := Tbl.mod {} k.cn.windows q.window fun w =>
        { w with slots := w.slots.filter (· != q.slot) } } }
  | none => k

theorem Chip.placementEvents_mq (k : Chip) (q : Placement) (status : Nat) : (k.placementEvents q status).mq = k.mq := by
  unfold Chip.placementEvents
  split
  · rfl
  · dsimp only
    split
    · rw [Chip.mqEvent_mq, Chip.mqEvent_mq]
    · rw [Chip.mqEvent_mq]

theorem Chip.pushAnswered_mq (k : Chip) (q : Placement) (status loc : Nat) : (k.pushAnswered q status loc).mq = k.mq := by
  unfold Chip.pushAnswered
  split
  · exact k.sendFlow_mq _
  · rfl

/-- R241: a placement that ends leaves the targets as they were. -/
theorem Chip.endPlacement_targets (k : Chip) (p status lba : Nat) :
    (k.endPlacement p status lba).mq.targets = k.mq.targets := by
  unfold Chip.endPlacement
  split
  · rfl
  · next q _ =>
    have hanswered : ((Chip.placementEvents { k with mq := { k.mq with places := k.mq.places.erase p } } q status).pushAnswered
        q status (q.target % 4096 + lba * 65536)).mq.targets = k.mq.targets := by
      rw [Chip.pushAnswered_mq, Chip.placementEvents_mq]
    dsimp only
    split
    · exact (congrArg Media.targets (Chip.writeResult_mq _ _ _ _ _ _)).trans hanswered
    · exact hanswered

theorem Chip.endPlacements_targets (k : Chip) (ps : List Nat) (status : Nat) :
    (k.endPlacements ps status).mq.targets = k.mq.targets :=
  List.foldlRecOn (motive := fun k' : Chip => k'.mq.targets = k.mq.targets) _ _ rfl fun k' hk' p _ =>
    (k'.endPlacement_targets p status _).trans hk'

/-! ### Drives that come and go (R244) -/

/-- R244: target `t` offline, its uncovered placements ended. -/
def Chip.targetGone (k : Chip) (t : Nat) : Chip :=
  (k.setTarget t fun g => { g with state := 3, uncovered := [] }).endPlacements (k.target t).uncovered 2

theorem Chip.target_targetGone_self (k : Chip) (t : Nat) : ((k.targetGone t).target t).state = 3 := by
  rw [Chip.targetGone, Chip.target_congr (Chip.endPlacements_targets _ _ _), Chip.target_setTarget]

theorem Chip.target_targetGone_ne (k : Chip) {t t' : Nat} (h : t' ≠ t) : (k.targetGone t).target t' = k.target t' := by
  rw [Chip.targetGone, Chip.target_congr (Chip.endPlacements_targets _ _ _), Chip.target_setTarget_ne _ _ h]

/-- A command that fails leaves an offline target offline. -/
theorem Chip.cmdFailed_offline {k : Chip} {t : Nat} (n status nvme : Nat) (h : (k.target t).state = 3) :
    ((k.cmdFailed n status nvme).target t).state = 3 := by
  unfold Chip.cmdFailed
  split
  · exact h
  · next c _ =>
    dsimp only
    split
    · split
      · rw [Chip.targetFailed, Chip.target_congr (congrArg Media.targets (Chip.mqEvent_mq _ _ _ _ _))]
        by_cases ht : t = c.target
        · rw [ht, Chip.target_setTarget]
        · rw [Chip.target_setTarget_ne _ _ ht]
          exact h
      · exact h
    · rw [Chip.target_congr (Chip.endPlacement_targets _ _ _ _)]
      exact h
    · rw [Chip.target_congr (Chip.endPlacements_targets _ _ _)]
      exact h
    · exact h

/-- R244: the targets of a drive that is gone are offline. -/
theorem Chip.driveGone_offline {k : Chip} {port : Nat} {e : Nat × Target} (hmem : e ∈ k.mq.targets)
    (hen : e.2.enabled = true) (hport : e.2.port = port) : ((k.driveGone port).target e.1).state = 3 := by
  have hlisted : e.1 ∈ (k.mq.targets.filter fun e => e.2.enabled && e.2.port == port).map (·.1) :=
    List.mem_map.2 ⟨e, List.mem_filter.2 ⟨hmem, by simp [hen, hport]⟩, rfl⟩
  have hgone : ((((k.mq.targets.filter fun e => e.2.enabled && e.2.port == port).map (·.1)).foldl Chip.targetGone k).target
      e.1).state = 3 := by
    refine foldl_establishes (P := fun k' : Chip => (k'.target e.1).state = 3) (fun k' t h => ?_)
      (fun k' => k'.target_targetGone_self e.1) hlisted k
    by_cases ht : e.1 = t
    · rw [ht]
      exact k'.target_targetGone_self t
    · rw [k'.target_targetGone_ne ht]
      exact h
  exact List.foldlRecOn (motive := fun k' : Chip => (k'.target e.1).state = 3) _ _ hgone fun k' h n _ =>
    k'.cmdFailed_offline n 2 0 h

theorem Chip.driveGone_present (k : Chip) (port : Nat) : port ∉ (k.driveGone port).mq.present := fun h => by
  simpa using (List.mem_filter.1 h).2

/-- R244: the machine with the drive at `port` present. -/
def Chip.drivePresent (k : Chip) (port : Nat) : Chip :=
  { k with mq := { k.mq with present := port :: k.mq.present.filter (· != port) } }

/-- R244: what a change of MQ_LINK.UP and the event of a drive leave. -/
theorem Chip.rd_driveEvent (k : Chip) {f : Fld} (up port : Nat) (hf : f = MQ_EVENT.DRIVE_REMOVED ∨ f = MQ_EVENT.DRIVE_ADDED) :
    ((k.wr MQ_LINK.UP up).mqEvent f 0 port 0).refresh.rd MQ_LINK.UP = up % 2 ^ 32 ∧
    ((k.wr MQ_LINK.UP up).mqEvent f 0 port 0).refresh.rd f = 1 := by
  have hapart : ∀ f ∈ [MQ_EVENT.DRIVE_REMOVED, MQ_EVENT.DRIVE_ADDED], f.width = 1 ∧ MQ_LINK.UP.key ≠ f.key ∧
      f.key ∉ mqInfoFields.map Fld.key ∧ f.key ∉ shownFields.map Fld.key := by decide +kernel
  obtain ⟨hwidth, hup, hinfo, hshown⟩ := hapart f (by simpa using hf)
  rw [Chip.rd_refresh _ hshown, Chip.rd_refresh _ (by decide +kernel), Chip.rd_mqEvent_ne _ _ _ _ (by decide) hup,
    Chip.rd_mqEvent _ _ _ _ _ hinfo, Chip.raise, Chip.rd_wr_self, Chip.rd_wr_self, hwidth]
  exact ⟨rfl, rfl⟩

theorem Chip.driveRemoved_eq (k : Chip) (port : Nat) : k.driveRemoved port =
    ((k.driveGone port).wr MQ_LINK.UP (clearBit (k.rd MQ_LINK.UP) port)).mqEvent
      MQ_EVENT.DRIVE_REMOVED 0 port 0 := by rw [Chip.driveRemoved]

theorem Chip.driveAdded_eq (k : Chip) (port : Nat) : k.driveAdded port =
    ((k.drivePresent port).wr MQ_LINK.UP (setBit (k.rd MQ_LINK.UP) port)).mqEvent MQ_EVENT.DRIVE_ADDED 0 port 0 := rfl

/-! ### The commands -/

theorem exec_mqTargetWrite (s : State) (i : Nat) : exec (.mqTargetWrite i) s = .next (s.after (s.chip.mqTargetWrite i)) := rfl

theorem exec_mqQpWrite (s : State) (i : Nat) : exec (.mqQpWrite i) s = .next (s.after (s.chip.mqQpWrite i)) := rfl

theorem exec_mqIndRead (s : State) (target i : Nat) :
    exec (.mqIndRead target i) s = .next (s.after (s.chip.mqIndRead target i)) := rfl

theorem exec_mediaCommandTimeout (s : State) (n : Nat) :
    exec (.mediaCommandTimeout n) s = .next (s.after (s.chip.cmdTimeout n)) := rfl

theorem exec_driveRemoved (s : State) (port : Nat) :
    exec (.driveRemoved port) s = .next (s.after (s.chip.driveRemoved port)) := rfl

theorem exec_driveAdded (s : State) (port : Nat) : exec (.driveAdded port) s = .next (s.after (s.chip.driveAdded port)) := rfl

/-- Settles O21: an entry by the checks of its write, a timeout by what the command was for, a drive by the targets behind its
port. -/
theorem mediaTablesAndDrives : Obligations.MediaTablesAndDrives := by
  refine ⟨?_, ?_, ?_, ?_, ?_, ?_, ?_⟩
  · intro s i b g hi hb hgood hg hoff
    obtain ⟨hstatus, hgo⟩ := s.chip.rd_targetWritten i (g.written b)
    refine ⟨fun hdis => ?_, fun hen hwas hon => ?_⟩
    · rw [exec_mqTargetWrite, Chip.mqTargetWrite_good hi hb hgood hg hoff, if_neg (by simp [hdis])]
      refine ⟨_, rfl, ?_, fun j hj => ?_, ?_, ?_, .of_eq (Chip.refresh_mem _)⟩
      · rw [State.after_chip, Chip.target_refresh, Chip.target_targetWritten]
      · rw [State.after_chip, Chip.target_refresh, Chip.target_targetWritten_ne _ _ hj]
      · exact (Chip.rd_refresh_mqInd _).1.trans hstatus
      · exact (Chip.rd_refresh_mqInd _).2.trans hgo
    · have hself := s.chip.target_targetWritten i (g.written b)
      rw [exec_mqTargetWrite, Chip.mqTargetWrite_good hi hb hgood hg hoff, if_pos (by simp [hen, hwas])]
      refine ⟨_, rfl, ?_, ?_, ?_⟩
      · rw [State.after_chip, Chip.target_refresh]
        have hon' := (s.chip.on_enable_targetWritten i (g.written b)).trans hon
        exact Chip.startTargets_starts hon' (by rw [hself, hen]) (by rw [hself]; exact hoff)
      · rw [State.after_chip, (Chip.rd_refresh_mqInd _).1, Chip.rd_startTargets _ (by decide), hstatus]
      · rw [State.after_chip, (Chip.rd_refresh_mqInd _).2, Chip.rd_startTargets _ (by decide), hgo]
  · intro s i b q hi hb hgood hq hoff
    rw [exec_mqQpWrite, Chip.mqQpWrite_good hi hb hgood hq hoff]
    refine ⟨_, rfl, ?_, fun j hj => ?_, ?_, ?_, .of_eq (Chip.refresh_mem _)⟩
    · rw [State.after_chip, Chip.qpair_refresh, Chip.qpair_qpairWritten]
    · rw [State.after_chip, Chip.qpair_refresh, Chip.qpair_qpairWritten_ne _ _ hj]
    · exact (Chip.rd_refresh_mqInd _).1.trans (Chip.rd_qpairWritten _ _ _).1
    · exact (Chip.rd_refresh_mqInd _).2.trans (Chip.rd_qpairWritten _ _ _).2
  · intro s i hi
    rw [exec_mqIndRead, exec_mqIndRead, Chip.mqIndRead_target _ hi, Chip.mqIndRead_qpair _ (by omega)]
    exact ⟨⟨_, rfl, s.after_mqShown 0 i (Target.bytes_length _) rfl⟩,
      ⟨_, rfl, s.after_mqShown 1 i (QPair.bytes_length _) rfl⟩⟩
  · intro s n c ps k hc huse hleft hk
    rw [exec_mediaCommandTimeout, Chip.cmdTimeout_flush hc huse hleft hk]
  · intro s n m c hc huse
    rw [exec_mediaCommandTimeout, Chip.cmdTimeout_abort hc huse]
  · intro s port hport
    obtain ⟨hup, hevent⟩ := (s.chip.driveGone port).rd_driveEvent (clearBit (s.chip.rd MQ_LINK.UP) port) port (.inl rfl)
    rw [exec_driveRemoved, Chip.driveRemoved_eq]
    refine ⟨_, rfl, ?_, hevent, ?_, fun e hmem hen hbehind => ?_⟩
    · rw [State.after_chip, hup, bit_mod_two_pow _ hport, bit_clearBit]
      simp
    · rw [State.after_chip, Chip.refresh_mq, Chip.mqEvent_mq]
      exact s.chip.driveGone_present port
    · rw [State.after_chip, Chip.target_refresh, Chip.target, Chip.mqEvent_mq]
      exact Chip.driveGone_offline hmem hen hbehind
  · intro s port hport
    obtain ⟨hup, hevent⟩ := (s.chip.drivePresent port).rd_driveEvent (setBit (s.chip.rd MQ_LINK.UP) port) port (.inr rfl)
    rw [exec_driveAdded, Chip.driveAdded_eq]
    refine ⟨_, rfl, ?_, hevent, ?_, ?_, ?_, .of_eq ?_⟩
    · rw [State.after_chip, hup, bit_mod_two_pow _ hport, bit_setBit_self]
    · rw [State.after_chip, Chip.refresh_mq, Chip.mqEvent_mq]
      exact List.mem_cons_self ..
    · rw [State.after_chip, Chip.refresh_mq, Chip.mqEvent_mq, Chip.wr_mq, Chip.drivePresent]
    · rw [State.after_chip, Chip.refresh_mq, Chip.mqEvent_mq, Chip.wr_mq, Chip.drivePresent]
    · rw [State.after_chip, Chip.refresh_mem, Chip.mqEvent_mem, Chip.wr_mem, Chip.drivePresent]

end Sys2Proof.Machine
end

section
/-!
PROOFS. MSIs and the interrupt files, harts that fail, and moves of hart IDs that end (10, 18).
-/

namespace Sys2Proof.Machine

/-! ### A hart ID on a tile while a store or the report of an event goes on -/

/-- Hart ID `h` is as `g` but for its reservation, which another agent's store may end. -/
def Chip.HartIs (k : Chip) (h : Nat) (g : Hart) : Prop := ∃ r, k.hart h = { g with reservation := r }

section
variable {k k' : Chip} {h : Nat} {g : Hart}

theorem Chip.HartIs.of_harts (hi : k.HartIs h g) (hk : k'.harts = k.harts) : k'.HartIs h g := by
  rwa [Chip.HartIs, Chip.hart, hk]

theorem Chip.HartIs.online (hi : k.HartIs h g) : (k.hart h).online = g.online := by
  obtain ⟨r, hr⟩ := hi
  rw [hr]

variable (hg : g.ptile ≠ none)
include hg

/-- A change of every hart that concerns the reservation of `h` alone keeps the rest of `h`: a hart ID on a tile is not the
default, so its entry stays. -/
theorem Chip.HartIs.mapVals {f : Nat → Hart → Hart} (hi : k.HartIs h g) (hk : k'.harts = Tbl.mapVals {} k.harts f)
    (hf : ∀ r, ∃ r', f h { g with reservation := r } = { g with reservation := r' }) : k'.HartIs h g := by
  have hne : ∀ r, { g with reservation := r } ≠ ({} : Hart) := fun r he => hg (congrArg Hart.ptile he)
  obtain ⟨r, hr⟩ := hi
  obtain ⟨r', hr'⟩ := hf r
  refine ⟨r', ?_⟩
  rw [Chip.hart] at hr
  rw [Chip.hart, hk, Tbl.get_mapVals (by rw [hr]; exact hne r) (by rw [hr, hr']; exact hne r'), hr, hr']

theorem Chip.HartIs.loseReservations (hi : k.HartIs h g) (l : Nat) (p : Nat → Bool) :
    (k.loseReservations l p).HartIs h g :=
  hi.mapVals (f := fun h g => if g.reservation == some l && p h then { g with reservation := none } else g) hg rfl
    fun r => by
      dsimp only
      split
      · exact ⟨none, rfl⟩
      · exact ⟨r, rfl⟩

theorem Chip.HartIs.recallLine (hi : k.HartIs h g) (l : Nat) : (k.recallLine l).HartIs h g := by
  unfold Chip.recallLine
  refine Chip.HartIs.of_harts (Chip.HartIs.loseReservations hg (hi.of_harts ?_) l fun _ => true) rfl
  split <;> rfl

theorem Chip.HartIs.store (hi : k.HartIs h g) (a : Nat) (bs : Bytes) : (k.store a bs).HartIs h g := by
  unfold Chip.store
  split
  · exact hi
  · exact Chip.HartIs.of_harts (List.foldlRecOn (motive := fun k' : Chip => k'.HartIs h g) _ _ hi
      fun _ hi' l _ => hi'.recallLine hg l) rfl

theorem Chip.HartIs.errorRing (hi : k.HartIs h g) (seq cls : Nat) (r : Bytes) : (k.errorRing seq cls r).HartIs h g := by
  have hput : (k.ringPut (k.ringSlot seq) r).HartIs h g := by
    unfold Chip.ringPut
    split
    · exact hi.store hg _ _
    · exact hi
  unfold Chip.errorRing
  split
  · exact hi
  · split
    · exact hi.of_harts rfl
    · refine hput.of_harts ?_
      unfold Chip.ringSignal
      split <;> rfl

/-- Reporting an event changes no more of a hart ID on a tile than its reservation. -/
theorem Chip.HartIs.log (hi : k.HartIs h g) (e : Ev) : (k.log e).HartIs h g := by
  have hlife : (k.countLife e).HartIs h g := by
    refine hi.of_harts ?_
    unfold Chip.countLife
    split
    · rfl
    · split <;> rfl
  have hnew : ((k.countLife e).logNew e).HartIs h g := by
    unfold Chip.logNew
    refine Chip.HartIs.errorRing hg (hlife.of_harts ?_) _ _ _
    rw [Chip.emit_harts]
  unfold Chip.log
  dsimp only
  split
  · split
    · exact hlife.of_harts rfl
    · exact hnew
  · exact hnew

/-! ### The secure world restarts (R459, R461) -/

/-- R459: a forced exit concerns harts that run. -/
theorem Chip.HartIs.forcedExits (hoff : g.online = false) (hi : k.HartIs h g) : k.forcedExits.HartIs h g :=
  hi.mapVals (f := fun _ g => if g.online && g.w == 0 then g.forcedExit.takeHalt (k.on WS_DEBUG.NID) else g) hg rfl
    fun r => ⟨r, by simp [hoff]⟩

/-- R459: a hart that is offline and keeps its tile stays as it was. -/
theorem Chip.HartIs.secureRestart (hoff : g.online = false) (hi : k.HartIs h g) (cause : Nat) :
    (k.secureRestart cause).HartIs h g := by
  unfold Chip.secureRestart
  split
  · exact hi.log hg _
  · unfold Chip.beginRestart Chip.wsFailure
    refine Chip.HartIs.forcedExits hg hoff (Chip.HartIs.of_harts (Chip.HartIs.log hg (hi.of_harts ?_) _) rfl)
    simp only [Chip.wr_harts, Chip.raise_harts, Chip.bump_harts]

end

section
variable (k : Chip) (cause : Nat)

theorem Chip.beginRestart_flt : k.beginRestart.flt = k.flt := by
  simp [Chip.beginRestart, Chip.wsFailure, Chip.forcedExits]

theorem Chip.beginRestart_tiles : k.beginRestart.tiles = k.tiles := by
  simp [Chip.beginRestart, Chip.wsFailure, Chip.forcedExits]

@[simp] theorem Chip.secureRestart_flt : (k.secureRestart cause).flt = k.flt := by
  unfold Chip.secureRestart
  split
  · exact k.log_flt _
  · exact Chip.beginRestart_flt _

@[simp] theorem Chip.secureRestart_tiles : (k.secureRestart cause).tiles = k.tiles := by
  unfold Chip.secureRestart
  split
  · exact k.log_tiles _
  · exact Chip.beginRestart_tiles _

theorem Chip.rd_restarting_wsFailure {f : Fld} (hf : f.key ≠ WS_STATUS.RESTARTING.key) :
    (k.wsFailure f).rd WS_STATUS.RESTARTING = k.rd WS_STATUS.RESTARTING := by
  rw [Chip.wsFailure, Chip.log_rd _ _ (by decide), Chip.rd_wr_ne _ _ (by decide), Chip.rd_wr_ne _ _ (by decide),
    Chip.rd_wr_ne _ _ (by decide), Chip.raise, Chip.rd_wr_ne _ _ hf.symm]

theorem Chip.rd_restarting_beginRestart : k.beginRestart.rd WS_STATUS.RESTARTING = 1 := by
  have hbegun : (((k.wr WS_STATUS.RESTARTING 1).bump WS_STATUS.RESTARTS 1).wsFailure WS_ERR.RESTART).rd
      WS_STATUS.RESTARTING = 1 := by
    rw [Chip.rd_restarting_wsFailure _ (by decide), Chip.bump, Chip.rd_wr_ne _ _ (by decide), Chip.rd_wr_self]
    rfl
  exact hbegun

/-- R459: after a cause of a restart the secure world is restarting. -/
theorem Chip.rd_restarting_secureRestart : (k.secureRestart cause).rd WS_STATUS.RESTARTING = 1 := by
  unfold Chip.secureRestart
  split
  · next hon =>
    rw [Chip.log_rd _ _ (by decide)]
    simpa [Chip.on] using hon
  · exact Chip.rd_restarting_beginRestart _

end

theorem restarting_not_shown : WS_STATUS.RESTARTING.key ∉ shownFields.map Fld.key := by decide +kernel

/-! ### Interrupt files (R251, R267, R444) -/

section
variable {k : Chip} {addr h f : Nat}

/-- R251, R444: a 4-byte write at the start of a file's page, of a world that may make it, brings its data as an identity. -/
theorem Chip.msiWrite_delivers {w : Nat} (data source : Nat) (hfile : fileOf addr = some (h, f)) (hworld : f ≠ 0 ∨ w ≠ 1)
    (halign : addr % 4096 = 0) : k.msiWrite addr data w 4 source = k.deliverMsi h f data := by
  have hpass : (f == 0 && w == 1) = false := by
    rw [Bool.and_eq_false_iff, beq_eq_false_iff_ne, beq_eq_false_iff_ne]
    exact hworld
  unfold Chip.msiWrite
  simp [hfile, hpass, halign]

/-- R444: the M-level file refuses the non-secure world. -/
theorem Chip.msiWrite_refused (data width source : Nat) (hfile : fileOf addr = some (h, 0)) :
    k.msiWrite addr data 1 width source = k.wsErr WS_ERR.MSI_SECURE addr source := by
  unfold Chip.msiWrite
  simp [hfile]

/-- R251: the hart that runs takes the identity. -/
theorem Chip.deliverMsi_online (id : Nat) (hstay : (k.hart h).moving = none) (hon : (k.hart h).online = true) :
    k.deliverMsi h f id = k.setHart h fun g => g.deliver f id := by
  unfold Chip.deliverMsi
  simp [hstay, hon]

/-- R267: during a move the identity is held. -/
theorem Chip.deliverMsi_moving (id : Nat) {moving : Nat × Nat} (hmove : (k.hart h).moving = some moving) :
    k.deliverMsi h f id = k.setHart h fun g => { g with heldMsis := g.heldMsis ++ [(f, id)] } := by
  unfold Chip.deliverMsi
  simp [hmove]

end

/-- R251: an identity from 1 to 2,047 becomes pending in a file that is there. -/
theorem Hart.deliver_pends (g : Hart) {f id : Nat} (hlo : 1 ≤ id) (hhi : id ≤ 2047) (hf : f ≤ 8) :
    g.deliver f id = { g with files := Tbl.mod 0 g.files f fun n => setBit n id } := if_pos ⟨hlo, hhi, hf⟩

/-! ### A hart fails (R270, R459) -/

/-- R270: the machine with hart ID `h` offline and its tile `tl` out of service, the move asked for. -/
def Chip.hartStopped (k : Chip) (h tl : Nat) : Chip :=
  let k' := (k.setTile tl fun x => { x with failed := true }).setHart h fun g => { g with online := false, halted := false }
  { k' with flt := { k'.flt with movesDue := k'.flt.movesDue ++ [k.due h 1] } }

section
variable {k : Chip} {h tl : Nat}

/-- R270, R459: a running hart that fails stops, and with W = 0 the secure world restarts. -/
theorem Chip.hartFails_running (hon : (k.hart h).online = true) (htile : (k.hart h).ptile = some tl) :
    k.hartFails h =
      if (k.hart h).w = 0 then (k.hartStopped h tl).secureRestart 3 else k.hartStopped h tl := by
  unfold Chip.hartFails
  simp [hon, htile, Chip.hartStopped]

theorem Chip.hartStopped_hart : (k.hartStopped h tl).hart h = { k.hart h with online := false, halted := false } :=
  Chip.hart_setHart (k.setTile tl _) h fun g => { g with online := false, halted := false }

theorem Chip.hartStopped_hart_ne {h' : Nat} (hn : h' ≠ h) : (k.hartStopped h tl).hart h' = k.hart h' :=
  Chip.hart_setHart_ne (k.setTile tl _) (fun g => { g with online := false, halted := false }) hn

theorem Chip.hartStopped_tile : ((k.hartStopped h tl).tile tl).failed = true :=
  congrArg Tile.failed (k.tile_setTile tl fun x => { x with failed := true })

theorem Chip.hartStopped_movesDue : (k.hartStopped h tl).flt.movesDue = k.flt.movesDue ++ [k.due h 1] := rfl

/-- R270: whether or not the secure world restarts, a hart that fails is offline, its tile failed, its move due. -/
theorem Chip.hartFails_stops (hon : (k.hart h).online = true) (htile : (k.hart h).ptile = some tl) :
    ((k.hartFails h).hart h).online = false ∧ ((k.hartFails h).tile tl).failed = true ∧
      (k.hartFails h).flt.movesDue = k.flt.movesDue ++ [k.due h 1] := by
  have hstopped : (k.hartStopped h tl).HartIs h { k.hart h with online := false, halted := false } :=
    ⟨_, Chip.hartStopped_hart⟩
  have hrestarted := hstopped.secureRestart (by simp [htile]) rfl 3
  rw [Chip.hartFails_running hon htile]
  split
  · refine ⟨hrestarted.online, ?_, ?_⟩
    · rw [Chip.tile, Chip.secureRestart_tiles, ← Chip.tile, Chip.hartStopped_tile]
    · rw [Chip.secureRestart_flt, Chip.hartStopped_movesDue]
  · exact ⟨hstopped.online, Chip.hartStopped_tile, Chip.hartStopped_movesDue⟩

end

/-! ### Moves end (R266, R267) -/

/-- Counting the discarded MSIs in a record touches Gunel's log alone. -/
theorem Chip.countHeld_eq (k : Chip) (h n : Nat) : k.countHeld h n = { k with gn := (k.countHeld h n).gn } := by
  unfold Chip.countHeld
  split <;> rfl

section
variable {k : Chip} {h tl reason : Nat} (hmove : (k.hart h).moving = some (tl, reason))
include hmove

/-- R266: a takeover ends with the hart ID at its reset on the spare. -/
theorem Chip.takeoverComplete_takes (hreason : reason ≤ 2) : k.takeoverComplete h =
    (k.countHeld h (k.hart h).heldMsis.length).setHart h fun g => g.afterReset tl reason k.stubInForce := by
  simp [Chip.takeoverComplete, hmove, Nat.not_lt.2 hreason]

/-- R266, R267: a migration for which no MSI was held ends with the hart ID on the spare with its context. -/
theorem Chip.migrationComplete_moves (hreason : 2 < reason) (hheld : (k.hart h).heldMsis = []) :
    ∃ f : Hart → Hart, k.migrationComplete h = k.setHart h f ∧ f (k.hart h) = { k.hart h with
      ptile := some tl, moved := true, reason := reason, moves := min 255 ((k.hart h).moves + 1), moving := none } := by
  refine ⟨_, by simp only [Chip.migrationComplete, hmove, if_neg (Nat.not_le.2 hreason)]; rfl, ?_⟩
  rw [hheld, List.foldl_nil, ← hheld]

end

/-! ### The commands -/

theorem exec_msiDelivery (s : State) (addr data : Nat) (who : By) (width : Nat) : exec (.msiDelivery addr data who width) s =
    .next (s.after (s.chip.msiWrite addr data who.w width who.source)) := rfl

/-- R270: a core fault and a hang are one failure. -/
theorem exec_hartFails (s : State) {h : Nat} {c : Instr} (hc : c = .coreFault h ∨ c = .hartHangTimeout h) :
    exec c s = .next (s.after (s.chip.hartFails h)) := by
  obtain rfl | rfl := hc <;> rfl

theorem exec_takeoverComplete (s : State) (h : Nat) :
    exec (.takeoverComplete h) s = .next (s.after (s.chip.takeoverComplete h)) := rfl

theorem exec_migrationComplete (s : State) (h : Nat) :
    exec (.migrationComplete h) s = .next (s.after (s.chip.migrationComplete h)) := rfl

/-- Settles O25: an MSI and the end of a move change one hart; a failure stops one, and neither a restart nor its report brings
it back, since a hart ID on a tile loses no more than its reservation. -/
theorem msisAndMoves : Obligations.MsisAndMoves := by
  refine ⟨?_, ?_, ?_, ?_, ?_, ?_⟩
  · intro s addr data h f who hfile hworld halign hlo hhi hf hstay hon
    rw [exec_msiDelivery, Chip.msiWrite_delivers data _ hfile hworld halign, Chip.deliverMsi_online data hstay hon,
      ← Hart.deliver_pends _ hlo hhi hf]
    exact ⟨_, rfl, s.after_setHart s.chip h _ rfl⟩
  · intro s addr data h f who moving hfile hworld halign hmove
    rw [exec_msiDelivery, Chip.msiWrite_delivers data _ hfile hworld halign, Chip.deliverMsi_moving data hmove]
    obtain ⟨hself, -, hmem, hregs, -⟩ := s.after_setHart s.chip h
      (fun g => { g with heldMsis := g.heldMsis ++ [(f, data)] }) rfl
    exact ⟨_, rfl, hself, hmem, hregs⟩
  · intro s addr data h who width hfile hw
    rw [exec_msiDelivery, hw, Chip.msiWrite_refused data width _ hfile]
  · intro s h tl c hc hon htile
    obtain ⟨hoff, hfailed, hdue⟩ := Chip.hartFails_stops hon htile
    refine ⟨_, exec_hartFails s hc, ?_, ?_, ?_, fun hw => ?_, fun hw => ?_⟩
    · rw [State.after_chip, Chip.hart_refresh, hoff]
    · rw [State.after_chip, Chip.tile_refresh, hfailed]
    · rw [State.after_chip, Chip.refresh_flt, hdue]
    · rw [State.after_chip, Chip.rd_refresh _ restarting_not_shown, Chip.hartFails_running hon htile, if_pos hw,
        Chip.rd_restarting_secureRestart]
    · rw [Chip.hartFails_running hon htile, if_neg hw]
      refine ⟨.of_eq (Chip.refresh_mem _), .of_eq rfl, fun g hg => ?_⟩
      rw [State.after_chip, Chip.hart_refresh, Chip.hartStopped_hart_ne hg]
  · intro s h tl reason hmove hreason
    rw [exec_takeoverComplete, Chip.takeoverComplete_takes hmove hreason, Chip.countHeld_eq]
    refine ⟨_, rfl, ?_, fun g hg => ?_, .of_eq (Chip.refresh_mem _), .of_eq rfl⟩
    · rw [State.after_chip, Chip.hart_refresh, Chip.hart_setHart]
    · rw [State.after_chip, Chip.hart_refresh, Chip.hart_setHart_ne _ _ hg]
  · intro s h tl reason hmove hreason hheld
    obtain ⟨f, hmoved, hf⟩ := Chip.migrationComplete_moves hmove hreason hheld
    obtain ⟨hself, hrest, hmem, hregs, -⟩ := s.after_setHart s.chip h f rfl
    rw [exec_migrationComplete, hmoved, ← hf]
    exact ⟨_, rfl, hself, hrest, hmem, hregs⟩

end Sys2Proof.Machine
end

section
/-!
PROOFS. The home (12): the requests that it begins at once, the snoops that it sends, and the evictions that it takes (11, 12).
-/

namespace Sys2Proof.Machine

/-! ### The parts of the state that the home and the die agent change -/

/-- The machine with grant `g` of line `l` under way to die `d`. -/
def Chip.granting (k : Chip) (l d : Nat) (g : Grant) : Chip :=
  { k with coh := { k.coh with grants := k.coh.grants.insert (cohKey l d) g } }

/-- R301: line `l` of die `d` as its eviction buffer holds it. -/
def DieLine.evicted (c : DieLine) : Evict := { st := c.st, data := c.data, poison := c.poison }

/-- R277, R301: the machine with line `l` of die `d` in the eviction buffer, and the reservations of that die on it lost. -/
def Chip.buffered (k : Chip) (l d : Nat) : Chip :=
  { k with
    harts := (k.loseReservations l fun h => k.hartDie h == d).harts
    coh := { k.coh with
      evict := k.coh.evict.insert (cohKey l d) (k.dieLine l d).evicted
      die := Tbl.mod {} k.coh.die (cohKey l d) fun _ => {} } }

section
variable (k : Chip)

@[simp] theorem Chip.homeLine_refresh (l : Nat) : k.refresh.homeLine l = k.homeLine l := by
  rw [Chip.homeLine, Chip.sector, Chip.refresh_coh, Chip.homeLine]

@[simp] theorem Chip.dieLine_refresh (l d : Nat) : k.refresh.dieLine l d = k.dieLine l d := by
  rw [Chip.dieLine, Chip.refresh_coh]

@[simp] theorem Chip.say_mem (msg : String) (d l n : Nat) : (k.say msg d l n).mem = k.mem := rfl
@[simp] theorem Chip.say_regs (msg : String) (d l n : Nat) : (k.say msg d l n).regs = k.regs := rfl
@[simp] theorem Chip.say_coh (msg : String) (d l n : Nat) : (k.say msg d l n).coh = k.coh := rfl
@[simp] theorem Chip.say_out (msg : String) (d l n : Nat) : (k.say msg d l n).out = .coherence msg d l n :: k.out := rfl
@[simp] theorem Chip.homeLine_say (msg : String) (d l n l' : Nat) : (k.say msg d l n).homeLine l' = k.homeLine l' := rfl
@[simp] theorem Chip.dieLine_say (msg : String) (d n l l' d' : Nat) : (k.say msg d l n).dieLine l' d' = k.dieLine l' d' := rfl

@[simp] theorem Chip.setHomeLine_mem (l : Nat) (h : HomeLine) : (k.setHomeLine l h).mem = k.mem := rfl
@[simp] theorem Chip.setHomeLine_regs (l : Nat) (h : HomeLine) : (k.setHomeLine l h).regs = k.regs := rfl
@[simp] theorem Chip.setHomeLine_out (l : Nat) (h : HomeLine) : (k.setHomeLine l h).out = k.out := rfl
@[simp] theorem Chip.homeLine_setHomeLine (l : Nat) (h : HomeLine) : (k.setHomeLine l h).homeLine l = h := by
  rw [Chip.homeLine, Chip.sector, Chip.setHomeLine, Chip.setSector, Tbl.get_mod_self, Tbl.get_set_self]

@[simp] theorem Chip.setPresent_mem (l d : Nat) : (k.setPresent l d).mem = k.mem := rfl
@[simp] theorem Chip.setPresent_regs (l d : Nat) : (k.setPresent l d).regs = k.regs := rfl
@[simp] theorem Chip.setPresent_out (l d : Nat) : (k.setPresent l d).out = k.out := rfl
@[simp] theorem Chip.homeLine_setPresent (l d : Nat) : (k.setPresent l d).homeLine l = k.homeLine l := by
  rw [Chip.homeLine, Chip.sector, Chip.setPresent, Chip.setSector, Tbl.get_mod_self, Chip.homeLine]

@[simp] theorem Chip.granting_mem (l d : Nat) (g : Grant) : (k.granting l d g).mem = k.mem := rfl
@[simp] theorem Chip.granting_regs (l d : Nat) (g : Grant) : (k.granting l d g).regs = k.regs := rfl
@[simp] theorem Chip.granting_out (l d : Nat) (g : Grant) : (k.granting l d g).out = k.out := rfl
@[simp] theorem Chip.homeLine_granting (l d l' : Nat) (g : Grant) : (k.granting l d g).homeLine l' = k.homeLine l' := rfl
@[simp] theorem Chip.find_granting (l d : Nat) (g : Grant) : (k.granting l d g).coh.grants.find (cohKey l d) = some g :=
  Tbl.find_insert_self _ _ _

@[simp] theorem Chip.buffered_mem (l d : Nat) : (k.buffered l d).mem = k.mem := rfl
@[simp] theorem Chip.buffered_regs (l d : Nat) : (k.buffered l d).regs = k.regs := rfl
@[simp] theorem Chip.buffered_out (l d : Nat) : (k.buffered l d).out = k.out := rfl
@[simp] theorem Chip.buffered_dir (l d : Nat) : (k.buffered l d).coh.dir = k.coh.dir := rfl
@[simp] theorem Chip.buffered_busy (l d : Nat) : (k.buffered l d).coh.busy = k.coh.busy := rfl
@[simp] theorem Chip.buffered_heldSnoops (l d : Nat) : (k.buffered l d).coh.heldSnoops = k.coh.heldSnoops := rfl
@[simp] theorem Chip.homeLine_buffered (l d l' : Nat) : (k.buffered l d).homeLine l' = k.homeLine l' := rfl
@[simp] theorem Chip.dieLine_buffered (l d : Nat) : (k.buffered l d).dieLine l d = {} := by
  rw [Chip.dieLine, Chip.buffered, Tbl.get_mod_self]
@[simp] theorem Chip.evict_buffered (l d : Nat) :
    (k.buffered l d).coh.evict.find (cohKey l d) = some (k.dieLine l d).evicted := Tbl.find_insert_self _ _ _

@[simp] theorem Chip.setBusy_mem (l : Nat) (b : Option Busy) : (k.setBusy l b).mem = k.mem := rfl
@[simp] theorem Chip.setBusy_regs (l : Nat) (b : Option Busy) : (k.setBusy l b).regs = k.regs := rfl
@[simp] theorem Chip.setBusy_out (l : Nat) (b : Option Busy) : (k.setBusy l b).out = k.out := rfl
@[simp] theorem Chip.setBusy_dir (l : Nat) (b : Option Busy) : (k.setBusy l b).coh.dir = k.coh.dir := rfl
@[simp] theorem Chip.setBusy_die (l : Nat) (b : Option Busy) : (k.setBusy l b).coh.die = k.coh.die := rfl
@[simp] theorem Chip.setBusy_evict (l : Nat) (b : Option Busy) : (k.setBusy l b).coh.evict = k.coh.evict := rfl
@[simp] theorem Chip.setBusy_heldSnoops (l : Nat) (b : Option Busy) : (k.setBusy l b).coh.heldSnoops = k.coh.heldSnoops := rfl
@[simp] theorem Chip.homeLine_setBusy (l l' : Nat) (b : Option Busy) : (k.setBusy l b).homeLine l' = k.homeLine l' := rfl
@[simp] theorem Chip.dieLine_setBusy (l l' d : Nat) (b : Option Busy) : (k.setBusy l b).dieLine l' d = k.dieLine l' d := rfl

end

/-! ### What a home counts and says while it begins a request (R279, R304, R543) -/

/-- `k'` differs from `k` in the messages `os`, sent since, and otherwise in unit counters and insertion counters alone. -/
def Chip.Told (os : List Out) (k k' : Chip) : Prop :=
  k' = { k with out := os ++ k.out, pm := k'.pm, coh := { k.coh with psel := k'.coh.psel } }

theorem Chip.Told.trans {os os' : List Out} {k k' k'' : Chip} (h : Chip.Told os k k') (h' : Chip.Told os' k' k'') :
    Chip.Told (os' ++ os) k k'' := by
  rw [Chip.Told] at h h' ⊢
  rw [h', h, List.append_assoc]

theorem Chip.told_countHome (k : Chip) (l j n : Nat) : Chip.Told [] k (k.countHome l j n) := by
  unfold Chip.countHome Chip.count
  split <;> rfl

theorem Chip.told_say (k : Chip) (msg : String) (d l n : Nat) :
    Chip.Told [.coherence msg d l n] k (k.say msg d l n) := rfl

theorem Chip.told_demandMiss (k : Chip) (u set mode : Nat) : Chip.Told [] k (k.demandMiss u set mode) := by
  unfold Chip.demandMiss
  split
  · rfl
  · split <;> rfl

theorem Chip.told_scDemand (k : Chip) (l : Nat) : Chip.Told [] k (k.scDemand l) := by
  unfold Chip.scDemand
  split
  · exact k.told_demandMiss _ _ _
  · rfl

section
variable {os : List Out} {k k' : Chip} (h : Chip.Told os k k')
include h

theorem Chip.Told.out : k'.out = os ++ k.out := by rw [h]
theorem Chip.Told.mem : k'.mem = k.mem := by rw [h]
theorem Chip.Told.regs : k'.regs = k.regs := by rw [h]
theorem Chip.Told.dir : k'.coh.dir = k.coh.dir := by rw [h]
theorem Chip.Told.die : k'.coh.die = k.coh.die := by rw [h]
theorem Chip.Told.homeLine (l : Nat) : k'.homeLine l = k.homeLine l := by
  rw [Chip.homeLine, Chip.sector, h.dir, Chip.homeLine]
theorem Chip.Told.presentDies (l : Nat) : k'.presentDies l = k.presentDies l := by rw [h]; rfl
theorem Chip.Told.dieLine (l d : Nat) : k'.dieLine l d = k.dieLine l d := by rw [Chip.dieLine, h.die]
theorem Chip.Told.snoopsOf (l : Nat) (it : HomeItem) : k'.snoopsOf l it = k.snoopsOf l it := by rw [h]; rfl
theorem Chip.Told.quiet (hq : k.HomeQuiet) : k'.HomeQuiet := by rw [h]; exact hq
theorem Chip.Told.homeRefuses (l : Nat) (it : HomeItem) : k'.homeRefuses l it = k.homeRefuses l it := by rw [h]; rfl

end

/-! ### A home with nothing under way (R302, R309) -/

theorem Chip.backInvalidate_unblocked {k : Chip} (h : ∀ e ∈ k.coh.busy, e.2.blocked = none) : k.backInvalidate = k := by
  unfold Chip.backInvalidate
  refine List.foldlRecOn (motive := fun k' => k' = k) _ _ rfl fun k' hk' e he => ?_
  rw [hk', h e he]

theorem Chip.busyLine_quiet {k : Chip} (h : k.coh.busy = []) (l : Nat) : k.busyLine l = none := by
  rw [Chip.busyLine, h]
  rfl

theorem Chip.setBusy_none {k : Chip} (h : k.coh.busy = []) (l : Nat) : k.setBusy l none = k := by
  rw [Chip.setBusy, h, List.filter_nil, ← h]

theorem Chip.busy_setBusy {k : Chip} (h : k.coh.busy = []) (l : Nat) (b : Busy) :
    (k.setBusy l (some b)).coh.busy = [(l, b)] := by
  rw [Chip.setBusy, h]
  rfl

theorem Chip.homeRefuses_reached {k : Chip} {m : CohMsg} (h : k.Serves m) (r : HomeReq) :
    k.homeRefuses m.line { die := m.die, who := m.who, req := r } = false := by
  obtain ⟨-, hworld⟩ := h
  have hpass : ¬ (m.who.w = 1 ∧ 64 * m.line < k.secureTop) := by omega
  rw [Chip.homeRefuses, Bool.and_eq_false_imp]
  intro hlow
  exact absurd (by simpa using hlow) hpass

section
variable {k : Chip} {m : CohMsg} {r : HomeReq} (hq : k.HomeQuiet) (hs : k.Serves m)
include hq hs

/-- R302: a request that reaches a quiet home is begun at once. -/
theorem Chip.request_quiet : k.request m r = Chip.endHolds (Chip.backInvalidate
    ((k.countHome m.line 0 1).serveHome m.line [{ die := m.die, who := m.who, req := r }])) := by
  obtain ⟨hup, -⟩ := hs
  obtain ⟨hbusy, -⟩ := (k.told_countHome m.line 0 1).quiet hq
  have hserved : ¬ (decide (m.die < 12) && !k.dieUp m.die) = true := by simpa using hup
  rw [Chip.request, if_neg hserved, Chip.arrive, Chip.busyLine_quiet hbusy]

/-- R302: a request that its home finishes at once does no more than its start. -/
theorem Chip.request_done {k' : Chip} (hstart : (k.countHome m.line 0 1).startReq m.line
    { die := m.die, who := m.who, req := r } [] = (k', none)) (hbusy : k'.coh.busy = []) (hheld : k'.coh.heldSnoops = []) :
    k.request m r = k' := by
  rw [Chip.request_quiet hq hs, Chip.serveHome, hstart]
  dsimp only
  rw [Chip.serveHome, Chip.setBusy_none hbusy, Chip.backInvalidate_unblocked (by simp [hbusy]), Chip.endHolds_none hheld]

/-- R303: a request that awaits an answer keeps its line busy. -/
theorem Chip.request_waits {k' : Chip} {b : Busy} (hstart : (k.countHome m.line 0 1).startReq m.line
    { die := m.die, who := m.who, req := r } [] = (k', some b)) (hb : b.blocked = none) (hbusy : k'.coh.busy = [])
    (hheld : k'.coh.heldSnoops = []) : k.request m r = k'.setBusy m.line (some b) := by
  rw [Chip.request_quiet hq hs, Chip.serveHome, hstart]
  dsimp only
  rw [Chip.backInvalidate_unblocked (by simp [Chip.busy_setBusy hbusy, hb])]
  exact Chip.endHolds_none hheld

end

/-! ### What the home does with a request that it begins (R304) -/

/-- R279: the machine with the demand of request `r` counted. -/
def Chip.demanded (k : Chip) (l : Nat) (r : HomeReq) : Chip :=
  match r with
  | .rdShared _ | .rdUnique | .rdOnce => k.scDemand l
  | _ => k

/-- R299: whether the home still awaits the bytes of request `r`. -/
def Chip.dataDue (k : Chip) (l : Nat) (r : HomeReq) : Bool :=
  match r with
  | .wrLine _ => !(k.coh.wrData.any fun w => w.1 == l)
  | _ => false

/-- R304: the machine with the snoops of request `it` sent. -/
def Chip.snooped (k : Chip) (l : Nat) (it : HomeItem) : Chip :=
  let k := k.demanded l it.req
  ((k.snoopsOf l it).2.foldl (fun k' d => k'.say (k.snoopsOf l it).1.name d l 0) k).countHome l 1 (k.snoopsOf l it).2.length

/-- R303: the tracker of request `it`, its snoops sent. -/
def Chip.tracker (k : Chip) (l : Nat) (it : HomeItem) : Busy :=
  { item := it
    before := (k.snooped l it).homeLine l
    awaiting := ((k.demanded l it.req).snoopsOf l it).2
    needData := (k.snooped l it).dataDue l it.req }

theorem Chip.told_demanded (k : Chip) (l : Nat) (r : HomeReq) : Chip.Told [] k (k.demanded l r) := by
  unfold Chip.demanded
  split
  case h_4 => rfl
  all_goals exact k.told_scDemand l

theorem Chip.told_foldl_say (name : String) (l : Nat) (ds : List Nat) (k : Chip) :
    Chip.Told (ds.map fun d => .coherence name d l 0).reverse k (ds.foldl (fun k' d => k'.say name d l 0) k) := by
  induction ds generalizing k with
  | nil => rfl
  | cons d ds ih =>
    rw [List.map_cons, List.reverse_cons]
    exact (k.told_say name d l 0).trans (ih _)

theorem Chip.told_snooped {k : Chip} {l : Nat} {it : HomeItem} {sn : Snoop} {ds : List Nat}
    (hsn : k.snoopsOf l it = (sn, ds)) :
    Chip.Told (ds.map fun d => .coherence sn.name d l 0).reverse k (k.snooped l it) := by
  have hdemand := k.told_demanded l it.req
  have hsn' : (k.demanded l it.req).snoopsOf l it = (sn, ds) := (hdemand.snoopsOf l it).trans hsn
  unfold Chip.snooped
  dsimp only
  rw [hsn']
  have h := (hdemand.trans (Chip.told_foldl_say sn.name l ds _)).trans (Chip.told_countHome _ l 1 ds.length)
  rwa [List.nil_append, List.append_nil] at h

/-- R302, R304: a request that is no eviction snoops, and is finished at once where nothing is awaited. -/
theorem Chip.startReq_served {k : Chip} {l : Nat} {it it' : HomeItem} (href : k.homeRefuses l it = false)
    (hevict : ∀ e, it.req ≠ .evict e ∧ it.req ≠ .writeback e) (hserved : k.asServed l it = (it', k))
    (hroom : k.coh.dir.length < 16) : k.startReq l it [] =
      if !(k.tracker l it').awaiting.isEmpty || (k.tracker l it').needData then (k.snooped l it', some (k.tracker l it'))
      else (((k.snooped l it').finishReq l (k.tracker l it')).1,
        if ((k.snooped l it').finishReq l (k.tracker l it')).2 then some { k.tracker l it' with granted := true } else none) := by
  have hvictim : (if it'.req.needsEntry then k.dirVictim l else (none, k)) = (none, k) := by simp [Chip.dirVictim, hroom]
  unfold Chip.startReq
  rw [if_neg (by simp [href])]
  split
  · next e h => exact absurd h (hevict e).1
  · next e h => exact absurd h (hevict e).2
  · rw [hserved]
    simp only [hvictim]
    rfl

/-! ### A request for a line that another die owns (R304, R305) -/

/-- R304: the snoop by which the home asks the owner of a line. -/
def HomeReq.ownerSnoop : HomeReq → Option Snoop
  | .rdShared _ => some .shared
  | .rdUnique | .own false => some .unique
  | .rdOnce => some .once
  | .own true => some .inv
  | .cmo 0 => some .clean
  | .cmo _ => some .inv
  | _ => none

/-- R305: the request as the home serves it where another die owns the line: the copy of its sender is lost. -/
def HomeReq.copyLost : HomeReq → HomeReq
  | .own false => .rdUnique
  | r => r

/-- R299: no request that snoops the owner alone brings bytes of its own. -/
theorem Chip.dataDue_copyLost (k : Chip) (l : Nat) {r : HomeReq} {sn : Snoop} (hsn : r.ownerSnoop = some sn) :
    k.dataDue l r.copyLost = false := by
  cases r with
  | own zero => cases zero <;> rfl
  | wrLine => cases hsn
  | _ => rfl

/-- The line is owned by die `x`, which alone has a PRESENT bit, and no die is lost. -/
structure Chip.OwnedBy (k : Chip) (l x : Nat) : Prop where
  line : k.homeLine l = .owned x
  present : k.presentDies l = [x]
  lost : k.coh.lost = []

theorem Chip.Told.ownedBy {os : List Out} {k k' : Chip} (h : Chip.Told os k k') {l x : Nat} (ho : k.OwnedBy l x) :
    k'.OwnedBy l x :=
  ⟨(h.homeLine l).trans ho.line, (h.presentDies l).trans ho.present, by rw [h]; exact ho.lost⟩

section
variable {k : Chip} {l x : Nat} {it : HomeItem} {sn : Snoop} (ho : k.OwnedBy l x) (hx : x ≠ it.die)
  (hsn : it.req.ownerSnoop = some sn)
include ho hx hsn

/-- R305: OWN of a copy that the directory no longer has is served as RD_UNIQUE. -/
theorem Chip.asServed_owned : k.asServed l it = ({ it with req := it.req.copyLost }, k) := by
  have hgone : k.stillHolds l it.die = false := by simp [Chip.stillHolds, ho.present, hx.symm]
  obtain ⟨die, who, req⟩ := it
  unfold Chip.asServed
  cases req with
  | own zero => cases zero <;> simp_all [HomeReq.copyLost]
  | amo => cases hsn
  | _ => rfl

/-- R304: the owner alone is snooped. -/
theorem Chip.snoopsOf_owned : k.snoopsOf l { it with req := it.req.copyLost } = (sn, [x]) := by
  obtain ⟨hline, hpresent, hlost⟩ := ho
  obtain ⟨die, who, req⟩ := it
  have howner : k.homeLine l ≠ .none := by simp [hline]
  unfold Chip.snoopsOf
  cases req with
  | rdShared | rdUnique | rdOnce => simp_all [HomeReq.copyLost, HomeReq.ownerSnoop, HomeLine.owner]
  | own zero => cases zero <;> simp_all [HomeReq.copyLost, HomeReq.ownerSnoop, HomeLine.owner]
  | cmo kind => cases kind <;> simp_all [HomeReq.copyLost, HomeReq.ownerSnoop, HomeLine.owner]
  | _ => cases hsn

/-- R303, R304: the request waits for the answer of the owner. -/
theorem Chip.startReq_owned (href : k.homeRefuses l it = false) (hroom : k.coh.dir.length < 16) :
    ∃ k', k.startReq l it [] =
        (k', some { item := { it with req := it.req.copyLost }, before := .owned x, awaiting := [x] }) ∧
      Chip.Told [.coherence sn.name x l 0] k k' := by
  have hnone : ∀ e, it.req ≠ .evict e ∧ it.req ≠ .writeback e := fun e =>
    ⟨fun h => by simp [h, HomeReq.ownerSnoop] at hsn, fun h => by simp [h, HomeReq.ownerSnoop] at hsn⟩
  have htold := Chip.told_snooped (Chip.snoopsOf_owned ho hx hsn)
  have hb : k.tracker l { it with req := it.req.copyLost } =
      { item := { it with req := it.req.copyLost }, before := .owned x, awaiting := [x] } := by
    rw [Chip.tracker, htold.homeLine, ho.line, (k.told_demanded l _).snoopsOf, Chip.snoopsOf_owned ho hx hsn,
      Chip.dataDue_copyLost _ l hsn]
  refine ⟨_, ?_, htold⟩
  rw [Chip.startReq_served href hnone (Chip.asServed_owned ho hx hsn) hroom, hb]
  rfl

end

/-! ### A shared copy that alone holds the line (R304) -/

/-- R304: a COMP that grants a state sets the PRESENT bit of its die. -/
theorem Chip.grant_comp (k : Chip) (l d : Nat) {g : Grant} (hst : g.st ≠ .i) (hcomp : g.comp = true) :
    k.grant l d g = ((k.setPresent l d).granting l d g).say "COMP" d l 0 := by
  have hpresent : (if g.st == .i then k else k.setPresent l d) = k.setPresent l d := if_neg (by simpa using hst)
  unfold Chip.grant
  rw [hpresent]
  exact if_pos hcomp

/-- R304, R305: OWN of the only copy of a shared line is granted at once. -/
theorem Chip.startReq_sole {k : Chip} {l : Nat} {it : HomeItem} (hreq : it.req = .own false) (hline : k.homeLine l = .shared)
    (hpresent : k.presentDies l = [it.die]) (href : k.homeRefuses l it = false) (hroom : k.coh.dir.length < 16) :
    ∃ k', k.startReq l it [] = (((((k'.setHomeLine l (.owned it.die)).setPresent l it.die).granting l it.die
      { st := .m, comp := true }).say "COMP" it.die l 0), none) ∧ Chip.Told [] k k' := by
  obtain ⟨die, who, req⟩ := it
  subst hreq
  have hserved : k.asServed l { die := die, who := who, req := .own false } =
      ({ die := die, who := who, req := .own false }, k) := if_pos (by simp [Chip.stillHolds, hpresent, hline])
  have hsn : k.snoopsOf l { die := die, who := who, req := .own false } = (.unique, []) := by
    simp [Chip.snoopsOf, hpresent, hline, HomeLine.owner]
  have hnone : (k.tracker l { die := die, who := who, req := .own false }).awaiting = [] :=
    congrArg Prod.snd (((k.told_demanded l _).snoopsOf l _).trans hsn)
  refine ⟨_, ?_, Chip.told_snooped hsn⟩
  rw [Chip.startReq_served href (fun e => ⟨nofun, nofun⟩) hserved hroom, hnone, ← Chip.grant_comp _ _ _ (by simp) rfl]
  rfl

/-! ### A line that leaves its die (R277, R301, R308) -/

/-- R277: die `d` holds line `l` and may evict it: the line is not locked, not in the eviction buffer yet, and no access waits
for it. -/
structure Chip.Evictable (k : Chip) (l d : Nat) : Prop where
  held : (k.dieLine l d).st ≠ .i
  unlocked : (k.dieLine l d).locked = none
  fresh : k.coh.evict.find (cohKey l d) = none
  unwanted : k.coh.waits.find (cohKey l d) = none

theorem Chip.Told.evictable {os : List Out} {k k' : Chip} (h : Chip.Told os k k') {l d : Nat} (he : k.Evictable l d) :
    k'.Evictable l d := by
  rw [h]
  exact ⟨he.held, he.unlocked, he.fresh, he.unwanted⟩

section
variable {k : Chip} {l d : Nat}

/-- R277, R301: the line goes to the eviction buffer and its notice to the home. -/
theorem Chip.evictLine_evictable (h : k.Evictable l d) : ∃ n, k.evictLine l d = (k.buffered l d).say
    (if (k.dieLine l d).st == .m || (k.dieLine l d).st == .o then "WRITEBACK" else "EVICT") d l n := by
  unfold Chip.evictLine
  rw [if_neg (by simp [h.held, h.unlocked, h.fresh, h.unwanted])]
  exact ⟨_, rfl⟩

end

section
variable {k : Chip} {l : Nat} {it : HomeItem} (h : k.Evictable l it.die)
include h

/-- R304: an EVICT of a clean line that the directory has as shared is acknowledged. -/
theorem Chip.takeEviction_shared (hst : (k.dieLine l it.die).st = .s) (hline : k.homeLine l = .shared) :
    ∃ n, k.takeEviction l it false false =
      (((k.buffered l it.die).say "EVICT" it.die l n).say "EVC_ACK" it.die l 0, false) := by
  obtain ⟨n, hleaves⟩ := Chip.evictLine_evictable h
  exact ⟨n, by simp [Chip.takeEviction, hleaves, hst, hline, DieLine.evicted]⟩

/-- R304, R308: a WRITEBACK of a line that its die owns awaits its data. -/
theorem Chip.takeEviction_owned (hst : (k.dieLine l it.die).st = .m) (hline : k.homeLine l = .owned it.die) :
    ∃ n, k.takeEviction l it false true = ((k.buffered l it.die).say "WRITEBACK" it.die l n, true) := by
  obtain ⟨n, hleaves⟩ := Chip.evictLine_evictable h
  exact ⟨n, by simp [Chip.takeEviction, hleaves, hst, hline, DieLine.evicted]⟩

end

/-! ### The data of a WRITEBACK and the acknowledgement (R278, R304, R308) -/

theorem Chip.spent_eq (k : Chip) (l d : Nat) :
    k.spent l d = { k with coh := { k.coh with evict := (k.spent l d).coh.evict } } := by
  unfold Chip.spent
  split <;> rfl

/-- R278, R304: the machine with the data of a WRITEBACK at home, and the WRITEBACK acknowledged. -/
def Chip.broughtHome (k : Chip) (l d : Nat) (bs : Bytes) (poison : Bool) : Chip :=
  (((k.homePut l (some bs) poison).setHomeLine l .none).spent l d).say "EVC_ACK" d l 0

section
variable (k : Chip) (l d : Nat) (bs : Bytes) (poison : Bool)

theorem Chip.broughtHome_mem : (k.broughtHome l d bs poison).mem = memPut k.mem (64 * l) (padTo bs 64) := by
  rw [Chip.broughtHome, Chip.spent_eq]
  rfl

theorem Chip.broughtHome_busy : (k.broughtHome l d bs poison).coh.busy = k.coh.busy := by
  rw [Chip.broughtHome, Chip.spent_eq]
  rfl

theorem Chip.broughtHome_homeLine : (k.broughtHome l d bs poison).homeLine l = .none := by
  rw [Chip.broughtHome, Chip.spent_eq]
  exact Chip.homeLine_setHomeLine _ l .none

end

/-- R303: the tracker of a WRITEBACK of a line that its die owned, whose data is still to come. -/
def wbTracker (m : CohMsg) : Busy :=
  { item := { die := m.die, who := m.who, req := .writeback false }, before := .owned m.die, needData := true }

/-- R303: the home awaits the data of WRITEBACK `m`, which the eviction buffer of the die holds as `e`. -/
structure Chip.AwaitsData (k : Chip) (m : CohMsg) (e : Evict) : Prop where
  busy : k.coh.busy = [(m.line, wbTracker m)]
  line : k.homeLine m.line = .owned m.die
  entry : k.coh.evict.find (cohKey m.line m.die) = some e

theorem Chip.AwaitsData.refresh {k : Chip} {m : CohMsg} {e : Evict} (h : k.AwaitsData m e) : k.refresh.AwaitsData m e :=
  ⟨by rw [Chip.refresh_coh, h.busy], by rw [Chip.homeLine_refresh, h.line], by rw [Chip.refresh_coh, h.entry]⟩

section
variable {k : Chip} {m : CohMsg} {e : Evict} (h : k.AwaitsData m e)
include h

theorem Chip.broughtHome_freed (bs : Bytes) (poison : Bool) :
    ((k.broughtHome m.line m.die bs poison).setBusy m.line none).coh.busy = [] := by
  simp [Chip.setBusy, Chip.broughtHome_busy, h.busy]

/-- R278, R303, R304: the data comes home from the eviction buffer, and the line is free. -/
theorem Chip.wbData_awaited {bs : Bytes} (hdata : e.data = some bs) (bytes : Bytes) (poison : Bool) :
    k.wbData m.die m.line bytes poison = (k.broughtHome m.line m.die bs e.poison).setBusy m.line none := by
  have hb : ∀ k' : Chip, k'.coh.busy = k.coh.busy → k'.busyLine m.line = some (wbTracker m) := fun k' hk' => by
    simp [Chip.busyLine, hk', h.busy]
  have hhome : (k.homePut m.line (some bs) e.poison).homeLine m.line = .owned m.die := h.line
  have htaken : k.wbData m.die m.line bytes poison =
      ((k.broughtHome m.line m.die bs e.poison).releaseLine m.line).backInvalidate := by
    simp [Chip.wbData, hb k rfl, wbTracker, h.entry, hdata, hhome, Chip.broughtHome]
  have hfree : (k.broughtHome m.line m.die bs e.poison).releaseLine m.line =
      (k.broughtHome m.line m.die bs e.poison).setBusy m.line none := by
    rw [Chip.releaseLine, hb _ (Chip.broughtHome_busy ..)]
    rfl
  rw [htaken, hfree, Chip.backInvalidate_unblocked (by simp [Chip.broughtHome_freed h])]

end

/-- R308: EVC_ACK empties the eviction buffer of a line for which no access waits. -/
theorem Chip.takeEvcAck_unwanted {k : Chip} {l d : Nat} (h : k.coh.waits.find (cohKey l d) = none) :
    k.takeEvcAck l d = { k with coh := { k.coh with evict := k.coh.evict.erase (cohKey l d) } } := by
  rw [Chip.takeEvcAck, h]

/-! ### The requests (R302, R303) -/

section
variable {k : Chip} {m : CohMsg} {r : HomeReq} (hq : k.HomeQuiet) (hs : k.Serves m)
include hq hs

/-- R303, R304: a request for a line that another die owns snoops it and keeps the line busy. -/
theorem Chip.request_owned {x : Nat} {sn : Snoop} (ho : k.OwnedBy m.line x) (hx : x ≠ m.die) (hsn : r.ownerSnoop = some sn) :
    ∃ k', k.request m r = k'.setBusy m.line (some { item := { die := m.die, who := m.who, req := r.copyLost }
                                                    before := .owned x
                                                    awaiting := [x] }) ∧
      Chip.Told [.coherence sn.name x m.line 0] k k' := by
  have hcount := k.told_countHome m.line 0 1
  obtain ⟨-, -, hroom, -⟩ := hcount.quiet hq
  obtain ⟨k', hstart, htold⟩ := Chip.startReq_owned (it := { die := m.die, who := m.who, req := r }) (hcount.ownedBy ho) hx
    hsn ((hcount.homeRefuses ..).trans (Chip.homeRefuses_reached hs r)) hroom
  have htold := hcount.trans htold
  obtain ⟨hbusy, hheld, -⟩ := htold.quiet hq
  exact ⟨k', Chip.request_waits hq hs hstart rfl hbusy hheld, htold⟩

/-- R304, R305: OWN of the only copy of a shared line is granted at once. -/
theorem Chip.request_sole (hline : k.homeLine m.line = .shared) (hpresent : k.presentDies m.line = [m.die]) :
    ∃ k', k.request m (.own false) = (((k'.setHomeLine m.line (.owned m.die)).setPresent m.line m.die).granting m.line m.die
      { st := .m, comp := true }).say "COMP" m.die m.line 0 ∧ Chip.Told [] k k' := by
  have hcount := k.told_countHome m.line 0 1
  obtain ⟨-, -, hroom, -⟩ := hcount.quiet hq
  obtain ⟨k', hstart, htold⟩ := Chip.startReq_sole (it := { die := m.die, who := m.who, req := .own false }) rfl
    ((hcount.homeLine _).trans hline) ((hcount.presentDies _).trans hpresent)
    ((hcount.homeRefuses ..).trans (Chip.homeRefuses_reached hs _)) hroom
  have htold := hcount.trans htold
  obtain ⟨hbusy, hheld, -⟩ := htold.quiet hq
  exact ⟨k', Chip.request_done hq hs hstart hbusy hheld, htold⟩

variable (he : k.Evictable m.line m.die)
include he

/-- R304: an EVICT of a shared line is acknowledged. -/
theorem Chip.request_evict (hst : (k.dieLine m.line m.die).st = .s) (hline : k.homeLine m.line = .shared) :
    ∃ k' n, k.request m (.evict false) =
      ((k'.buffered m.line m.die).say "EVICT" m.die m.line n).say "EVC_ACK" m.die m.line 0 ∧ Chip.Told [] k k' := by
  have hcount := k.told_countHome m.line 0 1
  obtain ⟨hbusy, hheld, -⟩ := hcount.quiet hq
  obtain ⟨n, htaken⟩ := Chip.takeEviction_shared (it := { die := m.die, who := m.who, req := .evict false })
    (hcount.evictable he) ((congrArg DieLine.st (hcount.dieLine ..)).trans hst) ((hcount.homeLine _).trans hline)
  exact ⟨_, n, Chip.request_done hq hs (by simp [Chip.startReq, Chip.homeRefuses, htaken]) hbusy hheld, hcount⟩

/-- R303, R304: a WRITEBACK of a line that its die owns keeps the line busy until its data comes. -/
theorem Chip.request_writeback (hst : (k.dieLine m.line m.die).st = .m) (hline : k.homeLine m.line = .owned m.die) :
    (k.request m (.writeback false)).AwaitsData m (k.dieLine m.line m.die).evicted ∧
    ((k.request m (.writeback false)).dieLine m.line m.die).st = .i ∧ (k.request m (.writeback false)).mem = k.mem := by
  have hcount := k.told_countHome m.line 0 1
  obtain ⟨hbusy, hheld, -⟩ := hcount.quiet hq
  obtain ⟨n, htaken⟩ := Chip.takeEviction_owned (it := { die := m.die, who := m.who, req := .writeback false })
    (hcount.evictable he) ((congrArg DieLine.st (hcount.dieLine ..)).trans hst) ((hcount.homeLine _).trans hline)
  have hhome : (k.countHome m.line 0 1).homeLine m.line = .owned m.die := (hcount.homeLine _).trans hline
  have hstart : (k.countHome m.line 0 1).startReq m.line { die := m.die, who := m.who, req := .writeback false } [] =
      (((k.countHome m.line 0 1).buffered m.line m.die).say "WRITEBACK" m.die m.line n, some (wbTracker m)) := by
    simp [Chip.startReq, Chip.homeRefuses, htaken, hhome, wbTracker]
  rw [Chip.request_waits hq hs hstart rfl (by simp [hbusy]) (by simp [hheld])]
  exact ⟨⟨Chip.busy_setBusy (by simp [hbusy]) .., by simp [hhome], by simp [hcount.dieLine]⟩, by simp, by simp [hcount.mem]⟩

end

/-! ### The commands -/

theorem State.sameMemory_after (s : State) {k : Chip} (h : k.mem = s.chip.mem) : s.chip.SameMemory (s.after k).chip :=
  .of_eq (k.refresh_mem.trans h)

theorem State.sameRegs_after (s : State) {k : Chip} (h : k.regs = s.chip.regs) : s.chip.SameRegs [] (s.after k).chip :=
  .of_eq h

theorem exec_evcAck (s : State) (d l : Nat) : exec (.evcAck d l) s = .next (s.after (s.chip.takeEvcAck l d).endHolds) := rfl

theorem exec_wbData (s : State) (d l : Nat) (bytes : Bytes) (poison : Bool) : exec (.wbData d l bytes poison) s =
    .next (s.after (s.chip.wbData d l bytes poison)) := rfl

/-- Settles O28: each request of a quiet home is begun at once, and either waits for the owner that it snoops, is granted, or
moves the line to the eviction buffer of its die, from which WB_DATA brings it home and which EVC_ACK empties. -/
theorem homeSnoopsAndEvictions : Obligations.HomeSnoopsAndEvictions := by
  refine ⟨fun s m x hq hs hx => ⟨?_, ?_⟩, ?_, ?_, ?_⟩
  · intro hline hpresent c sn req hc
    obtain ⟨r, hexec, hsn, rfl⟩ : ∃ r, exec c s = .next (s.after (s.chip.request m r)) ∧ r.ownerSnoop = some sn ∧
        r.copyLost = req := by
      rcases hc with ⟨rfl, rfl, rfl⟩ | ⟨rfl, rfl, rfl⟩ | ⟨rfl, rfl, rfl⟩ | ⟨rfl, rfl, rfl⟩ | ⟨rfl, rfl, rfl⟩ |
        ⟨rfl, rfl, rfl⟩ | ⟨rfl, rfl, rfl⟩ | ⟨rfl, rfl, rfl⟩ <;> exact ⟨_, rfl, rfl, rfl⟩
    have ⟨_, _, _, hlost⟩ := hq
    obtain ⟨k', hreq, htold⟩ := Chip.request_owned hq hs ⟨hline, hpresent, hlost⟩ hx hsn
    obtain ⟨hbusy, -⟩ := htold.quiet hq
    rw [hexec, hreq]
    exact ⟨_, rfl, by simp [htold.out], by simp [Chip.busy_setBusy hbusy], by simp [htold.dir], by simp [htold.die],
      s.sameMemory_after (by simp [htold.mem]), s.sameRegs_after (by simp [htold.regs])⟩
  · intro hline hpresent
    obtain ⟨k', hreq, htold⟩ := Chip.request_sole hq hs hline hpresent
    refine ⟨s.after (s.chip.request m (.own false)), rfl, ?_⟩
    rw [hreq]
    exact ⟨by simp, by simp, by simp [htold.out], s.sameMemory_after (by simp [htold.mem]),
      s.sameRegs_after (by simp [htold.regs])⟩
  · intro s m hq hs hline hst hlocked hevict hwaits
    obtain ⟨k', n, hreq, htold⟩ := Chip.request_evict hq hs ⟨by simp [hst], hlocked, hevict, hwaits⟩ hst hline
    refine ⟨s.after (s.chip.request m (.evict false)), n, rfl, ?_⟩
    rw [hreq]
    exact ⟨by simp, by simp, by simp [htold.dir], by simp [htold.out], s.sameMemory_after (by simp [htold.mem]),
      s.sameRegs_after (by simp [htold.regs])⟩
  · intro s m b bytes poison hq hs hline hst hdata hlen hlocked hevict hwaits
    have hpad : padTo b 64 = b := by simp [padTo_eq_append (Nat.le_of_eq hlen), hlen, zeros]
    obtain ⟨hawaits, hgone, hmem⟩ := Chip.request_writeback hq hs ⟨by simp [hst], hlocked, hevict, hwaits⟩ hst hline
    refine ⟨s.after (s.chip.request m (.writeback false)), _, rfl, exec_wbData .., ?_⟩
    rw [State.after_chip, Chip.wbData_awaited hawaits.refresh hdata]
    exact ⟨by simp [hgone], s.sameMemory_after hmem, by simp [Chip.broughtHome_mem, hmem, hpad],
      by simp [Chip.broughtHome_homeLine], by simp [Chip.broughtHome_freed hawaits.refresh], by simp [Chip.broughtHome]⟩
  · intro s d l hwaits hheld
    rw [exec_evcAck, Chip.takeEvcAck_unwanted hwaits, Chip.endHolds_none (by exact hheld)]
    exact ⟨_, rfl, by simp, by simp, by simp, s.sameMemory_after rfl, s.sameRegs_after rfl⟩

end Sys2Proof.Machine
end

section
/-!
PROOFS. The caches (11): staging ways, locked ways and uncorrectable errors.
-/

namespace Sys2Proof.Machine

/-! ### What the report of an event leaves of the caches (R289, R418) -/

/-- The caches and homes of `k'` are those of `k`, or those after one store to a machine that has them. -/
def Chip.StoresOnce (k k' : Chip) : Prop :=
  k'.coh = k.coh ∨ ∃ (k₀ : Chip) (a : Nat) (bs : Bytes), k₀.coh = k.coh ∧ k'.coh = (k₀.store a bs).coh

theorem Chip.storesOnce_errorRing {k k₀ : Chip} (seq cls : Nat) (r : Bytes) (h : k₀.coh = k.coh) :
    k.StoresOnce (k₀.errorRing seq cls r) := by
  have hsignal : ∀ k : Chip, (k.ringSignal cls).coh = k.coh := fun k => by
    unfold Chip.ringSignal
    split <;> rfl
  unfold Chip.errorRing
  split
  · exact .inl h
  · split
    · exact .inl h
    · rw [Chip.StoresOnce, hsignal, Chip.ringPut]
      split
      · exact .inr ⟨k₀, _, r, h, rfl⟩
      · exact .inl h

/-- Reporting an event reaches the caches and homes by no more than the store of its record. -/
theorem Chip.storesOnce_log (k : Chip) (e : Ev) : k.StoresOnce (k.log e) := by
  have hlife : (k.countLife e).coh = k.coh := by
    unfold Chip.countLife
    split
    · rfl
    · split <;> rfl
  have hnew : k.StoresOnce ((k.countLife e).logNew e) := by
    unfold Chip.logNew
    exact Chip.storesOnce_errorRing _ _ _ (by rw [Chip.emit_coh, hlife])
  unfold Chip.log
  dsimp only
  split
  · split
    · exact .inl hlife
    · exact hnew
  · exact hnew

theorem Chip.recallLine_banksFenced (k : Chip) (l : Nat) : (k.recallLine l).coh.banksFenced = k.coh.banksFenced := by
  unfold Chip.recallLine
  split <;> rfl

theorem Chip.store_banksFenced (k : Chip) (a : Nat) (bs : Bytes) :
    (k.store a bs).coh.banksFenced = k.coh.banksFenced := by
  unfold Chip.store
  split
  · rfl
  · exact List.foldlRecOn (motive := fun k' : Chip => k'.coh.banksFenced = k.coh.banksFenced) _ _ rfl
      fun k' hk' l _ => (k'.recallLine_banksFenced l).trans hk'

@[simp] theorem Chip.log_banksFenced (k : Chip) (e : Ev) : (k.log e).coh.banksFenced = k.coh.banksFenced := by
  obtain h | ⟨k₀, a, bs, hk₀, h⟩ := k.storesOnce_log e
  · rw [h]
  · rw [h, Chip.store_banksFenced, hk₀]

/-! ### What an error does at its place (R289) -/

theorem Chip.mem_banksFenced_bankLost (k : Chip) (unit : Nat) : unit ∈ (k.bankLost unit).coh.banksFenced := by
  unfold Chip.bankLost
  dsimp only
  split
  · next h => simpa using h
  · exact List.mem_cons_self

/-- A line that the die holds, of whatever slice, is marked with the bytes that it has. -/
theorem Chip.poisonAt_l3 {k : Chip} {unit line : Nat} (hheld : (k.dieLine line (unit / 28)).st ≠ .i) :
    k.poisonAt .l3 unit line = k.setDieLine line (unit / 28) fun c =>
      { c with data := some (k.dieBytes line (unit / 28)), poison := true } := if_neg (by simpa using hheld)

/-- R290: SC_STATUS shows how many banks are fenced. -/
theorem Chip.rd_refresh_fenced (k : Chip) : k.refresh.rd SC_STATUS.FENCED =
    k.coh.banksFenced.length % 2 ^ SC_STATUS.FENCED.width :=
  k.rd_refresh_shown (p := (SC_STATUS.FENCED, k.coh.banksFenced.length)) (List.mem_of_getElem? (i := 8) rfl)

/-- R290: SC_STATUS shows whether the lock of the accumulator ways is waited for. -/
theorem Chip.rd_refresh_lockBusy (k : Chip) : k.refresh.rd SC_STATUS.LOCK_BUSY =
    ofBool (k.coh.lockWaits != 0) % 2 ^ SC_STATUS.LOCK_BUSY.width :=
  k.rd_refresh_shown (p := (SC_STATUS.LOCK_BUSY, ofBool (k.coh.lockWaits != 0))) (List.mem_of_getElem? (i := 10) rfl)

/-! ### The commands -/

theorem exec_stagingWayEmpty (s : State) (e : Nat) : exec (.stagingWayEmpty e) s =
    .next (s.after (s.chip.setEngine e fun g => { g with stagingBusy := false })) := rfl

theorem exec_accumWaysLocked (s : State) : exec .accumWaysLocked s =
    .next (s.after { s.chip with coh := { s.chip.coh with lockWaits := 0 } }) := rfl

theorem exec_cacheUncorrectable (s : State) (place : CachePlace) (unit line : Nat) (kind : LineKind) :
    exec (.cacheUncorrectable place unit kind line) s = .next (s.after (s.chip.cacheError place unit kind line)) := rfl

/-- Settles O26: a staging way and the lock change one flag each; an error changes the line or the bank that it hits, and its
report leaves that as it is. -/
theorem cacheEvents : Obligations.CacheEvents := by
  refine ⟨?_, ?_, ?_, ?_, ?_, ?_⟩
  · intro s e
    refine ⟨_, exec_stagingWayEmpty s e, ?_, fun x hx => ?_, .of_eq (Chip.refresh_mem _), .of_eq rfl⟩
    · rw [State.after_chip, Chip.engine_refresh, Chip.engine_setEngine]
    · rw [State.after_chip, Chip.engine_refresh, Chip.engine_setEngine_ne _ _ hx]
  · intro s
    refine ⟨_, exec_accumWaysLocked s, ?_, ?_, .of_eq (Chip.refresh_mem _), .of_eq rfl⟩
    · rw [State.after_chip, Chip.rd_refresh_lockBusy]
      rfl
    · rw [State.after_chip, Chip.refresh_coh]
  · intro s unit line
    rw [exec_cacheUncorrectable, Chip.cacheError, Chip.logCache]
  · intro s unit line
    rw [exec_cacheUncorrectable, Chip.cacheError, Chip.logCache, Chip.poisonAt]
  · rintro s unit line b hheld rfl
    rw [exec_cacheUncorrectable, Chip.cacheError, Chip.poisonAt_l3 hheld, Chip.logCache]
  · intro s unit line
    refine ⟨_, exec_cacheUncorrectable s .bank unit line .tag, ?_, ?_⟩
    · rw [State.after_chip, Chip.refresh_coh, Chip.cacheError, Chip.logCache, Chip.log_banksFenced]
      exact s.chip.mem_banksFenced_bankLost unit
    · rw [State.after_chip, Chip.rd_refresh_fenced, Chip.refresh_coh]

end Sys2Proof.Machine
end

section
/-!
PROOFS. A whole line stored while its channel of DRAM is fenced (11, 15).
-/

namespace Sys2Proof.Machine

/-- Refutes O58: of a line written whole it asks that the mark become `dramGone` as it was before the store. But the store puts
the line into the system cache, which serves it from then on (R286), so the fence of its channel poisons it no more (R380). Here
channel 0, which holds line 0, is fenced without a mirror: line 0 reads poison before the store of its 64 bytes and none after. -/
theorem not_storeWritesItsBytes : ¬ Obligations.StoreWritesItsBytes := by
  intro h
  let k : Chip := ({} : Chip).wr (MC_STATUS.STATE 0) 5
  obtain ⟨-, -, -, hwhole, -⟩ := h k 0 (zeros 64) (by decide +kernel)
  have hmark : (k.store 0 (zeros 64)).linePoison 0 = k.dramGone 0 := hwhole 0 (by decide) (by decide)
  have hbefore : k.dramGone 0 = true := by decide +kernel
  have hafter : (k.store 0 (zeros 64)).linePoison 0 = false := by decide +kernel
  rw [hbefore, hafter] at hmark
  cases hmark

end Sys2Proof.Machine
end

section
/-!
PROOFS. The die agent and a snoop (12): what becomes of the line, and the answer that goes to the home (R307).
-/

namespace Sys2Proof.Machine

/-! ### The line after a snoop (R285, R307) -/

/-- R285, R307: the machine with line `l` of die `d` in the state `st` that snoop `sn` leaves. -/
def Chip.lowered (k : Chip) (l d : Nat) (sn : Snoop) (st : Line) : Chip :=
  if st == .i then
    let k := if (k.dieLine l d).locked.isSome && (k.dieLine l d).st != .i then k.bump SC_LWI.COUNT 1 else k
    (k.setDieLine l d fun _ => {}).loseReservations l fun h => k.hartDie h == d
  else k.setDieLine l d fun c => { c with st := st, data := if sn == .clean then none else c.data }

section
variable (k : Chip) (l d : Nat) (sn : Snoop) (st : Line)

theorem Chip.lowered_eq : k.lowered l d sn st =
    { k with
      regs := (k.lowered l d sn st).regs
      harts := (k.lowered l d sn st).harts
      coh := { k.coh with die := (k.lowered l d sn st).coh.die } } := by
  unfold Chip.lowered
  split
  · dsimp only
    split <;> rfl
  · rfl

@[simp] theorem Chip.lowered_mem : (k.lowered l d sn st).mem = k.mem := by rw [Chip.lowered_eq]
@[simp] theorem Chip.lowered_out : (k.lowered l d sn st).out = k.out := by rw [Chip.lowered_eq]
@[simp] theorem Chip.lowered_dir : (k.lowered l d sn st).coh.dir = k.coh.dir := by rw [Chip.lowered_eq]
@[simp] theorem Chip.lowered_heldSnoops : (k.lowered l d sn st).coh.heldSnoops = k.coh.heldSnoops := by
  rw [Chip.lowered_eq]

/-- One line alone changes, and it takes the state of the table. -/
theorem Chip.lowered_die : ∃ f : DieLine → DieLine,
    (k.lowered l d sn st).coh.die = Tbl.mod {} k.coh.die (cohKey l d) f ∧ ∀ c, (f c).st = st := by
  unfold Chip.lowered
  split
  · next hst =>
    refine ⟨fun _ => {}, ?_, fun _ => (eq_of_beq hst).symm⟩
    dsimp only
    split <;> rfl
  · exact ⟨fun c => { c with st := st, data := if sn == .clean then none else c.data }, rfl, fun _ => rfl⟩

@[simp] theorem Chip.dieLine_lowered : ((k.lowered l d sn st).dieLine l d).st = st := by
  obtain ⟨f, hdie, hst⟩ := k.lowered_die l d sn st
  rw [Chip.dieLine, hdie, Tbl.get_mod_self, hst]

theorem Chip.die_lowered_ne {key : Nat} (hne : key ≠ cohKey l d) :
    Tbl.get {} (k.lowered l d sn st).coh.die key = Tbl.get {} k.coh.die key := by
  obtain ⟨f, hdie, -⟩ := k.lowered_die l d sn st
  rw [hdie, Tbl.get_mod_ne _ _ _ _ hne]

/-- R285: a snoop changes one register, the count of locked lines that it invalidates. -/
theorem Chip.rd_lowered {f : Fld} (hf : f.key ≠ SC_LWI.COUNT.key) : (k.lowered l d sn st).rd f = k.rd f := by
  unfold Chip.lowered
  split
  · dsimp only
    split
    · exact k.rd_wr_ne _ hf
    · rfl
  · rfl

end

/-! ### The answer (R299, R307) -/

/-- R299: the message of an answer, with or without data. -/
def SnpAns.message (a : SnpAns) (l d : Nat) (data : Bool) (bytes : Bytes) : Out :=
  if data then .cohData "SNP_DATA" d l bytes a.poison
  else .coherence "SNP_RESP" d l (ofBool a.empty + 2 * ofBool a.superseded)

section
variable (k : Chip) (l d : Nat) (a : SnpAns) (data : Bool) (bytes : Bytes)

theorem Chip.answer_eq : k.answer l d a data bytes =
    { k with
      out := a.message l d data bytes :: k.out
      coh := { k.coh with answers := k.coh.answers.insert (cohKey l d) a } } := by
  unfold Chip.answer SnpAns.message
  dsimp only
  split <;> rfl

@[simp] theorem Chip.answer_mem : (k.answer l d a data bytes).mem = k.mem := by rw [Chip.answer_eq]
@[simp] theorem Chip.answer_regs : (k.answer l d a data bytes).regs = k.regs := by rw [Chip.answer_eq]
@[simp] theorem Chip.answer_die : (k.answer l d a data bytes).coh.die = k.coh.die := by rw [Chip.answer_eq]
@[simp] theorem Chip.answer_dir : (k.answer l d a data bytes).coh.dir = k.coh.dir := by rw [Chip.answer_eq]
@[simp] theorem Chip.answer_heldSnoops : (k.answer l d a data bytes).coh.heldSnoops = k.coh.heldSnoops := by
  rw [Chip.answer_eq]
@[simp] theorem Chip.answer_out : (k.answer l d a data bytes).out = a.message l d data bytes :: k.out := by
  rw [Chip.answer_eq]
@[simp] theorem Chip.dieLine_answer (l' d' : Nat) : (k.answer l d a data bytes).dieLine l' d' = k.dieLine l' d' := by
  rw [Chip.answer_eq]
@[simp] theorem Chip.find_answer : (k.answer l d a data bytes).coh.answers.find (cohKey l d) = some a := by
  rw [Chip.answer_eq]
  exact Tbl.find_insert_self _ _ _

end

/-- R307: the answer of die `d`, whose copy of line `l` goes to state `st`, with its data where the table sends them. -/
def Chip.tableAnswer (k : Chip) (l d : Nat) (sn : Snoop) (st : Line) (data : Bool) : SnpAns :=
  { st := st
    dirty := ((k.dieLine l d).st == .m || (k.dieLine l d).st == .o) && data
    data := if ((k.dieLine l d).st == .m || (k.dieLine l d).st == .o) && data then (k.dieLine l d).data else none
    poison := k.diePoison l d
    empty := (k.lowered l d sn st).sectorEmpty l d }

/-- R307: a snoop that finds nothing of the line under way, evicted or held back lowers the line and is answered. -/
theorem Chip.snoop_answered {k : Chip} {l d : Nat} {sn : Snoop} {st : Line} {data : Bool} (hup : k.dieUp d = true)
    (hgrant : k.coh.grants.find (cohKey l d) = none) (hevict : k.coh.evict.find (cohKey l d) = none)
    (hlr : (k.dieLine l d).lrHold = none) (hheld : k.coh.heldSnoops = [])
    (htable : snoopTable sn (k.dieLine l d).st = (st, data)) :
    k.snoop d l sn = (k.lowered l d sn st).answer l d (k.tableAnswer l d sn st data) data (k.dieBytes l d) := by
  have hready : k.dieSnoop l d sn = k.answerSnoop l d sn := by simp [Chip.dieSnoop, Chip.takeGrant, hup, hgrant, hlr]
  have hanswer : k.answerSnoop l d sn =
      (k.lowered l d sn st).answer l d (k.tableAnswer l d sn st data) data (k.dieBytes l d) := by
    rw [Chip.answerSnoop, hevict]
    dsimp only
    rw [htable]
    rfl
  rw [Chip.snoop, hready, hanswer, Chip.endHolds_none (by simpa using hheld)]

/-! ### The commands -/

/-- Settles O29: the snoop lowers the line to the state of the table, and the answer brings what the table says. -/
theorem snoopsFollowTheTable : Obligations.SnoopsFollowTheTable := by
  intro s d l c sn st data hc hup hgrant hevict hlr hheld htable
  have hexec : exec c s = .next (s.after (s.chip.snoop d l sn)) := by
    rcases hc with ⟨rfl, rfl⟩ | ⟨rfl, rfl⟩ | ⟨rfl, rfl⟩ | ⟨rfl, rfl⟩ | ⟨rfl, rfl⟩ <;> rfl
  rw [hexec, Chip.snoop_answered hup hgrant hevict hlr hheld htable]
  refine ⟨_, s.chip.tableAnswer l d sn st data, rfl, by simp, by simp, rfl, ?_, rfl, ?_, ?_, fun key hne => ?_, by simp,
    s.sameMemory_after (by simp), ?_⟩
  · simp [Chip.tableAnswer, and_comm]
  · rintro rfl
    simp [SnpAns.message, Chip.tableAnswer]
  · rintro rfl
    simp [SnpAns.message, Chip.tableAnswer, ofBool]
  · simpa using s.chip.die_lowered_ne l d sn st hne
  · refine Chip.SameRegs.refresh fun f hf => ?_
    rw [Chip.rd_congr (Chip.answer_regs ..), Chip.rd_lowered _ _ _ _ _ (by simpa using hf)]

end Sys2Proof.Machine
end

section
/-!
PROOFS. The home (12): the end of a request, and the requests for a line that no die holds (R302 to R306, R311, R313).
-/

namespace Sys2Proof.Machine

/-! ### A grant sent (R297, R304) -/

/-- R299, R304: the message of grant `g` of line `l` to die `d`. -/
def Chip.grantMessage (k : Chip) (l d : Nat) (g : Grant) : Out :=
  if g.comp then .coherence "COMP" d l 0
  else .cohData "DATA" d l (g.data.getD (memBytes k.mem (64 * l) 64)) (if g.data.isSome then g.poison else k.linePoison l)

section
variable (k : Chip) (l d : Nat) (g : Grant)

/-- R297: a grant of a state sets the PRESENT bit of its die. -/
theorem Chip.grant_eq : k.grant l d g =
    ((if g.st == .i then k else k.setPresent l d).granting l d g).emit (k.grantMessage l d g) := by
  unfold Chip.grant Chip.grantMessage
  dsimp only
  split <;> split <;> rfl

@[simp] theorem Chip.grant_mem : (k.grant l d g).mem = k.mem := by
  rw [Chip.grant_eq]
  split <;> rfl

@[simp] theorem Chip.grant_regs : (k.grant l d g).regs = k.regs := by
  rw [Chip.grant_eq]
  split <;> rfl

@[simp] theorem Chip.grant_out : (k.grant l d g).out = k.grantMessage l d g :: k.out := by
  rw [Chip.grant_eq]
  split <;> rfl

@[simp] theorem Chip.homeLine_grant : (k.grant l d g).homeLine l = k.homeLine l := by
  rw [Chip.grant_eq]
  split
  · rfl
  · exact k.homeLine_setPresent l d

@[simp] theorem Chip.find_grant : (k.grant l d g).coh.grants.find (cohKey l d) = some g := by
  rw [Chip.grant_eq]
  exact Chip.find_granting _ l d g

@[simp] theorem Chip.linePoison_setHomeLine (h : HomeLine) (l' : Nat) :
    (k.setHomeLine l h).linePoison l' = k.linePoison l' := rfl

end

/-! ### What the end of a request reaches (R304, R313) -/

/-- `k'` differs from `k` in memory with its marks, in messages, and in the directory, the grants, the write data and the system
cache's lines alone. -/
def Chip.HomeOnly (k k' : Chip) : Prop :=
  k' = { k with
    mem := k'.mem
    poison := k'.poison
    out := k'.out
    coh := { k.coh with dir := k'.coh.dir, grants := k'.coh.grants, wrData := k'.coh.wrData, sc := k'.coh.sc } }

theorem Chip.HomeOnly.trans {k k' k'' : Chip} (h : k.HomeOnly k') (h' : k'.HomeOnly k'') : k.HomeOnly k'' := by
  rw [Chip.HomeOnly] at h h' ⊢
  rw [h', h]

theorem Chip.homeOnly_grant (k : Chip) (l d : Nat) (g : Grant) : k.HomeOnly (k.grant l d g) := by
  rw [Chip.grant_eq]
  split <;> rfl

theorem Chip.homeOnly_setHomeLine (k : Chip) (l : Nat) (h : HomeLine) : k.HomeOnly (k.setHomeLine l h) := rfl

theorem Chip.homeOnly_given (k : Chip) (l d : Nat) (h : HomeLine) (g : Grant) :
    k.HomeOnly ((k.setHomeLine l h).grant l d g) :=
  (k.homeOnly_setHomeLine l h).trans (Chip.homeOnly_grant _ l d g)

theorem Chip.homeOnly_finishReq (k : Chip) (l : Nat) (b : Busy) : k.HomeOnly (k.finishReq l b).1 := by
  obtain ⟨⟨die, who, req⟩, before, awaiting, ownerSt, dirty, data, poison, needData, granted, blocked, waiting⟩ := b
  unfold Chip.finishReq
  cases req with
  | rdShared excl =>
    dsimp only
    split <;> split <;> dsimp only <;> exact k.homeOnly_given ..
  | rdUnique | own =>
    dsimp only
    exact k.homeOnly_given ..
  | rdOnce | evict | writeback => rfl
  | wrLine stash =>
    dsimp only
    split
    · split <;> split <;> rfl
    · split <;> rfl
  | amo op size off x =>
    dsimp only
    refine (k.homeOnly_setHomeLine l .none).trans (Chip.HomeOnly.trans ?_ (Chip.homeOnly_grant _ l die _))
    split <;> rfl
  | cmo kind =>
    dsimp only
    refine Chip.HomeOnly.trans ?_ (Chip.homeOnly_grant _ l die _)
    split
    · split
      · rfl
      · split <;> rfl
      · rfl
    · rfl
  | stash =>
    dsimp only
    split
    · dsimp only
      exact k.homeOnly_given ..
    · rfl
  | binv all =>
    dsimp only
    split <;> rfl

/-! ### A request finished (R303) -/

/-- R303: the machine with request `b` of line `l` finished, and the line freed or kept for COMP_ACK. -/
def Chip.finished (k : Chip) (l : Nat) (b : Busy) : Chip :=
  (k.finishReq l b).1.setBusy l (if (k.finishReq l b).2 then some { b with granted := true } else none)

@[simp] theorem Chip.setBusy_grants (k : Chip) (l : Nat) (b : Option Busy) : (k.setBusy l b).coh.grants = k.coh.grants := rfl

section
variable (k : Chip) (l : Nat) (b : Busy)

@[simp] theorem Chip.finished_regs : (k.finished l b).regs = k.regs := by
  rw [Chip.finished, Chip.setBusy_regs, k.homeOnly_finishReq l b]

@[simp] theorem Chip.finished_heldSnoops : (k.finished l b).coh.heldSnoops = k.coh.heldSnoops := by
  rw [Chip.finished, Chip.setBusy_heldSnoops, k.homeOnly_finishReq l b]

@[simp] theorem Chip.finished_mem : (k.finished l b).mem = (k.finishReq l b).1.mem := rfl
@[simp] theorem Chip.finished_out : (k.finished l b).out = (k.finishReq l b).1.out := rfl
@[simp] theorem Chip.finished_dir : (k.finished l b).coh.dir = (k.finishReq l b).1.coh.dir := rfl
@[simp] theorem Chip.finished_grants : (k.finished l b).coh.grants = (k.finishReq l b).1.coh.grants := rfl
@[simp] theorem Chip.homeLine_finished (l' : Nat) : (k.finished l b).homeLine l' = (k.finishReq l b).1.homeLine l' := rfl

end

/-- Where a home serves line `l` alone, its tracker is the only one. -/
theorem Chip.busy_setBusy_lone {k : Chip} {l : Nat} (hlone : ∀ e ∈ k.coh.busy, e.1 = l) (b : Option Busy) :
    (k.setBusy l b).coh.busy = b.toList.map fun b => (l, b) := by
  have hothers : k.coh.busy.filter (fun e => e.1 != l) = [] := by simpa using hlone
  cases b <;> simp [Chip.setBusy, hothers]

section
variable {k : Chip} {l : Nat} {b : Busy} (hlone : ∀ e ∈ k.coh.busy, e.1 = l)
include hlone

theorem Chip.busy_finished : (k.finished l b).coh.busy =
    if (k.finishReq l b).2 then [(l, { b with granted := true })] else [] := by
  rw [Chip.finished, Chip.busy_setBusy_lone (by rw [k.homeOnly_finishReq l b]; exact hlone)]
  split <;> rfl

/-- R298: nothing waits for a sector to give way. -/
theorem Chip.backInvalidate_finished (hb : b.blocked = none) : (k.finished l b).backInvalidate = k.finished l b := by
  refine Chip.backInvalidate_unblocked fun e he => ?_
  rw [Chip.busy_finished hlone] at he
  split at he
  · rw [List.mem_singleton.1 he]
    exact hb
  · cases he

end

/-! ### A request for a line that no die holds (R302, R304, R311) -/

/-- `k'` differs from `k` in unit counters, insertion counters and the AMO predictor alone. -/
def Chip.Begun (k k' : Chip) : Prop :=
  k' = { k with pm := k'.pm, coh := { k.coh with psel := k'.coh.psel, predict := k'.coh.predict } }

theorem Chip.Told.begun {k k' : Chip} (h : Chip.Told [] k k') : k.Begun k' := by rw [h]; rfl

theorem Chip.Begun.trans {k k' k'' : Chip} (h : k.Begun k') (h' : k'.Begun k'') : k.Begun k'' := by
  rw [Chip.Begun] at h h' ⊢
  rw [h', h]

section
variable {k k' : Chip} (h : k.Begun k')
include h

theorem Chip.Begun.mem : k'.mem = k.mem := by rw [h]
theorem Chip.Begun.regs : k'.regs = k.regs := by rw [h]
theorem Chip.Begun.out : k'.out = k.out := by rw [h]
theorem Chip.Begun.dir : k'.coh.dir = k.coh.dir := by rw [h]
theorem Chip.Begun.busy : k'.coh.busy = k.coh.busy := by rw [h]
theorem Chip.Begun.heldSnoops : k'.coh.heldSnoops = k.coh.heldSnoops := by rw [h]
theorem Chip.Begun.grants : k'.coh.grants = k.coh.grants := by rw [h]
theorem Chip.Begun.wrData : k'.coh.wrData = k.coh.wrData := by rw [h]
theorem Chip.Begun.homeLine (l : Nat) : k'.homeLine l = k.homeLine l := by rw [h]; rfl
theorem Chip.Begun.linePoison (l : Nat) : k'.linePoison l = k.linePoison l := by rw [h]; rfl
theorem Chip.Begun.on (f : Fld) : k'.on f = k.on f := by rw [h]; rfl
theorem Chip.Begun.snoopsOf (l : Nat) (it : HomeItem) : k'.snoopsOf l it = k.snoopsOf l it := by rw [h]; rfl
theorem Chip.Begun.dataDue (l : Nat) (r : HomeReq) : k'.dataDue l r = k.dataDue l r := by rw [h]; rfl

end

/-- R305, R311: a request that the home serves as it came: no OWN of a copy, a far AMO, and no eviction. -/
def Chip.ServesAsAsked (k : Chip) : HomeReq → Prop
  | .own zero => zero = true
  | .amo op size _ _ => k.rd HA_CTRL.AMO_MODE = 2 ∧ amoNear op size = false
  | .evict _ | .writeback _ => False
  | _ => True

theorem Chip.Told.servesAsAsked {os : List Out} {k k' : Chip} (h : Chip.Told os k k') {r : HomeReq}
    (hr : k.ServesAsAsked r) : k'.ServesAsAsked r := by
  rw [h]
  exact hr

/-- R312: an AMO changes the predictor. -/
theorem Chip.begun_predictAmo (k : Chip) (l d : Nat) (op : AmoOp) (size : Nat) : k.Begun (k.predictAmo l d op size).2 := rfl

/-- R311: with AMO_MODE at 2 an AMO that may be far is far. -/
theorem Chip.predictAmo_far {k : Chip} {op : AmoOp} {size : Nat} (hmode : k.rd HA_CTRL.AMO_MODE = 2)
    (hnear : amoNear op size = false) (l d : Nat) : (k.predictAmo l d op size).1 = true := by
  simp [Chip.predictAmo, hmode, hnear]

theorem Chip.asServed_asked {k : Chip} {it : HomeItem} (h : k.ServesAsAsked it.req) (l : Nat) :
    ∃ k', k.asServed l it = (it, k') ∧ k.Begun k' := by
  obtain ⟨die, who, req⟩ := it
  unfold Chip.asServed
  cases req with
  | own zero =>
    obtain rfl : zero = true := h
    exact ⟨k, rfl, rfl⟩
  | amo op size off x =>
    obtain ⟨hmode, hnear⟩ : k.rd HA_CTRL.AMO_MODE = 2 ∧ amoNear op size = false := h
    refine ⟨((k.predictAmo l die op size).2).countHome l 5 1, ?_,
      (k.begun_predictAmo l die op size).trans (Chip.told_countHome _ l 5 1).begun⟩
    simp only [Chip.predictAmo_far hmode hnear l die]
    rfl
  | _ => exact ⟨k, rfl, rfl⟩

/-- R302, R304: with room in the directory a request waits for its snoops and its bytes, or is finished at once. -/
theorem Chip.startReq_asked {k k' : Chip} {l : Nat} {it : HomeItem} (href : k.homeRefuses l it = false)
    (hr : k.ServesAsAsked it.req) (hserved : k.asServed l it = (it, k')) (hroom : k'.coh.dir.length < 16) :
    k.startReq l it [] =
      if !(k'.tracker l it).awaiting.isEmpty || (k'.tracker l it).needData then (k'.snooped l it, some (k'.tracker l it))
      else (((k'.snooped l it).finishReq l (k'.tracker l it)).1,
        if ((k'.snooped l it).finishReq l (k'.tracker l it)).2 then some { k'.tracker l it with granted := true }
        else none) := by
  have hvictim : (if it.req.needsEntry then k'.dirVictim l else (none, k')) = (none, k') := by simp [Chip.dirVictim, hroom]
  unfold Chip.startReq
  rw [if_neg (by simp [href])]
  split
  · next e h => exact absurd hr (by simp [Chip.ServesAsAsked, h])
  · next e h => exact absurd hr (by simp [Chip.ServesAsAsked, h])
  · rw [hserved]
    simp only [hvictim]
    rfl

/-- R304, R305: a request that the home serves as it came and that snoops no die is finished at once, unless its bytes are
due. -/
theorem Chip.startReq_unheld {k : Chip} {l : Nat} {it : HomeItem} (href : k.homeRefuses l it = false)
    (hr : k.ServesAsAsked it.req) (hroom : k.coh.dir.length < 16) (hline : k.homeLine l = .none)
    (hsn : (k.snoopsOf l it).2 = []) :
    ∃ k', k.Begun k' ∧ k.startReq l it [] =
      if k.dataDue l it.req then (k', some { item := it, needData := true })
      else ((k'.finishReq l { item := it }).1,
        if (k'.finishReq l { item := it }).2 then some { item := it, granted := true } else none) := by
  obtain ⟨k₀, hserved, hbegun⟩ := Chip.asServed_asked hr l
  have hsn₀ : k₀.snoopsOf l it = ((k.snoopsOf l it).1, []) := by rw [hbegun.snoopsOf, ← hsn]
  have htold : Chip.Told [] k₀ (k₀.snooped l it) := Chip.told_snooped hsn₀
  have hbegun' := hbegun.trans htold.begun
  have htracker : k₀.tracker l it = { item := it, needData := k.dataDue l it.req } := by
    rw [Chip.tracker, hbegun'.homeLine, hline, (k₀.told_demanded l _).snoopsOf, hsn₀, hbegun'.dataDue]
  refine ⟨_, hbegun', ?_⟩
  rw [Chip.startReq_asked href hr hserved (by rwa [hbegun.dir]), htracker]
  cases hdue : k.dataDue l it.req <;> simp

/-- R302, R303: such a request that reaches a quiet home awaits its bytes, or is finished. -/
theorem Chip.arrive_unheld {k : Chip} {l : Nat} {it : HomeItem} (hq : k.HomeQuiet) (href : k.homeRefuses l it = false)
    (hr : k.ServesAsAsked it.req) (hline : k.homeLine l = .none) (hsn : (k.snoopsOf l it).2 = []) :
    ∃ k', k.Begun k' ∧ (k.arrive l it).backInvalidate =
      if k.dataDue l it.req then k'.setBusy l (some { item := it, needData := true }) else k'.finished l { item := it } := by
  obtain ⟨hbusy, -, hroom, -⟩ := hq
  obtain ⟨k', hbegun, hstart⟩ := Chip.startReq_unheld href hr hroom hline hsn
  have hbusy' : k'.coh.busy = [] := hbegun.busy.trans hbusy
  refine ⟨k', hbegun, ?_⟩
  rw [Chip.arrive, Chip.busyLine_quiet hbusy]
  dsimp only
  rw [Chip.serveHome, hstart]
  cases k.dataDue l it.req with
  | true => exact Chip.backInvalidate_unblocked (by simp [Chip.busy_setBusy hbusy'])
  | false =>
    have hfinished := Chip.backInvalidate_finished (k := k') (l := l) (b := { item := it }) (by simp [hbusy']) rfl
    rw [Chip.finished] at hfinished ⊢
    cases hhold : (k'.finishReq l { item := it }).2 <;> simpa [hhold, Chip.serveHome] using hfinished

/-- R302, R303: such a request of a die that no die holds. -/
theorem Chip.request_unheld {k : Chip} {m : CohMsg} {r : HomeReq} (hq : k.HomeQuiet) (hs : k.Serves m)
    (hr : k.ServesAsAsked r) (hline : k.homeLine m.line = .none)
    (hsn : (k.snoopsOf m.line { die := m.die, who := m.who, req := r }).2 = []) :
    ∃ k', k.Begun k' ∧ k.request m r =
      if k.dataDue m.line r then
        k'.setBusy m.line (some { item := { die := m.die, who := m.who, req := r }, needData := true })
      else k'.finished m.line { item := { die := m.die, who := m.who, req := r } } := by
  have hcount := k.told_countHome m.line 0 1
  have ⟨hup, _⟩ := hs
  have hserved : ¬ (decide (m.die < 12) && !k.dieUp m.die) = true := by simpa using hup
  obtain ⟨k', hbegun, harrive⟩ := Chip.arrive_unheld (it := { die := m.die, who := m.who, req := r }) (hcount.quiet hq)
    ((hcount.homeRefuses ..).trans (Chip.homeRefuses_reached hs r)) (hcount.servesAsAsked hr)
    ((hcount.homeLine _).trans hline) (by rw [hcount.snoopsOf, hsn])
  have hbegun' := hcount.begun.trans hbegun
  obtain ⟨-, hheld, -⟩ := hq
  refine ⟨k', hbegun', ?_⟩
  rw [Chip.request, if_neg hserved, harrive, hcount.begun.dataDue]
  refine Chip.endHolds_none ?_
  split <;> simp [hbegun'.heldSnoops, hheld]

/-- R304: a line that no die holds has no die to snoop. -/
theorem Chip.snoopsOf_unheld {k : Chip} {l : Nat} (hline : k.homeLine l = .none) (hpresent : k.presentDies l = [])
    {it : HomeItem} (hreq : it.req ≠ .binv true) : (k.snoopsOf l it).2 = [] := by
  obtain ⟨die, who, req⟩ := it
  unfold Chip.snoopsOf
  cases req with
  | own zero => cases zero <;> simp [hline, hpresent, HomeLine.owner]
  | cmo kind => cases kind <;> simp [hline, hpresent, HomeLine.owner]
  | binv all =>
    cases all with
    | true => exact absurd rfl hreq
    | false => simp [hpresent]
  | _ => simp [hline, hpresent, HomeLine.owner]

/-! ### What each request is given (R294, R304, R306, R313) -/

section
variable (k : Chip) (l d : Nat) (who : By)

/-- R294: a read to be shared of a line that no die holds gets E where it may. -/
theorem Chip.finishReq_rdShared (exclOk excl : Bool) (h : excl = (exclOk && k.on HA_CTRL.EXCL_READ)) :
    k.finishReq l { item := { die := d, who := who, req := .rdShared exclOk } } =
      ((k.setHomeLine l (if excl then .owned d else .shared)).grant l d { st := if excl then .e else .s }, true) := by
  have howner : HomeLine.none.owner = none := rfl
  subst h
  simp only [Chip.finishReq, howner, beq_self_eq_true, Bool.true_and]
  split <;> rfl

/-- R304, R306: a cache operation on a line that no die holds leaves it so. -/
theorem Chip.finishReq_cmo (kind : Nat) : k.finishReq l { item := { die := d, who := who, req := .cmo kind } } =
    ((if kind == 0 then k else k.setHomeLine l .none).grant l d { comp := true }, false) := rfl

/-- R313: the machine with the result of a far AMO of `size` bytes at `off` of line `l` in the line. -/
def Chip.farAmo (k : Chip) (l : Nat) (op : AmoOp) (size off x : Nat) : Chip :=
  { k with
    mem := memPut k.mem (64 * l) ((memBytes k.mem (64 * l) 64).take off ++
      leBytes (amoApply op size (leAt (memBytes k.mem (64 * l) 64) off size) x) size ++
      (memBytes k.mem (64 * l) 64).drop (off + size))
    coh := { k.coh with sc := Tbl.set 0 k.coh.sc l 2 } }

/-- R313: a far AMO on a line without poison answers the old value. -/
theorem Chip.finishReq_amo (op : AmoOp) (size off x : Nat) (hpoison : k.linePoison l = false) :
    k.finishReq l { item := { die := d, who := who, req := .amo op size off x } } =
      (((k.setHomeLine l .none).farAmo l op size off x).grant l d
        { old := some (leAt (memBytes k.mem (64 * l) 64) off size) }, false) := by
  have hpoison' : (k.setHomeLine l .none).linePoison l = false := hpoison
  simp only [Chip.finishReq, hpoison']
  rfl

end

/-! ### The bytes of a WR_LINE (R286, R287, R299) -/

/-- R303: a request that awaits nothing more is finished. -/
theorem Chip.pokeHome_ready {k : Chip} {l : Nat} {b : Busy} (hb : k.busyLine l = some b) (hgranted : b.granted = false)
    (hawaiting : b.awaiting = []) (hdata : b.needData = false) (hblocked : b.blocked = none)
    (hend : b.waiting = [] ∨ (k.finishReq l b).2 = true) : k.pokeHome l = k.finished l b := by
  rw [Chip.pokeHome, hb, Chip.finished]
  simp only [hgranted, hawaiting, hdata, hblocked]
  cases hhold : (k.finishReq l b).2 with
  | true => simp
  | false => simp [Chip.serveHome, hend.resolve_right (by simp [hhold])]

theorem Chip.busyLine_setBusy (k : Chip) (l : Nat) (b : Busy) : (k.setBusy l (some b)).busyLine l = some b := by
  have hothers : (k.coh.busy.filter fun e => e.1 != l).find? (fun e => e.1 == l) = none := by
    simp [List.find?_eq_none]
  simp [Chip.busyLine, Chip.setBusy, List.find?_append, hothers]

/-- R299: the machine with the bytes of line `l` for its tracker `b`. -/
def Chip.supplied (k : Chip) (l : Nat) (b : Busy) (bytes : Bytes) (mask : Nat) (poison : Bool) : Chip :=
  { k with coh := { k.coh with wrData := k.coh.wrData ++ [(l, bytes, mask, poison)] } }.setBusy l (some b)

/-- R286: the machine with the write of line `l` that waits there merged. -/
def Chip.merged (k : Chip) (l : Nat) (bytes : Bytes) (mask : Nat) (poison : Bool) : Chip :=
  { k.mergeLine l bytes mask poison with
    coh := { (k.mergeLine l bytes mask poison).coh with wrData := k.coh.wrData.eraseP fun w => w.1 == l } }

/-- R286: a write whose bytes have come is merged and complete. -/
theorem Chip.finishReq_wrLine {k : Chip} {l j mask : Nat} {bytes : Bytes} {poison : Bool}
    (hfound : (k.coh.wrData.find? fun w => w.1 == l) = some (j, bytes, mask, poison)) (d : Nat) (who : By) :
    k.finishReq l { item := { die := d, who := who, req := .wrLine none } } =
      (((k.merged l bytes mask poison).setHomeLine l .none).say "COMP" d l 0, false) := by
  simp only [Chip.finishReq, hfound]
  rfl

@[simp] theorem Chip.supplied_wrData (k : Chip) (l : Nat) (b : Busy) (bytes : Bytes) (mask : Nat) (poison : Bool) :
    (k.supplied l b bytes mask poison).coh.wrData = k.coh.wrData ++ [(l, bytes, mask, poison)] := rfl

/-- R303: a home that serves line `l` alone, for a write without a stash hint whose bytes are due. -/
structure Chip.AwaitsBytes (k : Chip) (l : Nat) (it : HomeItem) : Prop where
  write : it.req = .wrLine none
  busy : k.coh.busy = [(l, { item := it, needData := true })]
  none : k.coh.wrData = []

theorem Chip.AwaitsBytes.refresh {k : Chip} {l : Nat} {it : HomeItem} (h : k.AwaitsBytes l it) : k.refresh.AwaitsBytes l it :=
  ⟨h.write, by rw [Chip.refresh_coh, h.busy], by rw [Chip.refresh_coh, h.none]⟩

section
variable {k : Chip} {l : Nat} {it : HomeItem} (h : k.AwaitsBytes l it) (bytes : Bytes) (mask : Nat) (poison : Bool)
include h

theorem Chip.busy_supplied (b : Busy) : (k.supplied l b bytes mask poison).coh.busy = [(l, b)] :=
  Chip.busy_setBusy_lone (by simp [h.busy]) (some b)

/-- R286, R303: the bytes that alone were due finish the write. -/
theorem Chip.wrData_finished :
    k.wrData l bytes mask poison = (k.supplied l { item := it } bytes mask poison).finished l { item := it } := by
  have hb : Chip.busyLine { k with coh := { k.coh with wrData := k.coh.wrData ++ [(l, bytes, mask, poison)] } } l =
      some { item := it, needData := true } := by simp [Chip.busyLine, h.busy]
  have hpoke := Chip.pokeHome_ready (k := k.supplied l { item := it } bytes mask poison) (b := { item := it })
    (Chip.busyLine_setBusy _ l _) rfl rfl rfl rfl (.inl rfl)
  simp only [Chip.wrData, hb, h.write]
  rw [← Chip.backInvalidate_finished (by simp [Chip.busy_supplied h]) rfl, ← hpoke]
  rfl

/-- R286, R304: the bytes are merged into the line, the write is complete, and the line is free. -/
theorem Chip.wrData_awaited : (k.wrData l bytes mask poison).out = .coherence "COMP" it.die l 0 :: k.out ∧
    (k.wrData l bytes mask poison).mem = memPut k.mem (64 * l) (maskLine (memBytes k.mem (64 * l) 64) bytes mask) ∧
    (k.wrData l bytes mask poison).coh.busy = [] ∧ (k.wrData l bytes mask poison).regs = k.regs := by
  obtain ⟨die, who, req⟩ := it
  obtain rfl : req = .wrLine none := h.write
  have hfin := Chip.finishReq_wrLine (k := k.supplied l { item := { die := die, who := who, req := .wrLine none } } bytes
    mask poison) (l := l) (by rw [Chip.supplied_wrData, h.none, List.nil_append, List.find?_cons_of_pos (by simp)]) die who
  rw [Chip.wrData_finished h]
  refine ⟨?_, ?_, ?_, ?_⟩
  · rw [Chip.finished_out, hfin]
    rfl
  · rw [Chip.finished_mem, hfin]
    rfl
  · rw [Chip.busy_finished (by simp [Chip.busy_supplied h]), hfin]
    rfl
  · rw [Chip.finished_regs]
    rfl

end

/-! ### The commands -/

theorem Chip.SameRegs.trans {fs : List Fld} {k k' k'' : Chip} (h : k.SameRegs fs k') (h' : k'.SameRegs fs k'') :
    k.SameRegs fs k'' := fun f hf hs => (h' f hf hs).trans (h f hf hs)

/-- R303, R304: a request for a line that no die holds, which brings no bytes of its own, is finished at once. -/
theorem Chip.request_granted {k : Chip} {m : CohMsg} {r : HomeReq} (hq : k.HomeQuiet) (hs : k.Serves m)
    (hline : k.homeLine m.line = .none) (hpresent : k.presentDies m.line = []) (hr : k.ServesAsAsked r)
    (hbinv : r ≠ .binv true) (hdue : k.dataDue m.line r = false) :
    ∃ k', k.Begun k' ∧ k.request m r = k'.finished m.line { item := { die := m.die, who := m.who, req := r } } := by
  obtain ⟨k', hbegun, hreq⟩ := Chip.request_unheld hq hs hr hline (Chip.snoopsOf_unheld hline hpresent hbinv)
  exact ⟨k', hbegun, by rw [hreq, hdue]; rfl⟩

theorem exec_wrData (s : State) (l : Nat) (bytes : Bytes) (mask : Nat) (poison : Bool) : exec (.wrData l bytes mask poison) s =
    .next (s.after (s.chip.wrData l bytes mask poison)) := rfl

/-- Settles O27: a request for a line that no die holds snoops none, so the home finishes it at once, a write with its bytes. -/
theorem homeGrantsFreeLines : Obligations.HomeGrantsFreeLines := by
  intro s m hq hs hline hpresent hnone
  refine ⟨fun excl hexcl => ?_, ?_, ?_, ?_, fun bytes mask poison => ?_, fun op size off x old hmode hnear hpoison hold => ?_,
    fun c hc => ?_⟩
  · obtain ⟨k, hbegun, hreq⟩ := Chip.request_granted (r := .rdShared m.exclOk) hq hs hline hpresent trivial nofun rfl
    have hfin := k.finishReq_rdShared m.line m.die m.who m.exclOk excl (by rw [hexcl, hbegun.on])
    refine ⟨s.after (s.chip.request m (.rdShared m.exclOk)), rfl, ?_⟩
    rw [hreq]
    exact ⟨by simp [hfin], by simp [hfin], by simp [hfin, Chip.grantMessage, hbegun.out, hbegun.mem, hbegun.linePoison],
      s.sameMemory_after (by simp [hfin, hbegun.mem]), s.sameRegs_after (by simp [hbegun.regs])⟩
  · obtain ⟨k, hbegun, hreq⟩ := Chip.request_granted (r := .rdUnique) hq hs hline hpresent trivial nofun rfl
    refine ⟨s.after (s.chip.request m .rdUnique), rfl, ?_⟩
    rw [hreq]
    exact ⟨by simp [Chip.finishReq], by simp [Chip.finishReq],
      by simp [Chip.finishReq, Chip.grantMessage, hbegun.out, hbegun.mem, hbegun.linePoison],
      s.sameMemory_after (by simp [Chip.finishReq, hbegun.mem]), s.sameRegs_after (by simp [hbegun.regs])⟩
  · obtain ⟨k, hbegun, hreq⟩ := Chip.request_granted (r := .own true) hq hs hline hpresent rfl nofun rfl
    refine ⟨s.after (s.chip.request m (.own true)), rfl, ?_⟩
    rw [hreq]
    exact ⟨by simp [Chip.finishReq], by simp [Chip.finishReq],
      by simp [Chip.finishReq, hbegun.out, Chip.grantMessage],
      s.sameMemory_after (by simp [Chip.finishReq, hbegun.mem]), s.sameRegs_after (by simp [hbegun.regs])⟩
  · obtain ⟨k, hbegun, hreq⟩ := Chip.request_granted (r := .rdOnce) hq hs hline hpresent trivial nofun rfl
    refine ⟨s.after (s.chip.request m .rdOnce), rfl, ?_⟩
    rw [hreq]
    exact ⟨by simp [Chip.finishReq, hbegun.dir], by simp [Chip.finishReq, hbegun.grants],
      by simp [Chip.finishReq, hbegun.mem, hbegun.out, hbegun.linePoison],
      s.sameMemory_after (by simp [Chip.finishReq, hbegun.mem]), s.sameRegs_after (by simp [hbegun.regs])⟩
  · obtain ⟨k, hbegun, hreq⟩ := Chip.request_unheld (r := .wrLine none) hq hs trivial hline
      (Chip.snoopsOf_unheld hline hpresent nofun)
    have hdue : s.chip.dataDue m.line (.wrLine none) = true := by simp [Chip.dataDue, hnone]
    rw [hdue, if_pos rfl] at hreq
    have hawaits : (s.chip.request m (.wrLine none)).AwaitsBytes m.line
        { die := m.die, who := m.who, req := .wrLine none } := by
      obtain ⟨hidle, -⟩ := hq
      rw [hreq]
      exact ⟨rfl, Chip.busy_setBusy (hbegun.busy.trans hidle) .., hbegun.wrData.trans hnone⟩
    have hmem : (s.chip.request m (.wrLine none)).mem = s.chip.mem := by simp [hreq, hbegun.mem]
    have hregs : (s.chip.request m (.wrLine none)).regs = s.chip.regs := by simp [hreq, hbegun.regs]
    have hout : (s.chip.request m (.wrLine none)).out = s.chip.out := by simp [hreq, hbegun.out]
    obtain ⟨hout', hmem', hbusy', hregs'⟩ := Chip.wrData_awaited hawaits.refresh bytes mask poison
    refine ⟨s.after (s.chip.request m (.wrLine none)), _, rfl, exec_wrData .., by simpa, s.sameMemory_after hmem, ?_, ?_, ?_,
      (s.sameRegs_after hregs).trans (.of_eq hregs')⟩
    · simp [hout', hout]
    · simp [hmem', hmem]
    · exact Chip.busyLine_quiet (by simp [hbusy']) _
  · obtain ⟨k, hbegun, hreq⟩ :=
      Chip.request_granted (r := .amo op size off x) hq hs hline hpresent ⟨hmode, hnear⟩ nofun rfl
    have hfin := k.finishReq_amo m.line m.die m.who op size off x (by rw [hbegun.linePoison, hpoison])
    refine ⟨s.after (s.chip.request m (.amo op size off x)), rfl, ?_⟩
    rw [hreq]
    exact ⟨by simp [hfin, hold, hbegun.mem], by simp [hfin, Chip.farAmo, hold, hbegun.mem],
      s.sameRegs_after (by simp [hbegun.regs])⟩
  · obtain ⟨kind, hexec⟩ : ∃ kind, exec c s = .next (s.after (s.chip.request m (.cmo kind))) := by
      rcases hc with rfl | rfl | rfl <;> exact ⟨_, rfl⟩
    obtain ⟨k, hbegun, hreq⟩ := Chip.request_granted (r := .cmo kind) hq hs hline hpresent trivial nofun rfl
    have hfin := k.finishReq_cmo m.line m.die m.who kind
    have hline' : k.homeLine m.line = .none := (hbegun.homeLine _).trans hline
    refine ⟨_, hexec, ?_⟩
    rw [hreq]
    refine ⟨?_, by simp [hfin], ?_, s.sameMemory_after ?_, s.sameRegs_after (by simp [hbegun.regs])⟩ <;>
      cases kind <;> simp [hfin, hline', Chip.grantMessage, hbegun.out, hbegun.mem]

end Sys2Proof.Machine
end

section
/-!
PROOFS. Answers, grants, stashes, held snoops and lost directory entries (12, 17): what completes a request, and what a die
takes (R297, R303, R304, R309, R314, R429, R432).
-/

namespace Sys2Proof.Machine

/-! ### An answer reaches the home (R303, R304, R308) -/

/-- The machine with the answer of die `d` for line `l` read. -/
def Chip.answerRead (k : Chip) (l d : Nat) : Chip :=
  { k with coh := { k.coh with answers := k.coh.answers.erase (cohKey l d) } }

/-- R304: whether the home keeps the data of answer `a` for the request that it serves: the copy of an OWN equals it. -/
def Busy.keeps (b : Busy) (a : SnpAns) : Bool :=
  a.dirty && match b.item.req with
    | .own _ => false
    | _ => true

/-- R303: the tracker with answer `a` of die `d` collected. -/
def Busy.heard (b : Busy) (d : Nat) (a : SnpAns) : Busy :=
  { b with
    awaiting := b.awaiting.filter (· != d)
    ownerSt := if b.before.owner == some d then a.st else b.ownerSt
    dirty := b.dirty || a.dirty
    data := if b.keeps a then a.data else b.data
    poison := if b.keeps a then a.poison else b.poison }

@[simp] theorem Busy.heard_blocked (b : Busy) (d : Nat) (a : SnpAns) : (b.heard d a).blocked = b.blocked := rfl

/-- An answer without dirty data brings the state of its die alone. -/
theorem Busy.heard_clean (b : Busy) (d : Nat) {a : SnpAns} (h : a.dirty = false) : b.heard d a =
    { b with
      awaiting := b.awaiting.filter (· != d), ownerSt := if b.before.owner == some d then a.st else b.ownerSt } := by
  simp [Busy.heard, Busy.keeps, h]

/-- A home that serves line `l` alone, by tracker `b`. -/
theorem Chip.busyLine_sole {k : Chip} {l : Nat} {b : Busy} (h : k.coh.busy = [(l, b)]) : k.busyLine l = some b := by
  simp [Chip.busyLine, h]

theorem Chip.busy_answerRead {k : Chip} {l : Nat} {b : Busy} (h : k.coh.busy = [(l, b)]) (d : Nat) (b' : Busy) :
    ((k.answerRead l d).setBusy l (some b')).coh.busy = [(l, b')] :=
  Chip.busy_setBusy_lone (by simp [Chip.answerRead, h]) (some b')

section
variable {k : Chip} {l d : Nat} {a : SnpAns} {b : Busy} (ha : k.coh.answers.find (cohKey l d) = some a)
  (hempty : a.empty = false) (hbusy : k.coh.busy = [(l, b)]) (hhome : (a.dirty && b.item.req.writesHome a.superseded) = false)
include ha hempty hbusy hhome

/-- R297, R303: an answer whose data do not go into the system cache is collected. -/
theorem Chip.takeAnswer_heard :
    k.takeAnswer l d = ((k.answerRead l d).setBusy l (some (b.heard d a))).pokeHome l := by
  have hkeeps : b.keeps a = (a.dirty && !(a.dirty && b.item.req.writesHome a.superseded) && match b.item.req with
      | .own _ => false
      | _ => true) := by rw [hhome, Bool.not_false, Bool.and_true, Busy.keeps]
  rw [Chip.takeAnswer, ha, Chip.busyLine_sole hbusy, Busy.heard, hkeeps]
  simp only [hempty, hhome]
  rfl

/-- R303: while another die is still to answer, the line stays busy. -/
theorem Chip.snoopAnswer_waits (hblocked : b.blocked = none) (hmore : b.awaiting.filter (· != d) ≠ []) :
    k.snoopAnswer d l = (k.answerRead l d).setBusy l (some (b.heard d a)) := by
  have hwaits : ((k.answerRead l d).setBusy l (some (b.heard d a))).pokeHome l =
      (k.answerRead l d).setBusy l (some (b.heard d a)) := by
    have hawaiting : (b.heard d a).awaiting.isEmpty = false := by simpa [Busy.heard] using hmore
    rw [Chip.pokeHome, Chip.busyLine_setBusy]
    dsimp only
    rw [if_pos (by simp [hawaiting])]
  rw [Chip.snoopAnswer, Chip.takeAnswer_heard ha hempty hbusy hhome, hwaits]
  refine Chip.backInvalidate_unblocked ?_
  rw [Chip.busy_answerRead hbusy]
  simpa using hblocked

/-- R304: the last answer lets the home finish a read for ownership. -/
theorem Chip.snoopAnswer_last (hblocked : b.blocked = none) (hgranted : b.granted = false) (hdata : b.needData = false)
    (hlast : b.awaiting = [d]) (hreq : b.item.req = .rdUnique) :
    k.snoopAnswer d l = ((k.answerRead l d).setBusy l (some (b.heard d a))).finished l (b.heard d a) := by
  have hhold : (((k.answerRead l d).setBusy l (some (b.heard d a))).finishReq l (b.heard d a)).2 = true := by
    have hreq' : (b.heard d a).item.req = .rdUnique := hreq
    simp only [Chip.finishReq, hreq']
  have hready := Chip.pokeHome_ready (b := b.heard d a) (Chip.busyLine_setBusy (k.answerRead l d) l _) hgranted
    (by simp [Busy.heard, hlast]) hdata hblocked (.inr hhold)
  rw [Chip.snoopAnswer, Chip.takeAnswer_heard ha hempty hbusy hhome, hready]
  exact Chip.backInvalidate_finished (by simp [Chip.busy_answerRead hbusy]) hblocked

end

/-- R304: a read for ownership whose answers brought no data before gets what answer `a` brings: M with dirty data, else E. -/
theorem Chip.finishReq_heard {l : Nat} {b : Busy} (d : Nat) (a : SnpAns) (hreq : b.item.req = .rdUnique)
    (hclean : b.dirty = false) (hnone : b.data = none) (hpoison : b.poison = false) (k : Chip) :
    k.finishReq l (b.heard d a) = ((k.setHomeLine l (.owned b.item.die)).grant l b.item.die
      { st := if a.dirty then .m else .e
        data := if a.dirty then a.data else none
        poison := a.dirty && a.poison }, true) := by
  have hreq' : (b.heard d a).item.req = .rdUnique := hreq
  have hkeeps : b.keeps a = a.dirty := by simp [Busy.keeps, hreq]
  simp only [Chip.finishReq, hreq']
  simp [Busy.heard, hkeeps, hclean, hnone, hpoison]

/-! ### The line freed (R303) -/

/-- R303: COMP_ACK of the die that was granted the line frees it. -/
theorem Chip.compAck_granted {k : Chip} {l : Nat} {b : Busy} (hbusy : k.coh.busy = [(l, b)]) (hgranted : b.granted = true)
    (hwaiting : b.waiting = []) : k.compAck b.item.die l = k.setBusy l none := by
  have hfree : (k.setBusy l none).coh.busy = [] := Chip.busy_setBusy_lone (by simp [hbusy]) none
  have hrelease : k.releaseLine l = k.setBusy l none := by
    rw [Chip.releaseLine, Chip.busyLine_sole hbusy]
    dsimp only
    rw [hwaiting, Chip.serveHome]
  rw [Chip.compAck, Chip.busyLine_sole hbusy]
  dsimp only
  rw [if_pos (by simp [hgranted]), hrelease, Chip.backInvalidate_unblocked (by simp [hfree])]

/-! ### A grant reaches its die (R303, R304) -/

/-- R303, R304: the machine with grant `g` of line `l` taken by die `d`: a COMP that brings no bytes leaves those
that the die has, and a DATA is acknowledged. -/
def Chip.filled (k : Chip) (l d : Nat) (g : Grant) : Chip :=
  let k := { k with coh := { k.coh with grants := k.coh.grants.erase (cohKey l d) } }
  if g.comp then k.setDieLine l d fun c => { c with
      st := g.st
      data := if g.data.isSome then g.data else c.data
      poison := c.poison && g.data.isNone }
  else (k.setDieLine l d fun c => { c with st := g.st, data := g.data, poison := g.poison }).say "COMP_ACK" d l 0

section
variable (k : Chip) (l d : Nat) (g : Grant)

theorem Chip.filled_eq : k.filled l d g = { k with
    out := (k.filled l d g).out
    coh := { k.coh with grants := k.coh.grants.erase (cohKey l d), die := (k.filled l d g).coh.die } } := by
  unfold Chip.filled
  dsimp only
  split <;> rfl

@[simp] theorem Chip.filled_mem : (k.filled l d g).mem = k.mem := by rw [Chip.filled_eq]
@[simp] theorem Chip.filled_regs : (k.filled l d g).regs = k.regs := by rw [Chip.filled_eq]
@[simp] theorem Chip.filled_heldSnoops : (k.filled l d g).coh.heldSnoops = k.coh.heldSnoops := by rw [Chip.filled_eq]
@[simp] theorem Chip.find_filled : (k.filled l d g).coh.grants.find (cohKey l d) = none := by
  rw [Chip.filled_eq]
  exact Tbl.find_erase_self _ _

@[simp] theorem Chip.filled_out :
    (k.filled l d g).out = if g.comp then k.out else .coherence "COMP_ACK" d l 0 :: k.out := by
  unfold Chip.filled
  dsimp only
  split <;> rfl

theorem Chip.dieLine_filled : (k.filled l d g).dieLine l d =
    if g.comp then { k.dieLine l d with
      st := g.st
      data := if g.data.isSome then g.data else (k.dieLine l d).data
      poison := (k.dieLine l d).poison && g.data.isNone }
    else { k.dieLine l d with st := g.st, data := g.data, poison := g.poison } := by
  unfold Chip.filled
  dsimp only
  split <;> exact Chip.dieLine_setDieLine _ l d _

end

@[simp] theorem Chip.dieLine_withWaits (k : Chip) (w : Tbl (List HartReq)) (l d : Nat) :
    (k.withWaits w).dieLine l d = k.dieLine l d := rfl

/-- R303: the grant of a copy, for which no access waits, reaches its die. -/
theorem Chip.deliverGrant_copy {k : Chip} {l d : Nat} {g : Grant} (hg : k.coh.grants.find (cohKey l d) = some g)
    (hst : g.st ≠ .i) (hwaits : k.coh.waits.find (cohKey l d) = none) (hheld : k.coh.heldSnoops = []) :
    k.deliverGrant d l g.comp = (k.filled l d g).withWaits ((k.filled l d g).coh.waits.erase (cohKey l d)) := by
  have htaken : k.takeGrant l d = (k.filled l d g).withWaits ((k.filled l d g).coh.waits.erase (cohKey l d)) := by
    rw [Chip.takeGrant, hg]
    dsimp only
    rw [if_neg (by simpa using hst), hwaits]
    rfl
  rw [Chip.deliverGrant, hg]
  dsimp only
  rw [if_pos (by simp), htaken]
  exact Chip.endHolds_none ((k.filled_heldSnoops l d g).trans hheld)

/-! ### Stashes and held snoops (R309, R314) -/

/-- R314: the request of a stash that die `d` has accepted. -/
def stashItem (d : Nat) : HomeItem := { die := d, who := { source := 0, id := 0, w := 0 }, req := .stash }

/-- R314: at a quiet home a stash of a line that no die holds is finished at once. -/
theorem Chip.arrive_stash {k : Chip} {l : Nat} (hq : k.HomeQuiet) (hline : k.homeLine l = .none) (d : Nat) :
    ∃ k', k.Begun k' ∧ (k.arrive l (stashItem d)).backInvalidate =
      ((k'.setHomeLine l .shared).grant l d { st := .s }).setBusy l (some { item := stashItem d, granted := true }) := by
  obtain ⟨k', hbegun, harrive⟩ := Chip.arrive_unheld (it := stashItem d) hq rfl trivial hline rfl
  have hfin : k'.finishReq l { item := stashItem d } = ((k'.setHomeLine l .shared).grant l d { st := .s }, true) := by
    simp [Chip.finishReq, stashItem, hbegun.homeLine, hline]
  refine ⟨k', hbegun, harrive.trans ?_⟩
  rw [if_neg (by simp [Chip.dataDue, stashItem]), Chip.finished, hfin]
  rfl

theorem Chip.snoopStash_declined {k : Chip} {l d : Nat} {way : StashWay} (h : k.stashFits l d way = false) :
    k.snoopStash d l way = k.say "STASH_DECLINE" d l 0 := if_neg (by simp [h])

/-- R314: an offer that names no hart and no way changes nothing at its die. -/
theorem Chip.snoopStash_accepted {k : Chip} {l d : Nat} (h : k.stashFits l d .open = true) :
    k.snoopStash d l .open = k.say "STASH_ACCEPT" d l 0 := if_pos h

/-- R309: the holding of a line for which no snoop is held back ends. -/
theorem Chip.releaseHold_none {k : Chip} {l d : Nat} (h : k.coh.heldSnoops.find (cohKey l d) = none) : k.releaseHold l d =
    Chip.setDieLine { k with coh := { k.coh with heldSnoops := k.coh.heldSnoops.erase (cohKey l d) } } l d fun c =>
      { c with lrHold := none } := by
  rw [Chip.releaseHold, h]
  rfl

/-! ### A directory entry that is lost (R429) -/

/-- R315, R429: the dies that the repair of a directory entry snoops. -/
def Chip.upDies (k : Chip) : List Nat := (List.range 12).filter fun d => k.dieUp d && !k.coh.lost.contains d

/-- R429: the home of line `l` awaits the answers of `dies` for the repair of the line's directory entry. -/
def Chip.Repairing (k : Chip) (l : Nat) (dies : List Nat) : Prop :=
  ∃ b, k.busyLine l = some b ∧ b.item = homeOwn true ∧ b.awaiting = dies

theorem Chip.busyLine_setBusy_ne (k : Chip) {l l' : Nat} (b : Option Busy) (hne : l' ≠ l) :
    (k.setBusy l b).busyLine l' = k.busyLine l' := by
  have hkept : (k.coh.busy.filter fun e => e.1 != l).find? (fun e => e.1 == l') = k.coh.busy.find? fun e => e.1 == l' := by
    rw [List.find?_filter]
    congr 1
    funext e
    by_cases he : e.1 = l' <;> simp [he, hne]
  cases b <;> simp [Chip.busyLine, Chip.setBusy, List.find?_append, hkept, hne.symm]

theorem Chip.Told.busyLine {os : List Out} {k k' : Chip} (h : Chip.Told os k k') (l : Nat) : k'.busyLine l = k.busyLine l := by
  rw [h]
  rfl

theorem Chip.busyLine_refresh (k : Chip) (l : Nat) : k.refresh.busyLine l = k.busyLine l := by
  rw [Chip.busyLine, Chip.refresh_coh, Chip.busyLine]

theorem Chip.Told.upDies {os : List Out} {k k' : Chip} (h : Chip.Told os k k') : k'.upDies = k.upDies := by
  rw [h]
  rfl

/-- R298, R429: the repair of a line whose home serves nothing for it snoops every die in service. -/
theorem Chip.arrive_repair {k : Chip} {l : Nat} (hfree : k.busyLine l = none) (hroom : k.coh.dir.length < 16)
    (hup : k.upDies ≠ []) : ∃ os k' b, Chip.Told os k k' ∧ k.arrive l (homeOwn true) = k'.setBusy l (some b) ∧
      b.item = homeOwn true ∧ b.awaiting = k.upDies := by
  have hsn : k.snoopsOf l (homeOwn true) = (.inv, k.upDies) := rfl
  have hstart := Chip.startReq_served (k := k) (l := l) (it := homeOwn true) rfl (fun e => ⟨nofun, nofun⟩) rfl hroom
  have hawaiting : (k.tracker l (homeOwn true)).awaiting = k.upDies := rfl
  refine ⟨_, _, k.tracker l (homeOwn true), Chip.told_snooped hsn, ?_, rfl, hawaiting⟩
  rw [Chip.arrive, hfree]
  dsimp only
  rw [Chip.serveHome, hstart, if_pos (by simp [hawaiting, hup])]

/-- R429: repairs of lines whose homes serve nothing for them await every die in service. -/
theorem Chip.repairing_foldl_arrive {dies : List Nat} (hdies : dies ≠ []) (ls : List Nat) (hnodup : ls.Nodup) (k : Chip)
    (hroom : k.coh.dir.length < 16) (hup : k.upDies = dies) (hfree : ∀ l ∈ ls, k.busyLine l = none) :
    (∀ l ∈ ls, (ls.foldl (fun k l => k.arrive l (homeOwn true)) k).Repairing l dies) ∧
    ∀ l, l ∉ ls → (ls.foldl (fun k l => k.arrive l (homeOwn true)) k).busyLine l = k.busyLine l := by
  induction ls generalizing k with
  | nil => exact ⟨by simp, fun _ _ => rfl⟩
  | cons l ls ih =>
    obtain ⟨hl, hls⟩ := List.nodup_cons.1 hnodup
    obtain ⟨os, k', b, htold, harrive, hitem, hawaiting⟩ :=
      Chip.arrive_repair (hfree l List.mem_cons_self) hroom (by rwa [hup])
    have hother : ∀ l', l' ≠ l → (k.arrive l (homeOwn true)).busyLine l' = k.busyLine l' := fun l' hne => by
      rw [harrive, Chip.busyLine_setBusy_ne _ _ hne, htold.busyLine]
    obtain ⟨hrepairing, hsame⟩ := ih hls (k.arrive l (homeOwn true)) (by rwa [harrive, Chip.setBusy_dir, htold.dir])
      (by rw [harrive, ← hup, ← htold.upDies]; rfl) fun l' hl' => by
        rw [hother l' (ne_of_mem_of_not_mem hl' hl), hfree l' (List.mem_cons_of_mem _ hl')]
    refine ⟨fun l' hl' => ?_, fun l' hl' => ?_⟩
    · obtain rfl | hl' := List.mem_cons.1 hl'
      · exact ⟨b, by rw [List.foldl_cons, hsame _ hl, harrive, Chip.busyLine_setBusy], hitem, hawaiting.trans hup⟩
      · exact hrepairing l' hl'
    · obtain ⟨hne, hl'⟩ := not_or.1 (mt List.mem_cons.2 hl')
      rw [List.foldl_cons, hsame l' hl', hother l' hne]

/-- Recalling a line keeps the trackers, but for the data that that of the line has collected. -/
theorem Chip.recallLine_busy (k : Chip) (l : Nat) : (k.recallLine l).coh.busy =
    k.coh.busy.map fun e => if e.1 == l then (e.1, { e.2 with data := none }) else e := by
  unfold Chip.recallLine
  split <;> rfl

theorem Chip.Repairing.recallLine {k : Chip} {l : Nat} {dies : List Nat} (h : k.Repairing l dies) (l' : Nat) :
    (k.recallLine l').Repairing l dies := by
  obtain ⟨b, hb, hitem, hawaiting⟩ := h
  obtain ⟨e, he, rfl⟩ := Option.map_eq_some_iff.1 hb
  have hsame : ((fun e : Nat × Busy => e.1 == l) ∘ fun e => if e.1 == l' then (e.1, { e.2 with data := none }) else e) =
      fun e => e.1 == l := by
    funext e
    rw [Function.comp_apply]
    split <;> rfl
  rw [Chip.Repairing, Chip.busyLine, Chip.recallLine_busy, List.find?_map, hsame, he]
  refine ⟨_, rfl, ?_⟩
  dsimp only
  split <;> exact ⟨hitem, hawaiting⟩

theorem Chip.Repairing.congr {k k' : Chip} {l : Nat} {dies : List Nat} (h : k.Repairing l dies)
    (hcoh : k'.coh.busy = k.coh.busy) : k'.Repairing l dies := by
  rwa [Chip.Repairing, Chip.busyLine, hcoh]

theorem Chip.Repairing.store {k : Chip} {l : Nat} {dies : List Nat} (h : k.Repairing l dies) (a : Nat) (bs : Bytes) :
    (k.store a bs).Repairing l dies := by
  unfold Chip.store
  split
  · exact h
  · exact Chip.Repairing.congr (List.foldlRecOn (motive := fun k' : Chip => k'.Repairing l dies) _ _ h
      fun k' hk' l' _ => hk'.recallLine l') rfl

/-- Reporting an event leaves the repairs under way. -/
theorem Chip.Repairing.log {k : Chip} {l : Nat} {dies : List Nat} (h : k.Repairing l dies) (e : Ev) :
    (k.log e).Repairing l dies := by
  obtain hcoh | ⟨k₀, a, bs, hk₀, hcoh⟩ := k.storesOnce_log e
  · exact h.congr (by rw [hcoh])
  · exact ((h.congr (k' := k₀) (by rw [hk₀])).store a bs).congr (by rw [hcoh])

/-- R429: at a home with nothing under way every line of the sector awaits every die in service. -/
theorem Chip.repairing_dirUncorrectable {k : Chip} (hbusy : k.coh.busy = []) (hroom : k.coh.dir.length < 16)
    (hup : k.upDies ≠ []) (v : Nat) {i : Nat} (hi : i < 8) : (k.dirUncorrectable v).Repairing (8 * v + i) k.upDies := by
  obtain ⟨hrepairing, -⟩ := Chip.repairing_foldl_arrive hup ((List.range 8).map (8 * v + ·))
    (List.nodup_range.map fun i j h => by simpa using h) k hroom rfl fun l _ => Chip.busyLine_quiet hbusy l
  have hline := hrepairing (8 * v + i) (by simpa using hi)
  rw [List.foldl_map] at hline
  exact hline.log _

/-! ### The walk of the directory (R432) -/

theorem Chip.dieState_setDie_ne (k : Chip) {d d' : Nat} (f : Die → Die) (hne : d' ≠ d) :
    (k.setDie d f).dieState d' = k.dieState d' := Tbl.get_mod_ne _ _ _ _ hne

/-! ### The commands -/

theorem exec_stashAccept (s : State) (d l : Nat) : exec (.stashAccept d l) s =
    .next (s.after ((s.chip.countHome l 6 1).arrive l (stashItem d)).backInvalidate) := rfl

theorem exec_stashDecline (s : State) (d l : Nat) : exec (.stashDecline d l) s = .next (s.after (s.chip.countHome l 7 1)) := rfl

theorem exec_snpStash (s : State) (d l : Nat) (way : StashWay) : exec (.snpStash d l way) s =
    .next (s.after (s.chip.snoopStash d l way)) := rfl

theorem exec_directoryWalkComplete (s : State) (d : Nat) : exec (.directoryWalkComplete d) s =
    .next (s.after (s.chip.setDie d fun x => { x with walk := false })) := rfl

theorem exec_lrSnoopHoldExpiry (s : State) (d l : Nat) : exec (.lrSnoopHoldExpiry d l) s =
    .next (s.after (s.chip.releaseHold l d)) := rfl

/-- Settles O30: an answer is collected and the last finishes the request; a grant fills its line; an accepted stash is a
request that snoops none; a lost directory entry has its eight lines repaired. -/
theorem answersAndGrants : Obligations.AnswersAndGrants := by
  have hanswer : ∀ (s : State) (d l : Nat) (c : Instr), c = .snpResp d l ∨ c = .snpData d l →
      exec c s = .next (s.after (s.chip.snoopAnswer d l)) := by rintro s d l c (rfl | rfl) <;> rfl
  refine ⟨?_, ?_, ?_, ?_, ?_, ?_, exec_stashDecline, ?_, ?_, ?_⟩
  · intro s d l a b c hc ha hempty hclean hbusy hblocked hgranted hmore
    rw [hanswer s d l c hc, Chip.snoopAnswer_waits ha hempty hbusy (by simp [hclean]) hblocked hmore,
      Busy.heard_clean b d hclean]
    exact ⟨_, rfl, by simp [Chip.busy_answerRead hbusy], by simp [Chip.answerRead], by simp [Chip.answerRead],
      s.sameMemory_after (by simp [Chip.answerRead]), s.sameRegs_after (by simp [Chip.answerRead])⟩
  · intro s d l a b c hc ha hempty hsuperseded hbusy hblocked hgranted hdata hlast hreq hclean hnone hpoison
    have hfin := Chip.finishReq_heard (l := l) d a hreq hclean hnone hpoison
    rw [hanswer s d l c hc, Chip.snoopAnswer_last ha hempty hbusy (by simp [hreq, HomeReq.writesHome]) hblocked hgranted hdata
      hlast hreq]
    exact ⟨_, rfl, by simp [hfin], by simp [hfin], s.sameMemory_after (by simp [hfin, Chip.answerRead]),
      s.sameRegs_after (by simp [Chip.answerRead])⟩
  · rintro s d l b hbusy hgranted rfl hwaiting
    refine ⟨s.after (s.chip.compAck b.item.die l), rfl, ?_⟩
    rw [Chip.compAck_granted hbusy hgranted hwaiting]
    exact ⟨by simp [Chip.busy_setBusy_lone, hbusy], by simp, by simp, s.sameMemory_after rfl, s.sameRegs_after rfl⟩
  · intro s d l g hg hst hwaits hheld
    have hfilled := Chip.deliverGrant_copy hg hst hwaits hheld
    refine ⟨fun hcomp => ?_, fun hcomp => ?_⟩
    · refine ⟨s.after (s.chip.deliverGrant d l true), rfl, ?_⟩
      rw [← hcomp, hfilled]
      refine ⟨?_, ?_, ?_, s.sameMemory_after (by simp [Chip.withWaits]), s.sameRegs_after (by simp [Chip.withWaits])⟩
      · simp [Chip.dieLine_filled, hcomp]
      · simp [Chip.withWaits]
      · simp [Chip.withWaits, hcomp]
    · refine ⟨s.after (s.chip.deliverGrant d l false), rfl, ?_⟩
      rw [← hcomp, hfilled]
      refine ⟨?_, ?_, ?_, ?_, s.sameMemory_after (by simp [Chip.withWaits]), s.sameRegs_after (by simp [Chip.withWaits])⟩
      · simp [Chip.dieLine_filled, hcomp]
      · simp [Chip.dieLine_filled, hcomp]
      · simp [Chip.withWaits]
      · simp [Chip.withWaits, hcomp]
  · intro s d l way
    refine ⟨fun hfits => ?_, fun hfits => ?_⟩
    · rw [exec_snpStash, Chip.snoopStash_declined hfits]
    · rw [exec_snpStash, Chip.snoopStash_accepted hfits]
  · intro s d l hq hline
    have hcount := s.chip.told_countHome l 6 1
    obtain ⟨k, hbegun, hstash⟩ := Chip.arrive_stash (hcount.quiet hq) ((hcount.homeLine l).trans hline) d
    have hbegun := hcount.begun.trans hbegun
    refine ⟨_, exec_stashAccept s d l, ?_⟩
    rw [hstash]
    exact ⟨by simp, by simp, s.sameMemory_after (by simp [hbegun.mem]), s.sameRegs_after (by simp [hbegun.regs])⟩
  · intro s d l hnone
    rw [exec_lrSnoopHoldExpiry, Chip.releaseHold_none hnone]
    exact ⟨_, rfl, by simp, by simp, Chip.refresh_out _, s.sameMemory_after rfl, s.sameRegs_after rfl⟩
  · rintro s v x ⟨hbusy, -, hroom, hlost⟩ hx hup
    have hdies : s.chip.upDies = (List.range 12).filter fun d => s.chip.dieUp d := by simp [Chip.upDies, hlost]
    have hmem : x ∈ s.chip.upDies := by simp [hdies, hx, hup]
    refine ⟨s.after (s.chip.dirUncorrectable v), rfl, fun i hi => ?_⟩
    rw [← hdies, State.after_chip, Chip.busyLine_refresh]
    exact Chip.repairing_dirUncorrectable hbusy hroom (List.ne_nil_of_mem hmem) v hi
  · intro s d
    refine ⟨_, exec_directoryWalkComplete s d, by simp, fun e hne => ?_, s.sameMemory_after rfl, s.sameRegs_after rfl⟩
    rw [State.after_chip, Chip.dieState_refresh]
    exact s.chip.dieState_setDie_ne _ hne

end Sys2Proof.Machine
end

section
/-!
PROOFS. Reads of register fields (00): one-bit fields set, counting fields raised, and the fields that a run of writes can have
changed (R8, R14).
-/

namespace Sys2Proof.Machine

theorem State.next_after (s : State) {k k' : Chip} (h : k = k') :
    (.next (s.after k) : Host.Outcome State Fault Refusal) = .next (s.after k') := by rw [h]

/-! ### Folds -/

section
variable {α β : Type} {Q P : α → Prop} {f : α → β → α} {b : β} {l : List β}

/-- A fold over distinct places: what holds until place `b` is reached, what its step makes of it, and what the later steps
keep. -/
theorem foldl_at_of_mem (hbefore : ∀ a, ∀ x ∈ l, x ≠ b → Q a → Q (f a x)) (hat : ∀ a, Q a → P (f a b))
    (hafter : ∀ a, ∀ x ∈ l, x ≠ b → P a → P (f a x)) (hnodup : l.Nodup) (hmem : b ∈ l) {a : α} (ha : Q a) :
    P (l.foldl f a) := by
  obtain ⟨l₁, l₂, rfl⟩ := List.append_of_mem hmem
  rw [List.nodup_append, List.nodup_cons] at hnodup
  obtain ⟨-, ⟨hb₂, -⟩, hapart⟩ := hnodup
  rw [List.foldl_append, List.foldl_cons]
  have hreached : Q (l₁.foldl f a) := List.foldlRecOn (motive := Q) l₁ f ha fun c hc x hx =>
    hbefore c x (List.mem_append_left _ hx) (hapart x hx b List.mem_cons_self) hc
  exact List.foldlRecOn (motive := P) l₂ f (hat _ hreached) fun c hc x hx =>
    hafter c x (List.mem_append_right _ (List.mem_cons_of_mem _ hx)) (fun he => hb₂ (he ▸ hx)) hc

/-- The same of steps that keep both whatever the place. -/
theorem foldl_at (hbefore : ∀ a x, x ≠ b → Q a → Q (f a x)) (hat : ∀ a, Q a → P (f a b))
    (hafter : ∀ a x, x ≠ b → P a → P (f a x)) (hnodup : l.Nodup) (hmem : b ∈ l) {a : α} (ha : Q a) : P (l.foldl f a) :=
  foldl_at_of_mem (fun a x _ => hbefore a x) hat (fun a x _ => hafter a x) hnodup hmem ha

end

/-! ### One field -/

theorem Chip.rd_raise_self (k : Chip) {f : Fld} (h : f.width = 1) : (k.raise f).rd f = 1 := by
  rw [Chip.raise, Chip.rd_wr_self, h]
  rfl

theorem Chip.rd_raise_ne (k : Chip) {f g : Fld} (h : g.key ≠ f.key) : (k.raise f).rd g = k.rd g := k.rd_wr_ne _ h

theorem satAdd_lt (n d w : Nat) : satAdd n d w < 2 ^ w := by
  have := Nat.two_pow_pos w
  unfold satAdd
  omega

theorem Chip.rd_bump_self (k : Chip) (f : Fld) (d : Nat) : (k.bump f d).rd f = satAdd (k.rd f) d f.width := by
  rw [Chip.bump, Chip.rd_wr_self, Nat.mod_eq_of_lt (satAdd_lt _ _ _)]

theorem Chip.rd_bump_ne (k : Chip) {f g : Fld} (d : Nat) (h : g.key ≠ f.key) : (k.bump f d).rd g = k.rd g := k.rd_wr_ne _ h

/-! ### The fields that may have changed -/

/-- `k'` reads every register field but those of `fs` as `k` does. -/
def Chip.OnlyRegs (fs : List Fld) (k k' : Chip) : Prop := ∀ f : Fld, f.key ∉ fs.map Fld.key → k'.rd f = k.rd f

theorem Chip.OnlyRegs.of_eq {fs : List Fld} {k k' : Chip} (h : k'.regs = k.regs) : k.OnlyRegs fs k' :=
  fun f _ => Chip.rd_congr h f

theorem Chip.OnlyRegs.refl (fs : List Fld) (k : Chip) : k.OnlyRegs fs k := .of_eq rfl

theorem Chip.OnlyRegs.after {fs : List Fld} {s : State} {k : Chip} (h : s.chip.OnlyRegs fs k) :
    s.chip.SameRegs fs (s.after k).chip := .refresh h

section
variable {fs : List Fld} {k k' k'' : Chip} (h : k.OnlyRegs fs k')
include h

theorem Chip.OnlyRegs.trans (h' : k'.OnlyRegs fs k'') : k.OnlyRegs fs k'' := fun f hf => (h' f hf).trans (h f hf)

theorem Chip.OnlyRegs.mono {gs : List Fld} (hs : fs ⊆ gs) : k.OnlyRegs gs k' :=
  fun f hf => h f fun hfs => hf (List.map_subset _ hs hfs)

theorem Chip.OnlyRegs.congr (h' : k''.regs = k'.regs) : k.OnlyRegs fs k'' := h.trans (.of_eq h')

theorem Chip.OnlyRegs.wr {g : Fld} (v : Nat) (hg : g.key ∈ fs.map Fld.key) : k.OnlyRegs fs (k'.wr g v) := by
  intro f hf
  rw [Chip.rd_wr_ne _ _ (ne_of_mem_of_not_mem hg hf).symm, h f hf]

theorem Chip.OnlyRegs.raise {g : Fld} (hg : g.key ∈ fs.map Fld.key) : k.OnlyRegs fs (k'.raise g) := h.wr 1 hg

theorem Chip.OnlyRegs.bump {g : Fld} (d : Nat) (hg : g.key ∈ fs.map Fld.key) : k.OnlyRegs fs (k'.bump g d) := h.wr _ hg

/-- The report of an event. -/
theorem Chip.OnlyRegs.log (e : Ev) (hfs : reportFields.map Fld.key ⊆ fs.map Fld.key) : k.OnlyRegs fs (k'.log e) :=
  h.trans fun _ hf => k'.log_rd e fun hr => hf (hfs hr)

end

/-! ### An error bit and its event (R411) -/

/-- A bit of an error register set, and its event when it newly sets. -/
def Chip.raiseNew (k : Chip) (f : Fld) (e : Ev) : Chip := if k.on f then k.raise f else (k.raise f).log e

section
variable (k : Chip) (f : Fld) (e : Ev)

theorem Chip.onlyRegs_raiseNew : k.OnlyRegs (f :: reportFields) (k.raiseNew f e) := by
  have hraised : k.OnlyRegs (f :: reportFields) (k.raise f) := (Chip.OnlyRegs.refl _ k).raise (by simp)
  unfold Chip.raiseNew
  split
  · exact hraised
  · exact hraised.log _ (List.map_subset _ (List.subset_cons_self _ _))

theorem Chip.rd_raiseNew_ne {g : Fld} (hf : g.key ≠ f.key) (hreport : g.key ∉ reportFields.map Fld.key) :
    (k.raiseNew f e).rd g = k.rd g :=
  k.onlyRegs_raiseNew f e g (by
    rw [List.map_cons, List.mem_cons, not_or]
    exact ⟨hf, hreport⟩)

theorem Chip.rd_raiseNew_self (hw : f.width = 1) (hreport : f.key ∉ reportFields.map Fld.key) :
    (k.raiseNew f e).rd f = 1 := by
  unfold Chip.raiseNew
  split
  · exact Chip.rd_raise_self k hw
  · rw [Chip.log_rd _ _ hreport, Chip.rd_raise_self k hw]

@[simp] theorem Chip.raiseNew_tiles : (k.raiseNew f e).tiles = k.tiles := by
  unfold Chip.raiseNew
  split <;> simp

@[simp] theorem Chip.raiseNew_beat : (k.raiseNew f e).beat = k.beat := by
  unfold Chip.raiseNew
  split <;> simp

@[simp] theorem Chip.raiseNew_bl : (k.raiseNew f e).bl = k.bl := by
  unfold Chip.raiseNew
  split <;> simp

@[simp] theorem Chip.raiseNew_flt : (k.raiseNew f e).flt = k.flt := by
  unfold Chip.raiseNew
  split <;> simp

end

end Sys2Proof.Machine
end

section
/-!
PROOFS. The routes of a mesh (13): x before y, one stop nearer at each hop.
-/

namespace Sys2Proof.Machine

/-- A step towards another place brings it one nearer. -/
theorem toward_nearer {a b : Nat} (h : a ≠ b) : ((toward a b : Int) - b).natAbs + 1 = ((a : Int) - b).natAbs := by
  unfold toward
  split <;> omega

theorem toward_lt {a b w : Nat} (ha : a < w) (hb : b < w) : toward a b < w := by
  unfold toward
  split <;> omega

/-- The column and the row of the stop in row `y` and column `x`. -/
theorem mesh_coords {w x : Nat} (y : Nat) (hx : x < w) : (w * y + x) % w = x ∧ (w * y + x) / w = y := by
  refine ⟨?_, ?_⟩
  · rw [Nat.mul_add_mod, Nat.mod_eq_of_lt hx]
  · rw [Nat.mul_add_div (by omega), Nat.div_eq_of_lt hx, Nat.add_zero]

/-- R326: while the column differs, a hop goes along the row. -/
theorem meshNext_x {w at_ dst : Nat} (h : at_ % w ≠ dst % w) :
    (meshNext w false at_ dst).1 = w * (at_ / w) + toward (at_ % w) (dst % w) := by
  simp [meshNext, h]

/-- R326: in the column of the destination, a hop goes along the column. -/
theorem meshNext_y {w at_ dst : Nat} (h : at_ % w = dst % w) :
    (meshNext w false at_ dst).1 = w * toward (at_ / w) (dst / w) + at_ % w := by
  simp [meshNext, h]

/-- Settles O31: the hop changes one coordinate, by one step towards that of the destination. -/
theorem meshRoutesShorten : Obligations.MeshRoutesShorten := by
  intro w at_ dst n l hw hne hnext
  obtain rfl : (meshNext w false at_ dst).1 = n := by rw [hnext]
  have hat := Nat.mod_lt at_ hw
  simp only [← Int.natCast_mod, ← Int.natCast_div]
  by_cases hx : at_ % w = dst % w
  · have hy : at_ / w ≠ dst / w := fun hy => hne (by rw [← Nat.div_add_mod at_ w, hx, hy, Nat.div_add_mod])
    obtain ⟨hcol, hrow⟩ := mesh_coords (toward (at_ / w) (dst / w)) hat
    rw [meshNext_y hx, hcol, hrow, Nat.add_assoc, toward_nearer hy]
  · obtain ⟨hcol, hrow⟩ := mesh_coords (at_ / w) (toward_lt hat (Nat.mod_lt dst hw))
    rw [meshNext_x hx, hcol, hrow, Nat.add_right_comm, toward_nearer hx]

end Sys2Proof.Machine
end

section
/-!
PROOFS. The arbiters (16): what a cycle decides.
-/

namespace Sys2Proof.Machine

/-! ### The requester that a scan finds (R403) -/

theorem foldl_min_mem (rs : List Nat) (m : Nat) : rs.foldl min m = m ∨ rs.foldl min m ∈ rs := by
  induction rs generalizing m with
  | nil => exact .inl rfl
  | cons r rs ih =>
    rcases ih (min m r) with h | h
    · rcases Nat.le_total m r with hle | hle
      · exact .inl (by rw [List.foldl_cons, h, Nat.min_eq_left hle])
      · exact .inr (by rw [List.foldl_cons, h, Nat.min_eq_right hle]; exact List.mem_cons_self)
    · exact .inr (List.mem_cons_of_mem _ h)

/-- The least of some numbers is one of them. -/
theorem foldl_min_headD_mem {rs : List Nat} (h : rs ≠ []) : rs.foldl min (rs.headD 0) ∈ rs := by
  rcases foldl_min_mem rs (rs.headD 0) with hmin | hmin
  · rw [hmin]
    cases rs with
    | nil => exact absurd rfl h
    | cons r rs => exact List.mem_cons_self
  · exact hmin

/-- R403: the scan finds a requester among those it is given. -/
theorem scanFrom_mem {rs : List Nat} (h : rs ≠ []) (start : Nat) : scanFrom rs start ∈ rs := by
  unfold scanFrom
  dsimp only
  split
  · exact foldl_min_headD_mem h
  · next habove => exact (List.mem_filter.1 (foldl_min_headD_mem (by simpa using habove))).1

/-! ### The highest class (R402) -/

theorem foldl_max_mem (cs : List Nat) (m : Nat) : cs.foldl max m = m ∨ cs.foldl max m ∈ cs := by
  induction cs generalizing m with
  | nil => exact .inl rfl
  | cons c cs ih =>
    rcases ih (max m c) with h | h
    · rcases Nat.le_total c m with hle | hle
      · exact .inl (by rw [List.foldl_cons, h, Nat.max_eq_left hle])
      · exact .inr (by rw [List.foldl_cons, h, Nat.max_eq_right hle]; exact List.mem_cons_self)
    · exact .inr (List.mem_cons_of_mem _ h)

theorem le_foldl_max (cs : List Nat) (m : Nat) : m ≤ cs.foldl max m ∧ ∀ c ∈ cs, c ≤ cs.foldl max m := by
  induction cs generalizing m with
  | nil => exact ⟨Nat.le_refl m, nofun⟩
  | cons c cs ih =>
    obtain ⟨hm, hcs⟩ := ih (max m c)
    exact ⟨Nat.le_trans (Nat.le_max_left m c) hm, List.forall_mem_cons.2 ⟨Nat.le_trans (Nat.le_max_right m c) hm, hcs⟩⟩

/-- R402: the highest class among some requesters. -/
def topClass (cls : Nat → Nat) (rs : List Nat) : Nat := (rs.map cls).foldl max 0

theorem le_topClass (cls : Nat → Nat) {rs : List Nat} {r : Nat} (h : r ∈ rs) : cls r ≤ topClass cls rs :=
  (le_foldl_max (rs.map cls) 0).2 _ (List.mem_map_of_mem h)

theorem topClass_filter_ne_nil (cls : Nat → Nat) {rs : List Nat} (h : rs ≠ []) :
    (rs.filter fun r => cls r == topClass cls rs) ≠ [] := by
  have hmem : ∃ r ∈ rs, cls r = topClass cls rs := by
    rcases foldl_max_mem (rs.map cls) 0 with hzero | hmem
    · obtain ⟨r, hr⟩ := List.exists_mem_of_ne_nil rs h
      exact ⟨r, hr, Nat.le_antisymm (le_topClass cls hr) (by rw [topClass, hzero]; exact Nat.zero_le _)⟩
    · exact List.mem_map.1 hmem
  obtain ⟨r, hr, htop⟩ := hmem
  exact List.ne_nil_of_mem (List.mem_filter.2 ⟨hr, by simpa using htop⟩)

/-- R402, R403: the requester that is found among those of the highest class is of that class. -/
theorem scanFrom_top (cls : Nat → Nat) {rs : List Nat} (h : rs ≠ []) (start : Nat) :
    scanFrom (rs.filter fun r => cls r == topClass cls rs) start ∈ rs ∧
    ∀ r ∈ rs, cls r ≤ cls (scanFrom (rs.filter fun r => cls r == topClass cls rs) start) := by
  obtain ⟨hmem, htop⟩ := List.mem_filter.1 (scanFrom_mem (topClass_filter_ne_nil cls h) start)
  refine ⟨hmem, fun r hr => ?_⟩
  rw [beq_iff_eq.1 htop]
  exact le_topClass cls hr

/-! ### The decision (R403) -/

/-- R403: the arbiter with a cycle of waiting counted for every requester but the holder of its grant. -/
def Arb.waited (a : Arb) (e : List Nat) : Arb :=
  { a with waits := (e.filter fun r => a.grant != some r).foldl (fun w r => Tbl.mod 0 w r (· + 1)) a.waits }

/-- R403: the requesters that have waited to the limit. -/
def Arb.forced (a : Arb) (limit : Nat) (e : List Nat) : List Nat := e.filter fun r => limit ≤ Tbl.get 0 a.waits r

theorem Arb.mem_forced {a : Arb} {limit r : Nat} {e : List Nat} :
    r ∈ a.forced limit e ↔ r ∈ e ∧ limit ≤ Tbl.get 0 a.waits r := by simp [Arb.forced]

theorem Arb.decide_forced_grant {a : Arb} {cls : Nat → Nat} {limit : Nat} {e rs : List Nat}
    (hrs : (a.waited e).forced limit e = rs) (h : rs ≠ []) : (a.decide cls limit e).grant =
      some (scanFrom (rs.filter fun r => cls r == topClass cls rs) a.fptr) := by
  subst hrs
  exact congrArg Arb.grant (if_pos (show (!((a.waited e).forced limit e).isEmpty) = true by simpa using h))

theorem Arb.decide_free_grant {a : Arb} {cls : Nat → Nat} {limit : Nat} {e : List Nat}
    (hrs : (a.waited e).forced limit e = []) (h : e ≠ []) : (a.decide cls limit e).grant =
      some (scanFrom (e.filter fun r => cls r == topClass cls e) (a.ptr.getD (topClass cls e) 0)) := by
  have hnone : ¬ (!((a.waited e).forced limit e).isEmpty) = true := by simp [hrs]
  exact congrArg Arb.grant ((if_neg hnone).trans (if_pos (show (!e.isEmpty) = true by simpa using h)))

theorem Arb.decide_waits (a : Arb) (cls : Nat → Nat) (limit : Nat) (e : List Nat) :
    (a.decide cls limit e).waits = (a.waited e).waits := by
  unfold Arb.decide
  dsimp only
  split
  · rfl
  · split <;> rfl

/-- R403: with no grant in use, a cycle is a decision among the requesters. -/
theorem Chip.arbCycle_decides {k : Chip} {inst port : Nat} (h : (Tbl.get {} k.qt.arbs (256 * inst + port)).grant = none)
    (reqs : List Nat) (still unitEnd last : Bool) : k.arbCycle inst port reqs still unitEnd last =
      { k with qt := { k.qt with
          arbs := Tbl.set {} k.qt.arbs (256 * inst + port) (Arb.decide (Tbl.get {} k.qt.arbs (256 * inst + port))
            (k.arbClass inst) (orDefault (k.rd (QT_ARB_CTRL.WAIT_LIMIT inst)) 32) reqs) } } := by
  unfold Chip.arbCycle
  dsimp only
  rw [h]

theorem exec_arbiterCycle (s : State) {inst : Nat} (hinst : inst < 4) (port : Nat) (reqs : List Nat)
    (still unitEnd last : Bool) : exec (.arbiterCycle inst port reqs still unitEnd last) s =
      .next (s.after (s.chip.arbCycle inst port reqs still unitEnd last)) := by
  have hexec : exec (.arbiterCycle inst port reqs still unitEnd last) s =
      .next (s.after (s.chip.arbCycle (inst % 4) port reqs still unitEnd last)) := rfl
  rw [hexec, Nat.mod_eq_of_lt hinst]

/-- Settles O39: the grant goes to the first requester of the highest class, among those that have waited to the limit where
there is one. -/
theorem arbitersGrantTheHighestClass : Obligations.ArbitersGrantTheHighestClass := by
  refine ⟨fun s inst port reqs still unitEnd last hinst hgrant => ?_, ?_⟩
  · rw [exec_arbiterCycle s hinst, Chip.arbCycle_decides hgrant]
    exact ⟨_, rfl, by simp, s.sameMemory_after rfl, s.sameRegs_after rfl⟩
  · rintro a b cls limit e he rfl
    simp only [a.decide_waits cls limit e]
    generalize hrs : (a.waited e).forced limit e = rs
    have hmem : ∀ r, r ∈ rs ↔ r ∈ e ∧ limit ≤ Tbl.get 0 (a.waited e).waits r := fun r => by rw [← hrs, Arb.mem_forced]
    by_cases hforced : rs = []
    · subst hforced
      obtain ⟨hin, htop⟩ := scanFrom_top cls he (a.ptr.getD (topClass cls e) 0)
      refine ⟨_, Arb.decide_free_grant hrs he, hin, ?_, fun _ => htop⟩
      rintro ⟨r, hr⟩
      exact absurd ((hmem r).2 hr) (by simp)
    · obtain ⟨hin, htop⟩ := scanFrom_top cls hforced a.fptr
      obtain ⟨hw, hlimit⟩ := (hmem _).1 hin
      refine ⟨_, Arb.decide_forced_grant hrs hforced, hw, fun _ => ⟨hlimit, fun r hr hl => htop r ((hmem r).2 ⟨hr, hl⟩)⟩,
        fun hall => ?_⟩
      have := hall _ hw
      omega

end Sys2Proof.Machine
end

section
/-!
PROOFS. The addresses of DRAM (15): the channels share out the lines.
-/

namespace Sys2Proof.Machine

/-- The exclusive or of the lowest `n` nibbles of `v`, onto `c`. -/
def xorNibbles (n v c : Nat) : Nat := (List.range n).foldl (fun x i => x ^^^ bits v (4 * i) 4) c

theorem foldl_xor (g : Nat → Nat) (is : List Nat) (c : Nat) :
    is.foldl (fun x i => x ^^^ g i) c = c ^^^ is.foldl (fun x i => x ^^^ g i) 0 := by
  induction is generalizing c with
  | nil => simp
  | cons i is ih => rw [List.foldl_cons, ih, List.foldl_cons, ih (0 ^^^ g i), Nat.zero_xor, Nat.xor_assoc]

/-- Adding the same nibbles twice leaves the number. -/
theorem xorNibbles_twice (n v c : Nat) : xorNibbles n v (xorNibbles n v c) = c := by
  rw [xorNibbles, xorNibbles, foldl_xor, foldl_xor _ _ c, Nat.xor_assoc, Nat.xor_self, Nat.xor_zero]

theorem xorNibbles_lt (n v : Nat) {c : Nat} (hc : c < 16) : xorNibbles n v c < 16 :=
  List.foldlRecOn (motive := fun x => x < 16) _ _ hc fun _ hx _ _ =>
    Nat.xor_lt_two_pow (n := 4) hx (Nat.mod_lt _ (by decide))

/-- R364: with mirroring off the line at place `n` of channel `c`. -/
theorem Chip.lineAt_plain {k : Chip} (h : k.on (MC_CTRL.MIRROR 0) = false) (c n : Nat) :
    k.lineAt c n = n / 4 * 64 + xorNibbles 10 (n / 4) c * 4 + n % 4 := by
  simp [Chip.lineAt, h, xorNibbles]

/-- R364: the channel of a line is its own nibble with those above added. -/
theorem channelOf_line {hi low : Nat} (r : Nat) (hlow : low < 16) (hr : r < 4) :
    channelOf (64 * (hi * 64 + low * 4 + r)) = xorNibbles 10 hi low := by
  have hfirst : bits (64 * (hi * 64 + low * 4 + r)) 8 4 = low := by
    unfold bits
    omega
  have hrest : ∀ i, bits (64 * (hi * 64 + low * 4 + r)) (8 + 4 * (i + 1)) 4 = bits hi (4 * i) 4 := fun i => by
    have hpow : 2 ^ (8 + 4 * (i + 1)) = 2 ^ 12 * 2 ^ (4 * i) := by rw [← Nat.pow_add]; congr 1; omega
    rw [bits, bits, hpow, ← Nat.div_div_eq_div_mul]
    congr 2
    omega
  rw [channelOf, List.range_succ_eq_map, List.foldl_cons, List.foldl_map, xorNibbles]
  simp only [hfirst, hrest, Nat.zero_xor]

/-- Settles O35: the nibbles of the place that the address takes in come out again. -/
theorem channelsShareOutTheLines : Obligations.ChannelsShareOutTheLines := by
  intro k c n hmirror hc
  have hlow := xorNibbles_lt 10 (n / 4) hc
  rw [Chip.lineAt_plain hmirror, channelOf_line _ hlow (Nat.mod_lt n (by decide)), xorNibbles_twice]
  refine ⟨rfl, ?_⟩
  simp only [Chip.localLine, hmirror, Bool.false_eq_true, if_false]
  omega

end Sys2Proof.Machine
end

section
/-!
PROOFS. The worlds (18): writes of the normal world denied, the watermark and claims, debug halts, key slots.
-/

namespace Sys2Proof.Machine

/-! ### Denials (R444, R468, R573) -/

/-- `k'` is `k`, or `k` with a write denied. -/
def Chip.Denied (k k' : Chip) : Prop := k' = k ∨ ∃ addr who, k' = k.regWriteDenied addr who

theorem Chip.onlyRegs_regWriteDenied (k : Chip) (addr : Nat) (who : By) :
    k.OnlyRegs (WS_ERR.REG_WRITE :: reportFields) (k.regWriteDenied addr who) :=
  ((((Chip.OnlyRegs.refl _ k).raise (by simp)).wr _ (by simp [reportFields])).wr _ (by simp [reportFields])).wr _
    (by simp [reportFields]) |>.log _ (by simp)

section
variable {k k' : Chip} (h : k.Denied k')
include h

theorem Chip.Denied.ws : k'.ws = k.ws := by
  obtain rfl | ⟨addr, who, rfl⟩ := h
  · rfl
  · simp [Chip.regWriteDenied, Chip.wsErr]

theorem Chip.Denied.beat : k'.beat = k.beat := by
  obtain rfl | ⟨addr, who, rfl⟩ := h
  · rfl
  · simp [Chip.regWriteDenied, Chip.wsErr]

theorem Chip.Denied.onlyRegs : k.OnlyRegs (WS_ERR.REG_WRITE :: reportFields) k' := by
  obtain rfl | ⟨addr, who, rfl⟩ := h
  · exact .refl _ _
  · exact k.onlyRegs_regWriteDenied addr who

end

section
variable (k : Chip) {who : By} (h : who.w ≠ 0)
include h

theorem Chip.denied_secureTopWrite (value : Nat) : k.Denied (k.secureTopWrite value who) := by
  unfold Chip.secureTopWrite
  split
  · exact .inl rfl
  · rw [if_pos (by simpa using h)]
    exact .inr ⟨_, _, rfl⟩

theorem Chip.denied_claimWrite (reg value : Nat) : k.Denied (k.claimWrite reg value who) := by
  unfold Chip.claimWrite
  dsimp only
  split
  · exact .inl rfl
  · rw [if_pos (by simpa using h)]
    exact .inr ⟨_, _, rfl⟩

theorem Chip.denied_keyCmd (op slot : Nat) (f : Chip → Chip × Nat) : k.Denied (k.keyCmd op slot who f) :=
  .inr ⟨_, _, if_pos (by simpa using h)⟩

theorem Chip.denied_kickWrite : k.Denied (k.kickWrite who) := .inr ⟨_, _, if_pos (by simpa using h)⟩

theorem Chip.denied_reqWrite : k.Denied (k.reqWrite who) := .inr ⟨_, _, if_pos (by simpa using h)⟩

theorem Chip.denied_doneWrite : k.Denied (k.doneWrite who) := .inr ⟨_, _, if_pos (by simpa using h)⟩

end

/-- Settles O41: each of the nine commands is denied to the normal world, or writes what the register holds. -/
theorem normalWorldLeavesTheSecureState : Obligations.NormalWorldLeavesTheSecureState := by
  intro s c who hw hc
  have hdenied : ∃ k, exec c s = .next (s.after k) ∧ s.chip.Denied k := by
    rcases hc with ⟨value, rfl⟩ | ⟨reg, value, rfl⟩ | ⟨slot, rfl⟩ | ⟨slot, rfl⟩ | ⟨slot, rfl⟩ | rfl | rfl | rfl | rfl
    · exact ⟨_, rfl, s.chip.denied_secureTopWrite hw value⟩
    · exact ⟨_, rfl, s.chip.denied_claimWrite hw reg value⟩
    · exact ⟨_, rfl, s.chip.denied_keyCmd hw _ _ _⟩
    · exact ⟨_, rfl, s.chip.denied_keyCmd hw _ _ _⟩
    · exact ⟨_, rfl, s.chip.denied_keyCmd hw _ _ _⟩
    · exact ⟨_, rfl, s.chip.denied_keyCmd hw _ _ _⟩
    · exact ⟨_, rfl, s.chip.denied_kickWrite hw⟩
    · exact ⟨_, rfl, s.chip.denied_reqWrite hw⟩
    · exact ⟨_, rfl, s.chip.denied_doneWrite hw⟩
  obtain ⟨k, hexec, hk⟩ := hdenied
  exact ⟨_, hexec, by simp [hk.ws], by simp [hk.beat], hk.onlyRegs.after⟩

end Sys2Proof.Machine
end

section
/-!
PROOFS. The commands of the secure world (18): the watermark, claims, debug halts, key slots and the signing service's key.
-/

namespace Sys2Proof.Machine

/-! ### The watermark and the claims (R445, R450, R465, R466) -/

section
variable {k : Chip} {value : Nat} {who : By} (hw : who.w = 0)
include hw

theorem Chip.secureTopWrite_locked (h : k.on WS_LOCK.TOP_LOCK = true) : k.secureTopWrite value who = k := by
  unfold Chip.secureTopWrite
  split
  · rfl
  · rw [if_neg (by simp [hw]), Chip.topWrite, if_pos h]

theorem Chip.secureTopWrite_new (h : k.on WS_LOCK.TOP_LOCK = false) (hnew : bits value 26 26 ≠ k.rd WS_SECURE_TOP.TOP)
    (hfits : bits value 26 26 * 2 ^ 26 ≤ k.dramSize) :
    k.secureTopWrite value who = k.hold WS_SECURE_TOP.TOP (bits value 26 26) := by
  have hlt : bits value 26 26 % 2 ^ 26 = bits value 26 26 := Nat.mod_mod _ _
  have hsize : (k.hold WS_SECURE_TOP.TOP (bits value 26 26)).dramSize = k.dramSize := rfl
  unfold Chip.secureTopWrite Chip.topWrite
  dsimp only
  rw [if_neg (by simpa using hnew), if_neg (by simp [hw]), if_neg (by simp [h]), hsize, hlt, if_neg (by omega)]

/-- R466: after a claim register is written by the secure world each of its fields reads what the value holds for it. -/
theorem Chip.claimWrite_secure (reg : Nat) : k.claimWrite reg value who =
    if (claimFields reg value).all fun p => k.rd p.1 == p.2 then k
    else (claimFields reg value).foldl (fun k p => k.wr p.1 p.2) k := by
  unfold Chip.claimWrite
  dsimp only
  split
  · rfl
  · rw [if_neg (by simp [hw])]

theorem Chip.rd_claimWrite {reg : Nat} (hnodup : ((claimFields reg value).map fun p => p.1.key).Nodup) {p : Fld × Nat}
    (hp : p ∈ claimFields reg value) (hfits : p.2 % 2 ^ p.1.width = p.2) : (k.claimWrite reg value who).rd p.1 = p.2 := by
  rw [Chip.claimWrite_secure hw]
  split
  · next hsame => exact beq_iff_eq.1 (List.all_eq_true.1 hsame p hp)
  · rw [Chip.rd_foldl_wr_mem _ _ hnodup p hp, hfits]

theorem Chip.claimWrite_mem (reg : Nat) : (k.claimWrite reg value who).mem = k.mem := by
  rw [Chip.claimWrite_secure hw]
  split
  · rfl
  · rw [Chip.foldl_wr_eq]

theorem Chip.onlyRegs_claimWrite (reg : Nat) :
    k.OnlyRegs ((claimFields reg value).map Prod.fst) (k.claimWrite reg value who) := by
  intro f hf
  rw [Chip.claimWrite_secure hw]
  split
  · rfl
  · exact Chip.rd_foldl_wr_ne _ _ _ fun p hp he => hf (by
      rw [he, List.map_map]
      exact List.mem_map_of_mem (f := Fld.key ∘ Prod.fst) hp)

end

/-! ### Debug halts (R453) -/

/-- R453: a halt request halts the hart where the bit of its world is set, and waits in the secure world where SID is not. -/
theorem Chip.haltRequest_hart (k : Chip) (h : Nat) : (k.haltRequest h).hart h =
    { k.hart h with
      halted := (k.hart h).halted || k.on (if (k.hart h).w = 0 then WS_DEBUG.SID else WS_DEBUG.NID)
      haltPending := (k.hart h).haltPending || decide ((k.hart h).w = 0) && !k.on WS_DEBUG.SID } := by
  unfold Chip.haltRequest
  by_cases hw : (k.hart h).w = 0
  · cases hsid : k.on WS_DEBUG.SID <;> simp [hw, hsid]
  · cases hnid : k.on WS_DEBUG.NID <;> simp [hw, hnid]

theorem Chip.haltRequest_eq (k : Chip) (h : Nat) : k.haltRequest h = { k with harts := (k.haltRequest h).harts } := by
  unfold Chip.haltRequest
  split
  · split <;> rfl
  · split <;> rfl

theorem Chip.haltRequest_hart_ne (k : Chip) {h g : Nat} (hne : g ≠ h) : (k.haltRequest h).hart g = k.hart g := by
  have hset : ∀ f : Hart → Hart, (k.setHart h f).hart g = k.hart g := fun f => k.hart_setHart_ne f hne
  unfold Chip.haltRequest
  split
  · split
    · exact hset _
    · exact hset _
  · split
    · exact hset _
    · rfl

/-! ### Key commands (R454 to R457, R469) -/

@[simp] theorem leAt_nil (o n : Nat) : leAt [] o n = 0 := by
  have hzeros : ∀ n, ofLe (List.replicate n 0#8) = 0 := fun n => by
    induction n with
    | zero => rfl
    | succ n ih => rw [List.replicate_succ, ofLe, ih]; rfl
  simp [leAt, slice, hzeros]

theorem key_wsKeyData_ne {i j : Nat} (h : i ≠ j) : (WS_KEY_DATA.KEY i).key ≠ (WS_KEY_DATA.KEY j).key := by
  simp only [Fld.key, Dom.code]
  omega

theorem key_wsSealPub_ne {i j : Nat} (h : i ≠ j) : (WS_SEAL_PUB.PUB i).key ≠ (WS_SEAL_PUB.PUB j).key := by
  simp only [Fld.key, Dom.code]
  omega

theorem key_wsSignerId_ne {i j : Nat} (h : i ≠ j) : (WS_SIGNER_ID.ID i).key ≠ (WS_SIGNER_ID.ID j).key := by
  simp only [Fld.key, Dom.code]
  omega

/-- The fields of the key registers, but for the data registers and those that end a command. -/
def keyFields : List Fld := [WS_KEY_CMD.OP, WS_KEY_CMD.SLOT, WS_KEY_META.FUNCTION, WS_KEY_META.FN_VALID,
  WS_KEY_META.INTERNAL_OK, WS_KEY_META.TYPE, WS_KEY_META.GEN] ++ (List.range 13).map WS_SEAL_PUB.PUB ++
  (List.range 2).map WS_SIGNER_ID.ID

theorem keyFields_apart : ∀ f ∈ keyFields, f.key ∉ shownFields.map Fld.key ∧ f.key ≠ WS_KEY_CMD.STATUS.key ∧
    f.key ≠ WS_KEY_CMD.GO.key ∧ ∀ i < 8, f.key ≠ (WS_KEY_DATA.KEY i).key := by decide +kernel

theorem keyData_apart : ∀ i < 8, (WS_KEY_DATA.KEY i).key ∉ shownFields.map Fld.key ∧
    (WS_KEY_DATA.KEY i).key ≠ WS_KEY_CMD.STATUS.key ∧ (WS_KEY_DATA.KEY i).key ≠ WS_KEY_CMD.GO.key ∧
    (WS_KEY_DATA.KEY i).key ≠ WS_KEY_CMD.OP.key ∧ (WS_KEY_DATA.KEY i).key ≠ WS_KEY_CMD.SLOT.key := by decide +kernel

theorem keyEnd_not_shown : WS_KEY_CMD.STATUS.key ∉ shownFields.map Fld.key ∧
    WS_KEY_CMD.GO.key ∉ shownFields.map Fld.key := by decide +kernel

/-- R455: the end of a key command fills the data registers with zeros. -/
theorem Chip.keyDone_eq (k : Chip) (status : Nat) : k.keyDone status =
    ((k.setInd WS_KEY_DATA.KEY 8 []).wr WS_KEY_CMD.STATUS status).wr WS_KEY_CMD.GO 0 := by
  simp [Chip.keyDone, Chip.setInd]

@[simp] theorem Chip.keyDone_mem (k : Chip) (status : Nat) : (k.keyDone status).mem = k.mem := by simp [Chip.keyDone_eq]

@[simp] theorem Chip.keyDone_ws (k : Chip) (status : Nat) : (k.keyDone status).ws = k.ws := by
  rw [Chip.keyDone_eq, Chip.wr_ws, Chip.wr_ws, Chip.setInd_eq]

/-- R455: what the registers read at the end of a key command. -/
theorem Chip.rd_keyDone (k : Chip) {status : Nat} (h : status < 16) :
    (k.keyDone status).refresh.rd WS_KEY_CMD.STATUS = status ∧ (k.keyDone status).refresh.rd WS_KEY_CMD.GO = 0 ∧
    ∀ i < 8, (k.keyDone status).refresh.rd (WS_KEY_DATA.KEY i) = 0 := by
  obtain ⟨hstatus, hgo⟩ := keyEnd_not_shown
  refine ⟨?_, ?_, fun i hi => ?_⟩
  · rw [Chip.rd_refresh _ hstatus, Chip.keyDone_eq, Chip.rd_wr_ne _ _ (by decide), Chip.rd_wr_self]
    exact Nat.mod_eq_of_lt h
  · rw [Chip.rd_refresh _ hgo, Chip.keyDone_eq, Chip.rd_wr_self]
    rfl
  · obtain ⟨hshown, hnstatus, hngo, -, -⟩ := keyData_apart i hi
    rw [Chip.rd_refresh _ hshown, Chip.keyDone_eq, Chip.rd_wr_ne _ _ hngo, Chip.rd_wr_ne _ _ hnstatus,
      Chip.rd_setInd _ (fun _ _ => key_wsKeyData_ne) (fun _ => rfl) _ hi, leAt_nil]

/-- The end of a key command leaves the other key registers. -/
theorem Chip.rd_keyDone_of_keyField (k : Chip) (status : Nat) {f : Fld} (hf : f ∈ keyFields) :
    (k.keyDone status).refresh.rd f = k.rd f := by
  obtain ⟨hshown, hstatus, hgo, hdata⟩ := keyFields_apart f hf
  rw [Chip.rd_refresh _ hshown, Chip.keyDone_eq, Chip.rd_wr_ne _ _ hgo, Chip.rd_wr_ne _ _ hstatus,
    Chip.rd_setInd_ne _ _ hdata]

@[simp] theorem Chip.setKey_mem (k : Chip) (n : Nat) (x : KeySlot) : (k.setKey n x).mem = k.mem := rfl

/-- The end of a key command leaves the slots. -/
theorem Chip.keySlot_keyDone (k : Chip) (status n : Nat) : (k.keyDone status).refresh.keySlot n = k.keySlot n := by
  rw [Chip.keySlot, Chip.refresh_ws, Chip.keyDone_ws, Chip.keySlot]

theorem Chip.keySlot_setKey_self (k : Chip) (n : Nat) (x : KeySlot) : (k.setKey n x).keySlot n = x :=
  Tbl.get_set_self _ _ _ _

theorem Chip.keySlot_setKey_ne (k : Chip) {m n : Nat} (x : KeySlot) (h : m ≠ n) :
    (k.setKey n x).keySlot m = k.keySlot m := Tbl.get_set_ne _ _ _ _ h

/-- The machine with a key command's operands in WS_KEY_CMD. -/
def Chip.keyAsked (k : Chip) (op slot : Nat) : Chip := (k.wr WS_KEY_CMD.OP op).wr WS_KEY_CMD.SLOT slot

section
variable (k : Chip) (op slot : Nat)

@[simp] theorem Chip.keyAsked_mem : (k.keyAsked op slot).mem = k.mem := rfl
@[simp] theorem Chip.keyAsked_ws : (k.keyAsked op slot).ws = k.ws := rfl
@[simp] theorem Chip.keySlot_keyAsked (n : Nat) : (k.keyAsked op slot).keySlot n = k.keySlot n := rfl

theorem Chip.rd_keyAsked {f : Fld} (hop : f.key ≠ WS_KEY_CMD.OP.key) (hslot : f.key ≠ WS_KEY_CMD.SLOT.key) :
    (k.keyAsked op slot).rd f = k.rd f := by
  rw [Chip.keyAsked, Chip.rd_wr_ne _ _ hslot, Chip.rd_wr_ne _ _ hop]

theorem Chip.on_restarting_keyAsked : (k.keyAsked op slot).on WS_STATUS.RESTARTING = k.on WS_STATUS.RESTARTING := by
  rw [Chip.on, Chip.rd_keyAsked _ _ _ (by decide) (by decide), Chip.on]

/-- The operands of a key command do not reach its data registers. -/
theorem Chip.indBytes_keyAsked {n : Nat} (hn : n ≤ 8) :
    (k.keyAsked op slot).indBytes WS_KEY_DATA.KEY n = k.indBytes WS_KEY_DATA.KEY n := by
  refine List.foldr_ext _ _ _ fun i hi bs => ?_
  obtain ⟨-, -, -, hop, hslot⟩ := keyData_apart i (Nat.lt_of_lt_of_le (List.mem_range.1 hi) hn)
  rw [Chip.rd_keyAsked _ _ _ hop hslot]

end

section
variable {k : Chip} {op slot : Nat} {who : By} (f : Chip → Chip × Nat) (hw : who.w = 0)
include hw

/-- R455, R459: a key command of the secure world while that restarts. -/
theorem Chip.keyCmd_restarting (h : k.on WS_STATUS.RESTARTING = true) :
    k.keyCmd op slot who f = (k.keyAsked op slot).keyDone 4 := by
  rw [← k.on_restarting_keyAsked op slot] at h
  exact (if_neg (by simp [hw])).trans (if_pos h)

/-- R455: a key command of the secure world on a slot that is there. -/
theorem Chip.keyCmd_runs (h : k.on WS_STATUS.RESTARTING = false) (hslot : slot < 16384) :
    k.keyCmd op slot who f = (f (k.keyAsked op slot)).1.keyDone (f (k.keyAsked op slot)).2 := by
  rw [← k.on_restarting_keyAsked op slot] at h
  exact (if_neg (by simp [hw])).trans
    ((if_neg (show ¬ (k.keyAsked op slot).on WS_STATUS.RESTARTING = true by simp [h])).trans (if_neg (by omega)))

end

section
variable {k : Chip} {slot : Nat} {who : By} (hw : who.w = 0) (hrun : k.on WS_STATUS.RESTARTING = false)
  (hslot : slot < 16384)
include hw hrun hslot

theorem Chip.keyRead_shows :
    k.keyRead slot who = ((k.keyAsked 0 slot).keyMeta (k.keySlot slot)).keyDone 0 := Chip.keyCmd_runs _ hw hrun hslot

/-- R454: the slot that a LOAD fills, from the metadata and data registers. -/
def Chip.keyFilled (k : Chip) (slot : Nat) : KeySlot :=
  let data := k.indBytes WS_KEY_DATA.KEY 8
  { key := if k.rd WS_KEY_META.TYPE = 1 then data.take 32 else data, type := k.rd WS_KEY_META.TYPE
    generation := k.rd WS_KEY_META.GEN, fn := k.rd WS_KEY_META.FUNCTION, fnValid := k.on WS_KEY_META.FN_VALID
    internalOk := k.on WS_KEY_META.INTERNAL_OK, loads := (k.keySlot slot).loads + 1 }

theorem Chip.keyLoad_fills (htype : k.rd WS_KEY_META.TYPE = 1 ∨ (k.rd WS_KEY_META.TYPE = 2 ∧
      (k.indBytes WS_KEY_DATA.KEY 8).take 32 ≠ (k.indBytes WS_KEY_DATA.KEY 8).drop 32)) :
    k.keyLoad slot who = ((k.keyAsked 1 slot).setKey slot (k.keyFilled slot)).keyDone 0 := by
  have hmeta : ∀ f ∈ [WS_KEY_META.TYPE, WS_KEY_META.GEN, WS_KEY_META.FUNCTION, WS_KEY_META.FN_VALID,
      WS_KEY_META.INTERNAL_OK], (k.keyAsked 1 slot).rd f = k.rd f := fun f hf => by
    have hapart : f.key ≠ WS_KEY_CMD.OP.key ∧ f.key ≠ WS_KEY_CMD.SLOT.key := by
      revert f
      decide
    exact k.rd_keyAsked _ _ hapart.1 hapart.2
  simp only [List.forall_mem_cons] at hmeta
  obtain ⟨ht, hgen, hfn, hvalid, hinternal, -⟩ := hmeta
  rw [Chip.keyLoad, Chip.keyCmd_runs _ hw hrun hslot]
  simp only [Chip.on, ht, hgen, hfn, hvalid, hinternal, k.indBytes_keyAsked 1 slot (Nat.le_refl 8)]
  rw [if_neg (by rcases htype with h | ⟨h, hne⟩ <;> simp [*])]
  simp [Chip.keyFilled, Chip.on]

theorem Chip.keyLoad_invalid (htype : k.rd WS_KEY_META.TYPE ∈ [0, 3]) :
    k.keyLoad slot who = (k.keyAsked 1 slot).keyDone 3 := by
  have ht : (k.keyAsked 1 slot).rd WS_KEY_META.TYPE = k.rd WS_KEY_META.TYPE :=
    k.rd_keyAsked _ _ (by decide) (by decide)
  rw [Chip.keyLoad, Chip.keyCmd_runs _ hw hrun hslot]
  simp only [ht]
  rw [if_pos (by simpa using .inl (by simpa using htype))]

theorem Chip.keyClear_clears : k.keyClear slot who = ((k.keyAsked 2 slot).setKey slot
    { k.keySlot slot with type := 0, loads := (k.keySlot slot).loads + 1 }).keyDone 0 := Chip.keyCmd_runs _ hw hrun hslot

end

/-- R457: the signing service with the new key `d`, not yet published. -/
def Chip.withSignKey (k : Chip) (d : Nat) : Chip :=
  { k.publish [] [] with ws := { k.ws with signKey := some d, signPending := true } }

theorem Chip.keySign_takes {k : Chip} {who : By} {d : Nat} (hw : who.w = 0) (hrun : k.on WS_STATUS.RESTARTING = false)
    (hslot : k.rd WS_KEY_CMD.SLOT < 16384) (hd : d = ofBe (k.indBytes WS_KEY_DATA.KEY 6)) (hpos : 0 < d) (hlt : d < p384N) :
    k.keySign who = ((k.keyAsked 3 (k.rd WS_KEY_CMD.SLOT)).withSignKey d).keyDone 0 := by
  rw [Chip.keySign, Chip.keyCmd_runs _ hw hrun hslot]
  simp only [k.indBytes_keyAsked 3 _ (show 6 ≤ 8 by decide), ← hd]
  rw [if_neg (by simp only [Bool.or_eq_true, beq_iff_eq, decide_eq_true_eq]; omega)]
  rfl

/-! ### What is published of the signing service's key (R457, R469) -/

/-- R457: the registers of the public key and of SIGNER_ID, filled. -/
theorem Chip.rd_publish (k : Chip) (pub id : Bytes) :
    (∀ i < 13, (k.publish pub id).rd (WS_SEAL_PUB.PUB i) = leAt pub (8 * i) 8) ∧
    ∀ i < 2, (k.publish pub id).rd (WS_SIGNER_ID.ID i) = leAt id (8 * i) 8 := by
  have hapart : ∀ i < 13, ∀ j < 2, (WS_SEAL_PUB.PUB i).key ≠ (WS_SIGNER_ID.ID j).key := by decide +kernel
  refine ⟨fun i hi => ?_, fun i hi => ?_⟩
  · rw [Chip.publish, Chip.rd_setInd_ne _ _ (hapart i hi), Chip.rd_setInd _ (fun _ _ => key_wsSealPub_ne) (fun _ => rfl) _ hi]
  · rw [Chip.publish, Chip.rd_setInd _ (fun _ _ => key_wsSignerId_ne) (fun _ => rfl) _ hi]

@[simp] theorem Chip.publish_mem (k : Chip) (pub id : Bytes) : (k.publish pub id).mem = k.mem := by simp [Chip.publish]

/-- R14: SIGN_READY shows whether the key of the signing service is published. -/
theorem Chip.rd_signReady (k : Chip) :
    k.refresh.rd WS_STATUS.SIGN_READY = ofBool (k.ws.signKey.isSome && !k.ws.signPending) := by
  have hshown := k.rd_refresh_shown (p := (WS_STATUS.SIGN_READY, ofBool (k.ws.signKey.isSome && !k.ws.signPending)))
    (by simp [Chip.shows])
  rw [hshown]
  cases k.ws.signKey.isSome && !k.ws.signPending <;> rfl

theorem sealPub_mem_keyFields : ∀ i < 13, WS_SEAL_PUB.PUB i ∈ keyFields := by decide +kernel

theorem signerId_mem_keyFields : ∀ i < 2, WS_SIGNER_ID.ID i ∈ keyFields := by decide +kernel

theorem Chip.publish_ws_mem (k : Chip) (pub id : Bytes) (w : Worlds) : { k.publish pub id with ws := w }.mem = k.mem :=
  k.publish_mem pub id

theorem Chip.rd_publish_ws (k : Chip) (pub id : Bytes) (w : Worlds) (f : Fld) :
    { k.publish pub id with ws := w }.rd f = (k.publish pub id).rd f := Chip.rd_congr rfl f

@[simp] theorem Chip.withSignKey_ws (k : Chip) (d : Nat) :
    (k.withSignKey d).ws = { k.ws with signKey := some d, signPending := true } := rfl

@[simp] theorem Chip.withSignKey_mem (k : Chip) (d : Nat) : (k.withSignKey d).mem = k.mem := k.publish_ws_mem _ _ _

/-- R457: nothing is published of the new key when its command ends. -/
theorem Chip.rd_withSignKey_keyDone (k : Chip) (d status : Nat) :
    ((k.withSignKey d).keyDone status).refresh.rd WS_STATUS.SIGN_READY = 0 ∧
    (∀ i < 13, ((k.withSignKey d).keyDone status).refresh.rd (WS_SEAL_PUB.PUB i) = 0) ∧
    ∀ i < 2, ((k.withSignKey d).keyDone status).refresh.rd (WS_SIGNER_ID.ID i) = 0 := by
  obtain ⟨hpub, hid⟩ := k.rd_publish [] []
  have hkept : ∀ f ∈ keyFields, ((k.withSignKey d).keyDone status).refresh.rd f = (k.publish [] []).rd f :=
    fun f hf => (Chip.rd_keyDone_of_keyField _ status hf).trans (k.rd_publish_ws _ _ _ f)
  refine ⟨?_, fun i hi => ?_, fun i hi => ?_⟩
  · rw [Chip.rd_signReady, Chip.keyDone_ws, Chip.withSignKey_ws]
    rfl
  · rw [hkept _ (sealPub_mem_keyFields i hi), hpub i hi, leAt_nil]
  · rw [hkept _ (signerId_mem_keyFields i hi), hid i hi, leAt_nil]

/-- R469: the signing service with its key published. -/
def Chip.withSignerShown (k : Chip) (d : Nat) : Chip :=
  { k.publish (p384Pub d) (signerId d) with ws := { k.ws with signPending := false } }

theorem Chip.signReadyNow_publishes {k : Chip} {d : Nat} (hkey : k.ws.signKey = some d) (hpending : k.ws.signPending = true) :
    k.signReadyNow = k.withSignerShown d := by
  simp [Chip.signReadyNow, Chip.withSignerShown, hkey, hpending]

@[simp] theorem Chip.withSignerShown_ws (k : Chip) (d : Nat) :
    (k.withSignerShown d).ws = { k.ws with signPending := false } := rfl

@[simp] theorem Chip.withSignerShown_mem (k : Chip) (d : Nat) : (k.withSignerShown d).mem = k.mem := by
  rw [Chip.withSignerShown, Chip.publish_ws_mem]

theorem Chip.rd_withSignerShown {k : Chip} {d : Nat} (hkey : k.ws.signKey = some d) :
    (k.withSignerShown d).refresh.rd WS_STATUS.SIGN_READY = 1 ∧
    (∀ i < 13, (k.withSignerShown d).refresh.rd (WS_SEAL_PUB.PUB i) = leAt (p384Pub d) (8 * i) 8) ∧
    ∀ i < 2, (k.withSignerShown d).refresh.rd (WS_SIGNER_ID.ID i) = leAt (signerId d) (8 * i) 8 := by
  obtain ⟨hpub, hid⟩ := k.rd_publish (p384Pub d) (signerId d)
  have hkept : ∀ f ∈ keyFields, (k.withSignerShown d).refresh.rd f = (k.publish (p384Pub d) (signerId d)).rd f :=
    fun f hf => by rw [Chip.rd_refresh _ (keyFields_apart f hf).1, Chip.withSignerShown, Chip.rd_publish_ws]
  refine ⟨?_, fun i hi => ?_, fun i hi => ?_⟩
  · rw [Chip.rd_signReady, Chip.withSignerShown_ws, hkey]
    rfl
  · rw [hkept _ (sealPub_mem_keyFields i hi), hpub i hi]
  · rw [hkept _ (signerId_mem_keyFields i hi), hid i hi]

/-! ### The commands -/

theorem claimKeys_nodup (value : Nat) : ((claimFields 0x18 value).map fun p => p.1.key).Nodup := by
  have hkeys : ((claimFields 0x18 value).map fun p => p.1.key) =
      [WS_CLAIM.CDIE, WS_CLAIM.CHANNEL, WS_CLAIM.SIGN, WS_CLAIM.ENDPOINT].map Fld.key := rfl
  rw [hkeys]
  decide

/-- R466: the claim register of 64 tiles, or of the last 16. -/
theorem claimFields_tile {i : Nat} (hi : i < 6) (value : Nat) :
    claimFields (0x20 + 8 * i) value = [(WS_CLAIM_TILE.TILE i, value % 2 ^ (if i = 5 then 16 else 64))] := by
  have hindex : (0x20 + 8 * i - 0x20) / 8 = i := by omega
  rw [claimFields, if_neg (by simp only [beq_iff_eq]; omega), if_pos (by omega), hindex]
  by_cases h5 : i = 5 <;> simp [h5]

theorem claimFields_not_shown : ∀ f ∈ [WS_CLAIM.CDIE, WS_CLAIM.CHANNEL, WS_CLAIM.SIGN, WS_CLAIM.ENDPOINT] ++
    (List.range 6).map WS_CLAIM_TILE.TILE, f.key ∉ shownFields.map Fld.key := by decide +kernel

theorem Chip.rd_keyMeta (k : Chip) (x : KeySlot) :
    (k.keyMeta x).rd WS_KEY_META.TYPE = x.type % 4 ∧ (k.keyMeta x).rd WS_KEY_META.GEN = x.generation % 2 ^ 32 ∧
    (k.keyMeta x).rd WS_KEY_META.FUNCTION = x.fn % 256 ∧ (k.keyMeta x).rd WS_KEY_META.FN_VALID = ofBool x.fnValid ∧
    (k.keyMeta x).rd WS_KEY_META.INTERNAL_OK = ofBool x.internalOk ∧
    (k.keyMeta x).rd WS_KEY_CMD.SLOT = k.rd WS_KEY_CMD.SLOT := by
  have hbool : ∀ b, ofBool b % 2 ^ 1 = ofBool b := by decide
  simp (disch := decide) only [Chip.keyMeta, Chip.rd_wr_ne, Chip.rd_wr_self]
  exact ⟨rfl, trivial, rfl, hbool _, hbool _, trivial⟩

/-- Settles O42: a locked or new watermark, the claim registers, halts by the hart's world, and the key commands by what
they meet. -/
theorem secureWorldCommands : Obligations.SecureWorldCommands := by
  have hone : ∀ b, (ofBool b == 1) = b := by decide
  refine ⟨?_, ?_, ?_, ?_, ?_, ?_, ?_, ?_, ?_, ?_, ?_, ?_⟩
  · intro s value source id hlock hnew hfits
    have hexec : exec (.wsSecureTopWrite value { source := source, id := id, w := 0 }) s =
        .next (s.after (s.chip.secureTopWrite value { source := source, id := id, w := 0 })) := rfl
    have hmod : bits value 26 26 % 2 ^ 26 = bits value 26 26 := Nat.mod_mod _ _
    rw [hexec, Chip.secureTopWrite_new rfl hlock hnew hfits]
    refine ⟨_, rfl, ?_, s.sameMemory_after rfl, s.sameRegs_after rfl, by simp⟩
    rw [State.after_chip, Chip.refresh_beat, Chip.hold, hmod]
  · intro s value source id hlock
    exact s.next_after (Chip.secureTopWrite_locked (who := ⟨source, id, 0⟩) rfl hlock)
  · intro s value source id
    have hrd : ∀ p ∈ claimFields 0x18 value, p.1.key ∉ shownFields.map Fld.key → p.2 % 2 ^ p.1.width = p.2 →
        (s.after (s.chip.claimWrite 0x18 value { source := source, id := id, w := 0 })).chip.rd p.1 = p.2 :=
      fun p hp hshown hfits => by
        rw [State.after_chip, Chip.rd_refresh _ hshown, Chip.rd_claimWrite rfl (claimKeys_nodup value) hp hfits]
    refine ⟨_, rfl, ?_, ?_, ?_, ?_, s.sameMemory_after (Chip.claimWrite_mem rfl _),
      (Chip.onlyRegs_claimWrite rfl 0x18).after⟩
    · exact hrd (WS_CLAIM.CDIE, bits value 0 12) (by simp [claimFields]) (claimFields_not_shown _ (by simp)) (Nat.mod_mod _ _)
    · exact hrd (WS_CLAIM.CHANNEL, bits value 12 16) (by simp [claimFields]) (claimFields_not_shown _ (by simp))
        (Nat.mod_mod _ _)
    · exact hrd (WS_CLAIM.SIGN, bits value 28 1) (by simp [claimFields]) (claimFields_not_shown _ (by simp)) (Nat.mod_mod _ _)
    · exact hrd (WS_CLAIM.ENDPOINT, bits value 29 1) (by simp [claimFields]) (claimFields_not_shown _ (by simp))
        (Nat.mod_mod _ _)
  · intro s i value source id hi
    have hfields := claimFields_tile hi value
    have honly : s.chip.OnlyRegs [WS_CLAIM_TILE.TILE i] (s.chip.claimWrite (0x20 + 8 * i) value ⟨source, id, 0⟩) := by
      have h := Chip.onlyRegs_claimWrite (k := s.chip) (value := value) (who := ⟨source, id, 0⟩) rfl (0x20 + 8 * i)
      rwa [hfields] at h
    refine ⟨s.after (s.chip.claimWrite (0x20 + 8 * i) value ⟨source, id, 0⟩), rfl, ?_,
      s.sameMemory_after (Chip.claimWrite_mem rfl _), honly.after⟩
    have hfits : value % 2 ^ (if i = 5 then 16 else 64) % 2 ^ 64 = value % 2 ^ (if i = 5 then 16 else 64) := by
      split <;> omega
    rw [State.after_chip, Chip.rd_refresh _ (claimFields_not_shown _ (by simpa using hi))]
    exact Chip.rd_claimWrite rfl (p := (WS_CLAIM_TILE.TILE i, _)) (by simp [hfields]) (by simp [hfields]) hfits
  · intro s h
    have heq := s.chip.haltRequest_eq h
    refine ⟨s.after (s.chip.haltRequest h), rfl, ?_, fun g hg => ?_, s.sameMemory_after (by rw [heq]),
      s.sameRegs_after (by rw [heq])⟩
    · rw [State.after_chip, Chip.hart_refresh, Chip.haltRequest_hart]
    · rw [State.after_chip, Chip.hart_refresh, Chip.haltRequest_hart_ne _ hg]
  · rintro s slot source id x c hrun hslot rfl rfl
    obtain ⟨hstatus, hgo, hdata⟩ := Chip.rd_keyDone ((s.chip.keyAsked 0 slot).keyMeta (s.chip.keySlot slot))
      (status := 0) (by decide)
    obtain ⟨htype, hgen, hfn, hvalid, hinternal, hasked⟩ := (s.chip.keyAsked 0 slot).rd_keyMeta (s.chip.keySlot slot)
    have hkept := fun f hf => Chip.rd_keyDone_of_keyField ((s.chip.keyAsked 0 slot).keyMeta (s.chip.keySlot slot)) 0
      (f := f) hf
    refine ⟨_, s.next_after (Chip.keyRead_shows rfl hrun hslot), ?_, ?_, ?_, ?_, ?_, hdata,
      hstatus, hgo, ?_, by simp [Chip.keyMeta], s.sameMemory_after (by simp [Chip.keyMeta])⟩
    · exact (hkept _ (by simp [keyFields])).trans htype
    · exact (hkept _ (by simp [keyFields])).trans hgen
    · exact (hkept _ (by simp [keyFields])).trans hfn
    · rw [State.after_chip, Chip.on, hkept _ (by simp [keyFields]), hvalid, hone]
    · rw [State.after_chip, Chip.on, hkept _ (by simp [keyFields]), hinternal, hone]
    · rw [State.after_chip, hkept _ (by simp [keyFields]), hasked, Chip.keyAsked, Chip.rd_wr_self]
      exact Nat.mod_eq_of_lt hslot
  · rintro s slot source id data hrun hslot rfl htype
    obtain ⟨hstatus, hgo, hdata⟩ := Chip.rd_keyDone ((s.chip.keyAsked 1 slot).setKey slot (s.chip.keyFilled slot))
      (status := 0) (by decide)
    refine ⟨_, s.next_after (Chip.keyLoad_fills rfl hrun hslot htype), ?_, fun n hn => ?_, hdata,
      hstatus, hgo, s.sameMemory_after (by simp)⟩
    · rw [State.after_chip, Chip.keySlot_keyDone, Chip.keySlot_setKey_self]
      rfl
    · rw [State.after_chip, Chip.keySlot_keyDone, Chip.keySlot_setKey_ne _ _ hn, Chip.keySlot_keyAsked]
  · intro s slot source id hrun hslot htype
    obtain ⟨hstatus, hgo, -⟩ := Chip.rd_keyDone (s.chip.keyAsked 1 slot) (status := 3) (by decide)
    exact ⟨_, s.next_after (Chip.keyLoad_invalid rfl hrun hslot htype), hstatus, hgo, by simp⟩
  · intro s slot source id hrun hslot
    obtain ⟨hstatus, hgo, -⟩ := Chip.rd_keyDone ((s.chip.keyAsked 2 slot).setKey slot
      { s.chip.keySlot slot with type := 0, loads := (s.chip.keySlot slot).loads + 1 }) (status := 0) (by decide)
    refine ⟨_, s.next_after (Chip.keyClear_clears rfl hrun hslot), ?_, fun n hn => ?_, hstatus, hgo,
      s.sameMemory_after (by simp)⟩
    · rw [State.after_chip, Chip.keySlot_keyDone, Chip.keySlot_setKey_self]
    · rw [State.after_chip, Chip.keySlot_keyDone, Chip.keySlot_setKey_ne _ _ hn, Chip.keySlot_keyAsked]
  · rintro s slot source id who c rfl hc hrestarting
    have hcmd : ∃ op n, exec c s = .next (s.after ((s.chip.keyAsked op n).keyDone 4)) := by
      simp only [List.mem_cons, List.not_mem_nil, or_false] at hc
      rcases hc with rfl | rfl | rfl | rfl <;>
        exact ⟨_, _, s.next_after (Chip.keyCmd_restarting _ rfl hrestarting)⟩
    obtain ⟨op, n, hexec⟩ := hcmd
    obtain ⟨hstatus, hgo, hdata⟩ := Chip.rd_keyDone (s.chip.keyAsked op n) (status := 4) (by decide)
    exact ⟨_, hexec, hstatus, hgo, hdata, by simp, s.sameMemory_after (by simp)⟩
  · rintro s source id d hrun hslot hd hpos hlt
    obtain ⟨hstatus, -, hdata⟩ := Chip.rd_keyDone
      ((s.chip.keyAsked 3 (s.chip.rd WS_KEY_CMD.SLOT)).withSignKey d) (status := 0) (by decide)
    obtain ⟨hready, hpub, hid⟩ :=
      (s.chip.keyAsked 3 (s.chip.rd WS_KEY_CMD.SLOT)).rd_withSignKey_keyDone d 0
    exact ⟨_, s.next_after (Chip.keySign_takes rfl hrun hslot hd hpos hlt), by simp, hready, hpub, hid, hdata, hstatus,
      by simp, s.sameMemory_after (by simp)⟩
  · intro s d hkey hpending
    obtain ⟨hready, hpub, hid⟩ := Chip.rd_withSignerShown hkey
    exact ⟨_, s.next_after (Chip.signReadyNow_publishes hkey hpending), hready, by simpa using hkey, hpub, hid,
      s.sameMemory_after (by simp)⟩

end Sys2Proof.Machine
end

section
/-!
PROOFS. Flacon (22): its epochs and accumulators, its log, its calibration and the commands of its mailbox.
-/

namespace Sys2Proof.Machine

/-! ### The status of the meter (R14, R538) -/

/-- R14: a status bit shows what it stands for. -/
theorem Chip.rd_shownBit (k : Chip) {f : Fld} {b : Bool} (h : (f, ofBool b) ∈ k.shows) (hw : f.width = 1) :
    k.refresh.rd f = ofBool b := by
  have hshown := k.rd_refresh_shown h
  dsimp only at hshown
  rw [hshown, hw]
  cases b <;> rfl

theorem Chip.rd_flReady (k : Chip) : k.refresh.rd FL_STATUS.READY = ofBool k.fl.metering :=
  k.rd_shownBit (by simp [Chip.shows]) rfl

theorem Chip.rd_flCal (k : Chip) : k.refresh.rd FL_STATUS.CAL = ofBool k.fl.calLand :=
  k.rd_shownBit (by simp [Chip.shows]) rfl

theorem Chip.rd_flFusesOut (k : Chip) : k.refresh.rd FL_STATUS.FUSES_OUT = ofBool (decide (65536 ≤ k.fl.epoch)) :=
  k.rd_shownBit (by simp [Chip.shows]) rfl

/-! ### The log (R532, R534) -/

section
variable {k : Chip} (type ch old new : Nat) (h : k.fl.log.length < 256)
include h

theorem Chip.flLog_eq : k.flLog type ch old new =
    ({ k with fl := { k.fl with log := k.fl.log ++ [k.fl.entry type ch old new] } }.raise FL_STATUS.ALARM).emit
      (.power "FLACON_ALARM" type 1) := by
  rw [Chip.flLog, if_neg (by omega)]

theorem Chip.flLog_fl : (k.flLog type ch old new).fl = { k.fl with log := k.fl.log ++ [k.fl.entry type ch old new] } := by
  rw [Chip.flLog_eq _ _ _ _ h, Chip.emit_fl, Chip.raise_fl]

theorem Chip.flLog_mem : (k.flLog type ch old new).mem = k.mem := by
  rw [Chip.flLog_eq _ _ _ _ h, Chip.emit_mem, Chip.raise_mem]

theorem Chip.rd_flLog_alarm : (k.flLog type ch old new).rd FL_STATUS.ALARM = 1 := by
  rw [Chip.flLog_eq _ _ _ _ h]
  exact Chip.rd_raise_self _ rfl

theorem Chip.onlyRegs_flLog : k.OnlyRegs [FL_STATUS.ALARM] (k.flLog type ch old new) := by
  rw [Chip.flLog_eq _ _ _ _ h]
  exact Chip.OnlyRegs.raise (fs := [FL_STATUS.ALARM]) (g := FL_STATUS.ALARM) (.of_eq rfl) (by simp)

end

theorem flAlarm_not_shown : FL_STATUS.ALARM.key ∉ shownFields.map Fld.key := by decide +kernel

/-! ### The accumulators (R528) -/

/-- R528: a sample moves whole mJ from the rest into the accumulator and loses nothing. -/
theorem Flacon.add_keeps (f : Flacon) {c : Nat} (mv nv : Int) (he : c < f.energy.length) (hr : c < f.residue.length)
    (hfits : f.energy.getD c 0 + (f.residue.getD c 0 +
      (Config.flaconTrim (f.gain.getD c 0) (f.offset.getD c 0) mv * nv * 1000 / (f.shunt.getD c 1 : Nat)).toNat) / 8192000 <
        2 ^ 64) :
    8192000 * (f.add c mv nv).energy.getD c 0 + (f.add c mv nv).residue.getD c 0 =
      8192000 * f.energy.getD c 0 + f.residue.getD c 0 +
        (Config.flaconTrim (f.gain.getD c 0) (f.offset.getD c 0) mv * nv * 1000 / (f.shunt.getD c 1 : Nat)).toNat ∧
    f.energy.getD c 0 ≤ (f.add c mv nv).energy.getD c 0 ∧ (f.add c mv nv).residue.getD c 0 < 8192000 := by
  have hset : ∀ (xs : List Nat) (v : Nat), c < xs.length → (xs.set c v).getD c 0 = v := fun xs v h => by
    simp [List.getD_eq_getElem?_getD, h]
  simp only [Flacon.add, hset _ _ he, hset _ _ hr, Nat.mod_eq_of_lt hfits]
  omega

theorem Flacon.add_energy_ne (f : Flacon) {c d : Nat} (mv nv : Int) (h : d ≠ c) :
    (f.add c mv nv).energy.getD d 0 = f.energy.getD d 0 := by
  simp [Flacon.add, List.getD_eq_getElem?_getD, List.getElem?_set_ne h.symm]

/-- R528: the sample of the first channel alone, not overrange. -/
theorem Chip.flSamples_one {k : Chip} {mv nv : Int} (hmeter : k.fl.metering = true) (hrange : nv.natAbs ≤ 30000000) :
    k.flSamples [(mv, nv)] =
      { k with fl := Flacon.add { k.fl with ticks := (k.fl.ticks + 4) % 2 ^ 64 } 0 mv nv } := by
  simp [Chip.flSamples, Chip.flSample, hmeter, hrange]

/-- R535: while it does not meter a sample is not looked at. -/
theorem Chip.flSamples_off {k : Chip} (samples : List (Int × Int)) (hmeter : k.fl.metering = false) :
    k.flSamples samples = k := by simp [Chip.flSamples, hmeter]

/-! ### The clock and the calibration (R532, R533, R535) -/

theorem Chip.xtalFStops_eq {k : Chip} (h : k.fl.started = true) :
    k.xtalFStops = { k with fl := { k.fl with clockStopped := true, metering := false } } := if_pos h

theorem Chip.xtalFBack_eq {k : Chip} (h : k.fl.clockStopped = true) :
    k.xtalFBack = Chip.flLog { k with fl := { k.fl.startEpoch true with clockStopped := false } } 3 0 0 0 :=
  if_neg (by simp [h])

theorem Chip.calRises_eq {k : Chip} (h : k.fl.started = true) :
    k.calRises = Chip.flLog { k with fl := { k.fl with calLand := true } } 1 0 0 0 := if_neg (by simp [h])

/-- R533: the calibration of channel `ch` is replaced. -/
def Chip.recalibrated (k : Chip) (ch shunt : Nat) (gain offset : Int) : Chip :=
  { k with fl := { k.fl with
      shunt := k.fl.shunt.set ch shunt, gain := k.fl.gain.set ch gain, offset := k.fl.offset.set ch offset
      calId := (k.fl.calId + 1) % 2 ^ 32 } }

theorem Chip.recalibrated_fl (k : Chip) (ch shunt : Nat) (gain offset : Int) :
    (k.recalibrated ch shunt gain offset).fl = { k.fl with
      shunt := k.fl.shunt.set ch shunt, gain := k.fl.gain.set ch gain, offset := k.fl.offset.set ch offset
      calId := (k.fl.calId + 1) % 2 ^ 32 } := rfl

@[simp] theorem Chip.recalibrated_regs (k : Chip) (ch shunt : Nat) (gain offset : Int) :
    (k.recalibrated ch shunt gain offset).regs = k.regs := rfl

@[simp] theorem Chip.recalibrated_mem (k : Chip) (ch shunt : Nat) (gain offset : Int) :
    (k.recalibrated ch shunt gain offset).mem = k.mem := rfl

/-- R533: a calibration that is taken. -/
theorem Chip.calibrate_eq {k : Chip} {ch shunt : Nat} {gain offset : Int} (hmeter : k.fl.metering = true)
    (hcal : k.fl.calLand = true) (hroom : k.fl.log.length < 256) (hch : ch < 8) (hlow : 50000 ≤ shunt)
    (hhigh : shunt ≤ 10000000) : k.calibrate ch shunt gain offset =
      (k.flLog 2 ch (k.fl.shunt.getD ch 0) shunt).recalibrated ch shunt gain offset :=
  if_neg (by simp [hmeter, hcal]; omega)

/-- Settles O52: each event of the meter by its equation; a sample by the division with rest of its accumulator. -/
theorem flaconMeters : Obligations.FlaconMeters := by
  refine ⟨fun s => ?_, fun s mv nv hmeter hrange => ?_, fun s samples hmeter => ?_,
    fun f c mv nv he hr hrest hfits => ?_, fun s hstarted => ?_, fun s hstopped hroom => ?_, fun s hstarted hroom => ?_,
    fun s ch shunt gain offset hmeter hcal hroom hch hlow hhigh => ?_⟩
  · refine ⟨s.after s.chip.vflUp, rfl, rfl, rfl, rfl, rfl, rfl, rfl, rfl, ?_, ?_, s.sameMemory_after rfl,
      s.sameRegs_after rfl, by simp [Chip.vflUp]⟩
    · rw [State.after_chip, Chip.rd_flReady]
      exact if_congr (by simp [Chip.vflUp, Flacon.startEpoch]; omega) rfl rfl
    · rw [State.after_chip, Chip.rd_flFusesOut, ← ite_not]
      exact if_congr (by simp [Chip.vflUp, Flacon.startEpoch]) rfl rfl
  · exact ⟨_, s.next_after (Chip.flSamples_one hmeter hrange), by simp, s.sameMemory_after rfl, s.sameRegs_after rfl, by simp⟩
  · exact s.next_after (Chip.flSamples_off samples hmeter)
  · obtain ⟨hsum, hgrows, hlt⟩ := f.add_keeps mv nv he hr hfits
    exact ⟨hsum, hgrows, hlt, fun d hd => f.add_energy_ne mv nv hd⟩
  · refine ⟨_, s.next_after (Chip.xtalFStops_eq hstarted), by simp, ?_, s.sameMemory_after rfl, s.sameRegs_after rfl, by simp⟩
    rw [State.after_chip, Chip.rd_flReady]
    rfl
  · have hroom' : ({ s.chip with fl := { s.chip.fl.startEpoch true with clockStopped := false } } : Chip).fl.log.length < 256 :=
      hroom
    refine ⟨_, s.next_after (Chip.xtalFBack_eq hstopped), ?_, ?_, ?_, ?_, ?_, s.sameMemory_after (Chip.flLog_mem _ _ _ _ hroom'),
      (Chip.OnlyRegs.trans (.of_eq rfl) (Chip.onlyRegs_flLog _ _ _ _ hroom')).after⟩
    · rw [State.after_chip, Chip.refresh_fl, Chip.flLog_fl _ _ _ _ hroom']
      rfl
    · rw [State.after_chip, Chip.refresh_fl, Chip.flLog_fl _ _ _ _ hroom']
      rfl
    · rw [State.after_chip, Chip.refresh_fl, Chip.flLog_fl _ _ _ _ hroom']
    · rw [State.after_chip, Chip.refresh_fl, Chip.flLog_fl _ _ _ _ hroom']
      rfl
    · rw [State.after_chip, Chip.rd_refresh _ flAlarm_not_shown, Chip.rd_flLog_alarm _ _ _ _ hroom']
  · have hroom' : ({ s.chip with fl := { s.chip.fl with calLand := true } } : Chip).fl.log.length < 256 := hroom
    refine ⟨_, s.next_after (Chip.calRises_eq hstarted), ?_, ?_, ?_, s.sameMemory_after (Chip.flLog_mem _ _ _ _ hroom'),
      (Chip.OnlyRegs.trans (.of_eq rfl) (Chip.onlyRegs_flLog _ _ _ _ hroom')).after⟩
    · rw [State.after_chip, Chip.refresh_fl, Chip.flLog_fl _ _ _ _ hroom']
      rfl
    · rw [State.after_chip, Chip.rd_refresh _ flAlarm_not_shown, Chip.rd_flLog_alarm _ _ _ _ hroom']
    · rw [State.after_chip, Chip.rd_flCal, Chip.flLog_fl _ _ _ _ hroom']
      rfl
  · refine ⟨_, s.next_after (Chip.calibrate_eq hmeter hcal hroom hch hlow hhigh), ?_,
      s.sameMemory_after ((Chip.recalibrated_mem _ _ _ _ _).trans (Chip.flLog_mem _ _ _ _ hroom)),
      ((Chip.onlyRegs_flLog _ _ _ _ hroom).congr (Chip.recalibrated_regs _ _ _ _ _)).after⟩
    rw [State.after_chip, Chip.refresh_fl, Chip.recalibrated_fl]
    simp only [Chip.flLog_fl _ _ _ _ hroom]

/-! ### The mailbox (R535, R537) -/

theorem key_flRsp_ne {i j : Nat} (h : i ≠ j) : (FL_MB_RSP.RSP i).key ≠ (FL_MB_RSP.RSP j).key := by
  simp only [Fld.key, Dom.code]
  omega

/-- No response register is a status field or a field of FL_MB_CMD. -/
theorem flRsp_apart (i : Nat) : (FL_MB_RSP.RSP i).key ∉ shownFields.map Fld.key ∧
    (FL_MB_RSP.RSP i).key ≠ FL_MB_CMD.STATUS.key ∧ (FL_MB_RSP.RSP i).key ≠ FL_MB_CMD.GO.key := by
  have hshown : ∀ n ∈ shownFields.map Fld.key, n % 256 ≠ 1 ∨ n < (FL_MB_RSP.RSP 0).key := by decide +kernel
  refine ⟨fun hmem => ?_, ?_, ?_⟩
  · have := hshown _ hmem
    simp only [Fld.key, Dom.code] at this
    omega
  · simp only [Fld.key, Dom.code]
    omega
  · simp only [Fld.key, Dom.code]
    omega

theorem flCmd_not_shown : ∀ f ∈ [FL_MB_CMD.OP, FL_MB_CMD.STATUS, FL_MB_CMD.GO], f.key ∉ shownFields.map Fld.key := by
  decide +kernel

/-- The machine with a command in FL_MB_CMD. -/
def Chip.flAsked (k : Chip) (op : Nat) : Chip := (k.wr FL_MB_CMD.OP op).wr FL_MB_CMD.GO 1

theorem Chip.rd_flArg_flAsked (k : Chip) (op i : Nat) (hi : i < 2) :
    (k.flAsked op).rd (FL_MB_ARG.ARG i) = k.rd (FL_MB_ARG.ARG i) := by
  have hapart : ∀ i < 2, (FL_MB_ARG.ARG i).key ≠ FL_MB_CMD.OP.key ∧ (FL_MB_ARG.ARG i).key ≠ FL_MB_CMD.GO.key := by decide
  obtain ⟨hop, hgo⟩ := hapart i hi
  rw [Chip.flAsked, Chip.rd_wr_ne _ _ hgo, Chip.rd_wr_ne _ _ hop]

/-- The machine with an answer in the mailbox. -/
def Chip.flReply (k : Chip) (status : Nat) (answer : Bytes) : Chip :=
  ((k.setInd FL_MB_RSP.RSP ((answer.length + 7) / 8) answer).wr FL_MB_CMD.STATUS status).wr FL_MB_CMD.GO 0

@[simp] theorem Chip.flReply_fl (k : Chip) (status : Nat) (answer : Bytes) : (k.flReply status answer).fl = k.fl := by
  rw [Chip.flReply, Chip.wr_fl, Chip.wr_fl, Chip.setInd_eq]

@[simp] theorem Chip.flReply_mem (k : Chip) (status : Nat) (answer : Bytes) : (k.flReply status answer).mem = k.mem := by
  rw [Chip.flReply, Chip.wr_mem, Chip.wr_mem, Chip.setInd_eq]

/-- R537: what the mailbox reads after an answer. -/
theorem Chip.rd_flReply (k : Chip) {status : Nat} (answer : Bytes) (h : status < 16) :
    (k.flReply status answer).refresh.rd FL_MB_CMD.STATUS = status ∧ (k.flReply status answer).refresh.rd FL_MB_CMD.GO = 0 ∧
    ∀ i < (answer.length + 7) / 8, (k.flReply status answer).refresh.rd (FL_MB_RSP.RSP i) = leAt answer (8 * i) 8 := by
  refine ⟨?_, ?_, fun i hi => ?_⟩
  · rw [Chip.rd_refresh _ (flCmd_not_shown _ (by simp)), Chip.flReply, Chip.rd_wr_ne _ _ (by decide), Chip.rd_wr_self]
    exact Nat.mod_eq_of_lt h
  · rw [Chip.rd_refresh _ (flCmd_not_shown _ (by simp)), Chip.flReply, Chip.rd_wr_self]
    rfl
  · obtain ⟨hshown, hstatus, hgo⟩ := flRsp_apart i
    rw [Chip.rd_refresh _ hshown, Chip.flReply, Chip.rd_wr_ne _ _ hgo, Chip.rd_wr_ne _ _ hstatus,
      Chip.rd_setInd _ (fun _ _ => key_flRsp_ne) (fun _ => rfl) _ hi]

section
variable {k : Chip} {op : Nat} (hgo : k.on FL_MB_CMD.GO = false)
include hgo

theorem Chip.flCmd_answered {status : Nat} {answer : Bytes} {j : Chip}
    (h : (k.flAsked op).flAnswer op = some (status, answer, j)) : k.flCmd op false = j.flReply status answer := by
  unfold Chip.flAsked at h
  simp [Chip.flCmd, hgo, h, Chip.flReply]

theorem Chip.flCmd_unanswered (h : (k.flAsked op).flAnswer op = none) : k.flCmd op false = k.flAsked op := by
  unfold Chip.flAsked at h
  simp [Chip.flCmd, hgo, h, Chip.flAsked]

end

section
variable {k : Chip} (hstarted : k.fl.started = true) (hclock : k.fl.clockStopped = false)
include hstarted hclock

theorem Chip.flAnswer_info : k.flAnswer 1 = some (0, k.fl.info, k) := by simp [Chip.flAnswer, hstarted, hclock]

theorem Chip.flAnswer_pubkey : k.flAnswer 2 = some (0, p384Pub k.fl.key, k) := by simp [Chip.flAnswer, hstarted, hclock]

variable (hfuses : k.fl.epoch < 65536)
include hfuses

theorem Chip.flAnswer_meter : k.flAnswer 3 =
    let b := k.flMeter (leBytes (k.rd (FL_MB_ARG.ARG 0)) 8 ++ leBytes (k.rd (FL_MB_ARG.ARG 1)) 8)
    some (0, b.1, b.2) := by
  simp [Chip.flAnswer, hstarted, hclock, Nat.not_le.2 hfuses]

theorem Chip.flAnswer_entry : k.flAnswer 4 =
    if k.fl.log.length ≤ k.rd (FL_MB_ARG.ARG 0) then some (5, [], k) else
    let b := k.flEntry (k.rd (FL_MB_ARG.ARG 0)) (leBytes (k.rd (FL_MB_ARG.ARG 1)) 8)
    some (0, b.1, b.2) := by
  simp [Chip.flAnswer, hstarted, hclock, Nat.not_le.2 hfuses]

end

/-- R535: without XTAL_F every command is answered NOT_READY. -/
theorem Chip.flAnswer_clockStopped {k : Chip} (op : Nat) (hstarted : k.fl.started = true) (hclock : k.fl.clockStopped = true) :
    k.flAnswer op = some (2, [], k) := by simp [Chip.flAnswer, hstarted, hclock]

theorem Chip.flAnswer_off {k : Chip} (op : Nat) (hstarted : k.fl.started = false) : k.flAnswer op = none := by
  simp [Chip.flAnswer, hstarted]

theorem Flacon.useSeq_room {f : Flacon} (h : f.seq + 1 < 2 ^ 32) : f.useSeq = { f with seq := f.seq + 1 } := if_pos h

theorem Chip.flCmd_busy {k : Chip} (op : Nat) (hgo : k.on FL_MB_CMD.GO = true) :
    k.flCmd op false = k.raise FL_MB_CMD.OVERRUN := if_pos hgo

/-- The commands of the mailbox, by their operation. -/
theorem exec_flCmd (s : State) {op : Nat} {c : Instr}
    (h : (op, c) ∈ [(1, .flGetInfo false), (2, .getPubkey false), (3, .readMeter false), (4, .flReadLog false)]) :
    op < 256 ∧ exec c s = .next (s.after (s.chip.flCmd op false)) := by
  simp only [List.mem_cons, List.not_mem_nil, or_false, Prod.mk.injEq] at h
  rcases h with ⟨rfl, rfl⟩ | ⟨rfl, rfl⟩ | ⟨rfl, rfl⟩ | ⟨rfl, rfl⟩ <;> exact ⟨by decide, rfl⟩

/-- Settles O53: by what Flacon answers to each command, and what the mailbox reads after an answer. -/
theorem flaconCommands : Obligations.FlaconCommands := by
  refine ⟨?_, ?_, ?_, ?_, ?_, ?_⟩
  · intro s c answer hgo hstarted hclock hc
    have hcmd : ∃ op, exec c s = .next (s.after ((s.chip.flAsked op).flReply 0 answer)) := by
      obtain ⟨rfl, rfl⟩ | ⟨rfl, rfl⟩ := hc
      · exact ⟨_, s.next_after (Chip.flCmd_answered hgo (Chip.flAnswer_info hstarted hclock))⟩
      · exact ⟨_, s.next_after (Chip.flCmd_answered hgo (Chip.flAnswer_pubkey hstarted hclock))⟩
    obtain ⟨op, hexec⟩ := hcmd
    obtain ⟨hstatus, hend, hrsp⟩ := (s.chip.flAsked op).rd_flReply answer (status := 0) (by decide)
    exact ⟨_, hexec, hstatus, hend, hrsp, by simp [Chip.flAsked], s.sameMemory_after (by simp [Chip.flAsked])⟩
  · rintro s nonce body answer hgo hstarted hclock hfuses hseq hnonce rfl rfl
    have harg : ∀ i < 2, (s.chip.flAsked 3).rd (FL_MB_ARG.ARG i) = s.chip.rd (FL_MB_ARG.ARG i) := s.chip.rd_flArg_flAsked 3
    have hanswer := Chip.flAnswer_meter (k := s.chip.flAsked 3) hstarted hclock hfuses
    rw [harg 0 (by decide), harg 1 (by decide), ← hnonce] at hanswer
    obtain ⟨hstatus, hend, hrsp⟩ := ((s.chip.flAsked 3).flMeter nonce).2.rd_flReply ((s.chip.flAsked 3).flMeter nonce).1
      (status := 0) (by decide)
    refine ⟨_, s.next_after (Chip.flCmd_answered hgo hanswer), hstatus, hend, hrsp, ?_, s.sameMemory_after ?_⟩
    · rw [State.after_chip, Chip.refresh_fl, Chip.flReply_fl]
      exact Flacon.useSeq_room hseq
    · exact (Chip.flReply_mem _ _ _).trans rfl
  · intro s hgo hstarted hclock hfuses
    have harg : ∀ i < 2, (s.chip.flAsked 4).rd (FL_MB_ARG.ARG i) = s.chip.rd (FL_MB_ARG.ARG i) := s.chip.rd_flArg_flAsked 4
    have hanswer := Chip.flAnswer_entry (k := s.chip.flAsked 4) hstarted hclock hfuses
    rw [harg 0 (by decide), harg 1 (by decide)] at hanswer
    refine ⟨fun hthere hseq => ?_, fun hmissing => ?_⟩
    · have hanswer := hanswer.trans (if_neg (Nat.not_le.2 hthere))
      obtain ⟨hstatus, hend, -⟩ := Chip.rd_flReply
        ((s.chip.flAsked 4).flEntry (s.chip.rd (FL_MB_ARG.ARG 0)) (leBytes (s.chip.rd (FL_MB_ARG.ARG 1)) 8)).2
        ((s.chip.flAsked 4).flEntry (s.chip.rd (FL_MB_ARG.ARG 0)) (leBytes (s.chip.rd (FL_MB_ARG.ARG 1)) 8)).1
        (status := 0) (by decide)
      refine ⟨_, s.next_after (Chip.flCmd_answered hgo hanswer), hstatus, hend, ?_, s.sameMemory_after ?_⟩
      · rw [State.after_chip, Chip.refresh_fl, Chip.flReply_fl]
        exact Flacon.useSeq_room hseq
      · exact (Chip.flReply_mem _ _ _).trans rfl
    · have hanswer := hanswer.trans (if_pos hmissing)
      obtain ⟨hstatus, hend, -⟩ := (s.chip.flAsked 4).rd_flReply [] (status := 5) (by decide)
      exact ⟨_, s.next_after (Chip.flCmd_answered hgo hanswer), hstatus, hend, by simp [Chip.flAsked],
        s.sameMemory_after (by simp [Chip.flAsked])⟩
  · intro s op c hc
    obtain ⟨hop, hexec⟩ := exec_flCmd s hc
    refine ⟨fun hgo => ?_, fun hgo hstarted hclock => ?_, fun hgo hstarted => ?_⟩
    · rw [hexec, Chip.flCmd_busy op hgo]
    · rw [hexec, Chip.flCmd_answered hgo (Chip.flAnswer_clockStopped op hstarted hclock)]
      obtain ⟨hstatus, hend, -⟩ := (s.chip.flAsked op).rd_flReply [] (status := 2) (by decide)
      exact ⟨_, rfl, hstatus, hend, by simp [Chip.flAsked]⟩
    · rw [hexec, Chip.flCmd_unanswered hgo (Chip.flAnswer_off op hstarted)]
      refine ⟨_, rfl, ?_, ?_, by simp [Chip.flAsked]⟩
      · rw [State.after_chip, Chip.rd_refresh _ (flCmd_not_shown _ (by simp)), Chip.flAsked, Chip.rd_wr_self]
        rfl
      · rw [State.after_chip, Chip.rd_refresh _ (flCmd_not_shown _ (by simp)), Chip.flAsked,
          Chip.rd_wr_ne _ _ (by decide), Chip.rd_wr_self]
        exact Nat.mod_eq_of_lt hop
  · intro s hgo
    have htimeout : s.chip.flTimeout = (s.chip.wr FL_MB_CMD.STATUS 2).wr FL_MB_CMD.GO 0 := if_pos hgo
    refine ⟨_, s.next_after htimeout, ?_, ?_, s.sameMemory_after rfl,
      (((Chip.OnlyRegs.refl _ _).wr _ (by simp)).wr _ (by simp)).after⟩
    · rw [State.after_chip, Chip.rd_refresh _ (flCmd_not_shown _ (by simp)), Chip.rd_wr_ne _ _ (by decide), Chip.rd_wr_self]
      rfl
    · rw [State.after_chip, Chip.rd_refresh _ (flCmd_not_shown _ (by simp)), Chip.rd_wr_self]
      rfl
  · intro s hstarted hclock
    have hcmd : s.chip.flCmd 1 true = s.chip.emit (.mailbox "FLACON_I3C" (0 :: s.chip.fl.info)) := by
      simp only [Chip.flCmd, Chip.flAnswer_info hstarted hclock, if_true]
      rfl
    exact ⟨_, s.next_after hcmd, by simp, by simp, s.sameMemory_after rfl, s.sameRegs_after rfl⟩

end Sys2Proof.Machine
end

section
/-!
PROOFS. A step of the machine; the restart of the secure world (18): its causes, the image, its end and its failures.
-/

namespace Sys2Proof.Machine

/-- Settles O1: by the definition of a step, and since every command is answered with a next state. -/
theorem stepRunsTheQueue : Obligations.StepRunsTheQueue := by
  refine ⟨fun s c rest hpending => ?_, step_nil⟩
  have hstep := step_cons s c rest hpending
  obtain ⟨k, hexec⟩ := exec_after c { s with pending := rest }
  exact ⟨hstep, _, hstep.trans hexec, rfl⟩

/-! ### A restart begins (R459) -/

/-- The fields that the report of a failure of the secure world writes. -/
def wsFailureFields : List Fld := [WS_ERR_INFO.ADDR, WS_ERR_INFO.SOURCE, WS_ERR_INFO.EVENT] ++ reportFields

theorem Chip.onlyRegs_wsFailure (k : Chip) (f : Fld) : k.OnlyRegs (f :: wsFailureFields) (k.wsFailure f) :=
  (((((Chip.OnlyRegs.refl _ k).raise (by simp)).wr _ (by simp [wsFailureFields])).wr _ (by simp [wsFailureFields])).wr _
    (by simp [wsFailureFields])).log _ (List.map_subset _ fun g hg => by simp [wsFailureFields, hg])

@[simp] theorem Chip.wsFailure_ws (k : Chip) (f : Fld) : (k.wsFailure f).ws = k.ws := by simp [Chip.wsFailure]

theorem Chip.rd_wsFailure_self (k : Chip) {f : Fld} (hf : f.width = 1)
    (hapart : f.key ∉ wsFailureFields.map Fld.key) : (k.wsFailure f).rd f = 1 := by
  simp only [wsFailureFields, List.map_append, List.mem_append, not_or] at hapart
  obtain ⟨hinfo, hreport⟩ := hapart
  simp only [List.map_cons, List.map_nil, List.mem_cons, List.not_mem_nil, or_false, not_or] at hinfo
  obtain ⟨haddr, hsource, hevent⟩ := hinfo
  rw [Chip.wsFailure, Chip.log_rd _ _ hreport, Chip.rd_wr_ne _ _ hevent, Chip.rd_wr_ne _ _ hsource,
    Chip.rd_wr_ne _ _ haddr, Chip.rd_raise_self _ hf]

/-- The machine at the begin of a restart, before the harts are forced out. -/
def Chip.restartReported (k : Chip) : Chip :=
  ((k.wr WS_STATUS.RESTARTING 1).bump WS_STATUS.RESTARTS 1).wsFailure WS_ERR.RESTART

theorem Chip.beginRestart_regs (k : Chip) : k.beginRestart.regs = k.restartReported.regs := rfl

theorem Chip.beginRestart_ws (k : Chip) :
    k.beginRestart.ws = { k.ws with restartStep := 1, watchdog := false, gaveUp := false } := by
  simp [Chip.beginRestart, Chip.forcedExits]

/-- The fields that the begin of a restart writes. -/
def restartFields : List Fld := [WS_STATUS.RESTARTING, WS_STATUS.RESTARTS] ++ WS_ERR.RESTART :: wsFailureFields

theorem Chip.onlyRegs_beginRestart (k : Chip) : k.OnlyRegs restartFields k.beginRestart := by
  have hbegun : k.OnlyRegs restartFields ((k.wr WS_STATUS.RESTARTING 1).bump WS_STATUS.RESTARTS 1) :=
    ((Chip.OnlyRegs.refl _ k).wr _ (by simp [restartFields])).bump _ (by simp [restartFields])
  exact (hbegun.trans ((Chip.onlyRegs_wsFailure _ _).mono (List.subset_append_right _ _))).congr k.beginRestart_regs

theorem Chip.rd_restarts_beginRestart (k : Chip) :
    k.beginRestart.rd WS_STATUS.RESTARTS = satAdd (k.rd WS_STATUS.RESTARTS) 1 8 := by
  rw [Chip.rd_congr k.beginRestart_regs, Chip.restartReported, Chip.onlyRegs_wsFailure _ _ _ (by decide),
    Chip.rd_bump_self, Chip.rd_wr_ne _ _ (by decide)]

theorem Chip.rd_errRestart_beginRestart (k : Chip) : k.beginRestart.rd WS_ERR.RESTART = 1 := by
  rw [Chip.rd_congr k.beginRestart_regs, Chip.restartReported, Chip.rd_wsFailure_self _ rfl (by decide)]

theorem wsFields_not_shown : ∀ f ∈ [WS_STATUS.RESTARTING, WS_STATUS.DOWN, WS_STATUS.FAILS, WS_STATUS.RESTARTS,
    WS_RESTART.CAUSE, WS_ERR.RESTART, WS_ERR.DOWN], f.key ∉ shownFields.map Fld.key := by decide +kernel

theorem Chip.secureRestart_idle {k : Chip} (cause : Nat) (h : k.on WS_STATUS.RESTARTING = false) :
    k.secureRestart cause = (k.wr WS_RESTART.CAUSE cause).beginRestart := if_neg (by simp [h])

/-! ### The harts at a restart (R460) -/

theorem Hart.forcedExit_eq {g : Hart} {mepc mpp cause : Nat} {mpv : Bool} (h : g.entry = some (mepc, mpp, mpv, cause)) :
    g.forcedExit = if isEcall cause then g.leave mpp mpv ((mepc + 4) % 2 ^ 64) secureRestarting
      else g.leave mpp mpv mepc g.a0 := by
  rw [Hart.forcedExit, h]

/-! ### The image is told to every hart (R459) -/

/-- An MSI to hart `h` only changes that hart. -/
theorem Chip.deliverMsi_frame (k : Chip) (h f id : Nat) : ∃ hs, k.deliverMsi h f id = { k with harts := hs } ∧
    ∀ g, g ≠ h → Tbl.get {} hs g = k.hart g := by
  have hset : ∀ u : Hart → Hart, ∃ hs, k.setHart h u = { k with harts := hs } ∧ ∀ g, g ≠ h → Tbl.get {} hs g = k.hart g :=
    fun u => ⟨_, rfl, fun g hg => k.hart_setHart_ne u hg⟩
  unfold Chip.deliverMsi
  dsimp only
  split
  · exact hset _
  · split
    · exact hset _
    · exact ⟨k.harts, rfl, fun _ _ => rfl⟩

/-- R459, step 4: every hart ID of `hs` receives identity `k.rd WS_RESTART.IDENTITY`. -/
def Chip.tellHarts (k : Chip) (hs : List Nat) : Chip :=
  hs.foldl (fun k h => k.deliverMsi h 0 (orDefault (k.rd WS_RESTART.IDENTITY) 1)) k

theorem Chip.tellHarts_frame (k : Chip) (hs : List Nat) : ∃ harts, k.tellHarts hs = { k with harts := harts } ∧
    ∀ g, g ∉ hs → Tbl.get {} harts g = k.hart g := by
  induction hs generalizing k with
  | nil => exact ⟨k.harts, rfl, fun _ _ => rfl⟩
  | cons h hs ih =>
    obtain ⟨told, htold, hothers⟩ := k.deliverMsi_frame h 0 (orDefault (k.rd WS_RESTART.IDENTITY) 1)
    obtain ⟨harts, hall, hrest⟩ := ih (k.deliverMsi h 0 (orDefault (k.rd WS_RESTART.IDENTITY) 1))
    refine ⟨harts, ?_, fun g hg => ?_⟩
    · rw [Chip.tellHarts, List.foldl_cons, ← Chip.tellHarts, hall, htold]
    · rw [List.mem_cons, not_or] at hg
      rw [hrest g hg.2, htold]
      exact hothers g hg.1

theorem Chip.tellHarts_hart (k : Chip) {hs : List Nat} (hnodup : hs.Nodup) {h : Nat} (hmem : h ∈ hs)
    (hstay : (k.hart h).moving = none) (hon : (k.hart h).online = true) :
    (k.tellHarts hs).hart h = (k.hart h).deliver 0 (orDefault (k.rd WS_RESTART.IDENTITY) 1) := by
  induction hs generalizing k with
  | nil => exact absurd hmem List.not_mem_nil
  | cons a hs ih =>
    rw [List.nodup_cons] at hnodup
    obtain ⟨ha, hnodup⟩ := hnodup
    rw [Chip.tellHarts, List.foldl_cons, ← Chip.tellHarts]
    rcases eq_or_ne h a with rfl | hne
    · obtain ⟨harts, hall, hrest⟩ := (k.deliverMsi h 0 (orDefault (k.rd WS_RESTART.IDENTITY) 1)).tellHarts_frame hs
      rw [hall]
      refine (hrest h ha).trans ?_
      rw [Chip.deliverMsi_online _ hstay hon, Chip.hart_setHart]
    · obtain ⟨told, htold, hothers⟩ := k.deliverMsi_frame a 0 (orDefault (k.rd WS_RESTART.IDENTITY) 1)
      have hsame : (k.deliverMsi a 0 (orDefault (k.rd WS_RESTART.IDENTITY) 1)).hart h = k.hart h := by
        rw [htold]
        exact hothers h hne
      rw [ih _ hnodup ((List.mem_cons.1 hmem).resolve_left hne) (by rwa [hsame]) (by rwa [hsame]), hsame, htold]
      rfl

/-- R459, step 3: the machine with the image loaded and its measurement in SPDM block 3. -/
def Chip.imageIn (k : Chip) (measurement : Bytes) : Chip :=
  { k with
    ws := { k.ws with restartStep := 4 }
    hf := { k.hf with block3 := measurement }
    harts := Tbl.mapVals {} k.harts fun _ g => { g with inStub := false } }

theorem Chip.imageIn_hart {k : Chip} (measurement : Bytes) {h : Nat} (hon : (k.hart h).online = true) :
    (k.imageIn measurement).hart h = { k.hart h with inStub := false } := by
  have hthere : ∀ g : Hart, g.online = true → g ≠ {} := fun g hg he => by simp [he] at hg
  exact Tbl.get_mapVals (f := fun _ (g : Hart) => { g with inStub := false }) (hthere _ hon) (hthere _ hon)

theorem Chip.imageLoaded_eq {k : Chip} (measurement : Bytes) (hrestart : k.on WS_STATUS.RESTARTING = true)
    (hgave : k.ws.gaveUp = false) (hstep : k.ws.restartStep < 4) :
    k.imageLoaded measurement = (k.imageIn measurement).tellHarts (List.range 288) :=
  if_neg (by simp [hrestart, hgave, hstep])

/-! ### The end of a restart and its failures (R459, R461, R576) -/

/-- The machine with its secure world in service, the watchdog's period starting now. -/
def Chip.secureInService (k : Chip) : Chip :=
  { k with ws := { k.ws with restartStep := 0, watchdog := true, wdogSince := k.time } }

@[simp] theorem Chip.secureInService_regs (k : Chip) : k.secureInService.regs = k.regs := rfl
@[simp] theorem Chip.secureInService_mem (k : Chip) : k.secureInService.mem = k.mem := rfl
@[simp] theorem Chip.secureInService_ws (k : Chip) :
    k.secureInService.ws = { k.ws with restartStep := 0, watchdog := true, wdogSince := k.time } := rfl

theorem Chip.doneWrite_ends {k : Chip} {who : By} (hw : who.w = 0) (hrestart : k.on WS_STATUS.RESTARTING = true)
    (hgave : k.ws.gaveUp = false) (hstep : k.ws.restartStep = 4) : k.doneWrite who =
      ((k.wr WS_STATUS.RESTARTING 0).wr WS_STATUS.FAILS 0).secureInService :=
  (if_neg (by simp [hw])).trans (if_pos (by simp [hrestart, hgave, hstep]))

section
variable {k : Chip} (hrestart : k.on WS_STATUS.RESTARTING = true) (hgave : k.ws.gaveUp = false)
include hrestart hgave

theorem Chip.restartTimeout_again (hfails : k.rd WS_STATUS.FAILS < 2) :
    k.restartTimeout = (k.wr WS_STATUS.FAILS (k.rd WS_STATUS.FAILS + 1)).beginRestart := by
  have hmin : min 3 (k.rd WS_STATUS.FAILS + 1) = k.rd WS_STATUS.FAILS + 1 := by omega
  refine (if_neg (by simp [hrestart, hgave])).trans ?_
  dsimp only
  rw [hmin, if_neg (by simp only [beq_iff_eq]; omega)]

theorem Chip.restartTimeout_gaveUp (hfails : 2 ≤ k.rd WS_STATUS.FAILS) : k.restartTimeout =
    ({ k.wr WS_STATUS.FAILS 3 with ws := { k.ws with gaveUp := true } }.wr WS_STATUS.DOWN 1).wsFailure WS_ERR.DOWN := by
  have hmin : min 3 (k.rd WS_STATUS.FAILS + 1) = 3 := by omega
  refine (if_neg (by simp [hrestart, hgave])).trans ?_
  dsimp only
  rw [hmin]
  rfl

end

/-- Settles O43: the begin of a restart, the harts told one after another, its end and its timeouts. -/
theorem secureRestart : Obligations.SecureRestart := by
  refine ⟨?_, ?_, ?_, ?_, ?_, ?_, ?_⟩
  · intro s c cause source id hidle hc
    have hcmd : cause < 8 ∧ exec c s = .next (s.after (s.chip.secureRestart cause)) := by
      obtain ⟨rfl, hwatch, hperiod, rfl⟩ | ⟨rfl, rfl⟩ | ⟨rfl, rfl⟩ := hc
      · exact ⟨by decide, s.next_after (if_pos (by simp [hwatch, hperiod]))⟩
      · exact ⟨by decide, rfl⟩
      · exact ⟨by decide, rfl⟩
    obtain ⟨hcause, hexec⟩ := hcmd
    have heq := Chip.secureRestart_idle cause hidle
    have hshown := wsFields_not_shown
    simp only [List.forall_mem_cons] at hshown
    obtain ⟨hrestarting, -, -, hrestarts, hwhy, herr, -⟩ := hshown
    refine ⟨_, hexec, rfl, ?_, ?_, ?_, ?_, ?_⟩
    · rw [State.after_chip, Chip.rd_refresh _ hrestarting, Chip.rd_restarting_secureRestart]
    · rw [State.after_chip, Chip.rd_refresh _ hwhy, heq, Chip.onlyRegs_beginRestart _ _ (by decide), Chip.rd_wr_self]
      exact Nat.mod_eq_of_lt hcause
    · rw [State.after_chip, Chip.rd_refresh _ hrestarts, heq, Chip.rd_restarts_beginRestart, Chip.rd_wr_ne _ _ (by decide)]
    · rw [State.after_chip, Chip.rd_refresh _ herr, heq, Chip.rd_errRestart_beginRestart]
    · rw [State.after_chip, Chip.refresh_ws, heq, Chip.beginRestart_ws, Chip.wr_ws]
  · intro g mepc mpp cause mpv hentry
    rw [Hart.forcedExit_eq hentry]
    split <;> exact ⟨rfl, rfl, rfl, rfl⟩
  · rintro s measurement h id hrestart hgave hstep rfl - hh hstay hon
    obtain ⟨harts, hall, -⟩ := (s.chip.imageIn measurement).tellHarts_frame (List.range 288)
    have hhart := s.chip.imageIn_hart measurement hon
    refine ⟨_, s.next_after (Chip.imageLoaded_eq measurement hrestart hgave hstep), ?_, ?_, ?_, s.sameMemory_after ?_,
      s.sameRegs_after ?_⟩
    · rw [State.after_chip, Chip.refresh_ws, hall]
      rfl
    · rw [State.after_chip, Chip.refresh_hf, hall]
      rfl
    · rw [State.after_chip, Chip.hart_refresh, Chip.tellHarts_hart _ List.nodup_range (List.mem_range.2 hh)
        (by rw [hhart]; exact hstay) (by rw [hhart]; exact hon), hhart]
      rfl
    · rw [hall]
      rfl
    · rw [hall]
      rfl
  · intro s source id hrestart hgave hstep
    refine ⟨_, s.next_after (Chip.doneWrite_ends (who := ⟨source, id, 0⟩) rfl hrestart hgave hstep), ?_, ?_, ?_,
      s.sameMemory_after (Chip.secureInService_mem _), ?_⟩
    · rw [State.after_chip, Chip.rd_refresh _ restarting_not_shown, Chip.rd_congr (Chip.secureInService_regs _),
        Chip.rd_wr_ne _ _ (by decide), Chip.rd_wr_self]
      rfl
    · rw [State.after_chip, Chip.rd_refresh _ (wsFields_not_shown _ (by simp)), Chip.rd_congr (Chip.secureInService_regs _),
        Chip.rd_wr_self]
      rfl
    · rw [State.after_chip, Chip.refresh_ws, Chip.secureInService_ws]
      rfl
    · exact ((((Chip.OnlyRegs.refl _ _).wr _ (by simp)).wr _ (by simp)).congr (Chip.secureInService_regs _)).after
  · intro s hrestart hgave hfails
    have hws : { s.chip.ws with restartStep := 1, watchdog := false, gaveUp := false } =
        { s.chip.ws with restartStep := 1, watchdog := false } := by rw [← hgave]
    refine ⟨_, s.next_after (Chip.restartTimeout_again hrestart hgave hfails), ?_, ?_, ?_, ?_⟩
    · rw [State.after_chip, Chip.rd_refresh _ (wsFields_not_shown _ (by simp)), Chip.onlyRegs_beginRestart _ _ (by decide),
        Chip.rd_wr_self]
      exact Nat.mod_eq_of_lt (by change _ < 4; omega)
    · rw [State.after_chip, Chip.rd_refresh _ (wsFields_not_shown _ (by simp)), Chip.rd_restarts_beginRestart,
        Chip.rd_wr_ne _ _ (by decide)]
    · rw [State.after_chip, Chip.rd_refresh _ (wsFields_not_shown _ (by simp)), Chip.rd_errRestart_beginRestart]
    · rw [State.after_chip, Chip.refresh_ws, Chip.beginRestart_ws, Chip.wr_ws, hws]
  · intro s hrestart hgave hfails
    refine ⟨_, s.next_after (Chip.restartTimeout_gaveUp hrestart hgave hfails), ?_, ?_, ?_, ?_⟩
    · rw [State.after_chip, Chip.rd_refresh _ (wsFields_not_shown _ (by simp)), Chip.onlyRegs_wsFailure _ _ _ (by decide),
        Chip.rd_wr_ne _ _ (by decide)]
      exact (Chip.rd_congr (k := s.chip.wr WS_STATUS.FAILS 3) rfl _).trans (Chip.rd_wr_self _ _ _)
    · rw [State.after_chip, Chip.rd_refresh _ (wsFields_not_shown _ (by simp)), Chip.onlyRegs_wsFailure _ _ _ (by decide),
        Chip.rd_wr_self]
      rfl
    · rw [State.after_chip, Chip.refresh_ws, Chip.wsFailure_ws, Chip.wr_ws]
    · rw [State.after_chip, Chip.rd_refresh _ (wsFields_not_shown _ (by simp)), Chip.rd_wsFailure_self _ rfl (by decide)]
  · intro s source id
    refine ⟨s.after s.chip.kickWdog, rfl, ?_, s.sameMemory_after rfl, s.sameRegs_after rfl⟩
    rw [State.after_chip, Chip.refresh_ws]
    rfl

end Sys2Proof.Machine
end

section
/-!
PROOFS. Traffic regulation (16): reservations, STOP and the arbitration entries.
-/

namespace Sys2Proof.Machine

/-! ### Reservations (R395) -/

theorem Chip.mem_held_hold_self (k : Chip) {f : Fld} {v : Nat} (h : v < 2 ^ f.width) : (f, v) ∈ (k.hold f v).beat.held := by
  simp [Chip.hold, Nat.mod_eq_of_lt h]

theorem Chip.mem_held_hold_of_ne {k : Chip} {f g : Fld} (v : Nat) {w : Nat} (hg : (g, w) ∈ k.beat.held)
    (h : g.key ≠ f.key) : (g, w) ∈ (k.hold f v).beat.held := by
  simp [Chip.hold, hg, h]

/-- The machine with a reservation held for the next boundary. -/
def Chip.withReserve (k : Chip) (hp engines hub : Nat) : Chip :=
  (((k.wr QT_STATUS.CFG 0).hold QT_RESERVE.HP hp).hold QT_RESERVE.DL_ENG engines).hold QT_RESERVE.DL_HUB hub

theorem Chip.withReserve_held (k : Chip) {hp engines hub : Nat} (h : hp < 2 ^ 16) (he : engines < 2 ^ 16) (hh : hub < 2 ^ 16) :
    (QT_RESERVE.HP, hp) ∈ (k.withReserve hp engines hub).beat.held ∧
    (QT_RESERVE.DL_ENG, engines) ∈ (k.withReserve hp engines hub).beat.held ∧
    (QT_RESERVE.DL_HUB, hub) ∈ (k.withReserve hp engines hub).beat.held :=
  ⟨Chip.mem_held_hold_of_ne _ (Chip.mem_held_hold_of_ne _ (Chip.mem_held_hold_self _ h) (by decide)) (by decide),
    Chip.mem_held_hold_of_ne _ (Chip.mem_held_hold_self _ he) (by decide), Chip.mem_held_hold_self _ hh⟩

theorem Chip.onlyRegs_withReserve (k : Chip) (hp engines hub : Nat) :
    k.OnlyRegs [QT_STATUS.CFG] (k.withReserve hp engines hub) :=
  Chip.OnlyRegs.congr (k' := k.wr QT_STATUS.CFG 0) ((Chip.OnlyRegs.refl _ k).wr 0 (by simp)) rfl

section
variable {k : Chip} {v : Nat} (hnew : k.rd QT_RESERVE.HP ≠ bits v 0 16)
include hnew

theorem Chip.writeReserve_fits (hcap : bits v 0 16 + bits v 16 16 + bits v 32 16 ≤ k.rd QT_CAP.CAP) :
    k.writeReserve v = k.withReserve (bits v 0 16) (bits v 16 16) (bits v 32 16) :=
  (if_neg (by simp [hnew])).trans (if_neg (by simp; omega))

theorem Chip.writeReserve_beyond (hcap : k.rd QT_CAP.CAP < bits v 0 16 + bits v 16 16 + bits v 32 16) :
    k.writeReserve v = k.wr QT_STATUS.CFG 1 :=
  (if_neg (by simp [hnew])).trans (if_pos (by simp; omega))

end

/-! ### STOP (R400, R401) -/

/-- R400, R401: STOP changes the word and the counts alone. -/
theorem Chip.setStop_frame (k : Chip) (on : Bool) : ∃ free pm word, k.setStop on =
    { k with free := free, pm := pm, qt := { k.qt with stop := on, word := word } } ∧
    word = ({ k with qt := { k.qt with stop := on } } : Chip).throttleWord := by
  have hcounts : ∀ (cs : List Nat) (j : Chip) (v : Nat),
      ∃ pm, cs.foldl (fun k c => k.count 2 c 25 v) j = { j with pm := pm } := fun cs j v => by
    induction cs generalizing j with
    | nil => exact ⟨_, rfl⟩
    | cons c cs ih =>
      obtain ⟨pm, hpm⟩ := ih (j.count 2 c 25 v)
      exact ⟨pm, by rw [List.foldl_cons, hpm, Chip.count_eq]⟩
  unfold Chip.setStop
  split
  · obtain ⟨pm, hpm⟩ := hcounts ((List.range 16).filter { k with free := k.free + 1 }.chServes) { k with free := k.free + 1 }
      (Config.freeNat k.free)
    simp only [Chip.fresh]
    rw [hpm]
    exact ⟨_, _, _, rfl, rfl⟩
  · exact ⟨_, _, _, rfl, rfl⟩

theorem Chip.rd_qtStop (k : Chip) : k.refresh.rd QT_CAP.STOP = ofBool k.qt.stop :=
  k.rd_shownBit (by simp [Chip.shows]) rfl

/-- R400: the throttle word is not made of status fields that are brought up to date. -/
theorem Chip.throttleWord_refresh (k : Chip) : k.refresh.throttleWord = k.throttleWord := by
  rw [Chip.throttleWord, Chip.refresh_qt, Chip.rd_refresh _ (by decide +kernel), Chip.rd_refresh _ (by decide +kernel),
    Chip.throttleWord]

/-! ### The arbitration entries (R412) -/

theorem qtInd_not_shown : ∀ f ∈ [QT_IND_DATA0.DATA, QT_IND_CMD.STATUS, QT_IND_CMD.GO], f.key ∉ shownFields.map Fld.key := by
  decide +kernel

@[simp] theorem Chip.qtInd_qt (k : Chip) (target index op status : Nat) : (k.qtInd target index op status).qt = k.qt := rfl
@[simp] theorem Chip.qtInd_mem (k : Chip) (target index op status : Nat) : (k.qtInd target index op status).mem = k.mem := rfl

/-- R412: what the registers read after an indirect command. -/
theorem Chip.rd_qtInd (k : Chip) (target index op : Nat) :
    (k.qtInd target index op 0).refresh.rd QT_IND_CMD.STATUS = 0 ∧ (k.qtInd target index op 0).refresh.rd QT_IND_CMD.GO = 0 ∧
    (k.qtInd target index op 0).refresh.rd QT_IND_DATA0.DATA = k.rd QT_IND_DATA0.DATA := by
  refine ⟨?_, ?_, ?_⟩ <;> rw [Chip.rd_refresh _ (qtInd_not_shown _ (by simp)), Chip.qtInd, Chip.indDone] <;>
    simp (disch := decide) only [Chip.rd_wr_ne, Chip.rd_wr_self]
  · rfl
  · rfl

/-- R412: the words of a function's entry. -/
theorem entry_valid {i : Nat} (h : i < 256) : entryInvalid 0 i = false := by
  simp only [entryInvalid, Bool.or_eq_false_iff, Bool.and_eq_false_iff, decide_eq_false_iff_not]
  omega

theorem Chip.qtIndRead_fn {k : Chip} {i : Nat} (h : i < 256) : k.qtIndRead 0 i =
    (k.wr QT_IND_DATA0.DATA (Tbl.get 1 k.qt.entries i % 8 + 8 * ofBool (bit (Tbl.get 1 k.qt.entries i) 2))).qtInd 0 i 0 0 :=
  if_neg (by simp [entry_valid h])

/-- The machine with a function's arbitration entry written. -/
def Chip.entryWritten (k : Chip) (i d : Nat) : Chip :=
  { k with qt := { k.qt with
      entries := if bit d 2 then Tbl.mod 1 k.qt.entries i fun e => clearBit e 2 else k.qt.entries
      entriesHeld := k.qt.entriesHeld.insert i (d % 4) } }

theorem Chip.qtIndWrite_fn {k : Chip} {i : Nat} (h : i < 256) :
    k.qtIndWrite 0 i = (k.entryWritten i (k.rd QT_IND_DATA0.DATA)).qtInd 0 i 1 0 :=
  if_neg (by simp [entry_valid h])

/-- Settles O38: a reservation by its check, STOP by its frame, an arbitration entry by the indirect command. -/
theorem trafficRegisters : Obligations.TrafficRegisters := by
  have hbits : ∀ v lo, bits v lo 16 < 2 ^ 16 := fun v lo => Nat.mod_lt _ (by decide)
  refine ⟨fun s v hcap hnew => ?_, fun s v hcap hnew => ?_, fun s => ?_, fun s => ?_, fun s i hi => ?_, fun s i hi => ?_⟩
  · obtain ⟨hhp, hengines, hhub⟩ := s.chip.withReserve_held (hbits v 0) (hbits v 16) (hbits v 32)
    refine ⟨_, s.next_after (Chip.writeReserve_fits hnew hcap), ?_, ?_, ?_, s.sameMemory_after rfl,
      (s.chip.onlyRegs_withReserve _ _ _).after⟩
    · rwa [State.after_chip, Chip.refresh_beat]
    · rwa [State.after_chip, Chip.refresh_beat]
    · rwa [State.after_chip, Chip.refresh_beat]
  · exact s.next_after (Chip.writeReserve_beyond hnew hcap)
  · obtain ⟨free, pm, word, hstop, hword⟩ := s.chip.setStop_frame true
    refine ⟨_, s.next_after hstop, by simp, by simp [Chip.rd_qtStop, ofBool], ?_, s.sameMemory_after rfl, s.sameRegs_after rfl⟩
    rw [State.after_chip, Chip.refresh_qt, Chip.throttleWord_refresh]
    exact hword
  · obtain ⟨free, pm, word, hstop, -⟩ := s.chip.setStop_frame false
    exact ⟨_, s.next_after hstop, by simp, by simp [Chip.rd_qtStop, ofBool], s.sameMemory_after rfl, s.sameRegs_after rfl⟩
  · obtain ⟨hstatus, hgo, hdata⟩ := (s.chip.wr QT_IND_DATA0.DATA (Tbl.get 1 s.chip.qt.entries i % 8 +
      8 * ofBool (bit (Tbl.get 1 s.chip.qt.entries i) 2))).rd_qtInd 0 i 0
    refine ⟨_, s.next_after (Chip.qtIndRead_fn hi), ?_, hstatus, hgo, by simp, s.sameMemory_after rfl⟩
    have hbool : ∀ b, ofBool b < 2 := by decide
    have := hbool (bit (Tbl.get 1 s.chip.qt.entries i) 2)
    rw [State.after_chip, hdata, Chip.rd_wr_self]
    exact Nat.mod_eq_of_lt (by change _ < 2 ^ 64; omega)
  · obtain ⟨hstatus, hgo, -⟩ := (s.chip.entryWritten i (s.chip.rd QT_IND_DATA0.DATA)).rd_qtInd 0 i 1
    refine ⟨_, s.next_after (Chip.qtIndWrite_fn hi), ?_, hstatus, hgo, s.sameMemory_after rfl⟩
    rw [State.after_chip, Chip.refresh_qt, Chip.qtInd_qt]
    exact Tbl.find_insert_self _ _ _

end Sys2Proof.Machine
end

section
/-!
PROOFS. The memory controllers (15): what an event of a channel writes, reads and writes of lines.
-/

namespace Sys2Proof.Machine

/-! ### The fields of a channel (R386, R387) -/

/-- The registers that say where an event of channel `c` was. -/
def mcInfo (c : Nat) : List Fld :=
  [MC_ERR_INFO.LINE c, MC_ERR_INFO.RANK c, MC_ERR_INFO.SUBCH c, MC_ERR_INFO.DEVICE c, MC_ERR_INFO.EVENT c]

/-- The status, count and error fields of channel `c` of which a statement speaks. -/
def mcShown (c : Nat) : List Fld :=
  [MC_STATUS.STATE c, MC_STATUS.RATE c, MC_STATUS.SIZE c, MC_STATUS.POSTPONED c, MC_SCRUB_POS.LINE c, MC_CNT.UNCORRECTED c,
    MC_ERR.UNCORRECTED c, MC_ERR.FENCED c, MC_ERR.LINK_RETRY c]

theorem mcShown_apart : ∀ c < 16, ∀ g ∈ mcShown c, g.key ∉ shownFields.map Fld.key ∧ g.key ∉ reportFields.map Fld.key ∧
    (∀ i ∈ mcInfo c, g.key ≠ i.key) ∧ g.key ≠ QT_CAP.CAP.key := by decide +kernel

section
variable (k : Chip) (f : Nat → Fld) (c : Nat) (x : McAt) (cls action status : Nat)

@[simp] theorem Chip.mcErr_mc : (k.mcErr f c x cls action status).mc = k.mc := by simp [Chip.mcErr]

theorem Chip.rd_mcErr_ne {g : Fld} (hself : g.key ≠ (f c).key) (hreport : g.key ∉ reportFields.map Fld.key)
    (hinfo : ∀ i ∈ mcInfo c, g.key ≠ i.key) : (k.mcErr f c x cls action status).rd g = k.rd g := by
  simp only [mcInfo, List.forall_mem_cons] at hinfo
  obtain ⟨hline, hrank, hsub, hdevice, hevent, -⟩ := hinfo
  rw [Chip.mcErr, Chip.log_rd _ _ hreport, Chip.rd_wr_ne _ _ hevent, Chip.rd_wr_ne _ _ hdevice, Chip.rd_wr_ne _ _ hsub,
    Chip.rd_wr_ne _ _ hrank, Chip.rd_wr_ne _ _ hline, Chip.rd_raise_ne _ hself]

theorem Chip.rd_mcErr_self (hw : (f c).width = 1) (hreport : (f c).key ∉ reportFields.map Fld.key)
    (hinfo : ∀ i ∈ mcInfo c, (f c).key ≠ i.key) : (k.mcErr f c x cls action status).rd (f c) = 1 := by
  simp only [mcInfo, List.forall_mem_cons] at hinfo
  obtain ⟨hline, hrank, hsub, hdevice, hevent, -⟩ := hinfo
  rw [Chip.mcErr, Chip.log_rd _ _ hreport, Chip.rd_wr_ne _ _ hevent, Chip.rd_wr_ne _ _ hdevice, Chip.rd_wr_ne _ _ hsub,
    Chip.rd_wr_ne _ _ hrank, Chip.rd_wr_ne _ _ hline, Chip.rd_raise_self _ hw]

end

/-! ### What accesses count (R543, R544) -/

theorem Chip.count_frame (k : Chip) (set i j n : Nat) : ∃ pm, k.count set i j n = { k with pm := pm } :=
  ⟨_, k.count_eq set i j n⟩

theorem Chip.wakeChannel_awake {k : Chip} {c : Nat} (h : c ∉ k.pwr.gatedChannels) : k.wakeChannel c = k :=
  if_pos (by simp [h])

/-- A channel that wakes only changes its state. -/
theorem Chip.rd_wakeChannel_ne (k : Chip) (c : Nat) {f : Fld} (h : f.key ≠ (MC_STATUS.STATE c).key) :
    (k.wakeChannel c).rd f = k.rd f := by
  unfold Chip.wakeChannel
  split
  · rfl
  · exact (Chip.rd_congr (k := k.wr (MC_STATUS.STATE c) 2) rfl f).trans (k.rd_wr_ne _ h)

/-- R544: channel `c` with a demand read counted. -/
def Chip.readBegun (k : Chip) (c : Nat) : Chip :=
  let (v, k) := k.fresh
  ((((k.count 2 c (if v % 8 == 1 then 2 else v % 8) 1).count 2 c 26 (v / 8 % 2)).histFree 10 c).setCh c fun x =>
    { x with retries := 0 })

/-- The counts of a demand read are no registers and no memory. -/
theorem Chip.readBegun_frame (k : Chip) (c : Nat) :
    ∃ free pm mc, k.readBegun c = { k with free := free, pm := pm, mc := mc } := by
  unfold Chip.readBegun Chip.histFree Chip.setCh
  dsimp only [Chip.fresh]
  obtain ⟨pm₁, h₁⟩ := Chip.count_frame { k with free := k.free + 1 } 2 c
    (if Config.freeNat k.free % 8 == 1 then 2 else Config.freeNat k.free % 8) 1
  rw [h₁]
  obtain ⟨pm₂, h₂⟩ := Chip.count_frame { k with free := k.free + 1, pm := pm₁ } 2 c 26 (Config.freeNat k.free / 8 % 2)
  rw [h₂]
  obtain ⟨pm₃, h₃⟩ := Chip.count_frame { k with free := k.free + 1 + 1, pm := pm₂ } 10 c (Config.freeNat (k.free + 1) % 16) 1
  rw [h₃]
  exact ⟨_, _, _, rfl⟩

/-! ### Reads (R375, R377, R380) -/

theorem Chip.demandRead_open {k : Chip} {c : Nat} (line : Nat) (errs partner : List DevErr) (h : k.chFenced c = false) :
    k.demandRead c line errs partner none =
      let j := ((k.wakeChannel c).readBegun c).readLine c line errs partner
      j.emit (.dram c (if j.linePoison (j.lineAt c line) then "READ_POISON" else "READ_DATA") line) := if_neg (by simp [h])

theorem Chip.demandRead_fenced {k : Chip} {c : Nat} (line : Nat) (errs partner : List DevErr) (deadline : Option Nat)
    (h : k.chFenced c = true) (hmirror : k.on (MC_CTRL.MIRROR 0) = false) :
    k.demandRead c line errs partner deadline = k.emit (.dram c "READ_POISON" line) :=
  (if_pos h).trans (if_neg (by simp [hmirror]))

/-- R375: without errors a line that carries no mark is read as it is. -/
theorem Chip.readLine_good {k : Chip} {c line : Nat} (partner : List DevErr)
    (h : Tbl.get false k.poison (k.lineAt c line) = false) : k.readLine c line [] partner = k := by
  simp [Chip.readLine, Chip.decodeErrs, h]

/-- R375: two devices in error, none of them marked. -/
theorem Chip.decodeErrs_two {k : Chip} {c a b : Nat} {errs : List DevErr} (stored : Bool)
    (hdevs : (errs.map (·.device)).eraseDups = [a, b])
    (hmark : ∀ e ∈ errs.head?, k.markedDevice c e.rank e.sub = none) : k.decodeErrs c errs stored = .uncorrectable := by
  cases errs with
  | nil => simp at hdevs
  | cons e errs =>
    have hunmarked : k.markedDevice c e.rank e.sub = none := hmark e rfl
    rw [Chip.decodeErrs, List.headD_cons]
    simp only [hdevs, hunmarked]
    cases stored <;> rfl

theorem Chip.readLine_uncorrectable {k : Chip} {c line : Nat} {errs : List DevErr} (partner : List DevErr)
    (hdecode : ∀ stored, k.decodeErrs c errs stored = .uncorrectable) (hmirror : k.on (MC_CTRL.MIRROR 0) = false) :
    k.readLine c line errs partner = k.readUncorrectable c line errs := by simp [Chip.readLine, hdecode, hmirror]

/-- R377: an uncorrectable read is reported and counted. -/
theorem Chip.rd_readUncorrectable (k : Chip) {c : Nat} (hc : c < 16) (line : Nat) (errs : List DevErr) :
    (k.readUncorrectable c line errs).rd (MC_ERR.UNCORRECTED c) = 1 ∧
    (k.readUncorrectable c line errs).rd (MC_CNT.UNCORRECTED c) = satAdd (k.rd (MC_CNT.UNCORRECTED c)) 1 32 := by
  obtain ⟨-, hreport, hinfo, -⟩ := mcShown_apart c hc (MC_ERR.UNCORRECTED c) (by simp [mcShown])
  obtain ⟨-, hcreport, hcinfo, -⟩ := mcShown_apart c hc (MC_CNT.UNCORRECTED c) (by simp [mcShown])
  have hmark : ∀ j : Chip, j.regs = k.regs → j.rd (MC_CNT.UNCORRECTED c) = k.rd (MC_CNT.UNCORRECTED c) :=
    fun j h => Chip.rd_congr h _
  unfold Chip.readUncorrectable
  dsimp only
  refine ⟨Chip.rd_mcErr_self _ _ _ _ _ _ _ rfl hreport hinfo, ?_⟩
  rw [Chip.rd_mcErr_ne _ _ _ _ _ _ _ (by simp only [Fld.key, Dom.code]; omega) hcreport hcinfo, Chip.rd_bump_self]
  split
  · exact congrArg (satAdd · 1 32) (hmark (k.mark _) rfl)
  · rfl

/-! ### Writes (R366, R383) -/

theorem Chip.drainWrites_eq (k : Chip) (c keep : Nat) : ∃ mc out, k.drainWrites c keep = { k with mc := mc, out := out } := by
  unfold Chip.drainWrites
  dsimp only
  rw [Chip.emitAll_eq]
  exact ⟨_, _, rfl⟩

/-- The write of a line that waits changes no register, no memory and no mark. -/
theorem Chip.queueWrite_frame {k : Chip} {c : Nat} (line : Nat) (h : c ∉ k.pwr.gatedChannels) :
    ∃ free pm mc out, k.queueWrite c line = { k with free := free, pm := pm, mc := mc, out := out } := by
  unfold Chip.queueWrite
  dsimp only [Chip.fresh]
  rw [Chip.wakeChannel_awake (k := { k with free := k.free + 1 }) h]
  obtain ⟨pm, hpm⟩ := Chip.count_frame { k with free := k.free + 1 } 2 c (8 + Config.freeNat k.free % 8) 1
  rw [hpm]
  obtain ⟨mc, out, hdrain⟩ := Chip.drainWrites_eq (Chip.setCh { k with free := k.free + 1, pm := pm } c fun x =>
    { x with writes := x.writes ++ [line], retries := 0 }) c 16
  rw [hdrain]
  exact ⟨_, _, _, _, rfl⟩

theorem Chip.drainWrites_room {k : Chip} {c keep : Nat} (h : (Tbl.get {} k.mc.ch c).writes.length ≤ keep) :
    k.drainWrites c keep = k.setCh c fun x => { x with writes := (Tbl.get {} k.mc.ch c).writes } := by
  unfold Chip.drainWrites
  dsimp only
  rw [Nat.sub_eq_zero_of_le h]
  rfl

/-- R366: a queue with room takes the line and issues none. -/
theorem Chip.queueWrite_room {k : Chip} {c : Nat} (line : Nat) (h : c ∉ k.pwr.gatedChannels)
    (hroom : (Tbl.get {} k.mc.ch c).writes.length < 16) :
    (Tbl.get {} (k.queueWrite c line).mc.ch c).writes = (Tbl.get {} k.mc.ch c).writes ++ [line] ∧
    (k.queueWrite c line).out = k.out := by
  unfold Chip.queueWrite
  dsimp only [Chip.fresh]
  rw [Chip.wakeChannel_awake (k := { k with free := k.free + 1 }) h]
  obtain ⟨pm, hpm⟩ := Chip.count_frame { k with free := k.free + 1 } 2 c (8 + Config.freeNat k.free % 8) 1
  rw [hpm, Chip.drainWrites_room (by simpa [Chip.setCh] using hroom)]
  exact ⟨by simp [Chip.setCh], rfl⟩

/-- The machine with a line of DRAM and its mark written, at its home. -/
def Chip.lineWritten (k : Chip) (l : Nat) (data : Bytes) (poison : Bool) : Chip :=
  { k with
    mem := memPut k.mem (64 * l) (padTo data 64)
    poison := Tbl.set false k.poison l poison
    coh := { k.coh with sc := if Tbl.get 0 k.coh.sc l == 2 then Tbl.set 0 k.coh.sc l 1 else k.coh.sc } }

theorem Chip.dramWrite_open {k : Chip} {c : Nat} (line : Nat) (data : Bytes) (poison : Bool) (h : k.chFenced c = false) :
    k.dramWrite c line data poison = (k.lineWritten (k.lineAt c line) data poison).queueWrite c line :=
  (if_neg (by simp [h])).trans
    (if_neg (show ¬ (k.lineWritten (k.lineAt c line) data poison).chFenced c = true from by
      rw [show (k.lineWritten (k.lineAt c line) data poison).chFenced c = k.chFenced c from rfl, h]
      decide))

/-- R366: what a write of a line leaves. -/
theorem Chip.dramWrite_puts {k : Chip} {c line l : Nat} (data : Bytes) (poison : Bool) (h : k.chFenced c = false)
    (hawake : c ∉ k.pwr.gatedChannels) (hl : l = k.lineAt c line) :
    (k.dramWrite c line data poison).mem = memPut k.mem (64 * l) (padTo data 64) ∧
    Tbl.get false (k.dramWrite c line data poison).poison l = poison ∧ (k.dramWrite c line data poison).regs = k.regs := by
  obtain ⟨free, pm, mc, out, hqueue⟩ :=
    Chip.queueWrite_frame (k := k.lineWritten (k.lineAt c line) data poison) line hawake
  rw [Chip.dramWrite_open line data poison h, hqueue, hl]
  exact ⟨rfl, Tbl.get_set_self _ _ _ _, rfl⟩

theorem exec_dramRead (s : State) {c : Nat} (hc : c < 16) (line : Nat) (errs partner : List DevErr) (deadline : Option Nat) :
    exec (.dramRead c line errs partner deadline) s = .next (s.after (s.chip.demandRead c line errs partner deadline)) := by
  rw [← Nat.mod_eq_of_lt hc]
  exact s.next_after (by rw [Nat.mod_mod])

theorem exec_dramWrite (s : State) {c : Nat} (hc : c < 16) (line : Nat) (data : Bytes) (poison : Bool) :
    exec (.dramWrite c line data poison) s = .next (s.after (s.chip.dramWrite c line data poison)) := by
  rw [← Nat.mod_eq_of_lt hc]
  exact s.next_after (by rw [Nat.mod_mod])

theorem exec_mergeBufferWrite (s : State) {c : Nat} (hc : c < 16) (line mask : Nat) (data : Bytes) :
    exec (.mergeBufferWrite c line data mask) s = .next (s.after (s.chip.mergeWrite c line data mask)) := by
  rw [← Nat.mod_eq_of_lt hc]
  exact s.next_after (by rw [Nat.mod_mod])

/-- Settles O36: reads by what the decoder finds, writes by the line at its home and the queue. -/
theorem dramAccesses : Obligations.DramAccesses := by
  refine ⟨?_, ?_, ?_, ?_, ?_⟩
  · intro s c line hc hopen hawake hclean
    have hread := Chip.demandRead_open line [] [] hopen
    rw [Chip.wakeChannel_awake hawake] at hread
    obtain ⟨free, pm, mc, hbegun⟩ := s.chip.readBegun_frame c
    have hpoison : Tbl.get false s.chip.poison (s.chip.lineAt c line) = false := (Bool.or_eq_false_iff.1 hclean).1
    have hgood : ({ s.chip with free := free, pm := pm, mc := mc } : Chip).readLine c line [] [] =
        { s.chip with free := free, pm := pm, mc := mc } := Chip.readLine_good [] hpoison
    have hclean' : ({ s.chip with free := free, pm := pm, mc := mc } : Chip).linePoison
        (({ s.chip with free := free, pm := pm, mc := mc } : Chip).lineAt c line) = false := hclean
    rw [hbegun, hgood] at hread
    dsimp only at hread hclean'
    rw [hclean'] at hread
    rw [exec_dramRead s hc, hread]
    exact ⟨_, rfl, by simp, s.sameMemory_after rfl, by simp, s.sameRegs_after rfl⟩
  · intro s c line errs partner a b hc hopen hmirror hdevs hmark
    obtain ⟨free, pm, mc, hbegun⟩ := (s.chip.wakeChannel c).readBegun_frame c
    have hrd : ∀ f : Fld, f.key ≠ (MC_STATUS.STATE c).key → ((s.chip.wakeChannel c).readBegun c).rd f = s.chip.rd f :=
      fun f hf => by
        rw [hbegun]
        exact s.chip.rd_wakeChannel_ne c hf
    have hunmarked : ∀ e ∈ errs.head?, ((s.chip.wakeChannel c).readBegun c).markedDevice c e.rank e.sub = none :=
      fun e he => by
        rw [← hmark e he, Chip.markedDevice, Chip.on, hrd _ (by simp only [Fld.key, Dom.code]; omega),
          hrd _ (by simp only [Fld.key, Dom.code]; omega)]
        rfl
    have hline := Chip.readLine_uncorrectable (line := line) partner
      (fun stored => Chip.decodeErrs_two stored hdevs hunmarked)
      (by rw [← hmirror, Chip.on, hrd _ (by simp only [Fld.key, Dom.code]; omega)]; rfl)
    obtain ⟨hshown, -, -, -⟩ := mcShown_apart c hc (MC_ERR.UNCORRECTED c) (by simp [mcShown])
    obtain ⟨hcshown, -, -, -⟩ := mcShown_apart c hc (MC_CNT.UNCORRECTED c) (by simp [mcShown])
    obtain ⟨herr, hcnt⟩ := ((s.chip.wakeChannel c).readBegun c).rd_readUncorrectable hc line errs
    rw [exec_dramRead s hc, Chip.demandRead_open line errs partner hopen, hline]
    refine ⟨_, rfl, ?_, ?_⟩
    · rw [State.after_chip, Chip.rd_refresh _ hshown]
      exact herr
    · rw [State.after_chip, Chip.rd_refresh _ hcshown, ← hrd _ (by simp only [Fld.key, Dom.code]; omega)]
      exact hcnt
  · intro s c line errs partner deadline hc hfenced hmirror
    rw [exec_dramRead s hc, Chip.demandRead_fenced line errs partner deadline hfenced hmirror]
  · intro s c line data poison hc hopen hawake hroom
    obtain ⟨hmem, hpoison, hregs⟩ := Chip.dramWrite_puts data poison hopen hawake rfl
    obtain ⟨hwrites, hout⟩ := Chip.queueWrite_room (k := s.chip.lineWritten (s.chip.lineAt c line) data poison) line hawake
      hroom
    rw [← Chip.dramWrite_open line data poison hopen] at hwrites hout
    rw [exec_dramWrite s hc]
    exact ⟨_, rfl, by simpa using hmem, by simpa using hpoison, by simpa [Chip.lineWritten] using hwrites,
      by simpa [Chip.lineWritten] using hout, s.sameRegs_after hregs⟩
  · rintro s c line l mask data hc hopen rfl hawake
    obtain ⟨hmem, hpoison, hregs⟩ := Chip.dramWrite_puts
      (maskLine (memBytes s.chip.mem (64 * s.chip.lineAt c line) 64) data mask)
      (!(mask % 2 ^ 64 == 2 ^ 64 - 1) && s.chip.linePoison (s.chip.lineAt c line)) hopen hawake rfl
    rw [exec_mergeBufferWrite s hc]
    refine ⟨_, rfl, (Chip.refresh_mem _).trans hmem, ?_, s.sameRegs_after hregs⟩
    rw [State.after_chip, Chip.refresh_poison]
    exact hpoison

end Sys2Proof.Machine
end

section
/-!
PROOFS. The upkeep of DRAM (15): refresh, recalibration, rate changes, fences, the scrubber and ALERT_N.
-/

namespace Sys2Proof.Machine

/-! ### Ranks (R367, R369, R372) -/

/-- The ranks of channel `c`. -/
abbrev Chip.rank (k : Chip) (c r : Nat) : Rank := Tbl.get {} (Tbl.get {} k.mc.ch c).ranks r

section
variable (k : Chip) (c r : Nat) (f : Rank → Rank)

theorem Chip.rank_setRank_self : (k.setRank c r f).rank c r = f (k.rank c r) := by
  simp [Chip.setRank, Chip.setCh, Chip.rank]

@[simp] theorem Chip.setRank_mem : (k.setRank c r f).mem = k.mem := rfl
@[simp] theorem Chip.setRank_out : (k.setRank c r f).out = k.out := rfl
@[simp] theorem Chip.setCh_mem (g : Channel → Channel) : (k.setCh c g).mem = k.mem := rfl
@[simp] theorem Chip.setCh_out (g : Channel → Channel) : (k.setCh c g).out = k.out := rfl
@[simp] theorem Chip.setCh_regs (g : Channel → Channel) : (k.setCh c g).regs = k.regs := rfl

theorem Chip.channel_setCh (g : Channel → Channel) : Tbl.get {} (k.setCh c g).mc.ch c = g (Tbl.get {} k.mc.ch c) :=
  Tbl.get_mod_self _ _ _ _

theorem Chip.onlyRegs_setRank : k.OnlyRegs [MC_STATUS.POSTPONED c] (k.setRank c r f) :=
  Chip.OnlyRegs.wr (k' := k.setCh c fun x => { x with ranks := Tbl.mod {} x.ranks r f }) (.of_eq rfl) _ (by simp)

end

theorem Chip.refreshDue_issued {k : Chip} {c r : Nat} {busy : Bool} (hstate : k.rd (MC_STATUS.STATE c) = 2)
    (h : busy = false ∨ k.postponeMax c ≤ (k.rank c r).postponed) :
    k.refreshDue c r busy = k.emit (.dram c "REFRESH" r) :=
  (if_neg (by simp [hstate])).trans (if_neg (by rcases h with rfl | h <;> simp [*]))

theorem Chip.refreshDue_postponed {k : Chip} {c r : Nat} (hstate : k.rd (MC_STATUS.STATE c) = 2)
    (h : (k.rank c r).postponed < k.postponeMax c) :
    k.refreshDue c r true = k.setRank c r fun x => { x with postponed := x.postponed + 1 } :=
  (if_neg (by simp [hstate])).trans (if_pos (by simpa using h))

/-- R372: the slot of rank `r` counted, and the next rank the one after it. -/
def Chip.slotTaken (k : Chip) (c r : Nat) : Chip :=
  (k.setRank c r fun x => { x with slots := ((k.rank c r).slots + 1) % 128 }).setCh c fun x => { x with
    nextRank := (r + 1) % k.ranksOf c }

theorem Chip.onlyRegs_slotTaken (k : Chip) (c r : Nat) : k.OnlyRegs [MC_STATUS.POSTPONED c] (k.slotTaken c r) :=
  (k.onlyRegs_setRank c r _).congr (Chip.setCh_regs _ _ _)

theorem Chip.recalSlot_eq {k : Chip} {c r : Nat} (hstate : k.rd (MC_STATUS.STATE c) = 2)
    (hr : r = (Tbl.get {} k.mc.ch c).nextRank % k.ranksOf c) :
    ∃ os, k.recalSlot c = ((k.slotTaken c r).emit (.dram c "RECALIBRATE" r)).emitAll os := by
  unfold Chip.recalSlot
  rw [if_neg (by simp [hstate]), ← hr]
  dsimp only
  split
  · exact ⟨[.dram c "ZQ" r], rfl⟩
  · exact ⟨[], rfl⟩

/-! ### Rates (R373, R374) -/

theorem Chip.writeRate_waits {k : Chip} {v : Nat} (hv : v < 3) (hnew : v ≠ k.rd (MC_CTRL.RATE 0)) (htrained : k.trained v = true)
    (hnone : k.mc.change = none) (hother : v ≠ k.rd (MC_STATUS.RATE 0)) : k.writeRate 0 v =
      { k with mc := { k.mc with change := some { target := v, previous := k.rd (MC_STATUS.RATE 0) } } } := by
  have hmod : v % 4 = v := by omega
  have hrate : (if v == 3 then 0 else v) = v := if_neg (by simp only [beq_iff_eq]; omega)
  unfold Chip.writeRate
  simp only [hmod, hrate]
  simp [hnew, htrained, hnone, hother]

theorem Chip.writeRate_untrained {k : Chip} {v : Nat} (hv : v < 3) (hnew : v ≠ k.rd (MC_CTRL.RATE 0))
    (htrained : k.trained v = false) : k.writeRate 0 v = k.mcErr MC_ERR.CFG 0 {} 0 0 0 := by
  have hmod : v % 4 = v := by omega
  have hrate : (if v == 3 then 0 else v) = v := if_neg (by simp only [beq_iff_eq]; omega)
  unfold Chip.writeRate
  simp only [hmod, hrate]
  simp [hnew, htrained]

/-- R373: channel `c` returns to service at `rate` where it is in the change. -/
def Chip.channelReturns (rate : Nat) (flips : Bool) (k : Chip) (c : Nat) : Chip :=
  if k.rd (MC_STATUS.STATE c) == 4 then
    ((k.wr (MC_STATUS.STATE c) 2).wr (MC_STATUS.RATE c) rate).wr (MC_STATUS.SET c)
      (if flips then 1 - k.rd (MC_STATUS.SET c) else k.rd (MC_STATUS.SET c))
  else k

/-- The machine with every channel of the change back. -/
def Chip.channelsBack (k : Chip) (rate : Nat) (flips : Bool) : Chip :=
  (List.range 16).foldl (Chip.channelReturns rate flips) k

/-- The machine without a change, the package in state `p`. -/
def Chip.changeEnded (k : Chip) (p : PkgState) : Chip :=
  { k with mc := { k.mc with change := none }, pwr := { k.pwr with pkg := p } }

@[simp] theorem Chip.changeEnded_regs (k : Chip) (p : PkgState) : (k.changeEnded p).regs = k.regs := rfl
@[simp] theorem Chip.changeEnded_mem (k : Chip) (p : PkgState) : (k.changeEnded p).mem = k.mem := rfl
@[simp] theorem Chip.changeEnded_mc (k : Chip) (p : PkgState) : (k.changeEnded p).mc = { k.mc with change := none } := rfl

theorem Chip.endChange_eq (k : Chip) (rate : Nat) (flips : Bool) :
    ∃ p, k.endChange rate flips = ((k.channelsBack rate flips).changeEnded p).setCap := by
  delta Chip.endChange Chip.channelsBack Chip.channelReturns Chip.changeEnded
  exact ⟨_, rfl⟩

theorem Chip.changeDone_eq {k : Chip} {x : RateChange} (hx : k.mc.change = some x) (hrun : x.running = true) :
    k.changeDone [] = k.endChange x.target (!x.second) := by simp [Chip.changeDone, hx, hrun]

theorem Chip.channelReturns_mem (rate : Nat) (flips : Bool) (k : Chip) (c : Nat) :
    (Chip.channelReturns rate flips k c).mem = k.mem := by
  unfold Chip.channelReturns
  split <;> rfl

theorem Chip.rd_channelReturns_ne (rate : Nat) (flips : Bool) (k : Chip) {c d : Nat} (h : d ≠ c) :
    ∀ f ∈ [MC_STATUS.STATE c, MC_STATUS.RATE c], (Chip.channelReturns rate flips k d).rd f = k.rd f := by
  intro f hf
  have hkeys : f.key ≠ (MC_STATUS.STATE d).key ∧ f.key ≠ (MC_STATUS.RATE d).key ∧ f.key ≠ (MC_STATUS.SET d).key := by
    simp only [List.mem_cons, List.not_mem_nil, or_false] at hf
    rcases hf with rfl | rfl <;> simp only [Fld.key, Dom.code] <;> omega
  obtain ⟨hstate, hrate, hset⟩ := hkeys
  unfold Chip.channelReturns
  split
  · rw [Chip.rd_wr_ne _ _ hset, Chip.rd_wr_ne _ _ hrate, Chip.rd_wr_ne _ _ hstate]
  · rfl

theorem Chip.rd_channelReturns_self (rate : Nat) (flips : Bool) {k : Chip} {c : Nat} (h : k.rd (MC_STATUS.STATE c) = 4) :
    (Chip.channelReturns rate flips k c).rd (MC_STATUS.STATE c) = 2 ∧
    (Chip.channelReturns rate flips k c).rd (MC_STATUS.RATE c) = rate % 4 := by
  unfold Chip.channelReturns
  rw [if_pos (by simp [h])]
  refine ⟨?_, ?_⟩
  · rw [Chip.rd_wr_ne _ _ (by simp only [Fld.key, Dom.code]; omega), Chip.rd_wr_ne _ _ (by simp only [Fld.key, Dom.code]; omega),
      Chip.rd_wr_self]
    rfl
  · rw [Chip.rd_wr_ne _ _ (by simp only [Fld.key, Dom.code]; omega), Chip.rd_wr_self]
    rfl

theorem Chip.channelsBack_mem (k : Chip) (rate : Nat) (flips : Bool) : (k.channelsBack rate flips).mem = k.mem :=
  List.foldlRecOn (motive := fun j : Chip => j.mem = k.mem) _ _ rfl fun j hj c _ =>
    (Chip.channelReturns_mem rate flips j c).trans hj

theorem Chip.rd_channelsBack (rate : Nat) (flips : Bool) {k : Chip} {c : Nat} (hc : c < 16)
    (h : k.rd (MC_STATUS.STATE c) = 4) : (k.channelsBack rate flips).rd (MC_STATUS.STATE c) = 2 ∧
    (k.channelsBack rate flips).rd (MC_STATUS.RATE c) = rate % 4 := by
  have hkeep : ∀ (j : Chip) (d : Nat), d ≠ c → ∀ f ∈ [MC_STATUS.STATE c, MC_STATUS.RATE c],
      (Chip.channelReturns rate flips j d).rd f = j.rd f := fun j _ => Chip.rd_channelReturns_ne rate flips j
  refine foldl_at (Q := fun j : Chip => j.rd (MC_STATUS.STATE c) = 4) (P := fun j : Chip => j.rd (MC_STATUS.STATE c) = 2 ∧
    j.rd (MC_STATUS.RATE c) = rate % 4) ?_ ?_ ?_ List.nodup_range (List.mem_range.2 hc) h
  · exact fun j d hd hj => (hkeep j d hd _ (by simp)).trans hj
  · exact fun j hj => Chip.rd_channelReturns_self rate flips hj
  · exact fun j d hd hj => ⟨(hkeep j d hd _ (by simp)).trans hj.1, (hkeep j d hd _ (by simp)).trans hj.2⟩

/-! ### Fences and ALERT_N (R362, R380) -/

/-- The machine with channel `c` out of service and its queue empty. -/
def Chip.channelOut (k : Chip) (c : Nat) : Chip :=
  (k.wr (MC_STATUS.STATE c) 5).setCh c fun x => { x with writes := [], retries := 0 }

theorem Chip.fenceChannel_eq {k : Chip} {c : Nat} (hopen : k.chFenced c = false) (hmirror : k.on (MC_CTRL.MIRROR 0) = false) :
    k.fenceChannel c = ((k.channelOut c).mcErr MC_ERR.FENCED c {} 2 9 3).setCap := by
  have hsame : (k.channelOut c).on (MC_CTRL.MIRROR 0) = false := by
    rw [← hmirror, Chip.on, Chip.channelOut, Chip.rd_congr (Chip.setCh_regs _ _ _),
      Chip.rd_wr_ne _ _ (by simp only [Fld.key, Dom.code]; omega), Chip.on]
  refine (if_neg (by simp [hopen])).trans (congrArg Chip.setCap ?_)
  exact if_neg (show ¬ (k.channelOut c).on (MC_CTRL.MIRROR 0) = true by simp [hsame])

theorem Chip.alert_replays {k : Chip} {c : Nat} (hopen : k.chFenced c = false) (hfew : (Tbl.get {} k.mc.ch c).retries < 3) :
    k.alert c = ((k.mcErr MC_ERR.LINK_RETRY c {} 0 1 0).setCh c fun x => { x with
      retries := (Tbl.get {} k.mc.ch c).retries + 1 }).emit (.dram c "REPLAY" ((Tbl.get {} k.mc.ch c).retries + 1)) :=
  (if_neg (by simp [hopen])).trans (if_neg (by omega))

/-! ### The scrubber (R381) -/

theorem Chip.scrubNext_within {k : Chip} {c : Nat} (h : k.rd (MC_SCRUB_POS.LINE c) + 1 < k.chLines c) :
    k.scrubNext c = k.wr (MC_SCRUB_POS.LINE c) (k.rd (MC_SCRUB_POS.LINE c) + 1) := if_pos h

/-- One line of a burst, without errors. -/
def Chip.scrubStep (c : Nat) (k : Chip) : Chip := (k.readLine c (k.rd (MC_SCRUB_POS.LINE c)) [] []).scrubNext c

/-- The machine with the registers `regs`. -/
def Chip.withRegs (k : Chip) (regs : Tbl Nat) : Chip := { k with regs := regs }

theorem Chip.withRegs_mc (k : Chip) (regs : Tbl Nat) : (k.withRegs regs).mc = k.mc := rfl

/-- R381: without errors and marks a burst of `n` lines within the channel only moves the scrubber on. -/
theorem Chip.scrubSteps {c : Nat} (n : Nat) {k : Chip} (hpoison : k.poison = [])
    (hlines : k.rd (MC_SCRUB_POS.LINE c) + n < k.chLines c) (hwidth : k.rd (MC_SCRUB_POS.LINE c) + n < 2 ^ 34) :
    ∃ regs, (List.range n).foldl (fun j _ => Chip.scrubStep c j) k = k.withRegs regs ∧
      (k.withRegs regs).rd (MC_SCRUB_POS.LINE c) = k.rd (MC_SCRUB_POS.LINE c) + n ∧
      k.OnlyRegs [MC_SCRUB_POS.LINE c] (k.withRegs regs) := by
  induction n with
  | zero => exact ⟨k.regs, rfl, rfl, .of_eq rfl⟩
  | succ n ih =>
    obtain ⟨regs, hfold, hpos, honly⟩ := ih (by omega) (by omega)
    have hsize : (k.withRegs regs).rd (MC_STATUS.SIZE c) = k.rd (MC_STATUS.SIZE c) :=
      honly _ (by simp only [List.map_cons, List.map_nil, List.mem_singleton, Fld.key, Dom.code]; omega)
    have hlines' : (k.withRegs regs).chLines c = k.chLines c := by rw [Chip.chLines, hsize, Chip.chLines]
    have hunmarked : ∀ l, Tbl.get false (k.withRegs regs).poison l = false := fun l => by
      rw [show (k.withRegs regs).poison = [] from hpoison]
      rfl
    have hnext : Chip.scrubStep c (k.withRegs regs) =
        (k.withRegs regs).wr (MC_SCRUB_POS.LINE c) (k.rd (MC_SCRUB_POS.LINE c) + n + 1) := by
      rw [Chip.scrubStep, Chip.readLine_good [] (hunmarked _), Chip.scrubNext_within (by rw [hpos, hlines']; omega), hpos]
    have hmoved : ∀ f v, (k.withRegs regs).wr f v = k.withRegs ((k.withRegs regs).wr f v).regs := fun _ _ => rfl
    refine ⟨((k.withRegs regs).wr (MC_SCRUB_POS.LINE c) (k.rd (MC_SCRUB_POS.LINE c) + n + 1)).regs, ?_, ?_, ?_⟩
    · rw [List.range_succ, List.foldl_append, hfold, ← hmoved, List.foldl_cons, List.foldl_nil, hnext]
    · rw [← hmoved, Chip.rd_wr_self]
      exact Nat.mod_eq_of_lt hwidth
    · rw [← hmoved]
      exact honly.wr _ (by simp)

/-- The machine with the credit of a burst taken. -/
def Chip.creditTaken (k : Chip) (c : Nat) : Chip := k.setCh c fun x => { x with scrubCredit := x.scrubCredit - 8 * 2 ^ 32 }

theorem Chip.credit_creditTaken (k : Chip) (c : Nat) : (Tbl.get {} (k.creditTaken c).mc.ch c).scrubCredit =
    (Tbl.get {} k.mc.ch c).scrubCredit - 8 * 2 ^ 32 := by rw [Chip.creditTaken, Chip.channel_setCh]

theorem Chip.scrub_eq {k : Chip} {c : Nat} (hstate : k.rd (MC_STATUS.STATE c) = 2) (hup : k.pwr.pkg.up = true)
    (hlines : k.chLines c ≠ 0) (hcredit : 8 * 2 ^ 32 ≤ (Tbl.get {} k.mc.ch c).scrubCredit) :
    k.scrub c [] = (List.range 8).foldl (fun j _ => Chip.scrubStep c j) (k.creditTaken c) :=
  if_neg (by simpa [hstate, hup, hlines] using hcredit)

/-- Settles O37: each maintenance command of a channel by its equation; the end of a rate change and a scrub burst by what each
step of their folds does. -/
theorem dramMaintenance : Obligations.DramMaintenance := by
  intro s c hc
  have hmod : c % 16 = c := Nat.mod_eq_of_lt hc
  have hshown : ∀ f ∈ mcShown c, f.key ∉ shownFields.map Fld.key := fun f hf => (mcShown_apart c hc f hf).1
  have herr : ∀ f ∈ mcShown c, f.key ∉ reportFields.map Fld.key ∧ ∀ i ∈ mcInfo c, f.key ≠ i.key := fun f hf =>
    ⟨(mcShown_apart c hc f hf).2.1, (mcShown_apart c hc f hf).2.2.1⟩
  refine ⟨fun r busy hstate hbusy => ?_, fun r hstate hfew => ?_, fun r twice => ?_, fun r hstate hr => ?_,
    fun v hv hnew htrained hnone hother => ?_, fun v hv hnew htrained => ?_, fun x hx hrun htarget hstate => ?_,
    fun hopen hmirror => ?_, fun hstate hup hpoison hcredit hlines hwidth => ?_, fun hopen hfew => ?_⟩
  · exact s.next_after (by rw [hmod, Chip.refreshDue_issued hstate hbusy])
  · have heq : s.chip.refreshDue (c % 16) r true = s.chip.setRank c r fun x => { x with postponed := x.postponed + 1 } := by
      rw [hmod, Chip.refreshDue_postponed hstate hfew]
    refine ⟨_, s.next_after heq, ?_, by simp, s.sameMemory_after rfl, (s.chip.onlyRegs_setRank c r _).after⟩
    rw [State.after_chip, Chip.refresh_mc]
    exact congrArg Rank.postponed (s.chip.rank_setRank_self c r _)
  · have heq : s.chip.setRank (c % 16) r (fun x => { x with doubled := twice }) =
        s.chip.setRank c r fun x => { x with doubled := twice } := by rw [hmod]
    refine ⟨_, s.next_after heq, ?_, s.sameMemory_after rfl, (s.chip.onlyRegs_setRank c r _).after⟩
    rw [State.after_chip, Chip.refresh_mc]
    exact s.chip.rank_setRank_self c r _
  · obtain ⟨os, hslot⟩ := Chip.recalSlot_eq hstate hr
    refine ⟨_, s.next_after ((congrArg s.chip.recalSlot hmod).trans hslot), by simp [Chip.emitAll_eq], ?_,
      s.sameMemory_after ((Chip.emitAll_mem _ _).trans rfl), ((s.chip.onlyRegs_slotTaken c r).congr ?_).after⟩
    · rw [State.after_chip, Chip.refresh_mc, Chip.emitAll_eq]
      exact congrArg Channel.nextRank (Chip.channel_setCh _ _ _)
    · rw [Chip.emitAll_eq, Chip.emit_regs]
  · exact s.next_after (Chip.writeRate_waits hv hnew htrained hnone hother)
  · exact s.next_after (Chip.writeRate_untrained hv hnew htrained)
  · obtain ⟨hback, hrate⟩ := Chip.rd_channelsBack x.target (!x.second) hc hstate
    obtain ⟨p, hend⟩ := s.chip.endChange_eq x.target (!x.second)
    have hkept : ∀ f ∈ mcShown c, (((s.chip.channelsBack x.target (!x.second)).changeEnded p).setCap.refresh).rd f =
        (s.chip.channelsBack x.target (!x.second)).rd f := fun f hf => by
      rw [Chip.rd_refresh _ (hshown f hf), Chip.setCap, Chip.rd_wr_ne _ _ (mcShown_apart c hc f hf).2.2.2,
        Chip.rd_congr (Chip.changeEnded_regs _ _)]
    refine ⟨_, s.next_after ((Chip.changeDone_eq hx hrun).trans hend), ?_, ?_, ?_,
      s.sameMemory_after (by rw [Chip.setCap, Chip.wr_mem, Chip.changeEnded_mem, Chip.channelsBack_mem])⟩
    · rw [State.after_chip, Chip.refresh_mc, Chip.setCap, Chip.wr_mc, Chip.changeEnded_mc]
    · rw [State.after_chip, hkept _ (by simp [mcShown]), hback]
    · rw [State.after_chip, hkept _ (by simp [mcShown]), hrate, Nat.mod_eq_of_lt htarget]
  · obtain ⟨hreport, hinfo⟩ := herr (MC_STATUS.STATE c) (by simp [mcShown])
    obtain ⟨hfreport, hfinfo⟩ := herr (MC_ERR.FENCED c) (by simp [mcShown])
    have heq : s.chip.fenceChannel (c % 16) = ((s.chip.channelOut c).mcErr MC_ERR.FENCED c {} 2 9 3).setCap := by
      rw [hmod, Chip.fenceChannel_eq hopen hmirror]
    refine ⟨_, s.next_after heq, ?_, ?_, ?_⟩
    · rw [State.after_chip, Chip.rd_refresh _ (hshown _ (by simp [mcShown])), Chip.setCap,
        Chip.rd_wr_ne _ _ (mcShown_apart c hc _ (by simp [mcShown])).2.2.2,
        Chip.rd_mcErr_ne _ _ _ _ _ _ _ (by simp only [Fld.key, Dom.code]; omega) hreport hinfo]
      exact (Chip.rd_congr (k := s.chip.wr (MC_STATUS.STATE c) 5) rfl _).trans (Chip.rd_wr_self _ _ _)
    · rw [State.after_chip, Chip.rd_refresh _ (hshown _ (by simp [mcShown])), Chip.setCap,
        Chip.rd_wr_ne _ _ (mcShown_apart c hc _ (by simp [mcShown])).2.2.2]
      exact Chip.rd_mcErr_self _ _ _ _ _ _ _ rfl hfreport hfinfo
    · rw [State.after_chip, Chip.refresh_mc, Chip.setCap, Chip.wr_mc, Chip.mcErr_mc, Chip.channelOut, Chip.channel_setCh]
  · have htaken : (s.chip.creditTaken c).rd (MC_SCRUB_POS.LINE c) = s.chip.rd (MC_SCRUB_POS.LINE c) := rfl
    obtain ⟨regs, hfold, hpos, honly⟩ := Chip.scrubSteps (c := c) 8 (k := s.chip.creditTaken c) hpoison hlines hwidth
    have heq : s.chip.scrub (c % 16) [] = (s.chip.creditTaken c).withRegs regs := by
      rw [hmod, Chip.scrub_eq hstate hup (by omega) hcredit, hfold]
    have hmoved : ((s.chip.creditTaken c).withRegs regs).refresh.rd (MC_SCRUB_POS.LINE c) =
        s.chip.rd (MC_SCRUB_POS.LINE c) + 8 := by
      rw [Chip.rd_refresh _ (hshown _ (by simp [mcShown])), hpos, htaken]
    have hcredited : (Tbl.get {} ((s.chip.creditTaken c).withRegs regs).refresh.mc.ch c).scrubCredit =
        (Tbl.get {} s.chip.mc.ch c).scrubCredit - 8 * 2 ^ 32 := by
      rw [Chip.refresh_mc, Chip.withRegs_mc, Chip.credit_creditTaken]
    exact ⟨_, s.next_after heq, hmoved, hcredited, Chip.refresh_out _, s.sameMemory_after rfl,
      (Chip.OnlyRegs.trans (.of_eq rfl) honly).after⟩
  · obtain ⟨hreport, hinfo⟩ := herr (MC_ERR.LINK_RETRY c) (by simp [mcShown])
    have heq := (congrArg s.chip.alert hmod).trans (Chip.alert_replays hopen hfew)
    refine ⟨_, s.next_after heq, ?_, ?_, by simp⟩
    · rw [State.after_chip, Chip.rd_refresh _ (hshown _ (by simp [mcShown]))]
      exact Chip.rd_mcErr_self _ _ _ _ _ _ _ rfl hreport hinfo
    · rw [State.after_chip, Chip.refresh_mc, Chip.emit_mc, Chip.channel_setCh]

end Sys2Proof.Machine
end

section
/-!
PROOFS. The on-die networks (13): flits on their way and at their destination, fences, new tables and bridge errors.
-/

namespace Sys2Proof.Machine

/-! ### Events of a network (R334, R411) -/

theorem Chip.nocErr_eq (k : Chip) (f : Fld) (d cls action info0 status : Nat) : k.nocErr f d cls action info0 status =
    k.raiseNew f { cls := cls, unitType := 7, unit := d, cause := f.lo, action := action, status := status, info0 := info0 } :=
  rfl

theorem nocFields_apart : ∀ d < 13, ∀ f ∈ [NOC_ERR.LINK_REPLAY d, NOC_CNT.REPLAYS d, NOC_STATUS.ROUTE_GEN d],
    f.key ∉ shownFields.map Fld.key ∧ f.key ∉ reportFields.map Fld.key := by decide +kernel

/-! ### A good flit on its way (R324, R326) -/

/-- The machine with the networks' state `n`. -/
def Chip.withNoc (k : Chip) (n : Noc) : Chip := { k with noc := n }

/-- A good flit is acknowledged, then accepted or sent on; interfaces and fences stay. -/
theorem Chip.flitReceived_good (k : Chip) (d stop : Nat) (f : Flit) : ∃ n : Noc, n.nis = k.noc.nis ∧ n.dies = k.noc.dies ∧
    k.flitReceived d stop f true = if 256 * d + stop == f.dst then (k.withNoc n).niAccept (256 * d + stop) f
      else (k.withNoc n).forward (256 * d + stop) f :=
  let key := ((256 * d + stop) * 4 + f.net % 4) * 4 + f.vc % 4
  let j : Chip := { k with noc := { k.noc with resends := Tbl.set 0 k.noc.resends key 0 } }
  ⟨(j.ackFlit (256 * d + stop) f).noc, rfl, rfl, rfl⟩

theorem Chip.forward_onward {k : Chip} {r n : Nat} {link : Option Nat} {f : Flit} (hroute : f.route = [])
    (hnext : k.nextHop r f.src f.dst = some (n, link)) (hlinks : (k.nocDie (r / 256)).links = [])
    (hrouters : (k.nocDie (r / 256)).routers = []) : k.forward r f = k.sendFlit r n f := by
  unfold Chip.forward
  rw [hroute]
  dsimp only
  rw [hnext]
  dsimp only
  rw [hlinks, hrouters]
  exact if_neg (by cases link <;> simp)

/-! ### A flit at its destination (R325) -/

theorem wrapSub_self {a b : Nat} (h : a % 1024 = b) : wrapSub a b 10 = 0 := by
  subst h
  unfold wrapSub
  omega

/-- The machine with interface `key` in the state `x`. -/
def Chip.withNi (k : Chip) (key : Nat) (x : Ni) : Chip :=
  { k with noc := { k.noc with nis := Tbl.set {} k.noc.nis key x } }

theorem Chip.countFlit_frame (k : Chip) (d net : Nat) : ∃ free pm, k.countFlit d net = { k with free := free, pm := pm } := by
  unfold Chip.countFlit
  dsimp only [Chip.fresh]
  obtain ⟨pm₁, h₁⟩ := Chip.count_frame { k with free := k.free + 1 } 4 d (net % 4) 1
  rw [h₁]
  obtain ⟨pm₂, h₂⟩ := Chip.count_frame { k with free := k.free + 1, pm := pm₁ } 4 d 7 (Config.freeNat k.free % 2)
  rw [h₂]
  exact ⟨_, _, rfl⟩

/-- R325: the flit that is expected next is held for delivery. -/
theorem Chip.niAccept_expected {k : Chip} {r : Nat} {f : Flit}
    (h : f.seq % 1024 = (Tbl.get {} k.noc.nis (niKey r f.net f.src)).expect) : ∃ free pm,
    k.niAccept r f = Chip.withNi { k with free := free, pm := pm } (niKey r f.net f.src)
      { Tbl.get {} k.noc.nis (niKey r f.net f.src) with
        holding := Tbl.set none (Tbl.get {} k.noc.nis (niKey r f.net f.src)).holding (f.seq % 1024) (some f) } := by
  obtain ⟨free, pm, hcount⟩ := k.countFlit_frame (r / 256) f.net
  refine ⟨free, pm, ?_⟩
  unfold Chip.niAccept
  dsimp only
  rw [wrapSub_self h]
  refine (if_neg (by decide)).trans ((if_pos rfl).trans ?_)
  rw [if_neg (by decide), hcount]
  rfl

/-- R325: an interface that holds only the next flit delivers it. -/
theorem Chip.niDeliver_one {k : Chip} {r key q : Nat} {f : Flit}
    (h : Tbl.get {} k.noc.nis key = { expect := q, holding := [(q, some f)] }) :
    k.niDeliver r key 1 = (k.withNi key { expect := (q + 1) % 1024, holding := [] }).emit
      (.noc "DELIVER" (r / 256) (r % 256) f.data) := by
  have hfound : Tbl.get none [(q, some f)] q = some f := by simp [Tbl.get, Tbl.find]
  have hgone : Tbl.set none [(q, some f)] q none = [] := by simp [Tbl.set, Tbl.erase]
  simp only [Chip.niDeliver, h, hfound, hgone]
  rfl

theorem Chip.flitDeliver_one {k : Chip} {d stop net src q : Nat} {f : Flit}
    (h : Tbl.get {} k.noc.nis (niKey (256 * d + stop) net src) = { expect := q, holding := [(q, some f)] })
    (hqueue : (Tbl.get {} k.noc.routers (256 * d + stop)).queue = []) :
    k.flitDeliver d stop net src = ((k.withNi (niKey (256 * d + stop) net src)
      { expect := (q + 1) % 1024, holding := [] }).emit
        (.noc "DELIVER" ((256 * d + stop) / 256) ((256 * d + stop) % 256) f.data)).setRouter (256 * d + stop)
          fun x => { x with queue := [] } := by
  unfold Chip.flitDeliver
  dsimp only
  rw [h, List.length_singleton, Chip.niDeliver_one h, Chip.emit_noc,
    show (k.withNi (niKey (256 * d + stop) net src) { expect := (q + 1) % 1024, holding := [] }).noc.routers =
      k.noc.routers from rfl, hqueue, List.foldl_nil]

/-! ### Fences and tables (R328) -/

@[simp] theorem Chip.nocDie_setNocDie (k : Chip) (d : Nat) (f : NocDie → NocDie) :
    (k.setNocDie d f).nocDie d = f (k.nocDie d) := Tbl.get_mod_self _ _ _ _

theorem Chip.nocDie_setNocDie_ne (k : Chip) {d e : Nat} (f : NocDie → NocDie) (h : e ≠ d) :
    (k.setNocDie d f).nocDie e = k.nocDie e := Tbl.get_mod_ne _ _ _ _ h

@[simp] theorem Chip.nocDie_refresh (k : Chip) (d : Nat) : k.refresh.nocDie d = k.nocDie d := by
  rw [Chip.nocDie, Chip.refresh_noc]

/-- R328: without flits in replay buffers nothing is sent again. -/
theorem Chip.resendFrom_idle {k : Chip} (h : k.noc.routers = []) (r : Nat) : k.resendFrom r = k := by
  unfold Chip.resendFrom
  rw [h]
  rfl

theorem Chip.resendAll_idle {α : Type} {k : Chip} (h : k.noc.routers = []) (rs : List α) (r : α → Nat) :
    rs.foldl (fun k a => k.resendFrom (r a)) k = k := by
  induction rs with
  | nil => rfl
  | cons a rs ih => rw [List.foldl_cons, Chip.resendFrom_idle h, ih]

/-- The machine with a link of die `d` fenced. -/
def Chip.linkFenced (k : Chip) (d link : Nat) : Chip :=
  k.setNocDie d fun x => { x with links := x.links ++ [link], newLinks := x.newLinks ++ [k.due link 0] }

theorem Chip.linkFail_new {k : Chip} {d link : Nat} (hnew : link ∉ (k.nocDie d).links) (hidle : k.noc.routers = []) :
    k.linkFail d link = k.linkFenced d link :=
  (if_neg (by simpa using hnew)).trans
    (Chip.resendAll_idle (k := k.linkFenced d link) hidle (linkEnds d link) fun s => 256 * d + s)

/-- The machine with a router of die `d` fenced, and with it the links to it. -/
def Chip.routerOut (k : Chip) (d stop : Nat) : Chip :=
  k.setNocDie d fun x => { x with
    routers := x.routers ++ [stop], newRouters := x.newRouters ++ [k.due stop 0]
    links := x.links ++ ((stopLinks d stop).map (·.1)).filter fun l => !x.links.contains l
    newLinks := x.newLinks ++ (((stopLinks d stop).map (·.1)).filter fun l => !x.links.contains l).map (k.due · 0) }

theorem Chip.routerFail_new {k : Chip} {d stop : Nat} (hnew : stop ∉ (k.nocDie d).routers) (hidle : k.noc.routers = []) :
    k.routerFail d stop = k.routerOut d stop :=
  (if_neg (by simpa using hnew)).trans
    (Chip.resendAll_idle (k := k.routerOut d stop) hidle (stopLinks d stop) fun e => 256 * d + e.2)

theorem mem_append_missing {l : Nat} {xs ys : List Nat} (h : l ∈ ys) : l ∈ xs ++ ys.filter fun y => !xs.contains y := by
  by_cases hx : l ∈ xs <;> simp [h, hx]

/-- The machine with the compiled tables of die `d` in force. -/
def Chip.tablesIn (k : Chip) (d : Nat) : Chip :=
  ((k.wr (NOC_STATUS.ROUTE_GEN d) (k.rd (NOC_STATUS.ROUTE_GEN d) + 1)).setNocDie d fun x => { x with
    compiling := false, tableReady := false, holding := false }).emit (.noc "TABLES" d 0 0)

theorem Chip.nocDie_tablesIn (k : Chip) (d : Nat) : (k.tablesIn d).nocDie d =
    { k.nocDie d with compiling := false, tableReady := false, holding := false } := by
  rw [Chip.tablesIn, Chip.nocDie, Chip.emit_noc, ← Chip.nocDie, Chip.nocDie_setNocDie, Chip.nocDie, Chip.wr_noc]

theorem Chip.tablesIn_regs (k : Chip) (d : Nat) :
    (k.tablesIn d).regs = (k.wr (NOC_STATUS.ROUTE_GEN d) (k.rd (NOC_STATUS.ROUTE_GEN d) + 1)).regs := rfl

theorem Chip.installRoutes_held {k : Chip} {d : Nat} (h : (k.nocDie d).holding = true) : k.installRoutes d = k.tablesIn d :=
  if_neg (by simp [h])

theorem Chip.bridgeError_tile {k : Chip} {t : Nat} (d : Nat) (h : (k.tile t).hart = none) : k.bridgeError d (.tile t) =
    (k.nocErr (NOC_ERR.BRIDGE d) d 2 9 0 0).setTile t fun x => { x with failed := true } := by
  have hsame : ((k.nocErr (NOC_ERR.BRIDGE d) d 2 9 0 0).tile t).hart = none := by
    rw [Chip.nocErr_eq, Chip.tile, Chip.raiseNew_tiles, h]
  unfold Chip.bridgeError
  dsimp only
  rw [hsame]

/-- R324: a bad flit is sent again, counted and reported. -/
theorem Chip.flitReceived_bad (k : Chip) {d : Nat} (hd : d < 13) (stop : Nat) (f : Flit) :
    (k.flitReceived d stop f false).rd (NOC_ERR.LINK_REPLAY d) = 1 ∧
    (k.flitReceived d stop f false).rd (NOC_CNT.REPLAYS d) = satAdd (k.rd (NOC_CNT.REPLAYS d)) 1 32 % 2 ^ 32 := by
  obtain ⟨-, hreport⟩ := nocFields_apart d hd (NOC_ERR.LINK_REPLAY d) (by simp)
  obtain ⟨-, hcreport⟩ := nocFields_apart d hd (NOC_CNT.REPLAYS d) (by simp)
  have hne : (NOC_CNT.REPLAYS d).key ≠ (NOC_ERR.LINK_REPLAY d).key := by
    simp only [Fld.key, Dom.code]
    omega
  unfold Chip.flitReceived
  dsimp only
  rw [if_pos (by rfl), Chip.nocErr_eq]
  refine ⟨Chip.rd_raiseNew_self _ _ _ rfl hreport, (Chip.rd_raiseNew_ne _ _ _ hne hcreport).trans ?_⟩
  rw [Chip.rd_bump_self, Chip.count_rd, Nat.mod_eq_of_lt (satAdd_lt _ _ _)]
  rfl

/-- Settles O32: flits by what their router does with them, fences and tables by the state of their die's networks. -/
theorem networkFlits : Obligations.NetworkFlits := by
  have hplace : ∀ d stop : Nat, stop < 256 → (256 * d + stop) / 256 = d ∧ (256 * d + stop) % 256 = stop := by omega
  refine ⟨?_, ?_, ?_, ?_, ?_, ?_, ?_, ?_, ?_, ?_⟩
  · intro s d stop net vc n link f _ hstop hroute hdst hnext hlinks hrouters
    obtain ⟨hd, -⟩ := hplace d stop hstop
    obtain ⟨m, hnis, hdies, hreceived⟩ := s.chip.flitReceived_good d stop { f with net := net, vc := vc }
    have hdie : (s.chip.withNoc m).nocDie d = s.chip.nocDie d := congrArg (Tbl.get {} · d) hdies
    have hsent := Chip.forward_onward (k := s.chip.withNoc m) (r := 256 * d + stop) (f := { f with net := net, vc := vc })
      hroute hnext (by rw [hd, hdie, hlinks]) (by rw [hd, hdie, hrouters])
    rw [if_neg (by simpa using Ne.symm hdst), hsent] at hreceived
    exact ⟨_, s.next_after hreceived, Chip.refresh_out _, (congrArg Noc.nis (Chip.refresh_noc _)).trans hnis,
      (congrArg Noc.dies (Chip.refresh_noc _)).trans hdies, s.sameMemory_after rfl, s.sameRegs_after rfl⟩
  · intro s d stop net vc f _ hstop hdst hseq
    obtain ⟨m, hnis, -, hreceived⟩ := s.chip.flitReceived_good d stop { f with net := net, vc := vc }
    rw [← hnis] at hseq ⊢
    obtain ⟨free, pm, haccept⟩ := Chip.niAccept_expected (k := s.chip.withNoc m) (r := 256 * d + stop)
      (f := { f with net := net, vc := vc }) hseq
    rw [if_pos (by simp [hdst]), haccept] at hreceived
    refine ⟨_, s.next_after hreceived, ?_, Chip.refresh_out _, s.sameMemory_after rfl, s.sameRegs_after rfl⟩
    rw [State.after_chip, Chip.refresh_noc]
    exact Tbl.get_set_self _ _ _ _
  · intro s d stop net src q f _ hstop hni hqueue
    obtain ⟨hd, hs⟩ := hplace d stop hstop
    have hdeliver := Chip.flitDeliver_one hni hqueue
    rw [hd, hs] at hdeliver
    refine ⟨_, s.next_after hdeliver, Chip.refresh_out _, ?_, s.sameMemory_after rfl, s.sameRegs_after rfl⟩
    rw [State.after_chip, Chip.refresh_noc]
    exact Tbl.get_set_self _ _ _ _
  · intro s d stop net vc f hd
    obtain ⟨herr, hcnt⟩ := s.chip.flitReceived_bad hd stop { f with net := net, vc := vc }
    exact ⟨_, rfl, (Chip.rd_refresh _ (nocFields_apart d hd _ (by simp)).1).trans herr,
      (Chip.rd_refresh _ (nocFields_apart d hd _ (by simp)).1).trans hcnt⟩
  · intro s d link hnew hidle
    refine ⟨_, s.next_after (Chip.linkFail_new hnew hidle), ?_, fun e he => ?_, Chip.refresh_out _, s.sameMemory_after rfl,
      s.sameRegs_after rfl⟩
    · rw [State.after_chip, Chip.nocDie_refresh, Chip.linkFenced, Chip.nocDie_setNocDie]
    · rw [State.after_chip, Chip.nocDie_refresh, Chip.linkFenced, Chip.nocDie_setNocDie_ne _ _ he]
  · intro s d stop hnew hidle
    have hdie : (s.after (s.chip.routerOut d stop)).chip.nocDie d = _ :=
      (Chip.nocDie_refresh _ d).trans (Chip.nocDie_setNocDie _ _ _)
    refine ⟨_, s.next_after (Chip.routerFail_new hnew hidle), ?_, ?_, fun e he => ?_, fun e he => ?_, Chip.refresh_out _,
      s.sameMemory_after rfl, s.sameRegs_after rfl⟩
    · rw [hdie]
    · rw [hdie]
    · rw [hdie]
      exact mem_append_missing (List.mem_map_of_mem he)
    · rw [State.after_chip, Chip.nocDie_refresh, Chip.routerOut, Chip.nocDie_setNocDie_ne _ _ he]
  · intro s d
    refine ⟨s.after (s.chip.compileDone d), rfl, ?_, fun e he => ?_, s.sameMemory_after rfl, s.sameRegs_after rfl⟩
    · rw [State.after_chip, Chip.nocDie_refresh, Chip.compileDone, Chip.nocDie_setNocDie]
    · rw [State.after_chip, Chip.nocDie_refresh, Chip.compileDone, Chip.nocDie_setNocDie_ne _ _ he]
  · intro s d hd hholding
    refine ⟨_, s.next_after (Chip.installRoutes_held hholding), ?_, ?_, Chip.refresh_out _, s.sameMemory_after rfl, ?_⟩
    · rw [State.after_chip, Chip.nocDie_refresh, Chip.nocDie_tablesIn]
    · rw [State.after_chip, Chip.rd_refresh _ (nocFields_apart d hd _ (by simp)).1, Chip.rd_congr (Chip.tablesIn_regs _ _),
        Chip.rd_wr_self]
    · exact (((Chip.OnlyRegs.refl [NOC_STATUS.ROUTE_GEN d] s.chip).wr _ (by simp)).congr (Chip.tablesIn_regs _ _)).after
  · intro s d tl hhart
    exact s.next_after (Chip.bridgeError_tile d hhart)
  · intro s d p
    rfl

end Sys2Proof.Machine
end

section
/-!
PROOFS. The loss of a C-die (R315, R432): what the directory, the engines and the harts do then leaves the failover state of the
dies and the registers of the links and memory channels.
-/

namespace Sys2Proof.Machine

/-- `k'` has the dies' failover state of `k`, and reads the registers of the pages above 13, those of the networks, links and
memory channels among them, as `k` does (R570). -/
def Chip.SameLinks (k k' : Chip) : Prop :=
  k'.flt.dies = k.flt.dies ∧ ∀ f : Fld, 14 ≤ keyPage f.key → k'.rd f = k.rd f

/-- R304: the snoops of a request sent; it is finished where nothing is awaited. -/
def Chip.snoopOut (k : Chip) (l : Nat) (it : HomeItem) (waiting : List HomeItem) : Chip × Option Busy :=
  let (s, dies) := k.snoopsOf l it
  let k := (dies.foldl (fun k d => k.say s.name d l 0) k).countHome l 1 dies.length
  let need := match it.req with
    | .wrLine _ => !(k.coh.wrData.any fun w => w.1 == l)
    | _ => false
  let b : Busy := { item := it, before := k.homeLine l, awaiting := dies, needData := need, waiting := waiting }
  if !dies.isEmpty || need then (k, some b)
  else
    let (k, hold) := k.finishReq l b
    (k, if hold then some { b with granted := true } else none)

namespace Chip.SameLinks

theorem refl (k : Chip) : k.SameLinks k := ⟨rfl, fun _ _ => rfl⟩

theorem of_eq {k k' : Chip} (hr : k'.regs = k.regs) (hf : k'.flt = k.flt) : k.SameLinks k' :=
  ⟨congrArg Faults.dies hf, fun f _ => Chip.rd_congr hr f⟩

theorem of_dies {k k' : Chip} (hr : k'.regs = k.regs) (hf : k'.flt.dies = k.flt.dies) : k.SameLinks k' :=
  ⟨hf, fun f _ => Chip.rd_congr hr f⟩

theorem trans {k k' k'' : Chip} (h : k.SameLinks k') (h' : k'.SameLinks k'') : k.SameLinks k'' := by
  obtain ⟨hd, hr⟩ := h
  obtain ⟨hd', hr'⟩ := h'
  exact ⟨hd'.trans hd, fun f hf => (hr' f hf).trans (hr f hf)⟩

theorem of_onlyRegs {fs : List Fld} {k k' : Chip} (h : k.OnlyRegs fs k') (hfs : ∀ f ∈ fs, keyPage f.key < 14)
    (hf : k'.flt.dies = k.flt.dies) : k.SameLinks k' :=
  ⟨hf, fun g hg => h g fun hmem => by
    obtain ⟨f, hmem, hkey⟩ := List.mem_map.1 hmem
    have := hfs f hmem
    rw [hkey] at this
    omega⟩

/-- Either way of a choice. -/
theorem ite {c : Prop} [Decidable c] {k a b : Chip} (ha : k.SameLinks a) (hb : k.SameLinks b) :
    k.SameLinks (if c then a else b) := by
  split
  · exact ha
  · exact hb

theorem foldl {α : Type} {f : Chip → α → Chip} (hf : ∀ (k : Chip) (a : α), k.SameLinks (f k a)) (as : List α) (k : Chip) :
    k.SameLinks (as.foldl f k) :=
  List.foldlRecOn (motive := k.SameLinks) as f (refl k) fun j hj a _ => hj.trans (hf j a)

theorem log (k : Chip) (e : Ev) : k.SameLinks (k.log e) :=
  of_onlyRegs ((Chip.OnlyRegs.refl reportFields k).log e (List.Subset.refl _)) (by decide) (by rw [Chip.log_flt])

/-! ### The directory (R297, R302 to R308) -/

theorem countHome (k : Chip) (l j n : Nat) : k.SameLinks (k.countHome l j n) := by
  rw [Chip.countHome, Chip.count_eq]
  exact of_eq rfl rfl

theorem homePut (k : Chip) (l : Nat) (data : Option Bytes) (poison : Bool) : k.SameLinks (k.homePut l data poison) := by
  cases data <;> exact of_eq rfl rfl

theorem finishReq (k : Chip) (l : Nat) (b : Busy) : k.SameLinks (k.finishReq l b).1 := by
  rw [k.homeOnly_finishReq l b]
  exact of_eq rfl rfl

theorem wsErr (k : Chip) {f : Fld} (addr source : Nat) (hf : keyPage f.key < 14) : k.SameLinks (k.wsErr f addr source) :=
  of_onlyRegs (fs := f :: [WS_ERR_INFO.ADDR, WS_ERR_INFO.SOURCE, WS_ERR_INFO.EVENT] ++ reportFields)
    (((((Chip.OnlyRegs.refl _ k).raise (by simp)).wr _ (by simp)).wr _ (by simp)).wr _ (by simp) |>.log _
      (List.map_subset _ (List.subset_append_right _ _)))
    (by
      intro g hg
      rw [List.cons_append, List.mem_cons] at hg
      rcases hg with rfl | hg
      · exact hf
      · revert g
        decide)
    (by simp [Chip.wsErr])

theorem refuse (k : Chip) (l : Nat) (it : HomeItem) : k.SameLinks (k.refuse l it) := by
  refine (wsErr k (64 * l) it.who.source (f := WS_ERR.VIOLATION) (by decide)).trans ?_
  unfold Chip.refuse
  dsimp only
  split <;> exact of_eq rfl rfl

theorem evictLine (k : Chip) (l d : Nat) : k.SameLinks (k.evictLine l d) := by
  unfold Chip.evictLine
  dsimp only
  split <;> exact of_eq rfl rfl

theorem takeEviction (k : Chip) (l : Nat) (it : HomeItem) (empty wb : Bool) :
    k.SameLinks (k.takeEviction l it empty wb).1 := by
  have hcleared : k.SameLinks
      (if empty then (k.evictLine l it.die).clearPresent l it.die else k.evictLine l it.die) :=
    ite ((evictLine k l it.die).trans (of_eq rfl rfl)) (evictLine k l it.die)
  refine hcleared.trans ?_
  unfold Chip.takeEviction
  dsimp only
  generalize (if empty then (k.evictLine l it.die).clearPresent l it.die else k.evictLine l it.die) = j
  have hstale : j.SameLinks (j.bump HA_STALE.COUNT 1) :=
    of_onlyRegs (fs := [HA_STALE.COUNT]) ((Chip.OnlyRegs.refl _ j).bump 1 (by simp)) (by decide) rfl
  rw [apply_ite Prod.fst, apply_ite Prod.fst]
  refine ite ((hstale.trans (countHome _ l 3 1)).trans (of_eq rfl rfl)) (ite (refl j) ?_)
  exact SameLinks.trans (k' := if j.homeLine l == .owned it.die then j.setHomeLine l .none else j)
    (ite (of_eq rfl rfl) (refl j)) (of_eq rfl rfl)

theorem asServed (k : Chip) (l : Nat) (it : HomeItem) : k.SameLinks (k.asServed l it).2 := by
  unfold Chip.asServed
  split
  · rw [apply_ite Prod.snd]
    exact ite (refl k) (refl k)
  · next op size _ _ _ =>
    have hpredicted : k.SameLinks (k.predictAmo l it.die op size).2 := of_eq rfl rfl
    rw [apply_ite Prod.snd]
    exact ite (hpredicted.trans (countHome _ l 5 1)) (hpredicted.trans (countHome _ l 4 1))
  · exact refl k

theorem dirVictim (k : Chip) (l : Nat) : k.SameLinks (k.dirVictim l).2 := by
  unfold Chip.dirVictim
  dsimp only
  split
  · exact refl k
  · split <;> exact of_eq rfl rfl

theorem scDemand (k : Chip) (l : Nat) : k.SameLinks (k.scDemand l) := by
  unfold Chip.scDemand
  split
  · unfold Chip.demandMiss
    dsimp only
    split
    · exact refl k
    · split <;> exact of_eq rfl rfl
  · exact refl k

theorem snoopOut (k : Chip) (l : Nat) (it : HomeItem) (waiting : List HomeItem) :
    k.SameLinks (k.snoopOut l it waiting).1 := by
  have hsay : ∀ (i : Chip) (x : Nat), i.SameLinks (i.say (k.snoopsOf l it).1.name x l 0) := fun _ _ => of_eq rfl rfl
  have hsaid : k.SameLinks (((k.snoopsOf l it).2.foldl (fun k' d => k'.say (k.snoopsOf l it).1.name d l 0) k).countHome l 1
      (k.snoopsOf l it).2.length) := (foldl hsay _ k).trans (countHome _ l 1 _)
  unfold Chip.snoopOut
  dsimp only
  rw [apply_ite Prod.fst]
  exact ite hsaid (hsaid.trans (finishReq _ l _))

theorem startReq (k : Chip) (l : Nat) (it : HomeItem) (waiting : List HomeItem) :
    k.SameLinks (k.startReq l it waiting).1 := by
  unfold Chip.startReq
  split
  · exact refuse k l it
  · split
    · exact takeEviction ..
    · exact takeEviction ..
    · have hserved := asServed k l it
      generalize k.asServed l it = served at hserved ⊢
      obtain ⟨it', j⟩ := served
      dsimp only at hserved ⊢
      have hvictim : j.SameLinks (if it'.req.needsEntry then j.dirVictim l else (none, j)).2 := by
        split
        · exact dirVictim j l
        · exact refl j
      generalize (if it'.req.needsEntry then j.dirVictim l else (none, j)) = room at hvictim ⊢
      obtain ⟨victim, i⟩ := room
      dsimp only at hvictim ⊢
      refine (hserved.trans hvictim).trans ?_
      cases victim with
      | some v => exact refl i
      | none =>
        refine SameLinks.trans ?_ (snoopOut _ l it' waiting)
        split
        · exact scDemand i l
        · exact scDemand i l
        · exact scDemand i l
        · exact refl i

theorem serveHome (l : Nat) (its : List HomeItem) (k : Chip) : k.SameLinks (k.serveHome l its) := by
  induction its generalizing k with
  | nil => exact of_eq rfl rfl
  | cons it rest ih =>
    have hstart := startReq k l it rest
    unfold Chip.serveHome
    generalize k.startReq l it rest = started at hstart
    obtain ⟨j, b⟩ := started
    cases b with
    | some b => exact hstart.trans (of_eq rfl rfl)
    | none => exact hstart.trans (ih j)

theorem pokeHome (k : Chip) (l : Nat) : k.SameLinks (k.pokeHome l) := by
  unfold Chip.pokeHome
  split
  · exact refl k
  · next b _ =>
    dsimp only
    split
    · exact refl k
    · split
      · exact (finishReq k l b).trans (of_eq rfl rfl)
      · exact (finishReq k l b).trans (serveHome l _ _)

theorem releaseLine (k : Chip) (l : Nat) : k.SameLinks (k.releaseLine l) := by
  unfold Chip.releaseLine
  split
  · exact refl k
  · exact serveHome l _ k

theorem dropSector (k : Chip) (d v : Nat) : k.SameLinks (k.dropSector d v) := by
  unfold Chip.dropSector
  refine SameLinks.trans (of_eq rfl rfl) (foldl (fun j i => ?_) _ (k.clearPresent (8 * v) d))
  dsimp only
  split
  · split
    · exact of_eq rfl rfl
    · exact refl j
  · split
    · exact refl j
    · split
      · exact (homePut j _ _ _).trans (of_eq rfl rfl)
      · exact of_eq rfl rfl
  · exact refl j

theorem dropDie (k : Chip) (d : Nat) : k.SameLinks (k.dropDie d) := by
  unfold Chip.dropDie
  dsimp only
  refine SameLinks.trans ?_ (foldl (fun j l => ?_) _ _)
  · have hdropped : k.SameLinks (k.coh.dir.map (·.1) |>.foldl (fun (k : Chip) v => k.dropSector d v)
        { k with coh := { k.coh with lost := d :: k.coh.lost.filter (· != d) } }) :=
      SameLinks.trans (of_eq rfl rfl) (foldl (fun j v => dropSector j d v) _ _)
    exact hdropped.trans (of_eq rfl rfl)
  · split
    · exact refl j
    · split
      · split
        · exact releaseLine j l
        · exact (homePut j l _ _).trans (releaseLine _ l)
      · exact pokeHome j l

/-! ### Engines and harts (R432, R435, R459) -/

theorem logEngine (k : Chip) (e cause : Nat) (second : Bool) : k.SameLinks (k.logEngine e cause second) := by
  unfold Chip.logEngine
  dsimp only
  split <;> exact log k _

theorem replaySeg (k : Chip) (e : Nat) : k.SameLinks (k.replaySeg e) := by
  have hjob : ∀ (j : Chip) (c : Nat) (f : Job → Job), j.SameLinks (j.setJob c f) := fun j c f => by
    unfold Chip.setJob
    split <;> exact of_eq rfl rfl
  have hregion : ∀ (j : Chip) (c : Nat), j.SameLinks (j.holdRegion c) := fun j c => by
    unfold Chip.holdRegion
    split <;> exact of_eq rfl rfl
  unfold Chip.replaySeg
  split
  · exact refl k
  · dsimp only
    refine SameLinks.trans ?_ (hregion _ _)
    exact (SameLinks.trans (of_eq rfl rfl) (hjob (k.setEngine e _) _ _)).trans (of_eq rfl rfl)

theorem engineFail (k : Chip) (e cause : Nat) (second : Bool) : k.SameLinks (k.engineFail e cause second) := by
  unfold Chip.engineFail
  split
  · exact refl k
  · exact ((logEngine k e cause second).trans (replaySeg _ e)).trans (of_eq rfl rfl)

theorem engineGone (k : Chip) (e : Nat) (second : Bool) : k.SameLinks (k.engineGone e second) := by
  unfold Chip.engineGone
  split
  · exact engineFail k e 0xFF second
  · exact of_eq rfl rfl

theorem beginRestart (k : Chip) : k.SameLinks k.beginRestart :=
  of_onlyRegs k.onlyRegs_beginRestart (by decide) (by rw [Chip.beginRestart_flt])

theorem secureRestart (k : Chip) (cause : Nat) : k.SameLinks (k.secureRestart cause) := by
  unfold Chip.secureRestart
  split
  · exact log k _
  · exact (of_onlyRegs (fs := [WS_RESTART.CAUSE]) ((Chip.OnlyRegs.refl _ k).wr cause (by simp)) (by decide) rfl).trans
      (beginRestart _)

theorem hartsLost (k : Chip) (d : Nat) (second : Bool) : k.SameLinks (k.hartsLost d second) := by
  unfold Chip.hartsLost
  refine foldl (fun j h => ?_) _ k
  dsimp only
  split
  · exact refl j
  · split
    · refine SameLinks.trans ?_ (secureRestart _ 3)
      exact of_dies rfl rfl
    · exact of_dies rfl rfl

end Chip.SameLinks

/-! ### The die and its ports (R357, R432) -/

theorem Chip.fencePort_flt (k : Chip) (p : Nat) : (k.fencePort p).flt = k.flt := by
  unfold Chip.fencePort
  split <;> rfl

theorem Chip.rd_fencePort_ne (k : Chip) {p : Nat} {f : Fld} (h : f.key ≠ (BL_STATUS.STATE p).key) :
    (k.fencePort p).rd f = k.rd f := by
  unfold Chip.fencePort
  split
  · rfl
  · exact (Chip.rd_congr (k := k.wr (BL_STATUS.STATE p) 0) rfl f).trans (k.rd_wr_ne 0 h)

/-- R432: a C-die that is lost is so in its failover state; of the registers of the links and memory channels only the states of
its two ports change. -/
theorem Chip.dieLost_lost {k : Chip} {d : Nat} (cause : Nat) (second : Bool) (hin : (k.dieState d).inService = true)
    (hlost : (k.dieState d).lost = false) :
    (k.dieLost d cause second).dieState d = { k.dieState d with
      lost := true, cause := cause, walk := true, lostAt := k.now, autoDue := true, step := 0, planned := false } ∧
    ∀ f : Fld, 14 ≤ keyPage f.key → f.key ≠ (BL_STATUS.STATE (2 * d)).key → f.key ≠ (BL_STATUS.STATE (2 * d + 1)).key →
      (k.dieLost d cause second).rd f = k.rd f := by
  unfold Chip.dieLost
  dsimp only
  rw [if_neg (by simp [hin, hlost])]
  generalize hmarked : k.setDie d _ = j
  generalize hlogged : j.log _ = i
  have hlog : j.SameLinks i := hlogged ▸ Chip.SameLinks.log j _
  have hrest := ((((Chip.SameLinks.dropDie ((i.fencePort (2 * d)).fencePort (2 * d + 1)) d).trans
    (Chip.SameLinks.engineGone _ (2 * d) second)).trans (Chip.SameLinks.engineGone _ (2 * d + 1) second)).trans
    (Chip.SameLinks.hartsLost _ d second))
  obtain ⟨hdies, hregs⟩ := hrest
  refine ⟨?_, fun f hf h0 h1 => ?_⟩
  · rw [Chip.dieState, hdies, Chip.fencePort_flt, Chip.fencePort_flt, hlog.1, ← Chip.dieState, ← hmarked, Chip.dieState_setDie]
  · rw [hregs f hf, Chip.rd_fencePort_ne _ h1, Chip.rd_fencePort_ne _ h0, hlog.2 f hf, ← hmarked]
    rfl

end Sys2Proof.Machine
end

section
/-!
PROOFS. The Bilum links (14): link starts, retransmission and credits, and what fails and is repaired.
-/

namespace Sys2Proof.Machine

/-! ### The registers and the state of a port (R359, R361) -/

/-- The fields of port `p` of which a statement speaks. -/
def blShown (p : Nat) : List Fld :=
  [BL_STATUS.STATE p, BL_STATUS.WIDTH p, BL_STATUS.STEP p, BL_STATUS.GEN p, BL_STATUS.SB_SET p, BL_HASH.HUB p, BL_HASH.DIE p,
    BL_CTRL.ENABLE p, BL_ERR.REPLAY p, BL_ERR.PORT_FAILED p, BL_ERR.CLK_SILENT p, BL_ERR.SB_SET p, BL_ERR.MAP_REJECT p]

theorem blShown_apart : ∀ p < 24, ∀ f ∈ blShown p,
    f.key ∉ shownFields.map Fld.key ∧ f.key ∉ reportFields.map Fld.key := by decide +kernel

theorem Chip.blErr_eq (k : Chip) (f : Fld) (p cls action info0 status : Nat) : k.blErr f p cls action info0 status =
    k.raiseNew f { cls := cls, unitType := 8, unit := p, cause := f.lo, action := action, status := status, info0 := info0 } :=
  rfl

section
variable (k : Chip) (p : Nat) (f : BPort → BPort)

@[simp] theorem Chip.bport_setBport : (k.setBport p f).bport p = f (k.bport p) := Tbl.get_mod_self _ _ _ _
@[simp] theorem Chip.setBport_regs : (k.setBport p f).regs = k.regs := rfl
@[simp] theorem Chip.setBport_mem : (k.setBport p f).mem = k.mem := rfl
@[simp] theorem Chip.setBport_out : (k.setBport p f).out = k.out := rfl
@[simp] theorem Chip.setBport_flt : (k.setBport p f).flt = k.flt := rfl
@[simp] theorem Chip.rd_setBport (g : Fld) : (k.setBport p f).rd g = k.rd g := rfl
@[simp] theorem Chip.on_setBport (g : Fld) : (k.setBport p f).on g = k.on g := rfl
@[simp] theorem Chip.linkStarting_setBport (q : Nat) : (k.setBport p f).linkStarting q = k.linkStarting q := rfl
@[simp] theorem Chip.bport_refresh (q : Nat) : k.refresh.bport q = k.bport q := by rw [Chip.bport, Chip.refresh_bl]
@[simp] theorem Chip.bport_wr (g : Fld) (v q : Nat) : (k.wr g v).bport q = k.bport q := rfl
@[simp] theorem Chip.bport_emit (o : Out) (q : Nat) : (k.emit o).bport q = k.bport q := rfl

end

theorem Chip.linkStarting_state {k : Chip} {p : Nat} (h : k.linkStarting p = true) :
    k.rd (BL_STATUS.STATE p) = 1 ∨ k.rd (BL_STATUS.STATE p) = 2 := by simpa [Chip.linkStarting] using h

/-! ### Link starts (R346 to R352) -/

/-- R348: the generation of a link whose peer is a C-die with GEN_MAX 1. -/
theorem linkGeneration_one {m : SbIdent} (hdie : m.fromDie = true) (hmax : m.genMax = 1) (hmin : m.genMin ≤ 1) :
    linkGeneration m = some 1 := by
  have : ¬ 1 < m.genMin := by omega
  simp [linkGeneration, hdie, hmax, this]

/-- The machine with the IDENT of a C-die taken. -/
def Chip.identTaken (k : Chip) (p g hash : Nat) : Chip :=
  (((k.setBport p fun x => { x with tries := 0 }).wr (BL_STATUS.GEN p) g).wr (BL_HASH.DIE p) hash).wr (BL_STATUS.STEP p) 3

theorem Chip.onlyRegs_identTaken (k : Chip) (p g hash : Nat) :
    k.OnlyRegs [BL_STATUS.GEN p, BL_STATUS.STEP p, BL_HASH.DIE p] (k.identTaken p g hash) :=
  (((Chip.OnlyRegs.of_eq (Chip.setBport_regs k p _)).wr _ (by simp)).wr _ (by simp)).wr _ (by simp)

section
variable {k : Chip} {p : Nat} (hstart : k.linkStarting p = true)
include hstart

theorem Chip.sbIdent_fromDie {m : SbIdent} {g : Nat} (hgen : linkGeneration m = some g) (hdie : m.fromDie = true) :
    k.sbIdent p m = k.identTaken p g (if m.retained then m.hash else 0) := by
  simp [Chip.sbIdent, hstart, hgen, hdie, Chip.identTaken]

theorem Chip.sbIdent_mismatch {m : SbIdent} (hgen : linkGeneration m = none) :
    k.sbIdent p m = (k.wr (BL_STATUS.STATE p) 0).blErr (BL_ERR.GEN_MISMATCH p) p 0 9 m.genMax := by
  simp [Chip.sbIdent, hstart, hgen]

/-- R352: the announcement of a repair's map is adopted. -/
theorem Chip.mapAnnounce_adopted (w : Nat) (map : List Nat) : k.mapAnnounce p w map 1 =
    ((k.setBport p fun x => { x with retained := some (w, map) }).wr (BL_STATUS.STEP p) 8).emit
      (.sideband p "MAP_ADOPT" (mapHash map)) := by
  have hup : k.rd (BL_STATUS.STATE p) ≠ 4 := by
    rcases Chip.linkStarting_state hstart with h | h <;> simp [h]
  simp [Chip.mapAnnounce, hup, hstart]

theorem Chip.testDone_ok :
    k.testDone p true = (k.setBport p fun x => { x with tries := 0 }).wr (BL_STATUS.STEP p) 9 := by
  simp [Chip.testDone, hstart]

/-- The machine with the streams of port `p` started. -/
def Chip.streamsStarted (k : Chip) (p w : Nat) : Chip :=
  (((k.resetStreams p).wr (BL_STATUS.STATE p) 3).wr (BL_STATUS.STEP p) 9).wr (BL_STATUS.WIDTH p) w

theorem Chip.creditInit_full (hwidth : (k.bport p).width = 0) :
    k.creditInit p = (k.streamsStarted p 0).setDieBeat (p / 2) fun d => { d with fullDue := true } := by
  simp [Chip.creditInit, hstart, hwidth, Chip.streamsStarted, Chip.setDieBeat]

end

theorem Chip.mapAdopt_agrees {k : Chip} {p hash : Nat} (hhub : hash % 2 ^ 32 = k.rd (BL_HASH.HUB p))
    (hdie : k.linkStarting p = true → k.rd (BL_HASH.DIE p) = k.rd (BL_HASH.HUB p)) :
    k.mapAdopt p hash = k.setBport p fun x => { x with tries := 0 } :=
  if_neg (by
    simp only [Chip.rd_setBport, Chip.linkStarting_setBport, hhub, Bool.or_eq_true, Bool.and_eq_true, bne_iff_ne]
    rintro (h | ⟨hstart, hne⟩)
    · exact h rfl
    · exact hne (hdie hstart))

theorem Chip.mapAdopt_differs {k : Chip} {p hash : Nat} (hhub : hash % 2 ^ 32 ≠ k.rd (BL_HASH.HUB p)) : k.mapAdopt p hash =
    (k.setBport p fun x => { x with tries := 0 }).blErr (BL_ERR.MAP_MISMATCH p) p 0 0 hash :=
  if_pos (by
    rw [Chip.rd_setBport, Bool.or_eq_true, bne_iff_ne]
    exact .inl hhub)

theorem Chip.rd_emit (k : Chip) (o : Out) (f : Fld) : (k.emit o).rd f = k.rd f := rfl

/-- The registers of a port at the start of a full training. -/
def Chip.trainingShown (k : Chip) (p : Nat) : Chip := (k.wr (BL_STATUS.STATE p) 1).wr (BL_STATUS.STEP p) 1

theorem Chip.rd_trainingShown (k : Chip) (p : Nat) :
    (k.trainingShown p).rd (BL_STATUS.STATE p) = 1 ∧ (k.trainingShown p).rd (BL_STATUS.STEP p) = 1 ∧
    k.OnlyRegs [BL_STATUS.STATE p, BL_STATUS.STEP p] (k.trainingShown p) := by
  refine ⟨?_, ?_, ((Chip.OnlyRegs.refl _ k).wr _ (by simp)).wr _ (by simp)⟩
  · rw [Chip.trainingShown, Chip.rd_wr_ne _ _ (by simp only [Fld.key, Dom.code]; omega), Chip.rd_wr_self]
    rfl
  · rw [Chip.trainingShown, Chip.rd_wr_self]
    rfl

theorem Chip.startLink_trains {k : Chip} {p : Nat} (h : k.on (BL_CTRL.ENABLE p) = true) :
    ∃ f, k.startLink p false = ((k.setBport p f).trainingShown p).emit (.sideband p "LINK_START" 0) :=
  ⟨_, if_neg (by simp [h])⟩

/-- R349: what the machine shows after a full training has started. -/
theorem Chip.rd_startLink {k : Chip} {p : Nat} (h : k.on (BL_CTRL.ENABLE p) = true) :
    (k.startLink p false).rd (BL_STATUS.STATE p) = 1 ∧ (k.startLink p false).rd (BL_STATUS.STEP p) = 1 ∧
    k.OnlyRegs [BL_STATUS.STATE p, BL_STATUS.STEP p] (k.startLink p false) ∧ (k.startLink p false).mem = k.mem ∧
    (k.startLink p false).out = .sideband p "LINK_START" 0 :: k.out := by
  obtain ⟨f, hlink⟩ := Chip.startLink_trains h
  obtain ⟨hstate, hstep, honly⟩ := (k.setBport p f).rd_trainingShown p
  rw [hlink, Chip.rd_emit, Chip.rd_emit]
  exact ⟨hstate, hstep, ((Chip.OnlyRegs.of_eq (Chip.setBport_regs k p f)).trans honly).congr (Chip.emit_regs _ _), rfl, rfl⟩

theorem Chip.sbTimeout_resends {k : Chip} {p : Nat} (h : (k.bport p).tries < 8) : k.sbTimeout p =
    (k.setBport p fun x => { x with tries := x.tries + 1 }).emit (.sideband p "RESEND" ((k.bport p).tries + 1)) :=
  if_neg (by omega)

/-- Settles O33: each message of a link start by its equation. -/
theorem bilumLinkStarts : Obligations.BilumLinkStarts := by
  intro s p hp
  have hshown : ∀ f ∈ blShown p, f.key ∉ shownFields.map Fld.key := fun f hf => (blShown_apart p hp f hf).1
  refine ⟨?_, ?_, ?_, ?_, ?_, ?_, ?_, ?_, ?_⟩
  · intro m hstart hdie hmax hmin
    refine ⟨_, s.next_after (Chip.sbIdent_fromDie hstart (linkGeneration_one hdie hmax hmin) hdie), ?_, ?_, ?_,
      s.sameMemory_after rfl, ?_⟩
    · rw [State.after_chip, Chip.rd_refresh _ (hshown _ (by simp [blShown])), Chip.identTaken,
        Chip.rd_wr_ne _ _ (by simp only [Fld.key, Dom.code]; omega), Chip.rd_wr_ne _ _ (by simp only [Fld.key, Dom.code]; omega),
        Chip.rd_wr_self]
      rfl
    · rw [State.after_chip, Chip.rd_refresh _ (hshown _ (by simp [blShown])), Chip.identTaken, Chip.rd_wr_self]
      rfl
    · rw [State.after_chip, Chip.rd_refresh _ (hshown _ (by simp [blShown])), Chip.identTaken,
        Chip.rd_wr_ne _ _ (by simp only [Fld.key, Dom.code]; omega), Chip.rd_wr_self]
    · exact (s.chip.onlyRegs_identTaken p 1 _).after
  · intro m hstart hgen
    exact s.next_after (Chip.sbIdent_mismatch hstart hgen)
  · intro w map hstart
    refine ⟨_, s.next_after (Chip.mapAnnounce_adopted hstart w map), by simp, ?_, by simp, s.sameMemory_after rfl, ?_⟩
    · rw [State.after_chip, Chip.rd_refresh _ (hshown _ (by simp [blShown])), Chip.rd_emit, Chip.rd_wr_self]
      rfl
    · exact (((Chip.OnlyRegs.of_eq (Chip.setBport_regs s.chip p _)).wr _ (by simp)).congr (Chip.emit_regs _ _)).after
  · intro hash hhub hdie
    exact s.next_after (Chip.mapAdopt_agrees hhub hdie)
  · intro hash hhub
    exact s.next_after (Chip.mapAdopt_differs hhub)
  · intro wires henable
    obtain ⟨-, hreport⟩ := blShown_apart p hp (BL_ERR.MAP_REJECT p) (by simp [blShown])
    obtain ⟨-, hereport⟩ := blShown_apart p hp (BL_CTRL.ENABLE p) (by simp [blShown])
    have henable' : (s.chip.blErr (BL_ERR.MAP_REJECT p) p 0 0 wires.length).on (BL_CTRL.ENABLE p) = true := by
      rw [← henable, Chip.on, Chip.blErr_eq, Chip.rd_raiseNew_ne _ _ _ (by simp only [Fld.key, Dom.code]; omega) hereport,
        Chip.on]
    obtain ⟨hstate, hstep, honly, -, hout⟩ := Chip.rd_startLink henable'
    refine ⟨s.after (s.chip.mapReject p wires), rfl, ?_, ?_, ?_, ?_⟩
    · rw [State.after_chip, Chip.rd_refresh _ (hshown _ (by simp [blShown]))]
      exact hstate
    · rw [State.after_chip, Chip.rd_refresh _ (hshown _ (by simp [blShown]))]
      exact hstep
    · rw [State.after_chip, Chip.rd_refresh _ (hshown _ (by simp [blShown]))]
      refine (honly _ ?_).trans (Chip.rd_raiseNew_self _ _ _ rfl hreport)
      simp only [List.map_cons, List.map_nil, List.mem_cons, List.not_mem_nil, or_false, Fld.key, Dom.code]
      omega
    · rw [State.after_chip, Chip.refresh_out, Chip.mapReject, hout]
      rfl
  · intro hstart
    refine ⟨_, s.next_after (Chip.testDone_ok hstart), ?_, by simp, s.sameMemory_after rfl, ?_⟩
    · rw [State.after_chip, Chip.rd_refresh _ (hshown _ (by simp [blShown])), Chip.rd_wr_self]
      rfl
    · exact ((Chip.OnlyRegs.of_eq (Chip.setBport_regs s.chip p _)).wr _ (by simp)).after
  · intro hstart hwidth
    have hregs : ((s.chip.streamsStarted p 0).setDieBeat (p / 2) fun d => { d with fullDue := true }).regs =
        (s.chip.streamsStarted p 0).regs := rfl
    refine ⟨_, s.next_after (Chip.creditInit_full hstart hwidth), ?_, ?_, ?_, ?_, s.sameMemory_after rfl, ?_⟩
    · rw [State.after_chip, Chip.rd_refresh _ (hshown _ (by simp [blShown])), Chip.rd_congr hregs, Chip.streamsStarted,
        Chip.rd_wr_ne _ _ (by simp only [Fld.key, Dom.code]; omega), Chip.rd_wr_ne _ _ (by simp only [Fld.key, Dom.code]; omega),
        Chip.rd_wr_self]
      rfl
    · rw [State.after_chip, Chip.rd_refresh _ (hshown _ (by simp [blShown])), Chip.rd_congr hregs, Chip.streamsStarted,
        Chip.rd_wr_ne _ _ (by simp only [Fld.key, Dom.code]; omega), Chip.rd_wr_self]
      rfl
    · rw [State.after_chip, Chip.rd_refresh _ (hshown _ (by simp [blShown])), Chip.rd_congr hregs, Chip.streamsStarted,
        Chip.rd_wr_self]
      rfl
    · rw [State.after_chip, Chip.refresh_beat, Chip.setDieBeat, Tbl.get_mod_self]
    · exact (Chip.OnlyRegs.congr (k' := s.chip.streamsStarted p 0)
        ((((Chip.OnlyRegs.of_eq (k' := s.chip.resetStreams p) rfl).wr _ (by simp)).wr _ (by simp)).wr _ (by simp)) hregs).after
  · intro htries
    exact s.next_after (Chip.sbTimeout_resends htries)

end Sys2Proof.Machine
end

section
/-!
PROOFS. The Bilum links (14): flits and credits of the lane groups, wires, blocks and ports that fail, the silence of a die.
-/

namespace Sys2Proof.Machine

/-! ### Lane groups (R340 to R342) -/

/-- Lane group `key`. -/
abbrev Chip.group (k : Chip) (key : Nat) : BGroup := Tbl.get {} k.bl.groups key

@[simp] theorem Chip.group_setGroup (k : Chip) (key : Nat) (f : BGroup → BGroup) :
    (k.setGroup key f).group key = f (k.group key) := Tbl.get_mod_self _ _ _ _

/-- R543: the flits of a link counted, or none. -/
theorem Chip.bilumFlit_eq (k : Chip) (p dir net : Nat) (crcOk idle : Bool) (cls : Nat) : ∃ pm,
    k.bilumFlit p dir net crcOk idle cls = Chip.setGroup { k with pm := pm } (groupKey p dir net) fun g =>
      if !crcOk then { g with discarding := true, sent := if idle then g.sent else (g.sent + 1) % 256 }
      else if idle then g
      else { g with
        sent := (g.sent + 1) % 256
        received := if g.discarding then g.received else (g.received + 1) % 256 } := by
  unfold Chip.bilumFlit
  dsimp only
  split
  · rw [Chip.count_eq]
    exact ⟨_, rfl⟩
  · exact ⟨k.pm, rfl⟩

/-- The machine with lane group `key` back at its first unacknowledged flit. -/
def Chip.rewound (k : Chip) (key : Nat) : Chip :=
  k.setGroup key fun g => { g with sent := g.acked, received := g.acked, resends := g.resends + 1, discarding := false }

theorem Chip.resendGroup_eq {k : Chip} {p dir net : Nat}
    (hsent : wrapSub (k.group (groupKey p dir net)).sent (k.group (groupKey p dir net)).acked 8 ≠ 0)
    (hfew : (k.group (groupKey p dir net)).resends < 8) : k.resendGroup p dir net =
      ((((k.rewound (groupKey p dir net)).bump (BL_CNT.REPLAYS p)
        (wrapSub (k.group (groupKey p dir net)).sent (k.group (groupKey p dir net)).acked 8)).blErr (BL_ERR.REPLAY p) p 0 1
          net).emit (.sideband p "FLIT_RESEND" (groupKey p dir net))) :=
  (if_neg (by simpa using hsent)).trans (if_neg (Nat.not_le.2 hfew))

/-- R341, R342: the machine with a good credit frame of lane group `key` taken. -/
def Chip.creditsTaken (k : Chip) (bad key word : Nat) : Chip :=
  let put := fun (t : Tbl Nat) vc => Tbl.set 0 t (4 * key + vc) (bits word (2 + 5 * vc) 5)
  let acked := (bits word 17 8 + 1) % 256
  Chip.setGroup { k with bl := { k.bl with
    badCredit := Tbl.set 0 k.bl.badCredit bad 0
    credits := put (put (put k.bl.credits 0) 1) 2 } } key fun g => { g with
      acked := acked, resends := if acked == g.acked then g.resends else 0 }

theorem Chip.creditsTaken_credits (k : Chip) (bad key word : Nat) :
    ∀ vc < 3, Tbl.get 0 (k.creditsTaken bad key word).bl.credits (4 * key + vc) = bits word (2 + 5 * vc) 5 := by
  intro vc hvc
  have hput : ∀ (t : Tbl Nat) (u v : Nat), vc ≠ u → Tbl.get 0 (Tbl.set 0 t (4 * key + u) v) (4 * key + vc) =
      Tbl.get 0 t (4 * key + vc) := fun t u v h => Tbl.get_set_ne _ _ _ _ (by omega)
  unfold Chip.creditsTaken Chip.setGroup
  dsimp only
  obtain rfl | rfl | rfl : vc = 2 ∨ vc = 1 ∨ vc = 0 := by omega
  · exact Tbl.get_set_self _ _ _ _
  · rw [hput _ _ _ (by decide)]
    exact Tbl.get_set_self _ _ _ _
  · rw [hput _ _ _ (by decide), hput _ _ _ (by decide)]
    exact Tbl.get_set_self _ _ _ _

/-- R341: the frame speaks of the groups of the other direction. -/
theorem groupKey_other (p dir net : Nat) : groupKey p (1 - (1 - dir % 2) % 2) net = groupKey p dir net := by
  unfold groupKey
  omega

theorem Chip.creditFrame_good {k : Chip} {p dir word : Nat} (hcrc : crc6 (bits word 0 26) = bits word 26 6)
    (hmore : bit word 25 = false) : k.creditFrame p (1 - dir % 2) word =
      k.creditsTaken (2 * p + (1 - dir % 2) % 2) (groupKey p dir (bits word 0 2)) word := by
  refine (if_neg (by simp [hcrc])).trans ?_
  dsimp only
  rw [groupKey_other, if_neg (by simp [hmore])]
  rfl

/-- The machine with a bad credit frame counted. -/
def Chip.badFrame (k : Chip) (bad : Nat) : Chip :=
  { k with bl := { k.bl with badCredit := Tbl.set 0 k.bl.badCredit bad (Tbl.get 0 k.bl.badCredit bad + 1) } }

theorem Chip.badFrame_badCredit (k : Chip) (bad : Nat) :
    Tbl.get 0 (k.badFrame bad).bl.badCredit bad = Tbl.get 0 k.bl.badCredit bad + 1 := by
  unfold Chip.badFrame
  dsimp only
  rw [Tbl.get_set_self]

theorem Chip.creditFrame_bad {k : Chip} {p dir word : Nat} (hcrc : crc6 (bits word 0 26) ≠ bits word 26 6)
    (hfew : Tbl.get 0 k.bl.badCredit (2 * p + dir % 2) < 15) : k.creditFrame p dir word = k.badFrame (2 * p + dir % 2) :=
  (if_pos (by simpa using hcrc)).trans (if_neg (by omega))

/-! ### Wires, blocks and ports (R349, R355 to R359) -/

theorem mem_added {α : Type} [BEq α] [LawfulBEq α] (xs : List α) (a : α) : a ∈ if xs.contains a then xs else xs ++ [a] := by
  split
  · next h => simpa using h
  · simp

theorem Chip.wireReport_training {k : Chip} {p dir wire errs : Nat} (hstate : k.rd (BL_STATUS.STATE p) = 1) (herrs : 0 < errs) :
    ∃ f g, k.wireReport p dir wire errs = ((k.bump (BL_CNT.PATTERN_ERRS p) errs).setBport p f).setBport p g ∧
      ∀ x : BPort, (dir, wire) ∈ (g x).failed := by
  have hstate' : (k.bump (BL_CNT.PATTERN_ERRS p) errs).rd (BL_STATUS.STATE p) = 1 := by
    rw [Chip.rd_bump_ne _ _ (by simp only [Fld.key, Dom.code]; omega), hstate]
  refine ⟨fun x => { x with tries := 0 },
    fun x => { x with failed := if x.failed.contains (dir, wire) then x.failed else x.failed ++ [(dir, wire)] }, ?_,
    fun x => mem_added _ _⟩
  exact if_pos (by rw [Chip.rd_setBport, hstate']; simp [herrs])

theorem otherPort_ne (p : Nat) : otherPort p ≠ p := by
  unfold otherPort
  split <;> simp only [beq_iff_eq] at * <;> omega

/-- R357: a port that fails while the other has not leaves its traffic to it. -/
theorem Chip.portFail_alone {k : Chip} {p : Nat} (hp : p < 24) (hstate : k.rd (BL_STATUS.STATE p) ≠ 4)
    (hother : k.rd (BL_STATUS.STATE (otherPort p)) ≠ 4) : (k.portFail p).rd (BL_STATUS.STATE p) = 4 ∧
    (k.portFail p).rd (BL_ERR.PORT_FAILED p) = 1 ∧ ((k.portFail p).bport p).swapDue = false ∧ (k.portFail p).flt = k.flt := by
  obtain ⟨-, hsreport⟩ := blShown_apart p hp (BL_STATUS.STATE p) (by simp [blShown])
  obtain ⟨-, hreport⟩ := blShown_apart p hp (BL_ERR.PORT_FAILED p) (by simp [blShown])
  have hoff : otherPort p < 24 := by
    unfold otherPort
    split <;> simp only [beq_iff_eq] at * <;> omega
  obtain ⟨-, horeport⟩ := blShown_apart _ hoff (BL_STATUS.STATE (otherPort p)) (by simp [blShown])
  have hne := otherPort_ne p
  generalize hq : otherPort p = q at hother hne horeport
  unfold Chip.portFail
  dsimp only
  rw [if_neg (by simpa using hstate), hq]
  generalize hcounted : (if k.rd (BL_STATUS.STATE p) == 1 then k.bump (BL_STATUS.ATTEMPTS p) 1 else k) = j
  have hkept : j.rd (BL_STATUS.STATE q) = k.rd (BL_STATUS.STATE q) ∧ j.flt = k.flt := by
    rw [← hcounted]
    split
    · exact ⟨Chip.rd_bump_ne _ _ (by simp only [Fld.key, Dom.code]; omega), rfl⟩
    · exact ⟨rfl, rfl⟩
  obtain ⟨hqstate, hflt⟩ := hkept
  rw [Chip.blErr_eq]
  have hup : ∀ e f, ((((j.wr (BL_STATUS.STATE p) 4).raiseNew (BL_ERR.PORT_FAILED p) e).setBport p f).rd (BL_STATUS.STATE q) ==
      4) = false := fun e f => by
    rw [Chip.rd_setBport, Chip.rd_raiseNew_ne _ _ _ (by simp only [Fld.key, Dom.code]; omega) horeport,
      Chip.rd_wr_ne _ _ (by simp only [Fld.key, Dom.code]; omega), hqstate]
    simpa using hother
  rw [if_neg (by rw [hup]; decide)]
  refine ⟨?_, Chip.rd_raiseNew_self _ _ _ rfl hreport, ?_, ?_⟩
  · rw [Chip.rd_setBport, Chip.rd_raiseNew_ne _ _ _ (by simp only [Fld.key, Dom.code]; omega) hsreport, Chip.rd_wr_self]
    rfl
  · rw [Chip.bport_setBport]
  · rw [Chip.setBport_flt, Chip.raiseNew_flt, Chip.wr_flt, hflt]

theorem Chip.retrainTimer_due {k : Chip} {p : Nat} (htimer : (k.bport p).timer = true) (hstate : k.rd (BL_STATUS.STATE p) = 4) :
    k.retrainTimer p = k.startLink p false := if_pos (by simp [htimer, hstate])

/-- The machine with the silence of both ports of die `d` reported. -/
def Chip.clocksSilent (k : Chip) (d : Nat) : Chip :=
  (k.blErr (BL_ERR.CLK_SILENT (2 * d)) (2 * d) 2 9 0).blErr (BL_ERR.CLK_SILENT (2 * d + 1)) (2 * d + 1) 2 9 0

theorem Chip.rd_clocksSilent (k : Chip) {d : Nat} (hd : 2 * d + 1 < 24) :
    (k.clocksSilent d).rd (BL_ERR.CLK_SILENT (2 * d)) = 1 ∧ (k.clocksSilent d).rd (BL_ERR.CLK_SILENT (2 * d + 1)) = 1 ∧
    (k.clocksSilent d).flt = k.flt := by
  obtain ⟨-, h0⟩ := blShown_apart (2 * d) (by omega) (BL_ERR.CLK_SILENT (2 * d)) (by simp [blShown])
  obtain ⟨-, h1⟩ := blShown_apart (2 * d + 1) hd (BL_ERR.CLK_SILENT (2 * d + 1)) (by simp [blShown])
  rw [Chip.clocksSilent, Chip.blErr_eq, Chip.blErr_eq]
  refine ⟨?_, Chip.rd_raiseNew_self _ _ _ rfl h1, ?_⟩
  · rw [Chip.rd_raiseNew_ne _ _ _ (by simp only [Fld.key, Dom.code]; omega) h0, Chip.rd_raiseNew_self _ _ _ rfl h0]
  · rw [Chip.raiseNew_flt, Chip.raiseNew_flt]

/-- The machine with sideband set `set` of port `p` failed. -/
def Chip.setOut (k : Chip) (p set : Nat) : Chip :=
  ((k.setBport p fun x => { x with setFail := if x.setFail.contains set then x.setFail else set :: x.setFail }).wr
    (BL_STATUS.SB_SET p) (1 - set % 2)).blErr (BL_ERR.SB_SET p) p 0 1 set

theorem Chip.setOut_setFail {k : Chip} {p : Nat} (set : Nat) (h : (k.bport p).setFail = []) :
    ((k.setOut p set).bport p).setFail = [set] := by
  rw [Chip.setOut, Chip.blErr_eq, Chip.bport, Chip.raiseNew_bl, ← Chip.bport, Chip.bport_wr, Chip.bport_setBport, h]
  rfl

theorem Chip.setFails_first {k : Chip} {p : Nat} (set : Nat) (h : (k.bport p).setFail = []) : k.setFails p set = k.setOut p set :=
  if_neg (show ¬ 2 ≤ ((k.setOut p set).bport p).setFail.length by simp [Chip.setOut_setFail set h])

/-- Settles O34: each event of a lane group and of a port by its equation; the silence of a die by what its loss keeps. -/
theorem bilumRetransmissionAndRepair : Obligations.BilumRetransmissionAndRepair := by
  refine ⟨fun s p dir net g hp hg => ⟨fun cls => ?_, fun cls => ?_, fun hsent hfew => ?_, fun word hcrc hmore hnet _ => ?_,
    fun word hcrc hfew => ?_⟩, fun s p hp => ⟨fun delay hup => ?_, fun dir wire => ?_, fun dir wire errs hstate herrs => ?_,
    fun dir block => ?_, fun hstate hother => ?_, fun htimer hstate henable => ?_, fun hup => ?_, fun d hd hin hlost => ?_,
    fun set hset => ?_⟩⟩
  · obtain ⟨pm, hflit⟩ := s.chip.bilumFlit_eq p dir net true false cls
    refine ⟨_, s.next_after hflit, ?_, s.sameMemory_after rfl, s.sameRegs_after rfl, Chip.refresh_out _⟩
    rw [State.after_chip, Chip.refresh_bl, hg]
    exact Chip.group_setGroup { s.chip with pm := pm } _ _
  · obtain ⟨pm, hflit⟩ := s.chip.bilumFlit_eq p dir net false false cls
    refine ⟨_, s.next_after hflit, ?_, s.sameMemory_after rfl, s.sameRegs_after rfl, Chip.refresh_out _⟩
    rw [State.after_chip, Chip.refresh_bl, hg]
    exact Chip.group_setGroup { s.chip with pm := pm } _ _
  · rw [hg] at hsent hfew ⊢
    obtain ⟨hshown, hreport⟩ := blShown_apart p hp (BL_ERR.REPLAY p) (by simp [blShown])
    refine ⟨_, s.next_after (Chip.resendGroup_eq hsent hfew), ?_, ?_, by simp⟩
    · rw [State.after_chip, Chip.refresh_bl, Chip.emit_bl, Chip.blErr_eq, Chip.raiseNew_bl, Chip.bump_bl]
      exact s.chip.group_setGroup _ _
    · rw [State.after_chip, Chip.rd_refresh _ hshown, Chip.rd_emit, Chip.blErr_eq]
      exact Chip.rd_raiseNew_self _ _ _ rfl hreport
  · have hframe := Chip.creditFrame_good (k := s.chip) (p := p) (dir := dir) hcrc hmore
    rw [hnet] at hframe
    refine ⟨_, s.next_after hframe, ?_, fun vc hvc => ?_, s.sameMemory_after rfl, s.sameRegs_after rfl, Chip.refresh_out _⟩
    · rw [State.after_chip, Chip.refresh_bl]
      exact congrArg BGroup.acked (Chip.group_setGroup _ _ _)
    · rw [State.after_chip, Chip.refresh_bl]
      exact Chip.creditsTaken_credits _ _ _ _ vc hvc
  · refine ⟨_, s.next_after (Chip.creditFrame_bad hcrc hfew), ?_, by simp [Chip.badFrame], by simp [Chip.badFrame],
      s.sameMemory_after rfl⟩
    rw [State.after_chip, Chip.refresh_bl]
    exact s.chip.badFrame_badCredit _
  · exact s.next_after (if_pos hup)
  · refine ⟨s.after (s.chip.wireFailed p dir wire), rfl, ?_, ?_, s.sameMemory_after rfl, s.sameRegs_after rfl,
      Chip.refresh_out _⟩
    · rw [State.after_chip, Chip.bport_refresh, Chip.wireFailed, Chip.bport_setBport]
      exact mem_added _ _
    · rw [State.after_chip, Chip.bport_refresh, Chip.wireFailed, Chip.bport_setBport]
  · obtain ⟨f, g', hreport, hfailed⟩ := Chip.wireReport_training (dir := dir) (wire := wire) hstate herrs
    refine ⟨_, s.next_after hreport, ?_, s.sameMemory_after rfl, ?_⟩
    · rw [State.after_chip, Chip.bport_refresh, Chip.bport_setBport]
      exact hfailed _
    · exact ((((Chip.OnlyRegs.refl _ s.chip).bump errs (by simp)).congr (Chip.setBport_regs _ _ _)).congr
        (Chip.setBport_regs _ _ _)).after
  · refine ⟨s.after (s.chip.blockLost p dir block), rfl, ?_, ?_, s.sameMemory_after rfl, s.sameRegs_after rfl,
      Chip.refresh_out _⟩
    · rw [State.after_chip, Chip.bport_refresh, Chip.blockLost, Chip.bport_setBport]
      exact mem_added _ _
    · rw [State.after_chip, Chip.bport_refresh, Chip.blockLost, Chip.bport_setBport]
  · obtain ⟨hfailed, herr, hswap, hflt⟩ := Chip.portFail_alone hp hstate hother
    exact ⟨_, rfl, (Chip.rd_refresh _ (blShown_apart p hp _ (by simp [blShown])).1).trans hfailed,
      (Chip.rd_refresh _ (blShown_apart p hp _ (by simp [blShown])).1).trans herr,
      (congrArg BPort.swapDue (Chip.bport_refresh _ p)).trans hswap, (Chip.refresh_flt _).trans hflt⟩
  · obtain ⟨htrains, hstep, honly, hmem, hout⟩ := Chip.rd_startLink henable
    exact ⟨_, s.next_after (Chip.retrainTimer_due htimer hstate),
      (Chip.rd_refresh _ (blShown_apart p hp _ (by simp [blShown])).1).trans htrains,
      (Chip.rd_refresh _ (blShown_apart p hp _ (by simp [blShown])).1).trans hstep, (Chip.refresh_out _).trans hout,
      s.sameMemory_after hmem, honly.after⟩
  · have hretrain : s.chip.retrainWrite p = s.chip.setBport p fun x => { x with retrainDue := true } := if_pos hup
    refine ⟨_, s.next_after hretrain, ?_, s.sameMemory_after rfl, s.sameRegs_after rfl⟩
    rw [State.after_chip, Chip.bport_refresh, Chip.bport_setBport]
  · obtain ⟨h0, h1, hflt⟩ := s.chip.rd_clocksSilent (d := d) (by omega)
    obtain ⟨hdie, hregs⟩ := Chip.dieLost_lost (k := s.chip.clocksSilent d) (d := d) 1 s.chip.recovering
      (by rw [Chip.dieState, hflt]; exact hin) (by rw [Chip.dieState, hflt]; exact hlost)
    have hkept : ∀ q, q = 2 * d ∨ q = 2 * d + 1 →
        ((s.chip.clocksSilent d).dieLost d 1 s.chip.recovering).refresh.rd (BL_ERR.CLK_SILENT q) =
          (s.chip.clocksSilent d).rd (BL_ERR.CLK_SILENT q) := fun q hq => by
      rw [Chip.rd_refresh _ (blShown_apart q (by omega) _ (by simp [blShown])).1]
      exact hregs _ (by rw [Fld.keyPage_key (by simp) (by simp)]; simp; omega) (by simp only [Fld.key, Dom.code]; omega)
        (by simp only [Fld.key, Dom.code]; omega)
    exact ⟨s.after ((s.chip.clocksSilent d).dieLost d 1 s.chip.recovering), rfl,
      by rw [State.after_chip, Chip.dieState_refresh]; exact congrArg Die.lost hdie,
      by rw [State.after_chip, Chip.dieState_refresh]; exact congrArg Die.cause hdie,
      (hkept _ (.inl rfl)).trans h0, (hkept _ (.inr rfl)).trans h1⟩
  · obtain ⟨hshown, hreport⟩ := blShown_apart p hp (BL_ERR.SB_SET p) (by simp [blShown])
    obtain ⟨hsshown, hsreport⟩ := blShown_apart p hp (BL_STATUS.SB_SET p) (by simp [blShown])
    refine ⟨_, s.next_after (Chip.setFails_first set hset), ?_, ?_, ?_⟩
    · rw [State.after_chip, Chip.rd_refresh _ hsshown, Chip.setOut, Chip.blErr_eq,
        Chip.rd_raiseNew_ne _ _ _ (by simp only [Fld.key, Dom.code]; omega) hsreport, Chip.rd_wr_self]
      exact Nat.mod_eq_of_lt (by change _ < 2; omega)
    · rw [State.after_chip, Chip.rd_refresh _ hshown, Chip.setOut, Chip.blErr_eq]
      exact Chip.rd_raiseNew_self _ _ _ rfl hreport
    · rw [State.after_chip, Chip.bport_refresh, Chip.setOut_setFail set hset]

end Sys2Proof.Machine
end

section
/-!
PROOFS. Failover (17): what a report leaves of Gunel and of the home-agent pairs, the replay of a segment, and the units that
fail and return.
-/

namespace Sys2Proof.Machine

/-! ### What the report of an event leaves (R498 to R500) -/

/-- `g'` has everything of `g` but what a report writes: the record number, the two logs and the lifetime counts. -/
def Gunel.Noted (g g' : Gunel) : Prop := g' = { g with seq := g'.seq, log := g'.log, nor := g'.nor, life := g'.life }

theorem Gunel.Noted.trans {g g' g'' : Gunel} (h : g.Noted g') (h' : g'.Noted g'') : g.Noted g'' := by
  unfold Gunel.Noted at *
  rw [h', h]

theorem Chip.countLife_noted (k : Chip) (e : Ev) : k.gn.Noted (k.countLife e).gn := by
  unfold Chip.countLife
  split
  · exact rfl
  · split <;> exact rfl

theorem Chip.logNew_noted (k : Chip) (e : Ev) : k.gn.Noted (k.logNew e).gn := by
  unfold Chip.logNew
  rw [(Chip.errorRing_gn_out _ _ _ _).1]
  exact rfl

theorem Chip.log_noted (k : Chip) (e : Ev) : k.gn.Noted (k.log e).gn := by
  refine (k.countLife_noted e).trans ?_
  unfold Chip.log
  dsimp only
  split
  · split
    · exact rfl
    · exact Chip.logNew_noted _ e
  · exact Chip.logNew_noted _ e

@[simp] theorem Chip.log_tests (k : Chip) (e : Ev) : (k.log e).gn.tests = k.gn.tests := by rw [k.log_noted e]

theorem Chip.store_pairs (k : Chip) (a : Nat) (bs : Bytes) : (k.store a bs).coh.pairs = k.coh.pairs := by
  have hline : ∀ (j : Chip) (l : Nat), (j.recallLine l).coh.pairs = j.coh.pairs := fun j l => by
    unfold Chip.recallLine
    split <;> rfl
  unfold Chip.store
  split
  · rfl
  · exact List.foldlRecOn (motive := fun j : Chip => j.coh.pairs = k.coh.pairs) _ _ rfl fun j hj l _ => (hline j l).trans hj

@[simp] theorem Chip.pair_log (k : Chip) (e : Ev) (n : Nat) : (k.log e).pair n = k.pair n := by
  obtain h | ⟨k₀, a, bs, hk₀, h⟩ := k.storesOnce_log e
  · rw [Chip.pair, h]
  · rw [Chip.pair, h, Chip.store_pairs, hk₀]

/-! ### Home-agent pairs (R436) -/

@[simp] theorem Chip.pair_refresh (k : Chip) (n : Nat) : k.refresh.pair n = k.pair n := by rw [Chip.pair, Chip.refresh_coh]

@[simp] theorem Chip.pair_setPair (k : Chip) (n : Nat) (f : Pair → Pair) : (k.setPair n f).pair n = f (k.pair n) :=
  Tbl.get_mod_self _ _ _ _

/-- R419, R421: a fault without redundancy stops the package, and leaves the pairs as they are. -/
theorem Chip.secondFault_fatal (k : Chip) (unitType unit cause n : Nat) :
    (k.secondFault unitType unit cause).flt.fatal = true ∧ (k.secondFault unitType unit cause).pair n = k.pair n := by
  have hpin : ∀ j : Chip, j.assertFault.flt = j.flt ∧ j.assertFault.coh = j.coh := fun j => by
    unfold Chip.assertFault
    split <;> exact ⟨rfl, rfl⟩
  rw [← k.pair_log { cls := 3, unitType := unitType, unit := unit, cause := cause, action := 12, status := 4 }]
  unfold Chip.secondFault
  generalize k.log _ = j
  unfold Chip.fatalStop
  split
  · next hfatal => exact ⟨hfatal, rfl⟩
  · dsimp only
    rw [Chip.pair, (hpin _).1, (hpin _).2, Chip.log_flt, ← Chip.pair, Chip.pair_log]
    exact ⟨rfl, rfl⟩

section
variable {k : Chip} {n : Nat} (hsound : (k.pair n).failed = false) (hfailing : (k.pair n).failing = false)
  (hserves : k.pairServes n = true)
include hsound hfailing hserves

/-- The machine in which pair `n` waits for its spare. -/
def Chip.pairWaits (k : Chip) (n : Nat) : Chip :=
  let j := k.setPair n fun q => { q with failing := true }
  { j with flt := { j.flt with pairsDue := j.flt.pairsDue ++ [k.due n 0] } }

theorem Chip.pairFails_spare (hspare : k.sparesLeft ≠ 0) : k.pairFails n = k.pairWaits n := by
  unfold Chip.pairFails
  dsimp only
  rw [if_neg (by simp [hsound, hfailing]), if_neg (by simp [hserves]), if_neg (by simpa using hspare)]
  rfl

theorem Chip.pairFails_last (hspare : k.sparesLeft = 0) :
    k.pairFails n = (k.setPair n fun q => { q with failed := true }).secondFault 4 n 0xFF := by
  unfold Chip.pairFails
  dsimp only
  rw [if_neg (by simp [hsound, hfailing]), if_neg (by simp [hserves]), if_pos (by simpa using hspare)]

end

/-! ### Ring-engine instances (R437) -/

/-- R437: the first of the two to be fenced leaves the other active. -/
theorem Chip.fenceInst_first {k : Chip} {i : Nat} (hfirst : k.re.fencedOther = false) (hi : i < 2) :
    (k.fenceInst i).re.fencedOther = true ∧ (k.fenceInst i).re.instanceB = (i == 0) ∧ (k.fenceInst i).rd RE_ERR.INSTANCE = 1 := by
  have hraised : (k.raise RE_ERR.INSTANCE).re = k.re := rfl
  have hlogged : ∀ j : Chip, (j.logTwin 2 i RE_ERR.INSTANCE.lo).re = j.re ∧
      (j.logTwin 2 i RE_ERR.INSTANCE.lo).rd RE_ERR.INSTANCE = j.rd RE_ERR.INSTANCE := fun j =>
    ⟨j.log_re _, (Chip.rd_congr (k := j.log _) rfl _).trans (j.log_rd _ (by decide))⟩
  have hactive : (k.raise RE_ERR.INSTANCE).activeInst = ofBool k.re.instanceB := rfl
  unfold Chip.fenceInst
  dsimp only
  rw [if_neg (by simp [hfirst]), (hlogged _).1, (hlogged _).2, hactive]
  refine ⟨rfl, ?_, ?_⟩
  · obtain rfl | rfl : i = 0 ∨ i = 1 := by omega
    all_goals cases h : k.re.instanceB <;> simp [ofBool, h]
  · refine Eq.trans ?_ (k.rd_raise_self (f := RE_ERR.INSTANCE) rfl)
    split <;> exact Chip.rd_congr rfl _

/-! ### Engines (R425, R430, R435) -/

@[simp] theorem Chip.engine_log (k : Chip) (ev : Ev) (e : Nat) : (k.log ev).engine e = k.engine e := by
  rw [Chip.engine, Chip.log_eng]

theorem Chip.logEngine_eq (k : Chip) (e cause : Nat) (second : Bool) : ∃ ev, k.logEngine e cause second = k.log ev := by
  unfold Chip.logEngine
  dsimp only
  split <;> exact ⟨_, rfl⟩

/-- R425: `k'` is `k` with the segment `sg` of engine `e` waiting to replay. -/
structure Chip.Replays (k k' : Chip) (e : Nat) (sg : Seg) : Prop where
  regs : k'.regs = k.regs
  engine : k'.engine e = { k.engine e with seg := none }
  job : (k'.job sg.job).state = .replaying
  waits : sg.job ∈ k'.re.replays

/-- The machine in which job `c` waits for a replay slot. -/
def Chip.replayWaits (k : Chip) (c : Nat) : Chip :=
  { k with re := { k.re with replays := k.re.replays.filter (· != c) ++ [c] } }

theorem Chip.mem_replayWaits (k : Chip) (c : Nat) : c ∈ (k.replayWaits c).re.replays :=
  List.mem_append_right _ List.mem_cons_self

theorem Chip.replaySeg_replays {k : Chip} {e : Nat} {sg : Seg} {j : Job} (hseg : (k.engine e).seg = some sg)
    (hjob : k.re.jobs.find sg.job = some j) : k.Replays (k.replaySeg e) e sg := by
  have hregion : ∀ (i : Chip) (c : Nat), (i.holdRegion c).regs = i.regs ∧ (i.holdRegion c).eng = i.eng ∧
      (i.holdRegion c).re = i.re := fun i c => by
    unfold Chip.holdRegion
    split <;> exact ⟨rfl, rfl, rfl⟩
  have hset : ∀ (i : Chip) (c : Nat) (f : Job → Job), (i.setJob c f).regs = i.regs ∧ (i.setJob c f).eng = i.eng := fun i c f => by
    unfold Chip.setJob
    split <;> exact ⟨rfl, rfl⟩
  have hseen : k.replaySeg e = (((k.setEngine e fun g => { g with seg := none }).setJob sg.job fun i => { i with
      state := .replaying, replayed := true, lastEngine := some e }).replayWaits sg.job).holdRegion sg.job := by
    unfold Chip.replaySeg
    rw [hseg]
    rfl
  rw [hseen]
  generalize hi : k.setEngine e _ = i
  have hused : i.jobUsed sg.job = true := by
    rw [← hi, Chip.jobUsed, Chip.setEngine_re, hjob]
    rfl
  generalize hm : (i.setJob sg.job _) = m
  obtain ⟨hmregs, hmeng⟩ := hm ▸ hset i sg.job _
  have hmjob : (m.job sg.job).state = .replaying := by rw [← hm, Chip.job_setJob _ hused]
  obtain ⟨hregs, heng, hre⟩ := hregion (m.replayWaits sg.job) sg.job
  refine ⟨hregs.trans (hmregs.trans (hi ▸ rfl)), ?_, ?_, ?_⟩
  · rw [Chip.engine, heng]
    change Tbl.get {} m.eng e = _
    rw [hmeng, ← hi]
    exact Chip.engine_setEngine k e _
  · rw [Chip.job, hre]
    exact hmjob
  · rw [hre]
    exact m.mem_replayWaits _

section
variable {k : Chip} {e : Nat} {sg : Seg} {j : Job} (hseg : (k.engine e).seg = some sg) (hjob : k.re.jobs.find sg.job = some j)
include hseg hjob

/-- R425, R433: the segment of engine `e` reported and replayed; the report is all that the registers can show. -/
theorem Chip.logEngine_replays (cause : Nat) (second : Bool) : ∃ i : Chip,
    i.Replays ((k.logEngine e cause second).replaySeg e) e sg ∧ i.engine e = k.engine e ∧
      ∀ f : Fld, f.key ∉ reportFields.map Fld.key → i.rd f = k.rd f := by
  obtain ⟨ev, hlog⟩ := k.logEngine_eq e cause second
  rw [hlog]
  exact ⟨k.log ev, Chip.replaySeg_replays (by rw [Chip.engine_log, hseg]) (by rw [Chip.log_re, hjob]), k.engine_log ev e,
    fun f hf => k.log_rd ev hf⟩

/-- R435: an engine that fails replays its segment and leaves dispatch. -/
theorem Chip.engineFail_replays (cause : Nat) (second : Bool) (hsound : (k.engine e).failed = false) :
    (k.engineFail e cause second).engine e = { k.engine e with
      seg := none, failed := true, inTest := false, suspect := false, inService := false } ∧
    ((k.engineFail e cause second).job sg.job).state = .replaying ∧ sg.job ∈ (k.engineFail e cause second).re.replays := by
  obtain ⟨i, hreplays, hengine, -⟩ := Chip.logEngine_replays hseg hjob cause second
  have hfail : k.engineFail e cause second = ((k.logEngine e cause second).replaySeg e).setEngine e fun g => { g with
      failed := true, inTest := false, suspect := false, inService := false } := if_neg (by simp [hsound])
  rw [hfail]
  refine ⟨?_, hreplays.job, hreplays.waits⟩
  rw [Chip.engine_setEngine, hreplays.engine, hengine]

/-- R430: the segment replays, and the moment of the error is kept. -/
theorem Chip.sramReplay_replays (cause : Nat) : (k.sramReplay e cause).engine e = { k.engine e with
      seg := none, sramError := some k.now } ∧
    ((k.sramReplay e cause).job sg.job).state = .replaying ∧ sg.job ∈ (k.sramReplay e cause).re.replays ∧
    ∀ f : Fld, f.key ∉ reportFields.map Fld.key → (k.sramReplay e cause).rd f = k.rd f := by
  obtain ⟨i, hreplays, hengine, hregs⟩ := Chip.logEngine_replays hseg hjob cause k.recovering
  have hnow : ((k.logEngine e cause k.recovering).replaySeg e).now = k.now :=
    (Chip.rd_congr hreplays.regs _).trans (hregs _ (by decide))
  have hreplay : k.sramReplay e cause = ((k.logEngine e cause k.recovering).replaySeg e).setEngine e fun g => { g with
      sramError := some ((k.logEngine e cause k.recovering).replaySeg e).now } := by
    unfold Chip.sramReplay
    rw [if_pos (by rw [hseg]; rfl)]
  rw [hreplay]
  refine ⟨?_, hreplays.job, hreplays.waits, fun f hf => ?_⟩
  · rw [Chip.engine_setEngine, hreplays.engine, hengine, hnow]
  · rw [← hregs f hf]
    exact Chip.rd_congr hreplays.regs f

end

section
variable {k : Chip} {e : Nat}

theorem Chip.engineSram_first (hfirst : (k.engine e).sramError = none) : k.engineSram e =
    (k.raise (AE_ERR.SRAM_UNCORRECTED e)).sramReplay e (AE_ERR.SRAM_UNCORRECTED e).lo := by
  unfold Chip.engineSram
  dsimp only
  rw [show ((k.raise (AE_ERR.SRAM_UNCORRECTED e)).engine e).sramError = none from hfirst]

theorem Chip.engineSram_second {b : Nat} (hb : (k.engine e).sramError = some b) (hsoon : k.now < b + 256) : k.engineSram e =
    (k.raise (AE_ERR.SRAM_UNCORRECTED e)).engineFail e (AE_ERR.SRAM_UNCORRECTED e).lo
      (k.raise (AE_ERR.SRAM_UNCORRECTED e)).recovering := by
  have hnow : (k.raise (AE_ERR.SRAM_UNCORRECTED e)).now = k.now :=
    k.rd_raise_ne (by simp only [Fld.key, Dom.code]; omega)
  unfold Chip.engineSram
  dsimp only
  rw [show ((k.raise (AE_ERR.SRAM_UNCORRECTED e)).engine e).sramError = some b from hb]
  exact if_pos (by rw [hnow]; exact hsoon)

end

/-! ### Self-tests (R438) -/

section
variable {k : Chip} {x : Test} (htests : k.gn.tests = [x]) (hrun : x.running = true)
include htests hrun

/-- The machine whose test queue is empty. -/
def Chip.noTests (k : Chip) : Chip := { k with gn := { k.gn with tests := [] } }

theorem Chip.testDoneFor_only (pass : Bool) : k.testDoneFor x.unitType x.unit pass =
    if pass then k.noTests.testPassed x else k.noTests.testFailed x := by
  unfold Chip.testDoneFor
  rw [htests, List.find?_cons_of_pos (by simp [hrun])]
  simp [Chip.noTests]

end

theorem Chip.testPassed_engine (k : Chip) {x : Test} (htype : x.unitType = 1) :
    (k.testPassed x).engine x.unit = { k.engine x.unit with inTest := false, suspect := false } ∧
    (k.testPassed x).gn.tests = k.gn.tests := by
  unfold Chip.testPassed Chip.logTest
  dsimp only
  rw [htype, Chip.engine_log, Chip.log_tests]
  exact ⟨Chip.engine_setEngine _ _ _, rfl⟩

theorem Chip.testFailed_engine (k : Chip) {x : Test} (htype : x.unitType = 1) (hunit : x.unit < 24) :
    (k.testFailed x).engine x.unit =
      { k.engine x.unit with inTest := false, suspect := false, failed := true, inService := false } ∧
    (k.testFailed x).rd (AE_ERR.SELFTEST_FAIL x.unit) = 1 ∧ (k.testFailed x).gn.tests = k.gn.tests := by
  have hreport : (AE_ERR.SELFTEST_FAIL x.unit).key ∉ reportFields.map Fld.key :=
    (show ∀ e < 24, (AE_ERR.SELFTEST_FAIL e).key ∉ reportFields.map Fld.key by decide +kernel) _ hunit
  unfold Chip.testFailed Chip.logTest
  dsimp only
  rw [htype, Chip.engine_log, Chip.log_tests, Chip.log_rd _ _ hreport]
  exact ⟨Chip.engine_setEngine _ _ _, Chip.rd_raise_self _ rfl, rfl⟩

theorem aeErr_apart : ∀ e < 24, ∀ f ∈ [AE_ERR.SRAM_UNCORRECTED e, AE_ERR.SELFTEST_FAIL e],
    f.key ∉ shownFields.map Fld.key ∧ f.key ∉ reportFields.map Fld.key := by decide +kernel

/-- Settles O40: each unit by its own equation; an engine's segment by `Chip.Replays`, a control stop by the loss of its die. -/
theorem unitsFailOver : Obligations.UnitsFailOver := by
  refine ⟨fun s n c hc hsound hfailing hserves => ?_, fun s i hfirst hi => ?_, fun s e sg j he hseg hjob => ?_,
    fun s d hd hin hlost => ?_, fun s e x he htests hrun htype hunit => ?_⟩
  · have hexec : exec c s = .next (s.after (s.chip.pairFails n)) := by
      rcases hc with rfl | rfl <;> rfl
    rw [hexec]
    refine ⟨fun hspare => ?_, fun hspare => ?_⟩
    · refine ⟨_, s.next_after (Chip.pairFails_spare hsound hfailing hserves hspare), ?_,
        congrArg Faults.pairsDue (Chip.refresh_flt _), s.sameMemory_after rfl, s.sameRegs_after rfl⟩
      rw [State.after_chip, Chip.pair_refresh]
      exact s.chip.pair_setPair n _
    · refine ⟨_, s.next_after (Chip.pairFails_last hsound hfailing hserves hspare), ?_, ?_⟩
      · rw [State.after_chip, Chip.pair_refresh, (Chip.secondFault_fatal _ _ _ _ n).2, Chip.pair_setPair]
      · rw [State.after_chip, Chip.refresh_flt, (Chip.secondFault_fatal _ _ _ _ n).1]
  · obtain ⟨hfenced, hactive, herr⟩ := Chip.fenceInst_first hfirst hi
    have hexec : s.chip.instFailover i true = s.chip.fenceInst i :=
      congrArg s.chip.fenceInst (Nat.mod_eq_of_lt hi)
    refine ⟨_, s.next_after hexec, ?_, ?_, (Chip.rd_refresh _ (by decide)).trans herr, ?_⟩
    · rw [State.after_chip, Chip.refresh_re, hfenced]
    · rw [State.after_chip, Chip.refresh_re, hactive]
    · refine ((s.chip.fenceInst i).rd_refresh_shown (p := (RE_STATUS.FENCED, ofBool (s.chip.fenceInst i).re.fencedOther))
        (List.mem_of_getElem? (i := 5) rfl)).trans ?_
      rw [hfenced]
      rfl
  · obtain ⟨hshown, hreport⟩ := aeErr_apart e he (AE_ERR.SRAM_UNCORRECTED e) (by simp)
    have hnow : (s.chip.raise (AE_ERR.SRAM_UNCORRECTED e)).now = s.chip.now :=
      s.chip.rd_raise_ne (by simp only [Fld.key, Dom.code]; omega)
    refine ⟨fun hfirst => ?_, fun b hb hsoon hsound => ?_, fun hsound => ?_⟩
    · obtain ⟨hengine, hstate, hwaits, hregs⟩ := Chip.sramReplay_replays (k := s.chip.raise (AE_ERR.SRAM_UNCORRECTED e))
        hseg hjob (AE_ERR.SRAM_UNCORRECTED e).lo
      refine ⟨_, s.next_after (Chip.engineSram_first hfirst), ?_, ?_, ?_, ?_, ?_, ?_⟩
      · rw [State.after_chip, Chip.engine_refresh, hengine]
      · rw [State.after_chip, Chip.engine_refresh, hengine, hnow]
      · rw [State.after_chip, Chip.engine_refresh, hengine]
        rfl
      · rw [State.after_chip, Chip.job_refresh, hstate]
      · rw [State.after_chip, Chip.refresh_re]
        exact hwaits
      · rw [State.after_chip, Chip.rd_refresh _ hshown, hregs _ hreport, Chip.rd_raise_self _ rfl]
    · obtain ⟨hengine, hstate, hwaits⟩ := Chip.engineFail_replays (k := s.chip.raise (AE_ERR.SRAM_UNCORRECTED e)) hseg hjob
        (AE_ERR.SRAM_UNCORRECTED e).lo (s.chip.raise (AE_ERR.SRAM_UNCORRECTED e)).recovering hsound
      refine ⟨_, s.next_after (Chip.engineSram_second hb hsoon), ?_, ?_, ?_⟩
      · rw [State.after_chip, Chip.engine_refresh, hengine]
      · rw [State.after_chip, Chip.engine_refresh, hengine]
      · rw [State.after_chip, Chip.job_refresh, hstate]
    · obtain ⟨hengine, hstate, hwaits⟩ := Chip.engineFail_replays hseg hjob 0xFF s.chip.recovering hsound
      refine ⟨s.after (s.chip.engineFail e 0xFF s.chip.recovering), rfl, ?_, ?_, ?_, ?_, ?_⟩
      · rw [State.after_chip, Chip.engine_refresh, hengine]
      · rw [State.after_chip, Chip.engine_refresh, hengine]
      · rw [State.after_chip, Chip.engine_refresh, hengine]
      · rw [State.after_chip, Chip.job_refresh, hstate]
      · rw [State.after_chip, Chip.refresh_re]
        exact hwaits
  · obtain ⟨hdie, -⟩ := Chip.dieLost_lost 5 s.chip.recovering hin hlost
    refine ⟨s.after (s.chip.dieLost d 5 s.chip.recovering), rfl, ?_, ?_, ?_⟩ <;>
      rw [State.after_chip, Chip.dieState_refresh, hdie]
  · subst hunit
    obtain ⟨hshown, -⟩ := aeErr_apart _ he (AE_ERR.SELFTEST_FAIL x.unit) (by simp)
    have hdone := fun pass => Chip.testDoneFor_only (k := s.chip) htests hrun pass
    rw [htype] at hdone
    obtain ⟨hpass, hptests⟩ := s.chip.noTests.testPassed_engine htype
    obtain ⟨hfail, herr, hftests⟩ := s.chip.noTests.testFailed_engine htype he
    refine ⟨⟨_, s.next_after (hdone true), ?_, ?_⟩, ⟨_, s.next_after (hdone false), ?_, ?_, ?_⟩⟩
    · rw [State.after_chip, Chip.engine_refresh]
      exact hpass
    · rw [State.after_chip, Chip.refresh_gn]
      exact hptests
    · rw [State.after_chip, Chip.engine_refresh]
      exact hfail
    · exact (Chip.rd_refresh _ hshown).trans herr
    · rw [State.after_chip, Chip.refresh_gn]
      exact hftests

end Sys2Proof.Machine
end

section
/-!
PROOFS. Power requests (19): a request at the register, and the decision at the beat boundary.
-/

namespace Sys2Proof.Machine

/-! ### The answer of PWR_CMD (R494) -/

/-- The machine with a request of PWR_CMD answered by `status`. -/
def Chip.answered (k : Chip) (status : Nat) : Chip := (k.wr PWR_CMD.STATUS status).wr PWR_CMD.GO 0

theorem Chip.pwrStatus_eq (k : Chip) {r : PwrReq} (status : Nat) (hsrc : r.src < 2) :
    k.pwrStatus r status = k.answered status := by
  obtain h | h : r.src = 0 ∨ r.src = 1 := by omega
  all_goals
    unfold Chip.pwrStatus
    rw [h]
    rfl

section
variable (k : Chip) (status : Nat)

@[simp] theorem Chip.answered_pwr : (k.answered status).pwr = k.pwr := rfl
@[simp] theorem Chip.answered_mc : (k.answered status).mc = k.mc := rfl
@[simp] theorem Chip.answered_harts : (k.answered status).harts = k.harts := rfl
@[simp] theorem Chip.answered_tiles : (k.answered status).tiles = k.tiles := rfl

theorem Chip.rd_answered_go : (k.answered status).rd PWR_CMD.GO = 0 := Chip.rd_wr_self _ _ _

theorem Chip.rd_answered_status : (k.answered status).rd PWR_CMD.STATUS = status % 16 := by
  rw [Chip.answered, Chip.rd_wr_ne _ _ (by decide), Chip.rd_wr_self]
  rfl

theorem Chip.rd_answered_ne {f : Fld} (hstatus : f.key ≠ PWR_CMD.STATUS.key) (hgo : f.key ≠ PWR_CMD.GO.key) :
    (k.answered status).rd f = k.rd f := by
  rw [Chip.answered, Chip.rd_wr_ne _ _ hgo, Chip.rd_wr_ne _ _ hstatus]

end

/-! ### A request at the register (R472, R485, R494) -/

/-- The machine with a request written to PWR_CMD. -/
def Chip.pwrWritten (k : Chip) (op target index : Nat) : Chip :=
  (((k.wr PWR_CMD.OP op).wr PWR_CMD.TARGET target).wr PWR_CMD.INDEX index).wr PWR_CMD.GO 1

theorem Chip.pwrCmd_going {k : Chip} {op target index src : Nat} (hsrc : src < 2) (hgo : k.on PWR_CMD.GO = true) :
    k.pwrCmd op target index src = k := (if_neg (by omega)).trans (if_pos hgo)

theorem Chip.pwrCmd_taken {k : Chip} {op target index src : Nat} (hsrc : src < 2) (hgo : k.on PWR_CMD.GO = false) :
    k.pwrCmd op target index src =
      (k.pwrWritten op target index).pwrRequest { op := op, target := target, index := index, src := src } :=
  (if_neg (by omega)).trans (if_neg (by simp [hgo]))

theorem Chip.gunelUp_pwrWritten (k : Chip) (op target index : Nat) : (k.pwrWritten op target index).gunelUp = k.gunelUp := by
  have hkept : ∀ f ∈ [GN_STATUS.RUNNING, CLK_STATUS.GUNEL_HB], (k.pwrWritten op target index).rd f = k.rd f := fun f hf => by
    obtain ⟨h1, h2, h3, h4⟩ := (show ∀ f ∈ [GN_STATUS.RUNNING, CLK_STATUS.GUNEL_HB], f.key ≠ PWR_CMD.GO.key ∧
      f.key ≠ PWR_CMD.INDEX.key ∧ f.key ≠ PWR_CMD.TARGET.key ∧ f.key ≠ PWR_CMD.OP.key by decide) f hf
    rw [Chip.pwrWritten, Chip.rd_wr_ne _ _ h1, Chip.rd_wr_ne _ _ h2, Chip.rd_wr_ne _ _ h3, Chip.rd_wr_ne _ _ h4]
  simp only [Chip.gunelUp, Chip.on, hkept _ (List.mem_cons_self), hkept _ (List.mem_cons_of_mem _ List.mem_cons_self)]

section
variable {k : Chip} {r : PwrReq}

theorem Chip.pwrRequest_unshaped (h : r.shaped = false) : k.pwrRequest r = k.pwrStatus r 5 := if_pos (by simp [h])

variable (hshaped : r.shaped = true)
include hshaped

theorem Chip.pwrRequest_busy (h : k.pwr.pkg.moving = true ∨ k.gunelUp = false) : k.pwrRequest r = k.pwrStatus r 1 :=
  (if_neg (by simp [hshaped])).trans (if_pos (by simpa using h))

theorem Chip.pwrRequest_beats (h : k.pwr.pkg = .run ∨ k.pwr.pkg = .quiet) (hup : k.gunelUp = true) :
    k.pwrRequest r = { k with pwr := { k.pwr with requests := k.pwr.requests ++ [r] } } := by
  refine (if_neg (by simp [hshaped])).trans ((if_neg ?_).trans (if_neg ?_)) <;> rcases h with h | h <;>
    simp [h, hup, PkgState.moving]

theorem Chip.pwrRequest_still (h : k.pwr.pkg = .standby ∨ k.pwr.pkg = .drydown) (hup : k.gunelUp = true) :
    k.pwrRequest r = (k.pwrDecide r).endEntry := by
  refine (if_neg (by simp [hshaped])).trans ((if_neg ?_).trans (if_pos ?_)) <;> rcases h with h | h <;>
    simp [h, hup, PkgState.moving]

end

/-! ### The decision at the boundary (R451, R485, R486, R490) -/

/-- The machine with no request that waits. -/
def Chip.decided (k : Chip) : Chip := { k with pwr := { k.pwr with requests := [] } }

section
variable {k : Chip} {r : PwrReq} (hone : k.pwr.requests = [r]) (hrun : k.pwr.pkg = .run)
include hone hrun

theorem Chip.pwrBoundary_one : k.pwrBoundary = k.decided.pwrDecide r := by
  have hstill : k.decided.pwr.pkg.moving = false := by
    rw [show k.decided.pwr.pkg = .run from hrun]
    rfl
  unfold Chip.pwrBoundary
  rw [hone, List.foldl_cons, List.foldl_nil]
  exact if_neg (by rw [← Chip.decided, hstill]; decide)

variable (hsrc : r.src < 2)
include hsrc

theorem Chip.pwrBoundary_go : k.pwrBoundary.rd PWR_CMD.GO = 0 := by
  rw [Chip.pwrBoundary_one hone hrun]
  unfold Chip.pwrDecide
  dsimp only
  rw [Chip.pwrStatus_eq _ _ hsrc]
  exact Chip.rd_answered_go _ _

/-- A package request that is not granted, and breaks no claim. -/
theorem Chip.pwrBoundary_turnedAway {status : Nat} (htarget : r.target = 0) (hst : k.pkgStatus r = (status + 1, none)) :
    k.pwrBoundary = k.decided.answered (status + 1) := by
  rw [Chip.pwrBoundary_one hone hrun]
  unfold Chip.pwrDecide
  rw [if_pos (by simpa using htarget), show k.decided.pkgStatus r = (status + 1, none) from hst]
  exact (Chip.pwrStatus_eq _ _ hsrc)

theorem Chip.pwrBoundary_refused {c : Nat} (htarget : r.target = 0) (hst : k.pkgStatus r = (3, some c)) :
    k.pwrBoundary = (k.decided.pwrRefused r c).answered 3 := by
  rw [Chip.pwrBoundary_one hone hrun]
  unfold Chip.pwrDecide
  rw [if_pos (by simpa using htarget), show k.decided.pkgStatus r = (3, some c) from hst]
  exact (Chip.pwrStatus_eq _ _ hsrc)

theorem Chip.pwrBoundary_granted (hst : (if r.target = 0 then k.pkgStatus r else k.unitStatus r) = (0, none)) :
    k.pwrBoundary = (k.decided.pwrApply r).answered 0 := by
  have hst' : (if r.target == 0 then k.decided.pkgStatus r else k.decided.unitStatus r) = (0, none) := by
    simp only [beq_iff_eq]
    exact hst
  rw [Chip.pwrBoundary_one hone hrun]
  unfold Chip.pwrDecide
  rw [hst']
  exact (Chip.pwrStatus_eq _ _ hsrc)

end

/-! ### Requests for the package (R472, R485, R486) -/

section
variable {k : Chip} {r : PwrReq} (hrun : k.pwr.pkg = .run) (hup : k.gunelUp = true)
include hrun hup

theorem Chip.pkgStatus_busy (hop : r.op = 2) (hq : k.quiesced = false) : k.pkgStatus r = (2, none) := by
  simp [Chip.pkgStatus, hrun, hup, hop, hq, PkgState.moving, PkgState.allows]

theorem Chip.pkgStatus_claimed {c : Nat} {cs : List Nat} (hop : r.op = 2) (hq : k.quiesced = true) (hsrc : r.src = 0)
    (hclaims : k.claims = c :: cs) : k.pkgStatus r = (3, some c) := by
  simp [Chip.pkgStatus, hrun, hup, hop, hq, hsrc, hclaims, PwrReq.secure, PkgState.moving, PkgState.allows]

theorem Chip.pkgStatus_standby (hop : r.op = 2) (hq : k.quiesced = true) (hfree : r.src = 1 ∨ k.claims = []) :
    k.pkgStatus r = (0, none) := by
  rcases hfree with h | h <;>
    simp [Chip.pkgStatus, hrun, hup, hop, hq, h, PwrReq.secure, PkgState.moving, PkgState.allows]

theorem Chip.pkgStatus_quiet (hop : r.op = 1) (htrained : k.trained k.quietRate = true) (hidle : k.mc.change = none) :
    k.pkgStatus r = (0, none) := by
  simp [Chip.pkgStatus, hrun, hup, hop, htrained, hidle, PkgState.moving, PkgState.allows]

end

/-- The harts of a package that has stopped them all. -/
theorem Chip.stopHarts_offline (k : Chip) (h : Nat) : (k.stopHarts.hart h).online = false := by
  obtain ⟨j, hharts⟩ : ∃ j : Chip, k.stopHarts.harts =
      Tbl.mapVals {} j.harts fun _ g => { g with online := false, reservation := none } := ⟨_, rfl⟩
  refine Tbl.get_of_forall (P := fun g : Hart => g.online = false) rfl (fun e he => ?_) h
  rw [hharts] at he
  obtain ⟨a, -, ha⟩ := Tbl.mem_mapVals he
  rw [ha]

/-- R486: the machine whose harts have stopped for Standby. -/
def Chip.standbyBegun (k : Chip) : Chip := { k.stopHarts with pwr := { k.stopHarts.pwr with pkg := .enterStandby } }

theorem Chip.pwrApply_standby {k : Chip} {r : PwrReq} (hrun : k.pwr.pkg = .run) (htarget : r.target = 0) (hop : r.op = 2) :
    k.pwrApply r = k.standbyBegun := by
  simp [Chip.pwrApply, htarget, hop, hrun, Chip.standbyBegun]

theorem Chip.pwrApply_quiet (k : Chip) {r : PwrReq} (htarget : r.target = 0) (hop : r.op = 1) :
    k.pwrApply r = k.quietChange k.quietRate .enterQuiet .quiet := by
  simp [Chip.pwrApply, htarget, hop]

@[simp] theorem Chip.emitAll_pwr (k : Chip) (os : List Out) : (k.emitAll os).pwr = k.pwr := by rw [Chip.emitAll_eq]

/-- R373: a change of the rate leaves the package's power state. -/
theorem Chip.startChange_pwr (k : Chip) (x : RateChange) : (k.startChange x).pwr = k.pwr := by
  have hrank : ∀ (j : Chip) (c room r : Nat), (j.makeUpRank c room r).2.pwr = j.pwr := fun j c room r => by
    unfold Chip.makeUpRank
    dsimp only
    rw [Chip.emitAll_pwr, Chip.count_eq]
    rfl
  have hburst : ∀ (j : Chip) (c : Nat), (j.makeUp c false).pwr = j.pwr := fun j c => by
    unfold Chip.makeUp
    exact List.foldlRecOn (motive := fun p : Nat × Chip => p.2.pwr = j.pwr) _ _ rfl
      fun p hp r _ => (hrank p.2 c p.1 r).trans hp
  have hchannel : ∀ (j : Chip) (c : Nat), (((j.drainWrites c 0).makeUp c false).wr (MC_STATUS.STATE c) 4).pwr = j.pwr :=
      fun j c => by
    rw [Chip.wr_pwr, hburst]
    exact Chip.emitAll_pwr _ _
  unfold Chip.startChange
  dsimp only
  rw [Chip.wr_pwr]
  refine List.foldlRecOn (motive := fun j : Chip => j.pwr = k.pwr) _ _ rfl fun j hj c _ => ?_
  split
  · exact (hchannel j c).trans hj
  · exact hj

section
variable {k : Chip} {rate : Nat} {during after : PkgState}

theorem Chip.quietChange_same (h : k.rd (MC_STATUS.RATE 0) = rate) : (k.quietChange rate during after).pwr.pkg = after := by
  unfold Chip.quietChange
  dsimp only
  rw [if_pos (by simp [h])]

theorem Chip.quietChange_other (h : k.rd (MC_STATUS.RATE 0) ≠ rate) : (k.quietChange rate during after).pwr.pkg = during ∧
    (k.quietChange rate during after).mc.change =
      some { target := rate, previous := k.rd (MC_STATUS.RATE 0), running := true } := by
  unfold Chip.quietChange
  dsimp only
  rw [if_neg (by simpa using h.symm), Chip.startChange_pwr]
  exact ⟨rfl, rfl⟩

end

/-! ### Requests for a unit (R489, R490) -/

section
variable {k : Chip} {r : PwrReq}

theorem Chip.unitStatus_gate (hop : r.op = 4) (hidle : r.target = 1 → k.tileRuns r.index = false) (hdie : r.target ≠ 2)
    (hfree : r.src = 1 ∨ k.claimsOf r.target r.index = []) : k.unitStatus r = (0, none) := by
  have hready : ((r.target == 1 && k.tileRuns r.index) || (r.target == 2 && !k.dieQuiet r.index)) = false := by
    by_cases h : r.target = 1
    · simp [h, hidle h]
    · simp [h, hdie]
  unfold Chip.unitStatus
  rw [if_neg (by simp [hop]), if_neg (by simp [hready])]
  rcases hfree with h | h <;> simp [h, PwrReq.secure]

theorem Chip.pwrApply_gate (htarget : r.target ≠ 0) (hop : r.op = 4) : k.pwrApply r = k.gateUnit r.target r.index := by
  simp [Chip.pwrApply, htarget, hop]

theorem Chip.pwrApply_ungateTile (htarget : r.target = 1) (hop : r.op = 5) : k.pwrApply r = k.ungateTile r.index := by
  simp [Chip.pwrApply, htarget, hop]

end

theorem Chip.gateUnit_tile (k : Chip) (t : Nat) : ((k.gateUnit 1 t).tile t).gated = true := by
  unfold Chip.gateUnit
  exact congrArg Tile.gated (Chip.tile_setTile _ t _)

/-- The machine with channel `c` gated. -/
def Chip.channelGated (k : Chip) (c : Nat) : Chip :=
  { k.wr (MC_STATUS.STATE c) 3 with pwr := { k.pwr with gatedChannels := c :: k.pwr.gatedChannels } }

theorem Chip.gateUnit_channel {k : Chip} {c : Nat} (h : k.rd (MC_STATUS.STATE c) = 2) : k.gateUnit 3 c = k.channelGated c :=
  if_neg (by simp [h])

theorem Chip.ungateTile_tile (k : Chip) (t : Nat) : ((k.ungateTile t).tile t).gated = false := by
  unfold Chip.ungateTile
  split
  · next h => simpa using h
  · dsimp only
    split
    · rw [Chip.tile, Chip.setHart_tiles, ← Chip.tile, Chip.tile_setTile]
    · rw [Chip.tile_setTile]

/-! ### A refusal for a claim (R450, R494) -/

theorem Chip.pwrErr_eq (k : Chip) (f : Fld) :
    k.pwrErr f = k.raiseNew f { cls := 0, unitType := 17, unit := 0, cause := f.lo } := rfl

/-- R450: a request of the normal world that a claim refuses is reported in both error registers. -/
theorem Chip.pwrRefused_normal (k : Chip) {r : PwrReq} (c : Nat) (hsrc : r.src = 0) :
    (k.pwrRefused r c).rd WS_ERR.REFUSED = 1 ∧ (k.pwrRefused r c).rd PWR_ERR.REFUSED = 1 ∧ (k.pwrRefused r c).pwr = k.pwr := by
  have hrefused : k.pwrRefused r c = (k.refusedSecure c 0).pwrErr PWR_ERR.REFUSED := by simp [Chip.pwrRefused, hsrc]
  have hpwr : ∀ (j : Chip) (f : Fld) (e : Ev), (j.raiseNew f e).pwr = j.pwr := fun j f e => by
    unfold Chip.raiseNew
    split <;> simp
  rw [hrefused, Chip.pwrErr_eq]
  refine ⟨?_, Chip.rd_raiseNew_self _ _ _ rfl (by decide), ?_⟩
  · rw [Chip.rd_raiseNew_ne _ _ _ (by decide) (by decide), Chip.refusedSecure, Chip.wsErr, Chip.log_rd _ _ (by decide),
      Chip.rd_wr_ne _ _ (by decide), Chip.rd_wr_ne _ _ (by decide), Chip.rd_wr_ne _ _ (by decide), Chip.rd_raise_self _ rfl]
  · rw [hpwr, Chip.refusedSecure, Chip.wsErr, Chip.log_pwr]
    rfl

/-- Settles O44: a request by what PWR_CMD then holds; at the boundary the status decides, and each grant has its own lemma. -/
theorem powerRequests : Obligations.PowerRequests := by
  refine ⟨fun s c op target index src hsrc hc => ?_, fun k r hone hrun hup hsrc => ⟨Chip.pwrBoundary_go hone hrun hsrc, ?_⟩⟩
  · have hexec : exec c s = .next (s.after (s.chip.pwrCmd op target index src)) := by
      rcases hc with ⟨rfl, rfl, rfl, rfl⟩ | ⟨rfl, rfl, rfl, rfl⟩ | ⟨rfl, rfl, rfl, rfl⟩ | ⟨rfl, rfl, rfl, rfl⟩ | ⟨rfl, rfl, -⟩ |
        ⟨rfl, rfl, -⟩ <;> rfl
    rw [hexec]
    refine ⟨fun hgo => s.next_after (Chip.pwrCmd_going hsrc hgo), fun k r hgo hr hk => ?_⟩
    rw [← Chip.pwrWritten] at hk
    subst hr hk
    have htaken := Chip.pwrCmd_taken (op := op) (target := target) (index := index) hsrc hgo
    have hgunel := s.chip.gunelUp_pwrWritten op target index
    have hpwr : (s.chip.pwrWritten op target index).pwr = s.chip.pwr := rfl
    rw [htaken]
    refine ⟨fun hshaped => ?_, fun hshaped hbusy => ?_, fun hshaped hbeats hup => ?_, fun hshaped hstill hup => ?_⟩
    · rw [Chip.pwrRequest_unshaped hshaped]
      exact s.next_after (Chip.pwrStatus_eq _ _ hsrc)
    · rw [Chip.pwrRequest_busy hshaped (by rwa [hpwr, hgunel])]
      exact s.next_after (Chip.pwrStatus_eq _ _ hsrc)
    · rw [Chip.pwrRequest_beats hshaped (by rwa [hpwr]) (hgunel.trans hup)]
      rfl
    · rw [Chip.pwrRequest_still hshaped (by rwa [hpwr]) (hgunel.trans hup)]
  · refine ⟨fun hop htarget hq => ?_, fun hop htarget hq hnormal hclaims => ?_, fun hop htarget hq hfree => ?_,
      fun hop htarget htrained hidle hrate => ?_, fun hop htarget htrained hidle hrate => ?_, fun hop htarget hidle hfree => ?_,
      fun hop htarget hfree hstate hindex => ?_, fun hop htarget hfree => ?_, fun hop htarget => ?_⟩
    · rw [Chip.pwrBoundary_turnedAway hone hrun hsrc htarget (Chip.pkgStatus_busy hrun hup hop hq)]
      exact ⟨Chip.rd_answered_status _ _, rfl⟩
    · obtain ⟨c, cs, hclaim⟩ := List.exists_cons_of_ne_nil hclaims
      obtain ⟨hws, hpwr, hpkg⟩ := k.decided.pwrRefused_normal c hnormal
      rw [Chip.pwrBoundary_refused hone hrun hsrc htarget (Chip.pkgStatus_claimed hrun hup hop hq hnormal hclaim)]
      refine ⟨Chip.rd_answered_status _ _, ?_, ?_, ?_⟩
      · rw [Chip.rd_answered_ne _ _ (by decide) (by decide), hws]
      · rw [Chip.rd_answered_ne _ _ (by decide) (by decide), hpwr]
      · rw [Chip.answered_pwr, hpkg]
        exact hrun
    · rw [Chip.pwrBoundary_granted hone hrun hsrc (by rw [if_pos htarget, Chip.pkgStatus_standby hrun hup hop hq hfree]),
        Chip.pwrApply_standby (k := k.decided) hrun htarget hop]
      exact ⟨Chip.rd_answered_status _ _, rfl, fun h => k.decided.stopHarts_offline h⟩
    · rw [Chip.pwrBoundary_granted hone hrun hsrc (by rw [if_pos htarget, Chip.pkgStatus_quiet hrun hup hop htrained hidle]),
        Chip.pwrApply_quiet _ htarget hop]
      exact ⟨Chip.rd_answered_status _ _, Chip.quietChange_same hrate⟩
    · obtain ⟨hpkg, hchange⟩ := Chip.quietChange_other (k := k.decided) (during := .enterQuiet) (after := .quiet) hrate
      rw [Chip.pwrBoundary_granted hone hrun hsrc (by rw [if_pos htarget, Chip.pkgStatus_quiet hrun hup hop htrained hidle]),
        Chip.pwrApply_quiet _ htarget hop]
      exact ⟨Chip.rd_answered_status _ _, hpkg, hchange⟩
    · rw [Chip.pwrBoundary_granted hone hrun hsrc (by
          rw [if_neg (by omega), Chip.unitStatus_gate hop (fun _ => hidle) (by omega) (by rwa [htarget])]),
        Chip.pwrApply_gate (by omega) hop, htarget]
      exact ⟨Chip.rd_answered_status _ _, k.decided.gateUnit_tile r.index⟩
    · rw [Chip.pwrBoundary_granted hone hrun hsrc (by
          rw [if_neg (by omega), Chip.unitStatus_gate hop (by omega) (by omega) (by rwa [htarget])]),
        Chip.pwrApply_gate (by omega) hop, htarget, Chip.gateUnit_channel (k := k.decided) hstate]
      refine ⟨Chip.rd_answered_status _ _, ?_, List.mem_cons_self⟩
      rw [Chip.rd_answered_ne _ _ (by simp only [Fld.key, Dom.code]; omega) (by simp only [Fld.key, Dom.code]; omega)]
      exact (Chip.rd_congr (k := k.decided.wr (MC_STATUS.STATE r.index) 3) rfl _).trans (Chip.rd_wr_self _ _ _)
    · rw [Chip.pwrBoundary_granted hone hrun hsrc (by
          rw [if_neg (by omega), Chip.unitStatus_gate hop (by omega) (by omega) (by rwa [htarget])]),
        Chip.pwrApply_gate (by omega) hop, htarget]
      exact ⟨Chip.rd_answered_status _ _, rfl⟩
    · rw [Chip.pwrBoundary_granted hone hrun hsrc (by
          rw [if_neg (by omega)]
          exact if_pos (by simp [hop])),
        Chip.pwrApply_ungateTile htarget hop]
      exact ⟨Chip.rd_answered_status _ _, k.decided.ungateTile_tile r.index⟩

end Sys2Proof.Machine
end

section
/-!
PROOFS. Heat, droops and retention (19).
-/

namespace Sys2Proof.Machine

/-! ### An error bit set already -/

/-- A bit that reads 1 is not changed by being set, whatever field reads it. -/
theorem Chip.rd_raise_on {k : Chip} {f : Fld} (hon : k.on f = true) (hw : f.width = 1) (hreset : f.reset = 0) (g : Fld) :
    (k.raise f).rd g = k.rd g := by
  by_cases hg : g.key = f.key
  · have hone : k.regs.find f.key = some 1 := by
      have hrd : Tbl.get 0 k.regs f.key = 1 := by simpa [Chip.on, Chip.rd, hreset] using hon
      cases hfind : k.regs.find f.key <;> simp [Tbl.get, hfind] at hrd
      rw [hrd]
    have hset : (k.raise f).regs = k.regs.insert f.key 1 := by
      simp [Chip.raise, Chip.wr, Tbl.set, hw, hreset]
    rw [Chip.rd, Chip.rd, hset, hg, Tbl.get, Tbl.get, Tbl.find_insert_self, hone]
  · exact Chip.rd_raise_ne k hg

theorem Chip.clkErr_eq (k : Chip) (f : Fld) (tile : Nat) : k.clkErr f tile =
    k.raiseNew f { cls := 0, unitType := 17, unit := 0, cause := f.lo, info0 := tile } := rfl

theorem Chip.tile_setTile_ne (k : Chip) {t t' : Nat} (f : Tile → Tile) (h : t' ≠ t) : (k.setTile t f).tile t' = k.tile t' :=
  Tbl.get_mod_ne _ _ _ _ h

/-! ### Heat (R419, R478) -/

/-- R419: the package stops, and shows its fault. -/
theorem Chip.fatalStop_fatal (k : Chip) (cause : Nat) : (k.fatalStop cause).flt.fatal = true ∧
    (k.flt.fatal = false → (k.fatalStop cause).gn.faultN = true) ∧ (k.fatalStop cause).pwr = k.pwr := by
  have hpin : ∀ j : Chip, j.assertFault.flt = j.flt ∧ j.assertFault.gn.faultN = true ∧ j.assertFault.pwr = j.pwr := fun j => by
    unfold Chip.assertFault
    split
    · next hn => exact ⟨rfl, hn, rfl⟩
    · exact ⟨rfl, rfl, rfl⟩
  unfold Chip.fatalStop
  split
  · next h => exact ⟨h, by simp [h], rfl⟩
  · obtain ⟨hflt, hn, hpwr⟩ := hpin (({ k with flt := { k.flt with fatal := true } }).log
      { cls := 3, unitType := 17, unit := 0, action := 12, info0 := cause })
    dsimp only
    rw [hflt, hpwr, Chip.log_flt, Chip.log_pwr]
    exact ⟨rfl, fun _ => hn, rfl⟩

/-! ### Droops (R482) -/

section
variable {k : Chip} {n : Nat} (hn : n < 336)
include hn

/-- The registers that a droop reads are apart from its count. -/
theorem rd_bump_droops {f : Fld} (hf : f = CLK_ERR.DROOP ∨ f = CLK_CTRL.DROOP_EN) :
    (k.bump (CLK_TRIM.DROOPS n) 1).rd f = k.rd f := by
  refine k.rd_bump_ne 1 ?_
  have happart : ∀ n < 336, ∀ f ∈ [CLK_ERR.DROOP, CLK_CTRL.DROOP_EN], f.key ≠ (CLK_TRIM.DROOPS n).key := by decide +kernel
  exact happart n hn f (by simpa using hf)

/-- R482: a droop that is reported already. -/
theorem Chip.droopAt_seen (hseen : k.on CLK_ERR.DROOP = true) : k.droopAt n =
    if k.on CLK_CTRL.DROOP_EN then
      ((k.bump (CLK_TRIM.DROOPS n) 1).raise CLK_ERR.DROOP).setTile n fun x => { x with stretch := true }
    else (k.bump (CLK_TRIM.DROOPS n) 1).raise CLK_ERR.DROOP := by
  have hold : (k.bump (CLK_TRIM.DROOPS n) 1).on CLK_ERR.DROOP = true := by
    rw [Chip.on, rd_bump_droops hn (.inl rfl)]
    exact hseen
  have henable : ((k.bump (CLK_TRIM.DROOPS n) 1).raise CLK_ERR.DROOP).on CLK_CTRL.DROOP_EN = k.on CLK_CTRL.DROOP_EN := by
    rw [Chip.on, Chip.rd_raise_ne _ (by decide), rd_bump_droops hn (.inr rfl)]
    rfl
  unfold Chip.droopAt
  dsimp only
  rw [Chip.clkErr_eq, Chip.raiseNew, if_pos hold, henable]

/-- R482: the first droop, where clocks do not stretch. -/
theorem Chip.droopAt_first (hnew : k.on CLK_ERR.DROOP = false) (hoff : k.on CLK_CTRL.DROOP_EN = false) : k.droopAt n =
    ((k.bump (CLK_TRIM.DROOPS n) 1).raise CLK_ERR.DROOP).log
      { cls := 0, unitType := 17, unit := 0, cause := 2, info0 := n } := by
  have hold : (k.bump (CLK_TRIM.DROOPS n) 1).on CLK_ERR.DROOP = false := by
    rw [Chip.on, rd_bump_droops hn (.inl rfl)]
    exact hnew
  have henable : ∀ e : Ev, (((k.bump (CLK_TRIM.DROOPS n) 1).raise CLK_ERR.DROOP).log e).on CLK_CTRL.DROOP_EN = false :=
      fun e => by
    rw [Chip.on, Chip.log_rd _ _ (by decide), Chip.rd_raise_ne _ (by decide), rd_bump_droops hn (.inr rfl)]
    exact hoff
  have herr : (k.bump (CLK_TRIM.DROOPS n) 1).clkErr CLK_ERR.DROOP n = ((k.bump (CLK_TRIM.DROOPS n) 1).raise CLK_ERR.DROOP).log
      { cls := 0, unitType := 17, unit := 0, cause := 2, info0 := n } := if_neg (by rw [hold]; decide)
  unfold Chip.droopAt
  dsimp only
  rw [herr, if_neg (by rw [henable]; decide)]

end

/-! ### Retention (R475, R489) -/

theorem Chip.retain_online {k : Chip} {n h : Nat} (hhart : (k.tile n).hart = some h) (honline : (k.hart h).online = true)
    (hhalted : (k.hart h).halted = false) (hidle : k.rd PWR_CTRL.TILE_IDLE ≠ 0) (hup : k.pwr.pkg.up = true) : k.retain n =
      if (k.hart h).pendingMsis != 0 then k else k.setTile n fun x => { x with retention := true } := by
  unfold Chip.retain
  rw [if_neg (by simp [hidle, hup]), hhart]
  dsimp only
  simp [honline, hhalted]

/-- `k'` differs from `k` only in the harts. -/
def Chip.HartsChanged (k k' : Chip) : Prop := k' = { k with harts := k'.harts }

/-- R475: a hart that comes back to its operating point. -/
theorem Chip.wakeTile_retained {k : Chip} {n : Nat} (h : (k.tile n).retention = true) :
    (k.setTile n fun x => { x with retention := false }).HartsChanged (k.wakeTile n) := by
  unfold Chip.wakeTile
  rw [if_neg (by simp [h])]
  dsimp only
  generalize k.setTile n _ = j
  split
  · refine List.foldlRecOn (motive := j.HartsChanged) _ _ rfl fun i hi c _ => ?_
    split
    · rw [Chip.HartsChanged] at hi
      rw [hi]
      exact rfl
    · exact hi
  · exact rfl

/-- R475: the wake of a tile takes it out of retention; no other tile, no register, no byte of memory changes. -/
theorem Chip.wakeTile_frame (k : Chip) (n : Nat) :
    (k.wakeTile n).tile n = { k.tile n with retention := false } ∧ (∀ m, m ≠ n → (k.wakeTile n).tile m = k.tile m) ∧
    (k.wakeTile n).regs = k.regs ∧ (k.wakeTile n).mem = k.mem ∧ (k.wakeTile n).out = k.out := by
  cases h : (k.tile n).retention
  · have hsame : k.wakeTile n = k := if_pos (by simp [h])
    rw [hsame, ← h]
    exact ⟨rfl, fun _ _ => rfl, rfl, rfl, rfl⟩
  · have hwake := Chip.wakeTile_retained h
    rw [Chip.HartsChanged] at hwake
    have htiles : (k.wakeTile n).tiles = (k.setTile n fun x => { x with retention := false }).tiles := by rw [hwake]
    refine ⟨?_, fun m hm => ?_, by rw [hwake]; rfl, by rw [hwake]; rfl, by rw [hwake]; rfl⟩
    · rw [Chip.tile, htiles]
      exact k.tile_setTile n _
    · rw [Chip.tile, htiles]
      exact k.tile_setTile_ne _ hm

/-- Settles O46: heat by the fatal stop; a droop by its equations, reported before or not; retention by those of its tile. -/
theorem heatDroopsAndRetention : Obligations.HeatDroopsAndRetention := by
  refine ⟨fun s d => ?_, fun s n hn hseen => ?_, fun s n hn hnew hoff => s.next_after (Chip.droopAt_first hn hnew hoff),
    fun s n => ?_, fun s n h hhart honline hhalted hidle hup => ?_, fun s n => ?_⟩
  · obtain ⟨hfatal, hpin, hpwr⟩ := Chip.fatalStop_fatal { s.chip with pwr := { s.chip.pwr with
      highs := Tbl.mod noReading s.chip.pwr.highs d fun v => max v 1100 } } 17
    refine ⟨s.after (s.chip.overheats d), rfl, ?_, fun hlive => ?_, ?_⟩
    · rw [State.after_chip, Chip.refresh_flt]
      exact hfatal
    · rw [State.after_chip, Chip.refresh_gn]
      exact hpin hlive
    · rw [State.after_chip, Chip.refresh_pwr]
      unfold Chip.overheats
      dsimp only
      rw [hpwr]
      dsimp only
      rw [Tbl.get_mod_self]
      exact Int.le_max_right _ _
  · have hshown : (CLK_TRIM.DROOPS n).key ∉ shownFields.map Fld.key :=
      (show ∀ n < 336, (CLK_TRIM.DROOPS n).key ∉ shownFields.map Fld.key by decide +kernel) n hn
    have herr : (CLK_TRIM.DROOPS n).key ≠ CLK_ERR.DROOP.key :=
      (show ∀ n < 336, (CLK_TRIM.DROOPS n).key ≠ CLK_ERR.DROOP.key by decide +kernel) n hn
    have hold : (s.chip.bump (CLK_TRIM.DROOPS n) 1).on CLK_ERR.DROOP = true := by
      rw [Chip.on, rd_bump_droops hn (.inl rfl)]
      exact hseen
    have hregs : (s.chip.droopAt n).regs = ((s.chip.bump (CLK_TRIM.DROOPS n) 1).raise CLK_ERR.DROOP).regs := by
      rw [Chip.droopAt_seen hn hseen]
      split <;> rfl
    refine ⟨s.after (s.chip.droopAt n), rfl, ?_, ?_, ?_, fun m hm => ?_, s.sameMemory_after ?_, ?_, ?_⟩
    · rw [State.after_chip, Chip.rd_refresh _ hshown, Chip.rd_congr hregs, Chip.rd_raise_ne _ herr, Chip.rd_bump_self]
    · rw [State.after_chip, Chip.rd_refresh _ (by decide), Chip.rd_congr hregs, Chip.rd_raise_self _ rfl]
    · rw [State.after_chip, Chip.tile_refresh, Chip.droopAt_seen hn hseen]
      cases s.chip.on CLK_CTRL.DROOP_EN
      · rw [Bool.or_false]
        rfl
      · rw [Bool.or_true]
        exact Chip.tile_setTile _ _ _
    · rw [State.after_chip, Chip.tile_refresh, Chip.droopAt_seen hn hseen]
      split
      · exact Chip.tile_setTile_ne _ _ hm
      · rfl
    · rw [Chip.droopAt_seen hn hseen]
      split <;> rfl
    · refine Chip.OnlyRegs.after fun f hf => ?_
      rw [Chip.rd_congr hregs, Chip.rd_raise_on hold rfl rfl]
      exact s.chip.rd_bump_ne 1 (by simpa using hf)
    · rw [State.after_chip, Chip.refresh_out, Chip.droopAt_seen hn hseen]
      split <;> rfl
  · refine ⟨s.after (s.chip.setTile n fun x => { x with stretch := false }), rfl, ?_, fun m hm => ?_, s.sameMemory_after rfl,
      s.sameRegs_after rfl, Chip.refresh_out _⟩
    · rw [State.after_chip, Chip.tile_refresh, Chip.tile_setTile]
    · rw [State.after_chip, Chip.tile_refresh, Chip.tile_setTile_ne _ _ hm]
  · refine ⟨_, s.next_after (Chip.retain_online hhart honline hhalted hidle hup), ?_, ?_, s.sameMemory_after ?_,
      s.sameRegs_after ?_, ?_⟩
    · rw [State.after_chip, Chip.tile_refresh]
      by_cases hp : (s.chip.hart h).pendingMsis = 0
      · rw [if_neg (by simp [hp]), Chip.tile_setTile]
        simp [hp]
      · rw [if_pos (by simp [hp])]
        simp [hp]
    · rw [State.after_chip, Chip.refresh_harts]
      split <;> rfl
    · split <;> rfl
    · split <;> rfl
    · rw [State.after_chip, Chip.refresh_out]
      split <;> rfl
  · obtain ⟨hself, hother, hregs, hmem, hout⟩ := s.chip.wakeTile_frame n
    refine ⟨s.after (s.chip.wakeTile n), rfl, ?_, fun m hm => ?_, s.sameMemory_after hmem, s.sameRegs_after hregs,
      (Chip.refresh_out _).trans hout⟩
    · rw [State.after_chip, Chip.tile_refresh, hself]
    · rw [State.after_chip, Chip.tile_refresh, hother m hm]

end Sys2Proof.Machine
end

section
/-!
PROOFS. Gunel itself (20): its restarts, its firmware, the hub, the sensors and the histograms.
-/

namespace Sys2Proof.Machine

/-! ### Restarts and lifetime records (R496, R503) -/

/-- The machine whose Gunel restarts. -/
def Chip.gunelDown (k : Chip) : Chip := { k.wr GN_STATUS.RUNNING 0 with gn := { k.gn with restarting := true } }

theorem Chip.gunelRestart_running {k : Chip} (h : k.on GN_STATUS.RUNNING = true) : k.gunelRestart = k.gunelDown :=
  if_neg (by simp [h])

theorem Chip.rd_gunelDown (k : Chip) : k.gunelDown.rd GN_STATUS.RUNNING = 0 :=
  (Chip.rd_congr (k := k.wr GN_STATUS.RUNNING 0) rfl _).trans (Chip.rd_wr_self _ _ _)

theorem Chip.onlyRegs_gunelDown (k : Chip) : k.OnlyRegs [GN_STATUS.RUNNING] k.gunelDown :=
  ((Chip.OnlyRegs.refl _ k).wr (g := GN_STATUS.RUNNING) 0 (by simp)).congr (k'' := k.gunelDown) rfl

/-- The machine whose Gunel runs again. -/
def Chip.gunelUpAgain (k : Chip) : Chip :=
  { ((k.wr GN_STATUS.RUNNING 1).wr CLK_STATUS.GUNEL_HB 1).bump GN_STATUS.RESTARTS 1 with
    gn := { k.gn with restarting := false } }

theorem Chip.gunelUpAgain_regs (k : Chip) :
    k.gunelUpAgain.regs = (((k.wr GN_STATUS.RUNNING 1).wr CLK_STATUS.GUNEL_HB 1).bump GN_STATUS.RESTARTS 1).regs := rfl

theorem Chip.gunelBack_off {k : Chip} (hoff : k.on GN_STATUS.RUNNING = false) (hrom : k.gn.recovery = false)
    (hpkg : k.pwr.pkg ≠ .off) : k.gunelBack = k.gunelUpAgain :=
  if_neg (by simp [hoff, hrom, hpkg])

/-! ### Firmware (R505, R506) -/

/-- The slot into which an update of component `comp` goes. -/
def Gunel.updateSlot (g : Gunel) (comp : Nat) : Nat :=
  2 * (comp - 1) + (1 - if comp == 1 then g.activeSlot else g.secureSlot)

/-- R505: what a Gunel that runs keeps of an update. -/
def Gunel.updated (g : Gunel) (comp : Nat) (image : Bytes) : Gunel :=
  { g with
    slots := Tbl.set [] g.slots (g.updateSlot comp) image
    verified := if Config.imageGood image then comp :: g.verified.filter (· != comp) else g.verified.filter (· != comp) }

theorem Chip.pldmUpdate_running {k : Chip} {comp : Nat} (image : Bytes) (hrun : k.on GN_STATUS.RUNNING = true)
    (hcomp : comp = 1 ∨ comp = 2) : (k.pldmUpdate comp image).gn = k.gn.updated comp image ∧
      (k.pldmUpdate comp image).mem = k.mem ∧ (k.pldmUpdate comp image).regs = k.regs := by
  unfold Chip.pldmUpdate
  rw [if_neg (by rcases hcomp with rfl | rfl <;> simp [hrun])]
  exact ⟨rfl, rfl, rfl⟩

theorem Gunel.mem_updated (g : Gunel) (comp : Nat) (image : Bytes) :
    comp ∈ (g.updated comp image).verified ↔ Config.imageGood image = true := by
  unfold Gunel.updated
  dsimp only
  split <;> simp_all

/-- R506: the machine with the active slot of Gunel flipped. -/
def Chip.slotFlipped (k : Chip) : Chip :=
  { k with gn := { k.gn with verified := k.gn.verified.filter (· != 1), activeSlot := 1 - k.gn.activeSlot } }

theorem Chip.activate_gunel {k : Chip} (hrun : k.on GN_STATUS.RUNNING = true) (hgood : 1 ∈ k.gn.verified) :
    k.activate 1 = k.slotFlipped.gunelDown := by
  unfold Chip.activate
  rw [if_neg (by simp [hrun, hgood])]
  exact Chip.gunelRestart_running (k := k.slotFlipped) hrun

/-- R506: the machine with the active slot of the secure world flipped. -/
def Chip.secureFlipped (k : Chip) : Chip :=
  { k with gn := { k.gn with verified := k.gn.verified.filter (· != 2), secureSlot := 1 - k.gn.secureSlot } }

theorem Chip.activate_secure {k : Chip} (hrun : k.on GN_STATUS.RUNNING = true) (hgood : 2 ∈ k.gn.verified) :
    k.activate 2 = k.secureFlipped := by
  unfold Chip.activate
  rw [if_neg (by simp [hrun, hgood])]
  rfl

/-! ### The hub (R509) -/

/-- The event of a hub whose heartbeat stands still. -/
def hubEvent : Ev := { cls := 3, unitType := 17, unit := 0, status := 3 }

/-- R419: FAULT_N asserted leaves the NOR log, the registers and memory. -/
theorem Chip.assertFault_frame (k : Chip) : k.assertFault.gn.faultN = true ∧ k.assertFault.gn.nor = k.gn.nor ∧
    k.assertFault.mem = k.mem ∧ k.assertFault.regs = k.regs := by
  unfold Chip.assertFault
  split
  · next h => exact ⟨h, rfl, rfl, rfl⟩
  · exact ⟨rfl, rfl, rfl, rfl⟩

theorem Chip.hubLapses_frame (k : Chip) : k.hubLapses.gn.faultN = true ∧
    k.hubLapses.gn.nor = (hubEvent.record k.gn.seq k.now k.time :: k.gn.nor).take 65536 ∧ k.hubLapses.mem = k.mem ∧
    k.hubLapses.regs = (k.raise GN_STATUS.HUB_LAPSE).regs := by
  have hnow : (k.raise GN_STATUS.HUB_LAPSE).now = k.now := k.rd_raise_ne (by decide)
  unfold Chip.hubLapses
  dsimp only
  rw [hnow]
  exact Chip.assertFault_frame _

/-! ### Sensors (R497) -/

/-- A run of numbered values put into a table, each at its number. -/
theorem Tbl.get_foldl_zipIdx {α β : Type} [DecidableEq β] (d : β) (g : α → Nat → β) (xs : List α) (n : Nat)
    (t : Tbl β) (j : Nat) :
    Tbl.get d ((xs.zipIdx n).foldl (fun t p => Tbl.set d t p.2 (g p.1 p.2)) t) j =
      if n ≤ j then (xs[j - n]?.map fun a => g a j).getD (Tbl.get d t j) else Tbl.get d t j := by
  induction xs generalizing n t with
  | nil => simp
  | cons x xs ih =>
    rw [List.zipIdx_cons, List.foldl_cons, ih]
    by_cases hj : j = n
    · subst hj
      rw [if_neg (by omega), if_pos (Nat.le_refl _), Nat.sub_self, Tbl.get_set_self]
      rfl
    · rw [Tbl.get_set_ne _ _ _ _ hj]
      by_cases hn : n ≤ j
      · rw [if_pos (by omega), if_pos hn, show j - n = (j - (n + 1)) + 1 by omega, List.getElem?_cons_succ]
      · rw [if_neg (by omega), if_neg hn]

/-- R497: the values of a sample, by sensor ID. -/
def Chip.readingsOf (k : Chip) (readings : List Nat) : List Nat :=
  ((List.range 128).map fun i => readings.getD i 0x8000) ++
    (((List.range 12).map k.droopSum).zipIdx.map fun p => p.1 - Tbl.get 0 k.gn.droops p.2) ++ [k.rd PWR_MEAS.POWER]

/-- R497: what a sample keeps of each sensor. -/
def Chip.sampled (k : Chip) (readings : List Nat) : Tbl Nat :=
  (k.readingsOf readings).zipIdx.foldl (fun t p => Tbl.set 0x8000 t p.2 (if k.sensorOn p.2 then p.1 % 65536 else 0x8000)) []

/-- R497: the droops since PWS that the next sample counts from. -/
def Chip.droopMarks (k : Chip) : Tbl Nat :=
  ((List.range 12).map k.droopSum).zipIdx.foldl (fun t p => Tbl.set 0 t p.2 p.1) []

section
variable (k : Chip) (readings : List Nat)

theorem Chip.readingsOf_reading {i : Nat} (hi : i < 128) : (k.readingsOf readings)[i]? = some (readings.getD i 0x8000) := by
  rw [Chip.readingsOf, List.append_assoc, List.getElem?_append_left (by simpa using hi)]
  simp [hi]

theorem Chip.readingsOf_droops {i : Nat} (hi : i < 12) :
    (k.readingsOf readings)[128 + i]? = some (k.droopSum i - Tbl.get 0 k.gn.droops i) := by
  rw [Chip.readingsOf, List.append_assoc, List.getElem?_append_right (by simp),
    List.getElem?_append_left (by simpa using hi)]
  simp [hi]

theorem Chip.readingsOf_power : (k.readingsOf readings)[140]? = some (k.rd PWR_MEAS.POWER) := by
  rw [Chip.readingsOf, List.getElem?_append_right (by simp)]
  simp

theorem Chip.get_sampled {i v : Nat} (h : (k.readingsOf readings)[i]? = some v) :
    Tbl.get 0x8000 (k.sampled readings) i = if k.sensorOn i then v % 65536 else 0x8000 := by
  have hget := Tbl.get_foldl_zipIdx 0x8000 (fun a i => if k.sensorOn i then a % 65536 else 0x8000) (k.readingsOf readings) 0 [] i
  rw [if_pos (Nat.zero_le _), Nat.sub_zero, h] at hget
  exact hget

theorem Chip.get_droopMarks {i : Nat} (hi : i < 12) : Tbl.get 0 k.droopMarks i = k.droopSum i := by
  have hget := Tbl.get_foldl_zipIdx 0 (fun a _ => a) ((List.range 12).map k.droopSum) 0 [] i
  rw [if_pos (Nat.zero_le _), Nat.sub_zero, List.getElem?_map, List.getElem?_range hi] at hget
  exact hget

/-- `k'` differs from `k` only in Gunel's lifetime record. -/
def Chip.LifeChanged (k k' : Chip) : Prop := k' = { k with gn := { k.gn with life := k'.gn.life } }

theorem Chip.lifeSample_lifeChanged (d : Nat) : k.LifeChanged (k.lifeSample d) := by
  unfold Chip.lifeSample
  dsimp only
  split <;> exact rfl

end

theorem Chip.LifeChanged.refl (k : Chip) : k.LifeChanged k := rfl

section
variable {k k' k'' : Chip} (h : k.LifeChanged k')
include h

theorem Chip.LifeChanged.trans (h' : k'.LifeChanged k'') : k.LifeChanged k'' := by
  unfold Chip.LifeChanged at *
  rw [h', h]

theorem Chip.LifeChanged.frame : k'.gn.sensors = k.gn.sensors ∧ k'.gn.droops = k.gn.droops ∧ k'.mem = k.mem ∧
    k'.regs = k.regs ∧ k'.out = k.out := by
  rw [Chip.LifeChanged] at h
  rw [h]
  exact ⟨rfl, rfl, rfl, rfl, rfl⟩

end

/-- R497: the machine with the sensors sampled, before the lifetime record. -/
def Chip.sensed (k : Chip) (readings : List Nat) : Chip :=
  { k with gn := { k.gn with sensors := k.sampled readings, droops := k.droopMarks } }

/-- R501: a sample counted; 1000 of them are a second. -/
def Chip.sampleCounted (k : Chip) : Chip :=
  let l := { k.gn.life with samples := k.gn.life.samples + 1 }
  { k with gn := { k.gn with life := if 1000 ≤ l.samples then l.second else l } }

theorem Chip.sampleCounted_lifeChanged (k : Chip) : k.LifeChanged k.sampleCounted := rfl

theorem Chip.sample_running {k : Chip} (readings : List Nat) (hrun : k.on GN_STATUS.RUNNING = true) :
    k.sample readings = ((List.range 13).foldl Chip.lifeSample (k.sensed readings)).sampleCounted := by
  unfold Chip.sample Chip.sensed Chip.sampled Chip.droopMarks Chip.readingsOf Chip.sampleCounted
  rw [if_neg (by simp [hrun])]

/-- R497: what a sample leaves. -/
theorem Chip.sample_frame {k : Chip} (readings : List Nat) (hrun : k.on GN_STATUS.RUNNING = true) :
    (k.sample readings).gn.sensors = k.sampled readings ∧ (k.sample readings).gn.droops = k.droopMarks ∧
    (k.sample readings).mem = k.mem ∧ (k.sample readings).regs = k.regs ∧ (k.sample readings).out = k.out := by
  have hdies : (k.sensed readings).LifeChanged ((List.range 13).foldl Chip.lifeSample (k.sensed readings)) :=
    List.foldlRecOn (motive := (k.sensed readings).LifeChanged) _ _ (.refl _)
      fun j hj d _ => hj.trans (j.lifeSample_lifeChanged d)
  obtain ⟨hsensors, hdroops, hmem, hregs, hout⟩ := (hdies.trans (Chip.sampleCounted_lifeChanged _)).frame
  rw [Chip.sample_running readings hrun, hsensors, hdroops, hmem, hregs, hout]
  simp only [Chip.sensed, and_self]

/-! ### Histograms (R501) -/

theorem tjBin_lt (t : Int) : tjBin t < 16 := by
  unfold tjBin
  split
  · decide
  · split
    · decide
    · omega

theorem voltBin_lt (v : Nat) : voltBin v < 16 := by
  unfold voltBin
  split
  · decide
  · split
    · decide
    · omega

/-- The temperature bin of die `d` in the second that ends. -/
def Life.tjPlace (l : Life) (d : Nat) : Nat := 16 * d + tjBin (((Tbl.get 0 l.highs d : Nat) : Int) - 32768)

/-- The voltage bin of die `d` in the second that ends. -/
def Life.voltPlace (l : Life) (d : Nat) : Nat := 256 + 16 * d + voltBin (Tbl.get 0 l.highs (16 + d))

/-- Die `d` counted in its two bins. -/
def Life.countDie (l : Life) (t : Tbl Nat) (d : Nat) : Tbl Nat :=
  Tbl.mod 0 (Tbl.mod 0 t (l.tjPlace d) fun n => satAdd n 1 64) (l.voltPlace d) fun n => satAdd n 1 64

theorem Life.second_histo (l : Life) :
    l.second.histo = ((List.range 13).filter fun d => !l.off.contains d).foldl l.countDie l.histo := rfl

section
variable (l : Life) (t : Tbl Nat) {d : Nat}

theorem Life.tjPlace_bounds : 16 * d ≤ l.tjPlace d ∧ l.tjPlace d < 16 * d + 16 := by
  have := tjBin_lt (((Tbl.get 0 l.highs d : Nat) : Int) - 32768)
  unfold Life.tjPlace
  omega

theorem Life.voltPlace_bounds : 256 + 16 * d ≤ l.voltPlace d ∧ l.voltPlace d < 256 + 16 * d + 16 := by
  have := voltBin_lt (Tbl.get 0 l.highs (16 + d))
  unfold Life.voltPlace
  omega

/-- A place that is neither of the die's two bins. -/
theorem Life.get_countDie_ne {i : Nat} (htj : i ≠ l.tjPlace d) (hvolt : i ≠ l.voltPlace d) :
    Tbl.get 0 (l.countDie t d) i = Tbl.get 0 t i := by
  rw [Life.countDie, Tbl.get_mod_ne _ _ _ _ hvolt, Tbl.get_mod_ne _ _ _ _ htj]

theorem Life.get_countDie_tj : Tbl.get 0 (l.countDie t d) (l.tjPlace d) = satAdd (Tbl.get 0 t (l.tjPlace d)) 1 64 := by
  obtain ⟨-, htj⟩ := l.tjPlace_bounds (d := d)
  obtain ⟨hvolt, -⟩ := l.voltPlace_bounds (d := d)
  rw [Life.countDie, Tbl.get_mod_ne _ _ _ _ (by omega), Tbl.get_mod_self]

theorem Life.get_countDie_volt : Tbl.get 0 (l.countDie t d) (l.voltPlace d) = satAdd (Tbl.get 0 t (l.voltPlace d)) 1 64 := by
  obtain ⟨-, htj⟩ := l.tjPlace_bounds (d := d)
  obtain ⟨hvolt, -⟩ := l.voltPlace_bounds (d := d)
  rw [Life.countDie, Tbl.get_mod_self, Tbl.get_mod_ne _ _ _ _ (by omega)]

end

/-- A bin that one die alone counts in, over all the dies. -/
theorem Life.second_at (l : Life) {d i : Nat} (hmem : d ∈ (List.range 13).filter fun d => !l.off.contains d)
    (hself : ∀ t, Tbl.get 0 (l.countDie t d) i = satAdd (Tbl.get 0 t i) 1 64)
    (hother : ∀ t e, e < 13 → e ≠ d → Tbl.get 0 (l.countDie t e) i = Tbl.get 0 t i) :
    Tbl.get 0 l.second.histo i = satAdd (Tbl.get 0 l.histo i) 1 64 := by
  have hsmall : ∀ e ∈ (List.range 13).filter fun d => !l.off.contains d, e < 13 := fun e he => by
    simpa using List.mem_of_mem_filter he
  rw [Life.second_histo]
  exact foldl_at_of_mem (Q := fun t : Tbl Nat => Tbl.get 0 t i = Tbl.get 0 l.histo i)
    (P := fun t : Tbl Nat => Tbl.get 0 t i = satAdd (Tbl.get 0 l.histo i) 1 64)
    (fun t e he hne ht => (hother t e (hsmall e he) hne).trans ht) (fun t ht => by rw [hself, ht])
    (fun t e he hne ht => (hother t e (hsmall e he) hne).trans ht) (List.nodup_range.filter _) hmem rfl

/-- Settles O49: each command by its equation; a sample by the table it makes, a second by the bins that each die alone has. -/
theorem gunelItself : Obligations.GunelItself := by
  refine ⟨fun s hrun => ?_, fun s hoff hrom hpkg => ?_, fun s hrun => ?_, fun s image comp slot hrun hslot => ?_,
    fun s hrun hgood => ?_, fun s hrun hgood => ?_, fun s => ?_, fun s image hrom => ?_, fun s readings i hrun => ?_,
    fun l d bin volt hd hon hbin hvolt => ?_⟩
  · exact ⟨_, s.next_after (Chip.gunelRestart_running hrun), (Chip.rd_refresh _ (by decide)).trans s.chip.rd_gunelDown,
      Chip.refresh_gn _, s.sameMemory_after rfl, s.chip.onlyRegs_gunelDown.after⟩
  · refine ⟨_, s.next_after (Chip.gunelBack_off hoff hrom hpkg), ?_, ?_, ?_, Chip.refresh_gn _, s.sameMemory_after rfl, ?_⟩
    · rw [State.after_chip, Chip.rd_refresh _ (by decide), Chip.rd_congr s.chip.gunelUpAgain_regs,
        Chip.rd_bump_ne _ _ (by decide), Chip.rd_wr_ne _ _ (by decide), Chip.rd_wr_self]
      rfl
    · rw [State.after_chip, Chip.rd_refresh _ (by decide), Chip.rd_congr s.chip.gunelUpAgain_regs,
        Chip.rd_bump_ne _ _ (by decide), Chip.rd_wr_self]
      rfl
    · rw [State.after_chip, Chip.rd_refresh _ (by decide), Chip.rd_congr s.chip.gunelUpAgain_regs, Chip.rd_bump_self,
        Chip.rd_wr_ne _ _ (by decide), Chip.rd_wr_ne _ _ (by decide)]
    · exact ((((Chip.OnlyRegs.refl _ s.chip).wr 1 (by simp)).wr 1 (by simp)).bump 1 (by simp)).congr
        s.chip.gunelUpAgain_regs |>.after
  · have hwrite : (if s.chip.on GN_STATUS.RUNNING then s.chip.lifeWrite else s.chip) = s.chip.lifeWrite := if_pos hrun
    refine ⟨_, s.next_after hwrite, ?_, ?_, ?_, s.sameMemory_after rfl, s.sameRegs_after rfl⟩ <;>
      rw [State.after_chip, Chip.refresh_gn] <;> rfl
  · have hcomp : comp = 1 ∨ comp = 2 := hslot.imp And.left And.left
    have hplace : s.chip.gn.updateSlot comp = slot := by
      unfold Gunel.updateSlot
      rcases hslot with ⟨rfl, rfl⟩ | ⟨rfl, rfl, hsecure⟩
      · simp
      · simp only [Nat.reduceBEq, Bool.false_eq_true, if_false]
        omega
    obtain ⟨hgn, hmem, hregs⟩ := Chip.pldmUpdate_running (k := s.chip) image hrun hcomp
    refine ⟨s.after (s.chip.pldmUpdate comp image), rfl, ?_, fun n hn => ?_, ?_, ?_, ?_, s.sameMemory_after hmem,
      s.sameRegs_after hregs⟩ <;> rw [State.after_chip, Chip.refresh_gn, hgn]
    · rw [← hplace]
      exact Tbl.get_set_self _ _ _ _
    · rw [← hplace] at hn
      exact Tbl.get_set_ne _ _ _ _ hn
    · rfl
    · rfl
    · exact s.chip.gn.mem_updated comp image
  · refine ⟨_, s.next_after (Chip.activate_gunel hrun hgood), ?_, ?_, (Chip.rd_refresh _ (by decide)).trans (Chip.rd_gunelDown _),
      ?_, (((Chip.OnlyRegs.of_eq (k' := s.chip.slotFlipped) rfl).trans s.chip.slotFlipped.onlyRegs_gunelDown).after)⟩
    · rw [State.after_chip, Chip.refresh_gn]
      rfl
    · rw [State.after_chip, Chip.refresh_gn]
      rfl
    · rw [State.after_chip, Chip.refresh_gn]
      change 1 ∉ s.chip.gn.verified.filter (· != 1)
      simp
  · refine ⟨_, s.next_after (Chip.activate_secure hrun hgood), ?_, ?_, s.sameRegs_after rfl⟩ <;>
      rw [State.after_chip, Chip.refresh_gn] <;> rfl
  · obtain ⟨hn, hnor, hmem, hregs⟩ := s.chip.hubLapses_frame
    refine ⟨s.after s.chip.hubLapses, rfl, ?_, ?_, ?_, s.sameMemory_after hmem, ?_⟩
    · rw [State.after_chip, Chip.rd_refresh _ (by decide), Chip.rd_congr hregs, Chip.rd_raise_self _ rfl]
    · rw [State.after_chip, Chip.refresh_gn, hn]
    · rw [State.after_chip, Chip.refresh_gn]
      exact hnor
    · exact (((Chip.OnlyRegs.refl _ s.chip).raise (by simp)).congr hregs).after
  · have hrecover : s.chip.romRecover image = if Config.imageGood image then
        Chip.bootGunel { s.chip with gn := { s.chip.gn with recovery := false } } else s.chip := by
      unfold Chip.romRecover
      cases Config.imageGood image <;> simp [hrom]
    exact s.next_after hrecover
  · obtain ⟨hsensors, hdroops, hmem, hregs, hout⟩ := Chip.sample_frame (k := s.chip) readings hrun
    refine ⟨s.after (s.chip.sample readings), rfl, fun hi => ?_, fun hi hon => ⟨?_, ?_⟩, fun hpg => ?_,
      s.sameMemory_after hmem, s.sameRegs_after hregs, (Chip.refresh_out _).trans hout⟩
    · rw [State.after_chip, Chip.refresh_gn, hsensors, Chip.get_sampled _ _ (s.chip.readingsOf_reading readings hi)]
    · rw [State.after_chip, Chip.refresh_gn, hsensors, Chip.get_sampled _ _ (s.chip.readingsOf_droops readings hi), if_pos hon]
    · rw [State.after_chip, Chip.refresh_gn, hdroops, Chip.get_droopMarks _ hi]
    · have hon : s.chip.sensorOn 140 = true := by simp [Chip.sensorOn, hpg]
      rw [State.after_chip, Chip.refresh_gn, hsensors, Chip.get_sampled _ _ (s.chip.readingsOf_power readings), if_pos hon]
  · have hmem : d ∈ (List.range 13).filter fun d => !l.off.contains d := by simp [hd, hon]
    have hplaces : bin = l.tjPlace d ∧ volt = l.voltPlace d := ⟨hbin, hvolt⟩
    obtain ⟨rfl, rfl⟩ := hplaces
    have htj := l.tjPlace_bounds (d := d)
    have hv := l.voltPlace_bounds (d := d)
    refine ⟨l.second_at hmem (fun t => l.get_countDie_tj t) fun t e he hne => ?_,
      l.second_at hmem (fun t => l.get_countDie_volt t) fun t e he hne => ?_⟩ <;>
    · have htje := l.tjPlace_bounds (d := e)
      have hve := l.voltPlace_bounds (d := e)
      exact l.get_countDie_ne t (by omega) (by omega)

end Sys2Proof.Machine
end

section
/-!
PROOFS. Starts and rails (21, 24): the power-goods, the failures of a start and its end in Run.
-/

namespace Sys2Proof.Machine

/-! ### The targets of a warm start (R233) -/

/-- `k'` has the power state and the start of `k`. -/
def Chip.SameStart (k k' : Chip) : Prop := k'.pwr = k.pwr ∧ k'.start = k.start

theorem Chip.SameStart.trans {k k' k'' : Chip} (h : k.SameStart k') (h' : k'.SameStart k'') : k.SameStart k'' := by
  obtain ⟨hp, hs⟩ := h
  obtain ⟨hp', hs'⟩ := h'
  exact ⟨hp'.trans hp, hs'.trans hs⟩

theorem Chip.commandSent_sameStart (k : Chip) (n : Nat) (c : MediaCmd) (q : QPair) : k.SameStart (k.commandSent n c q) :=
  ⟨rfl, rfl⟩

theorem Chip.sendNvme_sameStart (k : Chip) (n : Nat) (c : MediaCmd) : k.SameStart (k.sendNvme n c) := by
  have hstored : k.SameStart (k.entryStored c) := by
    unfold Chip.entryStored
    dsimp only
    split
    · exact ⟨Chip.store_pwr _ _ _, Chip.store_start _ _ _⟩
    · exact ⟨rfl, rfl⟩
  cases hfatal : k.flt.fatal with
  | true =>
    rw [Chip.sendNvme_fatal n c hfatal]
    exact ⟨rfl, rfl⟩
  | false =>
    rw [Chip.sendNvme_sent n c hfatal]
    exact hstored.trans (Chip.commandSent_sameStart _ n c _)

theorem Chip.startTarget_sameStart (k : Chip) (t : Nat) : k.SameStart (k.startTarget t) := by
  unfold Chip.startTarget Chip.sendInit Chip.newNvme
  dsimp only
  refine Chip.SameStart.trans ?_ (Chip.sendNvme_sameStart _ _ _)
  split <;> exact ⟨rfl, rfl⟩

theorem Chip.startTargets_sameStart (k : Chip) : k.SameStart k.startTargets := by
  unfold Chip.startTargets
  split
  · exact ⟨rfl, rfl⟩
  · exact List.foldlRecOn (motive := k.SameStart) _ _ ⟨rfl, rfl⟩ fun j hj e _ => hj.trans (j.startTarget_sameStart e.1)

/-! ### The end of a start (R512, R514) -/

/-- The machine whose start has ended in Run. -/
def Chip.startEnded (k : Chip) : Chip :=
  { k with
    hf := { k.hf with block3 := k.start.facts.measurement }
    ws := { k.ws with watchdog := true, wdogSince := k.time }
    pwr := { k.pwr with pkg := .run }
    start := { k.start with running := false, step := 8, limps := 0 } }

/-- The targets that a warm start initialises leave its end as it is. -/
theorem Chip.startEnded_targets (j : Chip) :
    (if j.startEnded.start.kind == 2 then j.startEnded.startTargets else j.startEnded).pwr.pkg = .run ∧
    (if j.startEnded.start.kind == 2 then j.startEnded.startTargets else j.startEnded).start.running = false := by
  split
  · obtain ⟨hpwr, hstart⟩ := j.startEnded.startTargets_sameStart
    rw [hpwr, hstart]
    exact ⟨rfl, rfl⟩
  · exact ⟨rfl, rfl⟩

theorem Chip.finishStart_run (k : Chip) : k.finishStart.pwr.pkg = .run ∧ k.finishStart.start.running = false := by
  unfold Chip.finishStart
  extract_lets dram dies ages said token image top link counted
  clear_value counted
  exact counted.startEnded_targets

section
variable {k : Chip} (hrun : k.start.running = true) (hpg : k.start.cdPg = true) (n : Nat)
include hrun hpg

theorem Chip.runStart_fails {step : Nat} (h : k.startFailsAt = some step) :
    Chip.runStart (n + 1) k = Chip.runStart n (k.failStart step) := by
  rw [Chip.runStart, if_neg (by simp [hrun, hpg]), h]

theorem Chip.runStart_ends (h : k.startFailsAt = none) : Chip.runStart (n + 1) k = k.finishStart := by
  rw [Chip.runStart, if_neg (by simp [hrun, hpg]), h]

end

/-! ### A cold start that fails (R517, R518) -/

/-- The machine with the failure of a cold start at `step` reported and counted. -/
def Chip.coldFailed (k : Chip) (step : Nat) : Chip :=
  (k.log { cls := 4, unitType := 17, unit := 0, action := 12, info0 := step, info1 := k.start.kind }).setStarts 8 fun n =>
    satAdd n 1 8

theorem Chip.failStart_cold {k : Chip} (step : Nat) (hwarm : k.start.kind ≠ 2) (hlimp : k.start.kind ≠ 3)
    (hfew : k.start.limps < 3) :
    k.failStart step = (k.coldFailed step).beginStart ((k.coldFailed step).chooseKind false) := by
  have hlimps : (k.coldFailed step).start.limps < 3 := by
    rw [Chip.coldFailed, Chip.setStarts, Chip.log_start]
    exact hfew
  have hkind : (k.start.kind == 2) = false ∧ (k.start.kind == 3) = false := ⟨by simpa using hwarm, by simpa using hlimp⟩
  unfold Chip.failStart
  simp only [hkind, Bool.false_eq_true, if_false, Bool.false_and]
  rw [← Chip.coldFailed, if_neg (by omega)]

theorem Chip.get_setStarts (k : Chip) (i : Nat) (f : Nat → Nat) :
    Tbl.get 0 (k.setStarts i f).gn.life.starts i = f (Tbl.get 0 k.gn.life.starts i) := Tbl.get_mod_self _ _ _ _

theorem Chip.coldFailed_starts (k : Chip) (step : Nat) : Tbl.get 0 (k.coldFailed step).gn.life.starts 8 = satAdd (Tbl.get 0
    (k.log { cls := 4, unitType := 17, unit := 0, action := 12, info0 := step, info1 := k.start.kind }).gn.life.starts 8)
      1 8 := by
  rw [Chip.coldFailed, Chip.get_setStarts]

theorem Chip.beginStart_begins (k : Chip) (kind : Nat) : (k.beginStart kind).start.running = true ∧
    (k.beginStart kind).pwr.pkg = .starting ∧ (k.beginStart kind).start.kind = kind := ⟨rfl, rfl, rfl⟩

/-- R511: a limp start is chosen after the second cold start in a row that failed. -/
theorem Chip.chooseKind_cold (k : Chip) : k.chooseKind false = 3 ↔ 2 ≤ Tbl.get 0 k.gn.life.starts 8 := by
  unfold Chip.chooseKind
  simp only [Bool.false_and, Bool.false_eq_true, if_false]
  split
  · next h => simp [h]
  · next h => split <;> simp [h]

theorem two_le_satAdd_one (n : Nat) : 2 ≤ satAdd n 1 8 ↔ 1 ≤ n := by
  unfold satAdd
  omega

/-! ### Rails (R554, R556) -/

/-- The machine with reset released. -/
def Chip.released (k : Chip) (facts : StartFacts) : Chip :=
  { k with start := { k.start with reset := false, step := 1, facts := facts, limps := 0 } }

theorem Chip.resetReleased_waits {k : Chip} (facts : StartFacts) (hreset : k.start.reset = true)
    (hclock : k.on CLK_STATUS.XTAL_G_OK = false) : k.resetReleased facts = k.released facts := by
  have hoff : (k.released facts).on CLK_STATUS.XTAL_G_OK = false := hclock
  exact (if_neg (by simp [hreset])).trans (if_pos (by
    change (_ || !(k.released facts).on CLK_STATUS.XTAL_G_OK || _) = true
    simp [hoff]))

section
variable {k : Chip} (hrun : k.start.running = true) (hmain : k.start.railMain = true)
include hrun hmain

/-- The machine with the main power-good up and the next rail raised. -/
def Chip.cdRaised (k : Chip) : Chip :=
  Chip.emit { k with start := { k.start with mainPg := true, railCd := true } } (.pin "RAIL_EN_CD" 1)

theorem Chip.mainGood_waited (hpg : k.start.mainPg = false) (hcd : k.start.railCd = false) : k.mainGood = k.cdRaised := by
  unfold Chip.mainGood
  rw [if_pos (by simp [hrun, hmain, hpg])]
  unfold Chip.raiseRails
  dsimp only
  rw [if_neg (by simp [hrun]), if_neg (by simp [hmain]), if_neg (by simp), if_pos (by simp [hcd])]
  rfl

theorem Chip.cdGood_waited (hpg : k.start.mainPg = true) (hcd : k.start.railCd = true) (hcdpg : k.start.cdPg = false) :
    k.cdGood = Chip.runStart 10 { k with start := { k.start with cdPg := true } } := by
  unfold Chip.cdGood
  rw [if_pos (by simp [hrun, hcd, hcdpg])]
  unfold Chip.raiseRails
  dsimp only
  rw [if_neg (by simp [hrun]), if_neg (by simp [hmain]), if_neg (by simp [hpg]), if_neg (by simp [hcd]), if_neg (by simp)]

end

/-- R517, R556: no start is under way. -/
theorem Chip.noStart {k : Chip} (h : k.start.running = false) :
    k.mainGood = k ∧ k.cdGood = k ∧ k.stepTimeout = k ∧ k.powerGoodLate = k :=
  ⟨if_neg (by simp [h]), if_neg (by simp [h]), if_neg (by simp [h]), if_neg (by simp [h])⟩

/-- Settles O48: each power-good and timeout by its equation; the end in Run by the last step, a cold failure by its count. -/
theorem startsAndRails : Obligations.StartsAndRails := by
  refine ⟨fun s facts hreset hclock => ?_, fun s hrun hmain hpg hcd => ?_, fun s hrun hmain hpg hcd hcdpg => ?_,
    fun s c hc hidle => ?_, fun s c hrun hc => ?_, fun k n step hrun hpg hfails => Chip.runStart_fails hrun hpg n hfails,
    fun k n hrun hpg hends => ?_, fun k step hwarm hlimp hfew => ?_⟩
  · exact ⟨_, s.next_after (Chip.resetReleased_waits facts hreset hclock), Chip.refresh_start _, s.sameMemory_after rfl,
      s.sameRegs_after rfl, Chip.refresh_out _⟩
  · exact ⟨_, s.next_after (Chip.mainGood_waited hrun hmain hpg hcd), Chip.refresh_start _, Chip.refresh_out _,
      s.sameMemory_after rfl, s.sameRegs_after rfl⟩
  · exact s.next_after (Chip.cdGood_waited hrun hmain hpg hcd hcdpg)
  · obtain ⟨hmain, hcd, hstep, hlate⟩ := Chip.noStart hidle
    simp only [List.mem_cons, List.not_mem_nil, or_false] at hc
    rcases hc with rfl | rfl | rfl | rfl
    · exact s.next_after hmain
    · exact s.next_after hcd
    · exact s.next_after hstep
    · exact s.next_after hlate
  · rcases hc with rfl | ⟨rfl, hlate⟩
    · exact s.next_after (if_pos hrun)
    · refine s.next_after (if_pos ?_)
      rcases hlate with ⟨h, h'⟩ | ⟨h, h'⟩ <;> simp [hrun, h, h']
  · rw [Chip.runStart_ends hrun hpg n hends]
    exact k.finishStart_run
  · rw [Chip.failStart_cold step hwarm hlimp hfew]
    obtain ⟨hruns, hpkg, hkind⟩ := (k.coldFailed step).beginStart_begins ((k.coldFailed step).chooseKind false)
    refine ⟨hruns, hpkg, ?_⟩
    rw [hkind, Chip.chooseKind_cold, Chip.coldFailed_starts, two_le_satAdd_one]

end Sys2Proof.Machine
end

section
/-!
PROOFS. The mailboxes (20): how a command is turned away, taken and answered, and the commands that read.
-/

namespace Sys2Proof.Machine

/-! ### The registers of a mailbox (R507, R570) -/

/-- The fields of a mailbox that a command writes beside its answer. -/
def mboxFields (secure : Bool) : List Fld := [mboxOp secure, mboxStatus secure, mboxGo secure]

theorem mboxFields_apart : ∀ secure, ∀ f ∈ mboxFields secure, keyPage f.key = 11 ∧ f.key ∉ shownFields.map Fld.key := by
  decide +kernel

theorem mboxData_not_shown : ∀ secure, ∀ i < 8, (mboxData secure i).key ∉ shownFields.map Fld.key := by decide +kernel

theorem mboxData_key (secure : Bool) (i : Nat) : ∀ f ∈ mboxFields secure, (mboxData secure i).key ≠ f.key := by
  cases secure <;> simp only [mboxFields, mboxOp, mboxStatus, mboxGo, mboxData, List.mem_cons, List.not_mem_nil, or_false,
    forall_eq_or_imp, forall_eq, Bool.false_eq_true, if_false, if_true, Fld.key, Dom.code] <;> omega

theorem mboxData_key_ne (secure : Bool) {i j : Nat} (h : i ≠ j) : (mboxData secure i).key ≠ (mboxData secure j).key := by
  cases secure <;> simp only [mboxData, Bool.false_eq_true, if_false, if_true, Fld.key, Dom.code] <;> omega

theorem mboxData_width (secure : Bool) (i : Nat) : (mboxData secure i).width = 64 := by cases secure <;> rfl

theorem mboxFields_key_ne : ∀ secure, (mboxStatus secure).key ≠ (mboxGo secure).key ∧
    (mboxOp secure).key ≠ (mboxStatus secure).key ∧
    (mboxOp secure).key ≠ (mboxGo secure).key := by decide

/-! ### A command taken and answered (R507, R510) -/

/-- The machine with command `op` in a mailbox. -/
def Chip.mboxTaken (k : Chip) (secure : Bool) (op : Nat) : Chip := (k.wr (mboxOp secure) op).wr (mboxGo secure) 1

section
variable (k : Chip) (secure : Bool)

theorem Chip.rd_mboxTaken (op : Nat) {f : Fld} (h : ∀ g ∈ mboxFields secure, f.key ≠ g.key) :
    (k.mboxTaken secure op).rd f = k.rd f := by
  rw [Chip.mboxTaken, Chip.rd_wr_ne _ _ (h _ (by simp [mboxFields])), Chip.rd_wr_ne _ _ (h _ (by simp [mboxFields]))]

theorem Chip.rd_mboxTaken_page (op : Nat) {f : Fld} (h : keyPage f.key ≠ 11) : (k.mboxTaken secure op).rd f = k.rd f :=
  by
  refine k.rd_mboxTaken secure op fun g hg hkey => h ?_
  rw [hkey]
  exact (mboxFields_apart secure g hg).1

theorem Chip.mboxArg_mboxTaken (op : Nat) : (k.mboxTaken secure op).mboxArg secure = k.mboxArg secure :=
  k.rd_mboxTaken secure op (mboxData_key secure 0)

theorem Chip.rd_mboxDone_status (status : Nat) : (k.mboxDone secure status).rd (mboxStatus secure) = status % 16 := by
  rw [Chip.mboxDone, Chip.rd_wr_ne _ _ (mboxFields_key_ne secure).1, Chip.rd_wr_self]
  cases secure <;> rfl

theorem Chip.rd_mboxDone_go (status : Nat) : (k.mboxDone secure status).rd (mboxGo secure) = 0 := by
  rw [Chip.mboxDone, Chip.rd_wr_self, Nat.zero_mod]

theorem Chip.rd_mboxDone_data (status i : Nat) :
    (k.mboxDone secure status).rd (mboxData secure i) = k.rd (mboxData secure i) := by
  rw [Chip.mboxDone, Chip.rd_wr_ne _ _ (mboxData_key secure i _ (by simp [mboxFields])),
    Chip.rd_wr_ne _ _ (mboxData_key secure i _ (by simp [mboxFields]))]

/-- The answer as the state after the command shows it. -/
theorem Chip.rd_answer (status : Nat) : ((k.mboxDone secure status).refresh).rd (mboxStatus secure) = status % 16 ∧
    ((k.mboxDone secure status).refresh).rd (mboxGo secure) = 0 := by
  rw [Chip.rd_refresh _ (mboxFields_apart secure _ (by simp [mboxFields])).2,
    Chip.rd_refresh _ (mboxFields_apart secure _ (by simp [mboxFields])).2]
  exact ⟨k.rd_mboxDone_status secure status, k.rd_mboxDone_go secure status⟩

theorem Chip.rd_answer_data (status : Nat) {i : Nat} (hi : i < 8) :
    ((k.mboxDone secure status).refresh).rd (mboxData secure i) = k.rd (mboxData secure i) := by
  rw [Chip.rd_refresh _ (mboxData_not_shown secure i hi), Chip.rd_mboxDone_data]

end

/-- A command's end: with a status it is answered, with none GO stays 1. -/
def Chip.mboxEnd (secure : Bool) : Chip × Option Nat → Chip
  | (k, some status) => k.mboxDone secure status
  | (k, none) => k

section
variable {k : Chip} {secure : Bool} {who : By} {op : Nat} {f : Chip → Chip × Option Nat}

theorem Chip.mbox_denied (hsecure : secure = true) (hw : who.w ≠ 0) :
    k.mbox secure who op f = k.regWriteDenied 0xF_F000_0000_B200 who := if_pos (by simp [hsecure, hw])

theorem Chip.running_mboxTaken : (k.mboxTaken secure op).on GN_STATUS.RUNNING = k.on GN_STATUS.RUNNING := by
  have hkept : (k.mboxTaken secure op).rd GN_STATUS.RUNNING = k.rd GN_STATUS.RUNNING :=
    k.rd_mboxTaken secure op ((by decide : ∀ secure, ∀ g ∈ mboxFields secure, GN_STATUS.RUNNING.key ≠ g.key) secure)
  rw [Chip.on, hkept]
  rfl

variable (hwho : secure = false ∨ who.w = 0)
include hwho

theorem Chip.mbox_may : ¬ (secure && who.w != 0) = true := by rcases hwho with h | h <;> simp [h]

theorem Chip.mbox_going (hgo : k.on (mboxGo secure) = true) : k.mbox secure who op f = k.raise (mboxOverrun secure) :=
  (if_neg (Chip.mbox_may hwho)).trans (if_pos hgo)

variable (hgo : k.on (mboxGo secure) = false)
include hgo

theorem Chip.mbox_down (hdown : k.on GN_STATUS.RUNNING = false) :
    k.mbox secure who op f = (k.mboxTaken secure op).mboxDone secure 1 :=
  (if_neg (Chip.mbox_may hwho)).trans ((if_neg (by simp [hgo])).trans (if_pos (by
    rw [← Chip.mboxTaken, Chip.running_mboxTaken, hdown]
    rfl)))

variable (hrun : k.on GN_STATUS.RUNNING = true)
include hrun

theorem Chip.mbox_runs : k.mbox secure who op f = Chip.mboxEnd secure (f (k.mboxTaken secure op)) := by
  unfold Chip.mbox
  dsimp only
  rw [if_neg (Chip.mbox_may hwho), if_neg (by simp [hgo]), ← Chip.mboxTaken, if_neg (by
    rw [Chip.running_mboxTaken, hrun]
    decide)]
  rfl

theorem Chip.mbox_answers {j : Chip} {status : Nat} (hf : f (k.mboxTaken secure op) = (j, some status)) :
    k.mbox secure who op f = j.mboxDone secure status := by
  rw [Chip.mbox_runs hwho hgo hrun, hf]
  rfl

theorem Chip.mbox_waits {j : Chip} (hf : f (k.mboxTaken secure op) = (j, none)) : k.mbox secure who op f = j := by
  rw [Chip.mbox_runs hwho hgo hrun, hf]
  rfl

end

/-! ### What the reading commands read (R497, R501, R507) -/

/-- Word `i` of GET_INFO's answer put into its register. -/
def Chip.putInfo (secure : Bool) (images : List Bytes) (k : Chip) (i : Nat) : Chip :=
  k.wr (mboxData secure i) (Config.infoWord i images k.gn.activeSlot k.gn.secureSlot k.gn.config)

/-- The words of GET_INFO, each in its register. -/
theorem Chip.mbInfo_words (k : Chip) (secure : Bool) : ∃ j, k.mbInfo secure = (j, some 0) ∧ j.gn = k.gn ∧ j.mem = k.mem ∧
    ∀ i < 8, j.rd (mboxData secure i) = Config.infoWord i ((List.range 4).map fun n => Tbl.get [] k.gn.slots n)
      k.gn.activeSlot k.gn.secureSlot k.gn.config % 2 ^ 64 := by
  generalize himages : ((List.range 4).map fun n => Tbl.get [] k.gn.slots n) = images
  refine ⟨(List.range 8).foldl (Chip.putInfo secure images) k, by rw [← himages]; rfl, ?_, ?_, fun i hi => ?_⟩
  · exact List.foldlRecOn (motive := fun j : Chip => j.gn = k.gn) _ _ rfl fun _ h _ _ => h
  · exact List.foldlRecOn (motive := fun j : Chip => j.mem = k.mem) _ _ rfl fun _ h _ _ => h
  · have hwords := foldl_at (f := Chip.putInfo secure images) (Q := fun j : Chip => j.gn = k.gn)
      (P := fun j : Chip => j.gn = k.gn ∧ j.rd (mboxData secure i) =
        Config.infoWord i images k.gn.activeSlot k.gn.secureSlot k.gn.config % 2 ^ 64) (b := i) (fun _ _ _ h => h)
      (fun j hj => ⟨hj, by rw [Chip.putInfo, Chip.rd_wr_self, hj, mboxData_width]⟩)
      (fun j x hx hj => ⟨hj.1, by rw [Chip.putInfo, Chip.rd_wr_ne _ _ (mboxData_key_ne secure (Ne.symm hx)), hj.2]⟩)
      List.nodup_range (List.mem_range.2 hi) (a := k) rfl
    exact hwords.2

theorem Chip.rd_setInd_mbox (k : Chip) (secure : Bool) (bs : Bytes) {i : Nat} (hi : i < 8) :
    (k.setInd (mboxData secure) 8 bs).rd (mboxData secure i) = leAt bs (8 * i) 8 :=
  k.rd_setInd (fun _ _ h => mboxData_key_ne secure h) (mboxData_width secure) bs hi

theorem Chip.setInd_gn (k : Chip) (data : Nat → Fld) (n : Nat) (bs : Bytes) : (k.setInd data n bs).gn = k.gn := by
  rw [Chip.setInd_eq]

theorem Chip.mbLog_found {k : Chip} {secure : Bool} {r : Bytes}
    (h : (k.gn.log.filter fun r => decide (k.mboxArg secure ≤ leAt r 0 4)).getLast? = some r) :
    k.mbLog secure = (k.setInd (mboxData secure) 8 r, some 0) := by
  unfold Chip.mbLog
  rw [h]

theorem Chip.mbLog_none {k : Chip} {secure : Bool} (h : ∀ r ∈ k.gn.log, leAt r 0 4 < k.mboxArg secure) :
    k.mbLog secure = (k, some 7) := by
  have hempty : (k.gn.log.filter fun r => decide (k.mboxArg secure ≤ leAt r 0 4)) = [] :=
    List.filter_eq_nil_iff.2 fun r hr => by simpa using h r hr
  unfold Chip.mbLog
  rw [hempty]
  rfl

theorem Chip.mbLife_at {k : Chip} {secure : Bool} {n : Nat} (harg : k.mboxArg secure = 64 * n) (hn : n < 256) :
    k.mbLife secure = (k.setInd (mboxData secure) 8 ((k.lifeSync.lifeRecord.drop (64 * n)).take 64), some 0) := by
  unfold Chip.mbLife
  dsimp only
  rw [harg, if_neg (by simp; omega)]

/-- R501: the body of the lifetime record that Gunel would hold after copying from the units. -/
def Chip.syncedBody (k : Chip) : Bytes :=
  Life.body { k.gn.life with
    spare := k.spareUsage
    age := (List.range 336).foldl (fun t i => Tbl.set 0 t i (k.rd (CLK_TRIM.AGE i))) k.gn.life.age }
      fun c => k.rd (MC_STATUS.RANKS c)

theorem Chip.lifeSync_lifeRecord (k : Chip) : k.lifeSync.lifeRecord = k.syncedBody ++ leBytes (crc32 k.syncedBody) 4 := by
  have hranks : (fun c => k.lifeSync.rd (MC_STATUS.RANKS c)) = fun c => k.rd (MC_STATUS.RANKS c) := rfl
  have hlife : k.lifeSync.gn.life = { k.gn.life with
    spare := k.spareUsage
    age := (List.range 336).foldl (fun t i => Tbl.set 0 t i (k.rd (CLK_TRIM.AGE i))) k.gn.life.age } := rfl
  unfold Chip.lifeRecord
  dsimp only
  rw [hranks, hlife, ← Chip.syncedBody]

/-- R501: the lifetime record reads no register of a mailbox. -/
theorem Chip.lifeRecord_mboxTaken (k : Chip) (secure : Bool) (op : Nat) :
    (k.mboxTaken secure op).lifeSync.lifeRecord = k.lifeSync.lifeRecord := by
  have hrd : ∀ f : Fld, keyPage f.key ≠ 11 → (k.mboxTaken secure op).rd f = k.rd f := fun f hf => k.rd_mboxTaken_page secure op hf
  have hpage : ∀ f : Fld, f.off < 4096 → f.lo < 64 → f.page ≠ 11 → (k.mboxTaken secure op).rd f = k.rd f := fun f ho hl hp =>
    hrd f (by rwa [Fld.keyPage_key ho hl])
  have hspares : (fun p => (k.mboxTaken secure op).rd (BL_STATUS.SPARES_USED p)) = fun p => k.rd (BL_STATUS.SPARES_USED p) :=
    funext fun p => hpage _ (by simp) (by simp) (by simp; omega)
  have hage : (fun (t : Tbl Nat) i => Tbl.set 0 t i ((k.mboxTaken secure op).rd (CLK_TRIM.AGE i))) =
      fun t i => Tbl.set 0 t i (k.rd (CLK_TRIM.AGE i)) :=
    funext fun t => funext fun i => congrArg _ (hpage _ (by simp) (by simp) (by simp [clkTrimPage]; omega))
  have hranks : (fun c => (k.mboxTaken secure op).rd (MC_STATUS.RANKS c)) = fun c => k.rd (MC_STATUS.RANKS c) :=
    funext fun c => hpage _ (by simp) (by simp) (by simp; omega)
  have hspare : (k.mboxTaken secure op).spareUsage = k.spareUsage := by
    unfold Chip.spareUsage
    rw [hspares, hpage HA_STATUS.REHOMED (by simp) (by simp) (by simp)]
    rfl
  have hbody : (k.mboxTaken secure op).syncedBody = k.syncedBody := by
    unfold Chip.syncedBody
    rw [hspare, hage, hranks]
    rfl
  rw [Chip.lifeSync_lifeRecord, Chip.lifeSync_lifeRecord, hbody]

theorem Chip.mbSensor_at {k : Chip} {secure : Bool} {i : Nat} (harg : k.mboxArg secure = i) (hi : i < 141) :
    k.mbSensor secure = (k.wr (mboxData secure 0) (if k.sensorOn i then Tbl.get 0x8000 k.gn.sensors i else 0x8000),
      some (if k.sensorOn i then 0 else 7)) := by
  unfold Chip.mbSensor
  dsimp only
  rw [harg, if_neg (by omega)]
  cases k.sensorOn i <;> rfl

/-- The commands of the mailboxes, each by the mailbox it uses. -/
theorem exec_mbox (s : State) (secure : Bool) (who : By) {op : Nat} {c : Instr}
    (h : (op, c) ∈ [(1, .getInfo secure who), (2, .readLog secure who), (3, .readLifetime secure who),
      (4, .readSensor secure who), (5, .queueTest secure who), (6, .cancelTest secure who), (7, .power secure who),
      (8, .dieReset secure who), (9, .setMemcfg secure who), (10, .hartStarted secure who), (11, .hartStopped secure who)]) :
    op < 256 ∧ ∃ f, exec c s = .next (s.after (s.chip.mbox secure who op f)) := by
  simp only [List.mem_cons, List.not_mem_nil, or_false, Prod.mk.injEq] at h
  rcases h with ⟨rfl, rfl⟩ | ⟨rfl, rfl⟩ | ⟨rfl, rfl⟩ | ⟨rfl, rfl⟩ | ⟨rfl, rfl⟩ | ⟨rfl, rfl⟩ | ⟨rfl, rfl⟩ | ⟨rfl, rfl⟩ |
    ⟨rfl, rfl⟩ | ⟨rfl, rfl⟩ | ⟨rfl, rfl⟩ <;> exact ⟨by decide, _, rfl⟩

/-- Settles O50: a command is turned away by the mailbox itself; each reading command by what it puts into the data registers. -/
theorem mailboxReads : Obligations.MailboxReads := by
  refine ⟨fun s secure who op c hc => ?_, fun s secure who hwho hgo hrun => ?_⟩
  · obtain ⟨hop, f, hexec⟩ := exec_mbox s secure who hc
    rw [hexec]
    refine ⟨fun hsecure hw => s.next_after (Chip.mbox_denied hsecure hw), fun hwho hgo => s.next_after (Chip.mbox_going hwho hgo),
      fun hwho hgo hdown => ?_⟩
    obtain ⟨hstatus, hdone⟩ := (s.chip.mboxTaken secure op).rd_answer secure 1
    obtain ⟨-, hopStatus, hopGo⟩ := mboxFields_key_ne secure
    refine ⟨_, s.next_after (Chip.mbox_down hwho hgo hdown), hstatus, hdone, ?_, Chip.refresh_gn _, s.sameMemory_after rfl, ?_⟩
    · rw [State.after_chip, Chip.rd_refresh _ (mboxFields_apart secure _ (by simp [mboxFields])).2, Chip.mboxDone,
        Chip.rd_wr_ne _ _ hopGo, Chip.rd_wr_ne _ _ hopStatus, Chip.mboxTaken, Chip.rd_wr_ne _ _ hopGo, Chip.rd_wr_self]
      exact Nat.mod_eq_of_lt (by cases secure <;> exact hop)
    · exact (((((Chip.OnlyRegs.refl _ s.chip).wr op (by simp)).wr 1 (by simp)).wr 1 (by simp)).wr 0 (by simp)).after
  · refine ⟨?_, fun r hr => ?_, fun hlate => ?_, fun n harg hn => ?_, fun i harg hi => ?_⟩
    · obtain ⟨j, hinfo, hgn, hmem, hwords⟩ := (s.chip.mboxTaken secure 1).mbInfo_words secure
      obtain ⟨hstatus, hdone⟩ := j.rd_answer secure 0
      exact ⟨_, s.next_after (Chip.mbox_answers hwho hgo hrun hinfo), hstatus, hdone,
        fun i hi => (j.rd_answer_data secure 0 hi).trans (hwords i hi), (Chip.refresh_gn _).trans hgn, s.sameMemory_after hmem⟩
    · have hlog := Chip.mbLog_found (k := s.chip.mboxTaken secure 2) (secure := secure) (r := r)
        (by rw [Chip.mboxArg_mboxTaken]; exact hr)
      obtain ⟨hstatus, hdone⟩ := ((s.chip.mboxTaken secure 2).setInd (mboxData secure) 8 r).rd_answer secure 0
      exact ⟨_, s.next_after (Chip.mbox_answers hwho hgo hrun hlog), hstatus, hdone,
        fun i hi => (Chip.rd_answer_data _ secure 0 hi).trans (Chip.rd_setInd_mbox _ secure r hi),
        (Chip.refresh_gn _).trans (Chip.setInd_gn _ _ _ _), s.sameMemory_after (Chip.setInd_mem _ _ _ _)⟩
    · have hlog := Chip.mbLog_none (k := s.chip.mboxTaken secure 2) (secure := secure)
        (by rw [Chip.mboxArg_mboxTaken]; exact hlate)
      obtain ⟨hstatus, hdone⟩ := (s.chip.mboxTaken secure 2).rd_answer secure 7
      exact ⟨_, s.next_after (Chip.mbox_answers hwho hgo hrun hlog), hstatus, hdone, Chip.refresh_gn _⟩
    · have hlife := Chip.mbLife_at (k := s.chip.mboxTaken secure 3) (by rw [Chip.mboxArg_mboxTaken]; exact harg) hn
      rw [Chip.lifeRecord_mboxTaken] at hlife
      obtain ⟨hstatus, hdone⟩ := ((s.chip.mboxTaken secure 3).setInd (mboxData secure) 8
        ((s.chip.lifeSync.lifeRecord.drop (64 * n)).take 64)).rd_answer secure 0
      exact ⟨_, s.next_after (Chip.mbox_answers hwho hgo hrun hlife), hstatus, hdone,
        fun i hi => (Chip.rd_answer_data _ secure 0 hi).trans (Chip.rd_setInd_mbox _ secure _ hi),
        (Chip.refresh_gn _).trans (Chip.setInd_gn _ _ _ _), s.sameMemory_after (Chip.setInd_mem _ _ _ _)⟩
    · have hsensor := Chip.mbSensor_at (k := s.chip.mboxTaken secure 4) (by rw [Chip.mboxArg_mboxTaken]; exact harg) hi
      have hon : (s.chip.mboxTaken secure 4).sensorOn i = s.chip.sensorOn i := rfl
      have hgn : (s.chip.mboxTaken secure 4).gn = s.chip.gn := rfl
      rw [hon, hgn] at hsensor
      obtain ⟨hstatus, hdone⟩ := ((s.chip.mboxTaken secure 4).wr (mboxData secure 0)
        (if s.chip.sensorOn i then Tbl.get 0x8000 s.chip.gn.sensors i else 0x8000)).rd_answer secure
          (if s.chip.sensorOn i then 0 else 7)
      refine ⟨_, s.next_after (Chip.mbox_answers hwho hgo hrun hsensor), hdone, hstatus.trans ?_, ?_, Chip.refresh_gn _,
        s.sameMemory_after rfl⟩
      · split <;> rfl
      · rw [State.after_chip, Chip.rd_answer_data _ secure _ (by decide), Chip.rd_wr_self, mboxData_width]
        split <;> rfl

end Sys2Proof.Machine
end

section
/-!
PROOFS. The acting commands of the mailboxes (17, 19 to 21).
-/

namespace Sys2Proof.Machine

/-! ### Tests (R438, R439) -/

section
variable {k : Chip} {unitType unit : Nat}

/-- R438: the test that QUEUE_TEST queues. -/
def Chip.testOf (k : Chip) (unitType unit : Nat) (retire : Bool) : Test :=
  { unitType := unitType, unit := unit, retire := retire, tile := ((k.hart unit).ptile).getD 0 }

/-- R438: a unit that waits for no test joins the queue. -/
theorem Chip.queueTest_new (retire : Bool) (h : (k.gn.tests.any fun x => x.unitType == unitType && x.unit == unit) = false) :
    (k.queueTest unitType unit retire).gn.tests = k.gn.tests ++ [k.testOf unitType unit retire] := by
  unfold Chip.queueTest Chip.logTest
  rw [if_neg (by simp [h])]
  dsimp only
  rw [Chip.log_tests]
  rfl

/-- The machine with the only test withdrawn. -/
theorem Chip.cancelTest_only {x : Test} (htests : k.gn.tests = [x]) (hrun : x.running = false) :
    k.cancelTest x.unitType x.unit = (true, k.noTests) := by
  simp [Chip.cancelTest, htests, hrun, Chip.noTests]

end

section
variable {k : Chip} {secure : Bool} {v : Nat} (harg : k.mboxArg secure = v)
include harg

theorem Chip.mbUnit_of_arg : k.mbUnit secure = (bits v 0 8, bits v 8 16) := by rw [Chip.mbUnit, harg]

theorem Chip.mbQueue_testable (h : testable (bits v 0 8) (bits v 8 16) = true) :
    k.mbQueue secure = (k.queueTest (bits v 0 8) (bits v 8 16) false, some 0) := by
  unfold Chip.mbQueue
  rw [Chip.mbUnit_of_arg harg]
  exact if_pos h

theorem Chip.mbCancel_only {x : Test} (htests : k.gn.tests = [x]) (hrun : x.running = false) (htype : x.unitType = bits v 0 8)
    (hunit : x.unit = bits v 8 16) : k.mbCancel secure = (k.noTests, some 0) := by
  unfold Chip.mbCancel
  rw [Chip.mbUnit_of_arg harg, ← htype, ← hunit]
  dsimp only
  rw [Chip.cancelTest_only htests hrun]
  rfl

/-! ### Memory and harts (R507, R508, R521) -/

theorem Chip.mbMemcfg_eq : k.mbMemcfg secure =
    (if v < 16 then { k with gn := { k.gn with memcfg := some v } } else k, some (if v < 16 then 0 else 5)) := by
  unfold Chip.mbMemcfg
  dsimp only
  rw [harg]
  by_cases hv : v < 16
  · rw [if_neg (by omega), if_pos hv, if_pos hv]
  · rw [if_pos (by omega), if_neg hv, if_neg hv]

theorem Chip.mbStopped_secure (stopped : Bool) (hsecure : secure = true) (hv : v < 288) :
    k.mbStopped secure stopped = (k.setHart v fun g => { g with stopped := stopped }, some 0) := by
  unfold Chip.mbStopped
  dsimp only
  rw [harg, if_neg (by simp [hsecure]; omega)]

end

theorem Chip.mbStopped_normal (k : Chip) {secure : Bool} (stopped : Bool) (hsecure : secure = false) :
    k.mbStopped secure stopped = (k, some 5) := if_pos (by simp [hsecure])

/-! ### A partial reset (R521, R522) -/

section
variable {k : Chip} {d : Nat} (hup : k.dieUp d = true) (hidle : k.resetting = false)
  (hothers : 1 < ((List.range 12).filter k.dieUp).length) (hd : d < 12) (hfree : d ∉ k.claims)
  (hstopped : ∀ e ∈ k.harts, e.2.online = true → e.2.stopped = true)
include hup hidle hothers hd hfree hstopped

theorem Chip.dieResetStatus_quiet (secure : Bool) : k.dieResetStatus d secure = (0, none) := by
  have honly : (k.dieUp d && ((List.range 12).filter k.dieUp).length == 1) = false := by
    simp only [hup, Bool.true_and, beq_eq_false_iff_ne]
    omega
  have hclaim : k.claims.find? (· == d) = none := List.find?_eq_none.2 fun c hc h => hfree (by
    rw [← beq_iff_eq.1 h]
    exact hc)
  have hquiet : (k.harts.any fun e => e.2.online && !e.2.stopped && e.2.ptile.any fun t => t / 28 == d) = false := by
    rw [List.any_eq_false]
    intro e he
    cases honline : e.2.online
    · simp
    · simp [hstopped e he honline]
  unfold Chip.dieResetStatus
  dsimp only
  rw [if_neg (by omega), if_neg (by simp [hidle]), if_neg (by simp [honly]), hclaim, if_neg (by simp), if_neg (by simp [hquiet])]

theorem Chip.mbDieReset_quiet {secure : Bool} (harg : k.mboxArg secure = d) : k.mbDieReset secure =
    (k.setDie d fun s => { s with step := 1, planned := true, autoDue := false }, some 0) := by
  have hstart : k.startReset d = k.setDie d fun s => { s with step := 1, planned := true, autoDue := false } := if_pos hup
  unfold Chip.mbDieReset
  dsimp only
  rw [harg, Chip.dieResetStatus_quiet hup hidle hothers hd hfree hstopped secure, ← hstart]
  rfl

end

/-- The claims are registers of the worlds, apart from the mailboxes. -/
theorem Chip.claims_mboxTaken (k : Chip) (secure : Bool) (op : Nat) : (k.mboxTaken secure op).claims = k.claims := by
  have hpage : ∀ f : Fld, f.off < 4096 → f.lo < 64 → f.page ≠ 11 → (k.mboxTaken secure op).rd f = k.rd f := fun f ho hl hp =>
    k.rd_mboxTaken_page secure op (by rwa [Fld.keyPage_key ho hl])
  have hon : ∀ f : Fld, f.off < 4096 → f.lo < 64 → f.page ≠ 11 → (k.mboxTaken secure op).on f = k.on f := fun f ho hl hp => by
    rw [Chip.on, hpage f ho hl hp]
    rfl
  have htiles : ∀ i ∈ List.range 6, ((setBits ((k.mboxTaken secure op).rd (WS_CLAIM_TILE.TILE i)) 64).map (64 + 64 * i + ·)) =
      (setBits (k.rd (WS_CLAIM_TILE.TILE i)) 64).map (64 + 64 * i + ·) := fun i hi => by
    rw [List.mem_range] at hi
    rw [hpage _ (by simp; omega) (by simp) (by simp)]
  unfold Chip.claims
  rw [hpage _ (by simp) (by simp) (by simp), hpage _ (by simp) (by simp) (by simp), hon _ (by simp) (by simp) (by simp),
    hon _ (by simp) (by simp) (by simp), List.flatMap_congr htiles]

/-! ### A power request (R494, R507) -/

theorem Chip.mbPower_waits {k : Chip} {secure : Bool} {v : Nat} {r : PwrReq} (harg : k.mboxArg secure = v)
    (hr : r = { op := bits v 12 4, target := bits v 9 3, index := bits v 0 9, src := if secure then 4 else 3 })
    (hshaped : r.shaped = true) (hbeats : k.pwr.pkg = .run ∨ k.pwr.pkg = .quiet) (hup : k.gunelUp = true) :
    k.mbPower secure = ({ k with pwr := { k.pwr with requests := k.pwr.requests ++ [r] } }, none) := by
  unfold Chip.mbPower
  dsimp only
  rw [harg, ← hr, Chip.pwrRequest_beats hshaped hbeats hup]

theorem Chip.gunelUp_mboxTaken {k : Chip} (secure : Bool) (op : Nat) (hrun : k.on GN_STATUS.RUNNING = true)
    (hhb : k.on CLK_STATUS.GUNEL_HB = true) : (k.mboxTaken secure op).gunelUp = true := by
  have hkept : (k.mboxTaken secure op).on CLK_STATUS.GUNEL_HB = true := by
    rw [Chip.on, Chip.rd_mboxTaken_page _ _ _ (by decide)]
    exact hhb
  rw [Chip.gunelUp, Chip.running_mboxTaken, hrun, hkept]
  rfl

theorem Chip.mboxDone_harts (k : Chip) (secure : Bool) (status : Nat) : (k.mboxDone secure status).harts = k.harts := rfl

/-- Settles O51: each command that a mailbox takes, by the equation of what it does. -/
theorem mailboxActions : Obligations.MailboxActions := by
  intro s secure who v hwho hgo hrun hv
  have harg : ∀ op, (s.chip.mboxTaken secure op).mboxArg secure = v := fun op => by rw [Chip.mboxArg_mboxTaken, hv]
  refine ⟨fun htestable hnew => ?_, fun x htests hx htype hunit => ?_, fun hshaped hbeats hhb => ?_,
    fun hup hidle hothers hd hfree hstopped => ?_, ?_, fun c hc hsecure hsmall => ?_, fun c hc hsecure => ?_⟩
  · have hqueue := Chip.mbQueue_testable (harg 5) htestable
    obtain ⟨hstatus, hdone⟩ := ((s.chip.mboxTaken secure 5).queueTest (bits v 0 8) (bits v 8 16) false).rd_answer secure 0
    refine ⟨_, s.next_after (Chip.mbox_answers hwho hgo hrun hqueue), hstatus, hdone,
      (s.chip.mboxTaken secure 5).testOf (bits v 0 8) (bits v 8 16) false, ?_, rfl, rfl, rfl, rfl⟩
    rw [State.after_chip, Chip.refresh_gn]
    exact Chip.queueTest_new false hnew
  · have hcancel := Chip.mbCancel_only (harg 6) htests hx htype hunit
    obtain ⟨hstatus, hdone⟩ := (s.chip.mboxTaken secure 6).noTests.rd_answer secure 0
    exact ⟨_, s.next_after (Chip.mbox_answers hwho hgo hrun hcancel), hstatus, hdone, Chip.refresh_gn _, s.sameMemory_after rfl⟩
  · have hpower := Chip.mbPower_waits (harg 7) rfl hshaped hbeats (Chip.gunelUp_mboxTaken secure 7 hrun hhb)
    refine ⟨_, s.next_after (Chip.mbox_waits hwho hgo hrun hpower), ?_, Chip.refresh_pwr _, s.sameMemory_after rfl⟩
    rw [State.after_chip, Chip.rd_refresh _ (mboxFields_apart secure _ (by simp [mboxFields])).2]
    refine (Chip.rd_congr (k := s.chip.mboxTaken secure 7) rfl _).trans ?_
    rw [Chip.mboxTaken, Chip.rd_wr_self]
    cases secure <;> rfl
  · have hreset := Chip.mbDieReset_quiet (k := s.chip.mboxTaken secure 8) hup hidle hothers hd
      (by rwa [Chip.claims_mboxTaken]) hstopped (harg 8)
    obtain ⟨hstatus, hdone⟩ := ((s.chip.mboxTaken secure 8).setDie v fun s => { s with
      step := 1, planned := true, autoDue := false }).rd_answer secure 0
    refine ⟨_, s.next_after (Chip.mbox_answers hwho hgo hrun hreset), hstatus, hdone, ?_, s.sameMemory_after rfl⟩
    rw [State.after_chip, Chip.dieState_refresh]
    exact Chip.dieState_setDie _ v _
  · have hcfg := Chip.mbMemcfg_eq (harg 9)
    obtain ⟨hstatus, hdone⟩ := Chip.rd_answer (if v < 16 then { s.chip.mboxTaken secure 9 with
      gn := { (s.chip.mboxTaken secure 9).gn with memcfg := some v } } else s.chip.mboxTaken secure 9) secure
        (if v < 16 then 0 else 5)
    refine ⟨_, s.next_after (Chip.mbox_answers hwho hgo hrun hcfg), hstatus.trans ?_, hdone, ?_, s.sameMemory_after ?_⟩
    · split <;> rfl
    · rw [State.after_chip, Chip.refresh_gn]
      split <;> rfl
    · split <;> rfl
  · obtain ⟨op, stopped, hexec, hnotes⟩ : ∃ op stopped, exec c s =
        .next (s.after (s.chip.mbox secure who op fun k => k.mbStopped secure stopped)) ∧
        stopped = (c == .hartStopped secure who) := by
      simp only [List.mem_cons, List.not_mem_nil, or_false] at hc
      rcases hc with rfl | rfl
      · exact ⟨10, false, rfl, by simp⟩
      · exact ⟨11, true, rfl, by simp⟩
    have hset := Chip.mbStopped_secure (harg op) stopped hsecure hsmall
    obtain ⟨hstatus, hdone⟩ := ((s.chip.mboxTaken secure op).setHart v fun g => { g with stopped := stopped }).rd_answer secure 0
    rw [hexec, ← hnotes]
    refine ⟨_, s.next_after (Chip.mbox_answers hwho hgo hrun hset), hstatus, hdone, ?_, fun h hh => ?_, s.sameMemory_after rfl⟩
    · rw [State.after_chip, Chip.hart_refresh]
      rw [Chip.hart, Chip.mboxDone_harts]
      exact Chip.hart_setHart _ v _
    · rw [State.after_chip, Chip.hart_refresh]
      rw [Chip.hart, Chip.mboxDone_harts]
      exact Chip.hart_setHart_ne _ _ hh
  · obtain ⟨op, stopped, hexec⟩ : ∃ op stopped, exec c s =
        .next (s.after (s.chip.mbox secure who op fun k => k.mbStopped secure stopped)) := by
      simp only [List.mem_cons, List.not_mem_nil, or_false] at hc
      rcases hc with rfl | rfl
      · exact ⟨10, false, rfl⟩
      · exact ⟨11, true, rfl⟩
    obtain ⟨hstatus, hdone⟩ := (s.chip.mboxTaken secure op).rd_answer secure 5
    rw [hexec]
    exact ⟨_, s.next_after (Chip.mbox_answers hwho hgo hrun (Chip.mbStopped_normal _ stopped hsecure)), hstatus, hdone,
      Chip.refresh_harts _⟩

end Sys2Proof.Machine
end

section
/-!
PROOFS. Performance counters (23): the dumps, the users' reads and the partition.
-/

namespace Sys2Proof.Machine

theorem Chip.pmErr_eq (k : Chip) (f : Fld) :
    k.pmErr f = k.raiseNew f { cls := 0, unitType := 17, unit := 0, cause := f.lo } := rfl

/-! ### Dumps (R545 to R548) -/

/-- The entries of the dump ring that are free. -/
def Chip.dumpFree (k : Chip) : Nat := k.dumpRing - wrapSub (k.rd PM_DUMP_PI.PI) (k.rd PM_DUMP_CI.CI) 32

/-- The machine with the records of `sets` to be written. -/
def Chip.dumpTaken (k : Chip) (sets : List Nat) : Chip :=
  { k with pm := { k.pm with dumpPending := sets.map k.dumpRecord, dumpSeq := (k.pm.dumpSeq + 1) % 2 ^ 32 } }

/-- The machine with a dump counted that was not taken. -/
def Chip.dumpDropped (k : Chip) : Chip :=
  let j := (k.bump PM_STATUS.DROPPED 1).pmErr PM_ERR.DROPPED
  { j with pm := { j.pm with dumpSeq := (k.pm.dumpSeq + 1) % 2 ^ 32 } }

section
variable {k : Chip} {sets : List Nat} (hsets : sets = setBits (k.rd PM_DUMP_CTRL.SETS) 15) (hdue : k.dumpDue = true)
  (hfit : ∀ n ∈ sets, recordLen n ≤ k.dumpEntry)
include hsets hdue hfit

/-- R545, R546: a dump whose records all fit their entries. -/
theorem Chip.dump_fits : k.dump = if k.dumpFree < sets.length || !k.pm.dumpPending.isEmpty then k.dumpDropped
    else k.dumpTaken sets := by
  have hsmall : (sets.any fun n => decide (k.dumpEntry < recordLen n)) = false := by
    rw [List.any_eq_false]
    intro n hn
    simpa using hfit n hn
  have hall : (sets.filter fun n => decide (recordLen n ≤ k.dumpEntry)) = sets :=
    List.filter_eq_self.2 fun n hn => by simpa using hfit n hn
  unfold Chip.dump
  dsimp only
  rw [if_neg (by simp [hdue]), ← hsets]
  simp only [hsmall, hall, Bool.false_eq_true, if_false]
  rfl

theorem Chip.dump_room (hnone : k.pm.dumpPending = []) (hroom : sets.length ≤ k.dumpFree) : k.dump = k.dumpTaken sets :=
  (Chip.dump_fits hsets hdue hfit).trans (if_neg (by simpa [hnone] using hroom))

theorem Chip.dump_full (hfull : k.dumpFree < sets.length) : k.dump = k.dumpDropped :=
  (Chip.dump_fits hsets hdue hfit).trans (if_pos (by simp [hfull]))

end

theorem Chip.dumpDropped_shows (k : Chip) : k.dumpDropped.pm = { k.pm with dumpSeq := (k.pm.dumpSeq + 1) % 2 ^ 32 } ∧
    k.dumpDropped.rd PM_STATUS.DROPPED = satAdd (k.rd PM_STATUS.DROPPED) 1 16 ∧ k.dumpDropped.rd PM_ERR.DROPPED = 1 := by
  have hpm : ((k.bump PM_STATUS.DROPPED 1).pmErr PM_ERR.DROPPED).pm = k.pm := by
    rw [Chip.pmErr_eq]
    unfold Chip.raiseNew
    split <;> simp
  have hrd : ∀ f, k.dumpDropped.rd f = ((k.bump PM_STATUS.DROPPED 1).pmErr PM_ERR.DROPPED).rd f := fun f => Chip.rd_congr rfl f
  refine ⟨?_, ?_, ?_⟩
  · unfold Chip.dumpDropped
    dsimp only
    rw [hpm]
  · rw [hrd, Chip.pmErr_eq, Chip.rd_raiseNew_ne _ _ _ (by decide) (by decide), Chip.rd_bump_self]
  · rw [hrd, Chip.pmErr_eq, Chip.rd_raiseNew_self _ _ _ rfl (by decide)]

/-! ### The entries of a dump (R546, R547) -/

/-- The machine whose next dump entry is being written, the records `rs` behind it. -/
def Chip.dumpNext (k : Chip) (rs : List Bytes) : Chip := { k with free := k.free + 1, pm := { k.pm with dumpPending := rs } }

/-- R546: the address of the next entry of the dump. -/
def Chip.dumpAddr (k : Chip) : Nat := k.rd PM_DUMP_BASE.BASE + k.dumpEntry * (k.rd PM_DUMP_PI.PI % k.dumpRing)

section
variable {k : Chip} {r : Bytes} {rs : List Bytes} (hpending : k.pm.dumpPending = r :: rs)
include hpending

theorem Chip.dumpWritten_stored (hlow : k.secureTop ≤ k.dumpAddr) (hhigh : k.dumpAddr + k.dumpEntry ≤ k.dramSize) :
    k.dumpWritten = ((k.dumpNext rs).store k.dumpAddr
      (r ++ leBytes (Config.freeNat k.free) (k.dumpEntry - r.length))).wr PM_DUMP_PI.PI (k.rd PM_DUMP_PI.PI + 1) := by
  unfold Chip.dumpWritten
  rw [hpending]
  dsimp only [Chip.fresh]
  rw [← Chip.dumpAddr, ← Chip.dumpNext]
  have hskip : ¬ k.dumpAddr < (k.dumpNext rs).secureTop := Nat.not_lt.2 hlow
  rw [if_neg hskip]
  exact congrArg (Chip.wr · PM_DUMP_PI.PI _) (if_pos hhigh)

theorem Chip.dumpWritten_refused (hlow : k.dumpAddr < k.secureTop) : k.dumpWritten =
    (((k.dumpNext rs).wsErr WS_ERR.VIOLATION k.dumpAddr 10).pmErr PM_ERR.REFUSED).wr PM_DUMP_PI.PI (k.rd PM_DUMP_PI.PI + 1) := by
  unfold Chip.dumpWritten
  rw [hpending]
  dsimp only [Chip.fresh]
  rw [← Chip.dumpAddr, ← Chip.dumpNext]
  exact congrArg (Chip.wr · PM_DUMP_PI.PI _) (if_pos hlow)

end

theorem Chip.wsErr_pmErr_pm (k : Chip) (f g : Fld) (addr source : Nat) : ((k.wsErr f addr source).pmErr g).pm = k.pm := by
  rw [Chip.pmErr_eq]
  unfold Chip.raiseNew Chip.wsErr
  split <;> simp

/-! ### The consumer index (R549) -/

theorem Chip.dumpCiWrite_within {k : Chip} {v : Nat}
    (h : wrapSub v (k.rd PM_DUMP_CI.CI) 32 ≤ wrapSub (k.rd PM_DUMP_PI.PI) (k.rd PM_DUMP_CI.CI) 32) :
    k.dumpCiWrite v = k.wr PM_DUMP_CI.CI v := if_pos h

theorem Chip.dumpCiWrite_beyond {k : Chip} {v : Nat}
    (h : wrapSub (k.rd PM_DUMP_PI.PI) (k.rd PM_DUMP_CI.CI) 32 < wrapSub v (k.rd PM_DUMP_CI.CI) 32) :
    k.dumpCiWrite v = k := if_neg (Nat.not_le.2 h)

/-! ### Counter reads (R540) -/

theorem Chip.counterTrap_m (k : Chip) (h : Nat) {csr : Nat} (hlow : 0xC00 ≤ csr) (hhigh : csr ≤ 0xC1F) :
    k.counterTrap h .m csr = none := by
  unfold Chip.counterTrap
  dsimp only
  rw [if_neg (by omega)]

theorem Chip.counterTrap_u {k : Chip} (h : Nat) {csr : Nat} (htime : csr ≠ 0xC01) (hoff : k.on PM_CTRL.USER_ENABLE = false) :
    k.counterTrap h .u csr = some 2 := by
  unfold Chip.counterTrap
  dsimp only
  split
  · rfl
  · rw [if_pos (by simp [htime, hoff])]

theorem Chip.counterRead_time (k : Chip) (h : Nat) :
    k.counterRead h .m 0xC01 = k.emit (.csrValue h (k.time % 2 ^ 64)) := by
  unfold Chip.counterRead
  rw [k.counterTrap_m h (by decide) (by decide)]
  rfl

theorem Chip.counterRead_count (k : Chip) (h : Nat) {csr : Nat} (htime : csr ≠ 0xC01) (hlow : 0xC00 ≤ csr) (hhigh : csr ≤ 0xC1F) :
    k.counterRead h .m csr = Chip.emit { k with free := k.free + 1 } (.csrValue h (Config.freeNat k.free % 2 ^ 64)) := by
  unfold Chip.counterRead
  rw [k.counterTrap_m h hlow hhigh]
  dsimp only
  rw [if_neg (by simpa using htime)]
  rfl

theorem Chip.counterRead_shut {k : Chip} (h : Nat) {csr : Nat} (htime : csr ≠ 0xC01) (hoff : k.on PM_CTRL.USER_ENABLE = false) :
    k.counterRead h .u csr = k.instrTrap h 2 := by
  unfold Chip.counterRead
  rw [Chip.counterTrap_u h htime hoff]

/-! ### The partition (R541) -/

/-- Die `d`'s part of PM_PART written. -/
def Chip.putPart (value : Nat) (k : Chip) (d : Nat) : Chip :=
  (k.wr (PM_PART.PART d) (bits value (4 * d) 4)).wr (PM_PART.SHARED d) (bits value (48 + d) 1)

/-- PM_PART written. -/
def Chip.partsPut (k : Chip) (value : Nat) : Chip := (List.range 12).foldl (Chip.putPart value) k

theorem partFields_key_ne : ∀ d < 12, (PM_PART.PART d).key ≠ (PM_PART.SHARED d).key ∧
    ∀ e < 12, e ≠ d → (PM_PART.PART d).key ≠ (PM_PART.PART e).key ∧ (PM_PART.PART d).key ≠ (PM_PART.SHARED e).key ∧
      (PM_PART.SHARED d).key ≠ (PM_PART.PART e).key ∧ (PM_PART.SHARED d).key ≠ (PM_PART.SHARED e).key := by decide +kernel

/-- R541: what each die's fields read once PM_PART is written. -/
theorem Chip.rd_partsPut (k : Chip) (value : Nat) {d : Nat} (hd : d < 12) :
    (k.partsPut value).rd (PM_PART.PART d) = bits value (4 * d) 4 ∧
      (k.partsPut value).rd (PM_PART.SHARED d) = bits value (48 + d) 1 := by
  obtain ⟨hown, hothers⟩ := partFields_key_ne d hd
  have hbits : ∀ lo n, bits value lo n % 2 ^ n = bits value lo n := fun lo n =>
    Nat.mod_eq_of_lt (Nat.mod_lt _ (Nat.two_pow_pos n))
  refine foldl_at_of_mem (f := Chip.putPart value) (Q := fun _ => True) (P := fun j : Chip =>
    j.rd (PM_PART.PART d) = bits value (4 * d) 4 ∧ j.rd (PM_PART.SHARED d) = bits value (48 + d) 1) (b := d)
    (fun _ _ _ _ h => h) (fun j _ => ⟨?_, ?_⟩) (fun j e he hne hj => ?_) List.nodup_range (List.mem_range.2 hd) trivial
  · rw [Chip.putPart, Chip.rd_wr_ne _ _ hown, Chip.rd_wr_self, hbits]
  · rw [Chip.putPart, Chip.rd_wr_self, hbits]
  · obtain ⟨hpart, hpartShared, hsharedPart, hshared⟩ := hothers e (List.mem_range.1 he) hne
    rw [Chip.putPart, Chip.rd_wr_ne _ _ hpartShared, Chip.rd_wr_ne _ _ hpart, Chip.rd_wr_ne _ _ hshared,
      Chip.rd_wr_ne _ _ hsharedPart]
    exact hj

/-- PM_PART is a register: the rest of the machine stays. -/
theorem Chip.partsPut_frame (k : Chip) (value : Nat) :
    (k.partsPut value).beat = k.beat ∧ (k.partsPut value).mem = k.mem ∧ (k.partsPut value).out = k.out :=
  List.foldlRecOn (motive := fun j : Chip => j.beat = k.beat ∧ j.mem = k.mem ∧ j.out = k.out) _ _ ⟨rfl, rfl, rfl⟩
    fun _ hj _ _ => hj

theorem Chip.partWrite_eq (k : Chip) (value : Nat) : k.partWrite value =
    if k.small && !(k.partsPut value).small then (k.partsPut value).hold PM_CTRL.USER_ENABLE 0 else k.partsPut value := rfl

theorem Chip.partWrite_frame (k : Chip) (value : Nat) : (k.partWrite value).regs = (k.partsPut value).regs ∧
    (k.partWrite value).mem = (k.partsPut value).mem ∧ (k.partWrite value).out = (k.partsPut value).out := by
  rw [Chip.partWrite_eq]
  generalize k.partsPut value = j
  split <;> exact ⟨rfl, rfl, rfl⟩

theorem Chip.small_hold (k : Chip) (f : Fld) (v : Nat) : (k.hold f v).small = k.small := rfl

theorem Chip.small_partWrite (k : Chip) (value : Nat) : (k.partWrite value).small = (k.partsPut value).small := by
  rw [Chip.partWrite_eq]
  split
  · exact Chip.small_hold _ _ _
  · rfl

/-! ### USER_ENABLE (R541) -/

section
variable {k : Chip} {v : Nat}

/-- A write that the partition allows: the bit is what was written. -/
theorem Chip.userEnableWrite_allowed (h : k.small = true ∨ v % 2 = 0) : (k.userEnableWrite v).rd PM_CTRL.USER_ENABLE = v % 2 ∧
    k.OnlyRegs [PM_CTRL.USER_ENABLE] (k.userEnableWrite v) ∧ (k.userEnableWrite v).mem = k.mem := by
  unfold Chip.userEnableWrite
  split
  · next hsame => exact ⟨(beq_iff_eq.1 hsame).symm, .refl _ _, rfl⟩
  · rw [if_neg (by rcases h with h | h <;> simp [h])]
    exact ⟨Chip.rd_wr_self _ _ _, (Chip.OnlyRegs.refl _ k).wr _ (by simp), rfl⟩

theorem Chip.userEnableWrite_refused (hlarge : k.small = false) (hset : v % 2 = 1) (hoff : k.rd PM_CTRL.USER_ENABLE = 0) :
    k.userEnableWrite v = k.pmErr PM_ERR.NOT_SMALL :=
  (if_neg (by simp [hset, hoff])).trans (if_pos (by simp [hset, hlarge]))

end

/-- Settles O54: each command by its equation; a refused entry and a dropped dump by what the error registers then read. -/
theorem performanceCounters : Obligations.PerformanceCounters := by
  refine ⟨fun s sets hsets hdue hfit hnone hroom => ?_, fun s sets hsets hdue hfit hfull => ?_,
    fun s hdue => s.next_after (if_pos (by simp [hdue])), fun s r rs addr k hpending haddr hk => ?_, fun s v hv => ?_,
    fun s v hv => s.next_after (Chip.dumpCiWrite_beyond hv), fun s h => ?_, fun s h csr htime hlow hhigh => ?_,
    fun s h csr htime hoff => ?_, fun s value => ?_, fun s v hv => ?_, fun s v hlarge hset hoff => ?_⟩
  · exact ⟨_, s.next_after (Chip.dump_room hsets hdue hfit hnone hroom), Chip.refresh_pm _, s.sameMemory_after rfl,
      s.sameRegs_after rfl, Chip.refresh_out _⟩
  · obtain ⟨hpm, hcount, herr⟩ := s.chip.dumpDropped_shows
    exact ⟨_, s.next_after (Chip.dump_full hsets hdue hfit hfull), (Chip.refresh_pm _).trans hpm,
      (Chip.rd_refresh _ (by decide)).trans hcount, (Chip.rd_refresh _ (by decide)).trans herr⟩
  · rw [← Chip.dumpAddr] at haddr
    rw [← Chip.dumpNext] at hk
    subst haddr hk
    refine ⟨fun hlow hhigh => s.next_after (Chip.dumpWritten_stored hpending hlow hhigh), fun hlow => ?_⟩
    refine ⟨_, s.next_after (Chip.dumpWritten_refused hpending hlow), ?_, ?_, ?_⟩
    · rw [State.after_chip, Chip.rd_refresh _ (by decide), Chip.rd_wr_ne _ _ (by decide), Chip.pmErr_eq,
        Chip.rd_raiseNew_self _ _ _ rfl (by decide)]
    · rw [State.after_chip, Chip.rd_refresh _ (by decide), Chip.rd_wr_self]
    · rw [State.after_chip, Chip.refresh_pm, Chip.wr_pm, Chip.wsErr_pmErr_pm]
      rfl
  · refine ⟨_, s.next_after (Chip.dumpCiWrite_within hv), ?_, s.sameMemory_after rfl,
      ((Chip.OnlyRegs.refl _ s.chip).wr v (by simp)).after⟩
    rw [State.after_chip, Chip.rd_refresh _ (by decide), Chip.rd_wr_self]
  · exact ⟨_, s.next_after (s.chip.counterRead_time h), Chip.refresh_out _, s.sameMemory_after rfl, s.sameRegs_after rfl⟩
  · exact ⟨_, s.next_after (s.chip.counterRead_count h htime hlow hhigh), Chip.refresh_out _, s.sameMemory_after rfl,
      s.sameRegs_after rfl⟩
  · exact ⟨_, _, s.next_after (Chip.counterRead_shut h htime hoff), Chip.refresh_out _, s.sameMemory_after rfl,
      s.sameRegs_after rfl⟩
  · obtain ⟨hbeat, hmem, hout⟩ := s.chip.partsPut_frame value
    obtain ⟨hregs, hwmem, hwout⟩ := s.chip.partWrite_frame value
    have hsmall : (s.after (s.chip.partWrite value)).chip.small = (s.chip.partsPut value).small := by
      rw [State.after_chip, Chip.small_refresh, Chip.small_partWrite]
    refine ⟨s.after (s.chip.partWrite value), rfl, fun d hd => ?_, fun hkept => ?_, fun hwas his => ?_, s.sameMemory_after ?_, ?_⟩
    · obtain ⟨hpart, hshared⟩ := s.chip.rd_partsPut value hd
      obtain ⟨hpshown, hsshown⟩ := partFields_not_shown d hd
      exact ⟨(Chip.rd_refresh _ hpshown).trans ((Chip.rd_congr hregs _).trans hpart),
        (Chip.rd_refresh _ hsshown).trans ((Chip.rd_congr hregs _).trans hshared)⟩
    · rw [hsmall] at hkept
      rw [State.after_chip, Chip.refresh_beat, Chip.partWrite_eq, if_neg (by rcases hkept with h | h <;> simp [h]), hbeat]
    · rw [hsmall] at his
      rw [State.after_chip, Chip.refresh_beat, Chip.partWrite_eq, if_pos (by simp [hwas, his])]
      exact List.mem_append_right _ List.mem_cons_self
    · exact hwmem.trans hmem
    · rw [State.after_chip, Chip.refresh_out, hwout, hout]
  · obtain ⟨henable, honly, hmem⟩ := Chip.userEnableWrite_allowed hv
    exact ⟨s.after (s.chip.userEnableWrite v), rfl, (Chip.rd_refresh _ (by decide)).trans henable, s.sameMemory_after hmem,
      honly.after⟩
  · refine ⟨_, s.next_after (Chip.userEnableWrite_refused hlarge hset hoff), ?_, ?_⟩
    · rw [State.after_chip, Chip.rd_refresh _ (by decide), Chip.pmErr_eq, Chip.rd_raiseNew_ne _ _ _ (by decide) (by decide), hoff]
    · rw [State.after_chip, Chip.rd_refresh _ (by decide), Chip.pmErr_eq, Chip.rd_raiseNew_self _ _ _ rfl (by decide)]

end Sys2Proof.Machine
end

section
/-!
PROOFS. Accesses to reserved addresses (25).
-/

namespace Sys2Proof.Machine

/-- R566: the event of an access to a reserved address. -/
def reservedEvent (addr : Nat) (who : By) : Ev := { cls := 0, unitType := 17, unit := 0, info0 := addr, hart := hartOf who }

section
variable (k : Chip) (addr : Nat) {who : By}

theorem Chip.reserved_hart (isRead : Bool) (h : who.source = 0) : k.reserved addr who isRead =
    (k.log (reservedEvent addr who)).instrTrap who.id (if isRead then 5 else 7) := if_pos (by simp [h])

theorem Chip.reserved_write (h : who.source ≠ 0) : k.reserved addr who false = k.log (reservedEvent addr who) :=
  (if_neg (by simpa using h)).trans (if_pos rfl)

theorem Chip.reserved_zero (h : 7 ≤ who.source ∧ who.source ≤ 9) :
    k.reserved addr who true = (k.log (reservedEvent addr who)).emit (.readData 0) :=
  (if_neg (by simp; omega)).trans ((if_neg (by decide)).trans (if_pos h))

theorem Chip.reserved_poison (hsome : 0 < who.source) (h : who.source < 7 ∨ 9 < who.source) : k.reserved addr who true =
    (k.log (reservedEvent addr who)).emit (.cohData "POISONED" 12 (addr / 64) [] true) :=
  (if_neg (by simp; omega)).trans ((if_neg (by decide)).trans (if_neg (by omega)))

end

/-- Settles O57: the requester decides the answer, and the event is the same for all. -/
theorem reservedAccesses : Obligations.ReservedAccesses := by
  intro s addr who harea
  have hexec : ∀ isRead, exec (.reservedAccess addr who isRead) s = .next (s.after (s.chip.reserved addr who isRead)) :=
    fun isRead => s.next_after (if_pos (by simp [harea]))
  refine ⟨reservedEvent addr who, fun hsource isRead => ?_, fun hsource => ?_, fun hlow hhigh => ?_, fun hsome hother => ?_⟩ <;>
    rw [hexec]
  · exact s.next_after (s.chip.reserved_hart addr isRead hsource)
  · exact s.next_after (s.chip.reserved_write addr hsource)
  · exact s.next_after (s.chip.reserved_zero addr ⟨hlow, hhigh⟩)
  · exact s.next_after (s.chip.reserved_poison addr hsome hother)

end Sys2Proof.Machine
end
